-- ==== Sys2Proof/Word.lean ====
section
/-!
DEFINITION. The word types of the model and the index types of 01 R15: how many of each resource the module has.
-/

namespace Sys2Proof

/-- One byte. -/
abbrev Byte := BitVec 8

/-- A 32-bit word: a scalar register or an accumulator element (04 R88). -/
abbrev Word32 := BitVec 32

/-- A 64-bit register value. -/
abbrev Word64 := BitVec 64

/-- An 8-bit status code (00 R10). -/
abbrev StatusCode := BitVec 8

/-- Half h, 0-1 (01 R15). -/
abbrev HalfId := Fin 2
/-- Chiplet site 0-11 (01 R15). -/
abbrev SiteId := Fin 12
/-- HBM stack 0-15 (01 R15). -/
abbrev StackId := Fin 16
/-- Pseudo-channel 0-511 (01 R15). -/
abbrev PchId := Fin 512
/-- Matrix cell, global id 0-191 (01 R15). -/
abbrev CellId := Fin 192
/-- Service cluster 0-15 (01 R15). -/
abbrev ClusterId := Fin 16
/-- Service core 0-127 (01 R15). -/
abbrev CoreId := Fin 128
/-- DMA engine 0-31 (01 R15). -/
abbrev EngineId := Fin 32
/-- DMA channel 0-1,023 (01 R15). -/
abbrev ChanId := Fin 1024
/-- Partition 0-15 (01 R15). -/
abbrev PartId := Fin 16
/-- Context within its partition 0-4,095 (01 R15). -/
abbrev CtxId := Fin 4096
/-- Ethernet receive or transmit queue 0-4,095 (06 R153). -/
abbrev EthQId := Fin 4096
/-- Ethernet port 0-15 (14 R361). -/
abbrev PortId := Fin 16
/-- Queue pair index within its partition 0-1,023 (14 R368). -/
abbrev QpId := Fin 1024
/-- Command queue of a partition 0-127 (12 R321). -/
abbrev QueueId := Fin 128
/-- Fence of a partition 0-4,095 (12 R326). -/
abbrev FenceId := Fin 4096

end Sys2Proof
end

