-- ==== Sys2Proof/Syntax.lean ====
section
/-!
DEFINITION. The commands of the block, one constructor for each row of spec/opcode_table.json, with the operands the spec's
rules give that row. The table gives no bits (spec/98_reader.md), so the operands are typed data, not fields of a word.
-/

namespace Sys2Proof

/-- By which path a register access reaches its block (01 R19, R26-R28; 02 R38, R53; log entry 4). -/
inductive Path where
  /-- The operator, through the PF0 BAR0 window (01 R26). -/
  | pf0
  /-- The operator, over MCTP, addressing HPA (01 R19). -/
  | mctp
  /-- The firmware of a half, addressing HPA over its half's management path (01 R25, R27). -/
  | firmware (h : HalfId)
  /-- A driver, through VF n's BAR0 (12 R313). -/
  | vf (n : PartId)
  /-- A service core of Pn, through the partition alias in its control page (06 R142). -/
  | partAlias (n : PartId)
  deriving DecidableEq, Repr

/-- Where a message is judged (03 R82). -/
inductive Ingress where
  /-- The site's ingress on the hub. -/
  | site (k : SiteId)
  /-- The cluster port. -/
  | cluster (c : ClusterId)
  /-- The Renyr mesh filter of the site, for messages that stay on the chiplet. -/
  | mesh (k : SiteId)
  deriving DecidableEq, Repr

/-- What is presented at an ingress (03 R82, R469). -/
inductive Presented where
  /-- The k-th message waiting at an egress: one that SND or FJ.SND released. -/
  | queued (k : Nat)
  /-- A message presented whole: 128-bit header and 64 payload bytes (03 R75). -/
  | message (at_ : Ingress) (header : BitVec 128) (payload : List Byte)
  /-- A grant of n tallies on a mailbox of cell address src to the sender address dest (03 R469). -/
  | grant (at_ : Ingress) (src dest : Fin 1024) (mailbox : Fin 16) (n : Fin 64) (urgent : Bool)
  /-- A return of n tallies held by src for mailbox of dest (03 R469). -/
  | ret (at_ : Ingress) (src dest : Fin 1024) (mailbox : Fin 16) (n : Fin 64)
  deriving DecidableEq, Repr

/-- The kinds of core memory access (06 R143; 17 R451). -/
inductive CoreAccess where
  /-- A load of len bytes. -/
  | load (len : Nat)
  /-- A store of bytes. -/
  | store (data : List Byte)
  /-- An AMO: it replaces the bytes it read with data. -/
  | amo (data : List Byte)
  /-- An instruction fetch of len bytes. -/
  | fetch (len : Nat)
  deriving DecidableEq, Repr

/-- A rail of a half, by its number in PWR_RAIL_STATUS (16 R426, R436). -/
structure RailAt where
  half : HalfId
  rail : Nat
  deriving DecidableEq, Repr

/-- Snoops and requests carry an allocation hint (09 R221). -/
inductive Hint where
  | alloc | evictFirst | noAlloc
  deriving DecidableEq, Repr

/-- MOESI states of a caching agent (09 R224). -/
inductive Moesi where
  | m | o | e | s | i
  deriving DecidableEq, Repr

/-- A register of the Xfjm CSR group (06 R148). -/
inductive Csr where
  | fjctx | fjtwait | fjevt | fjevtie | fjctl | fjerr
  deriving DecidableEq, Repr

/-- Which DMA burst half an error answers (11 R285). -/
inductive BurstSide where
  | read | write
  deriving DecidableEq, Repr

/-- The two feeds (16 R422). -/
inductive Feed where
  | a | b
  deriving DecidableEq, Repr

/-- The structures a RAS record names (17 R443), codes 0x01-0x0D. -/
inductive RasStruct where
  | hbmRow | slcSet | fabricLink | scratchBank | clusterCache | siteLink | stack | agent | dmaEngine | pcie | ethPort | ringPort | half
  deriving DecidableEq, Repr

/-- Error classes (17 R441), codes 1-5. -/
inductive ErrClass where
  | corrected | contained | context | partition | module
  deriving DecidableEq, Repr

/-- Test-access instructions (13 R356; 15 R404): IDCODE, BYPASS, or any other. -/
inductive TapInstr where
  | idcode | bypass | other
  deriving DecidableEq, Repr

/-- A die of the test-access chain (13 R355). -/
inductive TapDie where
  | half (h : HalfId)
  | site (k : SiteId)
  | clusterDebug (c : ClusterId)
  deriving DecidableEq, Repr

/-- A foreign chiplet's memory request (13 R346). -/
inductive ForeignReq where
  /-- Streaming: cell position, window, offset; a read of len bytes. -/
  | streamRead (pos window : Fin 16) (off len : Nat)
  /-- Streaming write. -/
  | streamWrite (pos window : Fin 16) (off : Nat) (data : List Byte) (dross : Bool)
  /-- CXL.cache, carrying a PPA: shared (false) or unique (true). -/
  | cxl (ppa : Nat) (unique : Bool) (hint : Hint)
  deriving DecidableEq, Repr

/-- What a RoCEv2 sender or a datagram frame presents to the classifier (14 R364, R367). -/
structure Frame where
  /-- Destination MAC address. -/
  dmac : Nat
  /-- Broadcast or multicast destination. -/
  group : Bool
  /-- 802.1Q priority. -/
  prio : Fin 8
  /-- The bytes the Toeplitz hash is taken over (IP addresses and ports). -/
  flow : List Byte
  /-- Destination QP number if the frame is a RoCEv2 packet. -/
  qpn : Option Nat
  /-- The frame's bytes. -/
  bytes : List Byte
  deriving DecidableEq, Repr

/-- Fields of MMA (04 R103). -/
structure MmaF where
  dt : Fin 4
  z : Bool
  fa : BitVec 4
  fb : BitVec 4
  sa : BitVec 2
  sb : BitVec 2
  esc : Bool
  ms : Fin 4
  ns : Fin 4
  kb : Fin 32
  ra : Fin 32
  rb : Fin 32
  rs : Fin 32
  rt : Fin 32
  rx : Fin 32
  deriving DecidableEq, Repr

/-- Fields of QNT; QNTS adds rc (04 R103). -/
structure QntF where
  ts : Fin 4
  fmt : BitVec 4
  sm : BitVec 2
  axis : Bool
  rnd : BitVec 2
  ra : Fin 32
  rb : Fin 32
  deriving DecidableEq, Repr

/-- Fields of SND (04 R103). -/
structure SndF where
  ra : Fin 32
  rb : Fin 32
  mailbox : Fin 16
  length : Fin 128
  release : Bool
  rc : Fin 32
  deriving DecidableEq, Repr

/-- Fields of MOVR and MOVW (04 R103). -/
structure MovF where
  win : Fin 16
  ra : Fin 32
  rb : Fin 32
  rc : Fin 32
  qid : Fin 4
  deriving DecidableEq, Repr

/-- The commands, in the order of spec/opcode_table.json. -/
inductive Instr where
  -- 02 partitions and patterns
  | registerWrite (p : Path) (addr len value : Nat)
  | patApply (p : Path) (value : BitVec 32)
  | buildDrainDone (n : PartId)
  | zeroFillComplete (n : PartId)
  | buildFlushDone (n : PartId)
  | partitionBuilt (n : PartId)
  | patternStoreWritten
  | patCommit (p : Path) (value : BitVec 32)
  | commitComplete (scope : Fin 17)
  -- 03 the cell grid
  | messageIngress (m : Presented)
  | messageArrival (k cycles : Nat)
  | grantArrival (k : Nat)
  | tallyReturnArrival (k : Nat)
  | tallyWaitTimeout (cell : CellId)
  -- 04 matrix cells: one tile instruction issues on a cell
  | nop (cell : CellId)
  | mma (cell : CellId) (f : MmaF)
  | zac (cell : CellId) (td : Fin 4) (int32 : Bool)
  | lda (cell : CellId) (td : Fin 4) (f : Fin 4) (ra : Fin 32)
  | sta (cell : CellId) (ts : Fin 4) (f : Fin 4) (ra : Fin 32)
  | qnt (cell : CellId) (f : QntF)
  | qnts (cell : CellId) (f : QntF) (rc : Fin 32)
  | eadd (cell : CellId) (td ts : Fin 4)
  | emul (cell : CellId) (td ts : Fin 4)
  | emax (cell : CellId) (td ts : Fin 4)
  | ecpy (cell : CellId) (td ts : Fin 4)
  | escl (cell : CellId) (td : Fin 4) (ra : Fin 32) (axis : Bool)
  | ebias (cell : CellId) (td : Fin 4) (ra : Fin 32) (axis : Bool)
  | eact (cell : CellId) (td : Fin 4) (ra : Fin 32)
  | erow (cell : CellId) (ts : Fin 4) (ra : Fin 32) (axis : Bool) (fn : BitVec 2)
  | ecvt (cell : CellId) (td : Fin 4) (ra : Fin 32) (axis : Bool) (dir : Bool)
  | snd (cell : CellId) (f : SndF)
  | rcv (cell : CellId) (ra : Fin 32) (mailbox : Fin 16) (nb : Bool) (rd : Fin 32)
  | grant (cell : CellId) (rb : Fin 32) (mailbox : Fin 16) (n : Fin 64)
  | rtn (cell : CellId) (rb : Fin 32) (mailbox : Fin 16) (n : Fin 64)
  | mbcfg (cell : CellId) (rb : Fin 32) (mailbox : Fin 16) (standing urgent : Bool)
  | movr (cell : CellId) (f : MovF)
  | movw (cell : CellId) (f : MovF)
  | movr2 (cell : CellId) (f : MovF) (rd re : Fin 32)
  | movw2 (cell : CellId) (f : MovF) (rd re : Fin 32)
  | moverAccessReturn (cell : CellId) (k : Nat) (err : Option StatusCode)
  | mwait (cell : CellId) (qid : Fin 4) (n : Fin 64) (ra : Fin 32)
  | wait (cell : CellId) (rb : Fin 32) (mailbox : Fin 16) (n : Fin 64)
  | bar (cell : CellId) (mask : BitVec 16) (bid : Fin 16)
  | fence (cell : CellId)
  | yld (cell : CellId) (lrt : BitVec 16)
  | cellSaveDone (cell : CellId)
  | cellRestoreDone (cell : CellId)
  | li (cell : CellId) (rd : Fin 32) (imm : Word32)
  | addi (cell : CellId) (rd ra : Fin 32) (imm : Word32)
  | andi (cell : CellId) (rd ra : Fin 32) (imm : Word32)
  | add (cell : CellId) (rd ra rb : Fin 32)
  | sub (cell : CellId) (rd ra rb : Fin 32)
  | mul (cell : CellId) (rd ra rb : Fin 32)
  | shli (cell : CellId) (rd ra : Fin 32) (sh : Fin 32)
  | shri (cell : CellId) (rd ra : Fin 32) (sh : Fin 32)
  | loop (cell : CellId) (ra : Fin 32) (end_ : BitVec 16)
  | br (cell : CellId) (off : Word32)
  | brc (cell : CellId) (ra rb : Fin 32) (cond : BitVec 3) (off : Word32)
  | halt (cell : CellId) (status : StatusCode)
  | reservedOpcode (cell : CellId) (word : Word64)
  -- 06 service cores
  | fjSnd (core : CoreId) (addr desc : Word64)
  | fjSndnb (core : CoreId) (addr desc : Word64)
  | fjRcv (core : CoreId) (addr rs2 : Word64)
  | fjRcvnb (core : CoreId) (addr rs2 : Word64)
  | fjGrant (core : CoreId) (rs1 rs2 : Word64)
  | fjRtn (core : CoreId) (rs1 rs2 : Word64)
  | fjMbcfg (core : CoreId) (rs1 rs2 : Word64)
  | fjWait (core : CoreId) (rs1 rs2 : Word64)
  | fjTask (core : CoreId) (addr : Word64)
  | fjEvwait (core : CoreId) (rs1 : Word64)
  | fjWaitTimeout (core : CoreId)
  | illegalInstruction (core : CoreId) (word : BitVec 32)
  | coreInterrupt (core : CoreId)
  | coreMemoryAccess (core : CoreId) (addr : Nat) (a : CoreAccess)
  | fjevtClear (core : CoreId) (mask : Word64)
  | allocJoin (core : CoreId) (rs1 rs2 : Word64)
  | allocGrowth (core : CoreId) (rs1 rs2 : Word64)
  | free (core : CoreId) (rs1 rs2 : Word64)
  | stepBegin (core : CoreId) (rs1 rs2 : Word64)
  | stepEnd (core : CoreId) (rs1 rs2 : Word64)
  | reserveSet (core : CoreId) (rs1 rs2 : Word64)
  | codeLoad (p : Path) (n : PartId) (value : Word64)
  | codeStop (p : Path) (n : PartId) (value : Word64)
  | clustersStopped (n : PartId)
  | codeImageChecked (n : PartId)
  | frameReceived (port : PortId) (f : Frame)
  | rxqEventTimer (q : EthQId)
  | rxqEnable (p : Path) (q : EthQId) (value : Word64)
  | rxqDisable (p : Path) (q : EthQId) (value : Word64)
  | rxqPost (p : Path) (q : EthQId) (cqhead : Bool) (value : BitVec 32)
  -- 07 scheduling
  | gangStart (site : SiteId) (n : PartId)
  | sliceEnd (site : SiteId) (n : PartId)
  | contextResident (site : SiteId) (n : PartId) (overrun : Nat)
  | stretchTimeout (cell : CellId)
  | saveRestoreFailure (cell : CellId) (status : StatusCode)
  | runlistWrite (p : Path) (n : PartId) (value : Word64)
  | schResume (p : Path) (n : PartId) (value : Word64)
  | schLose (p : Path) (n : PartId) (value : Word64)
  | schReset (p : Path) (n : PartId) (value : Word64)
  | contextAbortDone (n : PartId) (c : CtxId)
  -- 08 fabric
  | regulatorWindowStart (h : HalfId) (i : Fin 64) (n : PartId) (stack : Bool)
  | requestTimeout (id : Nat)
  | unexpectedResponse (h : HalfId)
  | linkRetry (h : HalfId) (router : Fin 64) (port : Fin 7) (repair : Bool)
  | laneRepairDone (h : HalfId) (router : Fin 64) (port : Fin 7) (ok : Bool)
  | sinkTimeout (site : SiteId)
  -- 09 coherence: line is the line address HPA[43:6]
  | rds (h : HalfId) (agent : Fin 15) (line : Nat) (hint : Hint) (tally : Bool)
  | rdu (h : HalfId) (agent : Fin 15) (line : Nat) (hint : Hint) (tally : Bool)
  | upgrade (h : HalfId) (agent : Fin 15) (line : Nat) (tally : Bool)
  | writeBack (h : HalfId) (agent : Fin 15) (line : Nat)
  | evictionNotice (h : HalfId) (agent : Fin 15) (line : Nat)
  | homeRead (h : HalfId) (master : Fin 64) (line : Nat) (hint : Hint) (tally : Bool)
  | homeFullWrite (h : HalfId) (master : Fin 64) (line : Nat) (data : List Byte) (dross : Bool) (hint : Hint) (tally : Bool)
  | homePartialWrite (h : HalfId) (master : Fin 64) (line : Nat) (mask : BitVec 64) (data : List Byte) (hint : Hint) (tally : Bool)
  | snpShared (h : HalfId) (agent : Fin 15) (line : Nat)
  | snpUnique (h : HalfId) (agent : Fin 15) (line : Nat)
  | snpInv (h : HalfId) (agent : Fin 15) (line : Nat)
  | snpCur (h : HalfId) (agent : Fin 15) (line : Nat)
  | snoopAnswer (h : HalfId) (agent : Fin 15) (line : Nat)
  | writeBackGrant (h : HalfId) (agent : Fin 15) (line : Nat)
  | stale (h : HalfId) (agent : Fin 15) (line : Nat)
  | retry (h : HalfId) (agent : Fin 79) (line : Nat)
  | retryGrant (h : HalfId) (agent : Fin 79) (line : Nat)
  | completionAck (h : HalfId) (agent : Fin 15) (line : Nat)
  | snoopTimeout (h : HalfId) (agent : Fin 15) (line : Nat)
  | reclaimWalkDone (h : HalfId)
  -- 10 HBM: line is the line address HPA[43:6]
  | hmcRead (line : Nat)
  | hmcFullWrite (line : Nat) (data : List Byte) (dross : Bool)
  | hmcPartialWrite (line : Nat) (mask : BitVec 64) (data : List Byte)
  | regionZeroed (pch : PchId) (region : Nat)
  | zeroFillPassStep (pch : PchId)
  | wcbAgeTimeout (pch : PchId)
  | stackTempSample (stack : StackId) (temp : Nat)
  | stackOnline (p : Path) (stack : StackId) (value : BitVec 32) (cool : Bool)
  | stackOnlineDone (stack : StackId)
  | rotate (p : Path) (n : PartId) (value : Word64)
  | keySweepStep (n : PartId) (pch : PchId)
  -- 11 DMA and translation
  | dmaChEnable (p : Path) (ch : ChanId) (value : Word64)
  | dmaChDisable (p : Path) (ch : ChanId) (value : Word64)
  | dmaChPause (p : Path) (ch : ChanId) (value : Word64)
  | dmaChUnpause (p : Path) (ch : ChanId) (value : Word64)
  | dmaPauseDrained (ch : ChanId)
  | dmaDoorbell (p : Path) (ch : ChanId) (value : BitVec 32)
  | descriptorFetch (ch : ChanId) (host : List Byte)
  | burstAck (ch : ChanId) (k latency : Nat)
  | burstError (ch : ChanId) (k : Nat) (side : BurstSide) (status : StatusCode)
  | dmaResume (p : Path) (ch : ChanId) (value : Word64)
  | dmaAbort (p : Path) (ch : ChanId) (value : Word64)
  | dmaAbortDone (ch : ChanId)
  | dmaSave (p : Path) (ch : ChanId) (value : Word64)
  | walkDone (ch : ChanId)
  | faultTaken (ch : ChanId)
  | fqHeadWrite (p : Path) (n : PartId) (value : BitVec 32)
  | xltFaultResolve (p : Path) (n : PartId) (value : Word64)
  | pageReady (e : EngineId) (id : Fin 1024)
  | faultRecordTimeout (id : Fin 1024)
  | xltInvCmd (p : Path) (n : PartId) (value : Word64)
  | invEngineAck (n : PartId) (e : EngineId)
  -- 12 host interface and contexts
  | bar2Read (n : PartId) (off len : Nat) (tbit : Bool)
  | bar2Write (n : PartId) (off : Nat) (data : List Byte) (tbit : Bool)
  | hostCompletion (tag lower count : Nat) (data : List Byte) (bad : Bool)
  | completionTimeout (tag : Nat)
  | tagQuarantineEnd (tag : Nat)
  | pcieLinkDown
  | pcieLinkUp (rate : Fin 16) (width : Fin 64) (flit : Bool)
  | vfFlr (n : PartId)
  | pf0Flr
  | tdiConfigViolation (n : PartId)
  | stopInterface (n : PartId)
  | vfApertureWrite (p : Path) (n : PartId) (value : Word64)
  | msixUnmask (fn : Fin 17) (vec : Nat)
  | queueEnable (p : Path) (n : PartId) (q : QueueId) (value : Word64)
  | queueDisable (p : Path) (n : PartId) (q : QueueId) (value : Word64)
  | queueDoorbell (p : Path) (n : PartId) (q : QueueId) (value : BitVec 32)
  | queueNop (n : PartId) (q : QueueId) (host : List Byte)
  | queueTask (n : PartId) (q : QueueId) (host : List Byte)
  | queueWait (n : PartId) (q : QueueId) (host : List Byte)
  | queueSignal (n : PartId) (q : QueueId) (host : List Byte)
  | fenceSignal (p : Path) (n : PartId) (f : FenceId) (value : Word64)
  | fenceReset (p : Path) (n : PartId) (f : FenceId) (value : Word64)
  -- 13 chiplet sites
  | ospCap (site : SiteId) (idx : Fin 4) (word : Word64)
  | ospCapAck (site : SiteId) (idx : Fin 4)
  | ospCheck (site : SiteId) (word : Word64)
  | ospReset (site : SiteId) (mask : BitVec 4) (core : Bool)
  | ospIdentity (site : SiteId) (chunk : Fin 6) (data : Word64)
  | ospError (site : SiteId) (fatal : Bool) (code : BitVec 16)
  | ospUnknownCode (site : SiteId) (code : Byte)
  | siteReset (p : Path) (site : SiteId) (value : Word64)
  | siteProtocolReady (site : SiteId)
  | siteMainbandTrained (site : SiteId) (widths : List (Fin 3)) (agree : Bool)
  | siteRetrain (p : Path) (site : SiteId) (value : Word64)
  | siteOff (p : Path) (site : SiteId) (value : Word64)
  | moduleRetrainDone (site : SiteId) (u : Fin 4) (width : Fin 3)
  | retrainTimeout (site : SiteId) (u : Fin 4)
  | routeModuleTimeout (site : SiteId) (u : Fin 4)
  -- 14 network
  | portNativeTimeout (port : PortId)
  | portUp (port : PortId)
  | portLaneDown (port : PortId)
  | pauseFrameRx (port : PortId) (prio : Fin 8) (on : Bool)
  | roceSendRx (n : PartId) (k : QpId) (psn : Nat) (data : List Byte) (imm : Option (BitVec 32)) (ce : Bool)
  | roceRdmaWriteRx (n : PartId) (k : QpId) (psn : Nat) (rkey : BitVec 32) (addr : Nat) (data : List Byte) (imm : Option (BitVec 32)) (ce : Bool)
  | roceRdmaReadRx (n : PartId) (k : QpId) (psn : Nat) (rkey : BitVec 32) (addr len : Nat) (ce : Bool)
  | roceReadResponseRx (n : PartId) (k : QpId) (psn : Nat) (data : List Byte)
  | roceAckRx (n : PartId) (k : QpId) (psn : Nat)
  | roceNakRx (n : PartId) (k : QpId) (psn : Nat)
  | cnpRx (n : PartId) (k : QpId)
  | cnpRateIncrease (n : PartId) (k : QpId)
  | roceRetryTimeout (n : PartId) (k : QpId)
  | txqEnable (p : Path) (q : EthQId) (value : Word64)
  | txqDisable (p : Path) (q : EthQId) (value : Word64)
  | txqDoorbell (p : Path) (q : EthQId) (cqhead : Bool) (value : BitVec 32)
  | txRawFrame (q : EthQId)
  | txSend (q : EthQId)
  | txSendImm (q : EthQId)
  | txWrite (q : EthQId)
  | txWriteImm (q : EthQId)
  | txRead (q : EthQId)
  | qpLoad (p : Path) (n : PartId) (value : Word64)
  | qpError (p : Path) (n : PartId) (value : Word64)
  -- 14 ring and twins
  | ringFrameRx (h : HalfId) (cls : Fin 4) (seq : Nat) (dest : Fin 64) (crcOk : Bool) (payload : List Byte)
  | ringNakRx (h : HalfId) (seq : Nat)
  | ringAckTimeout (h : HalfId)
  | ringLaneFail (h : HalfId) (lane : Fin 8)
  | ringLinkUp (h : HalfId) (lanes : BitVec 8)
  | beaconTimer
  | beaconRx (h : HalfId) (pos : Fin 64)
  | positionAbsent (pos : Fin 64)
  | aditThrough (p : Path) (value : BitVec 32)
  | aditOpen (p : Path) (value : BitVec 32) (loopback : Bool)
  | aditSwitchDone
  | groupActivate (p : Path) (n : PartId) (value : Word64)
  | groupKeyed (n : PartId) (g : Fin 16) (ok : Bool)
  | groupRetire (p : Path) (n : PartId) (value : Word64)
  | collectivePost (p : Path) (n : PartId) (value : BitVec 32)
  | collectiveFrame (n : PartId) (g : Fin 16) (aft : Bool) (seq step : Nat) (data scales : List Byte) (dross : Bool) (us : Nat)
  | collectiveWatchdog (n : PartId) (g : Fin 16) (us : Nat)
  | abortToken (n : PartId) (g : Fin 16) (seq : Nat) (origin : Fin 64) (aft : Bool) (us : Nat)
  | twinStart (p : Path) (n : PartId) (value : Word64) (twinOk : Bool)
  | twinCheckpoint (p : Path) (n : PartId) (value : Word64)
  | twinStop (p : Path) (n : PartId) (value : Word64)
  | checkpointBoundary (n : PartId)
  | checkpointComplete (n : PartId)
  | twinStreamRx (n : PartId) (region : Nat) (data : List Byte) (drossLines : List Nat) (last : Bool) (number logIdx : Nat)
  | twinLogAppend (p : Path) (n : PartId) (value : BitVec 32)
  | twinLogRx (n : PartId) (ppa : Nat) (data : List Byte) (idx : Nat)
  | twinLogAckRx (n : PartId) (idx : Nat)
  | downToken (n : PartId) (auth : Bool)
  | ringDarkFence
  | takeoverDone (n : PartId)
  | pairKeyExchange (ok : Bool)
  -- 15 security
  | lcsTransition (p : Path) (token : Byte) (len : Nat)
  | lcsWipeDone
  | provisionOpkey (p : Path) (token : Byte) (len : Nat)
  | revokeOpkey (p : Path) (token : Byte) (len : Nat)
  | bindTwin (p : Path) (token : Byte) (len : Nat)
  | unbindTwin (p : Path) (token : Byte) (len : Nat)
  | integrationRecord (p : Path) (token : Byte) (len : Nat)
  | raiseAlarmFloor (p : Path) (token : Byte) (len : Nat)
  | setConfOnly (p : Path) (token : Byte) (len : Nat)
  | commitFwSvn (p : Path) (token : Byte) (len : Nat)
  | restoreOpkey (p : Path) (token : Byte) (len : Nat)
  | keyWaitTimeout
  | fwTransferEnd (version : BitVec 32) (svn : Fin 129) (signed : Bool) (manifest : BitVec 384)
  | fwActivate (p : Path) (value : BitVec 32)
  | fwDiscard (p : Path) (value : BitVec 32)
  | fwActivated
  | fwActivateTimeout
  | confSet (p : Path) (n : PartId)
  | debugAuth (p : Path) (n : PartId) (auth : Bool)
  | debugGrant (p : Path) (value : BitVec 32)
  | testAccessInstruction (die : TapDie) (instr : TapInstr)
  | hallmarkRequest (p : Path) (n : PartId) (value : Word64)
  | hallmarkDone (n : PartId) (len : Nat)
  | spdmDiscovery (fn : Fin 17)
  | getDigests (fn : Fin 17)
  | getCertificate (fn : Fin 17)
  | challenge (fn : Fin 17) (nonce : BitVec 256)
  | getMeasurements (fn : Fin 17) (nonce : BitVec 256)
  | keyExchange (fn : Fin 17)
  | finish (fn : Fin 17) (ok : Bool)
  | endSession (fn : Fin 17)
  | keyProg (fn : Fin 17)
  | railCanary (rail : RailAt)
  | clockCanary
  | tempCanary
  | tamper
  | glitch
  | rngHealth
  | noteSummary (source : Nat) (scope : Nat)
  | tenantRaise (p : Path) (n : PartId) (value : Word64)
  | logRead (p : Path) (value : Word64)
  | logAck (p : Path) (value : Word64)
  -- 16 power, clocks and start
  | feedGood (f : Feed) (decivolts : Fin 1024)
  | feedLeavesGood (f : Feed) (decivolts : Fin 1024)
  | feedOver (f : Feed) (decivolts : Fin 1024)
  | pwrFail
  | brownOut
  | powerLimitTick (watts : Nat)
  | dieTempSample (h : HalfId) (temp : Int) (lasted1ms : Bool)
  | pwrCapWrite (p : Path) (value : BitVec 32)
  | pithead
  | stage1 (ok : Bool) (level0 level1 : BitVec 16)
  | stage2
  | stage3
  | fullFunction
  | stageBoundMissed (stage : Fin 4)
  | resetPin
  | moduleReset (p : Path) (value : Word64)
  | partitionReset (p : Path) (value : Word64)
  | halfFailure (h : HalfId)
  -- 17 errors and the assay
  | eccError (h : HalfId) (cls : ErrClass) (str : RasStruct) (index : BitVec 32) (addr : Nat) (scope : Nat) (status : StatusCode)
  | correctedSummary (h : HalfId) (str : RasStruct)
  | assayTestStart (h : HalfId)
  | assayTestDone (h : HalfId) (str : RasStruct) (index : BitVec 32) (lasting : Bool)
  -- rows added after the first list
  | burstReadReturn (ch : ChanId) (k : Nat)
  | abortBoundStop (n : PartId) (c : CtxId)
  | foreignMemoryRequest (site : SiteId) (r : ForeignReq)
  | ucieLinkRecovery (site : SiteId) (u : Fin 4)
  | vsiteRailFault (site : SiteId)
  | frameLeavesPort (port : PortId) (k : Nat)
  | lockInterface (n : PartId)
  | startInterface (n : PartId)
  | entropyHealthChange (healthy : Bool)
  | alarmOutPulseEnd
  | resetRelease
  | perstRelease
  | xfjmCsrWrite (core : CoreId) (csr : Csr) (value : Word64)
  deriving DecidableEq, Repr

end Sys2Proof
end

