-- ==== Sys2Proof/Decode.lean ====
section
/-!
DEFINITION. The decoder over the rows of the opcode table that give bits. No row gives any (the table lists events and register
writes of a block), so no word spells a command. And the tile instruction that a 64-bit word of an instruction store holds (04 R102,
R103), by which RESERVED_OPCODE knows a word that is none.
-/

namespace Sys2Proof

/-- The command that a word spells by the table's bits: none, since no row of the table gives bits. -/
def decodeTableWord (_nbits _w : Nat) : Option Instr := none

/-- Bits hi:lo of a tile instruction word. -/
def tileBits (w hi lo : Nat) : Nat := w / 2 ^ lo % 2 ^ (hi + 1 - lo)

/-- The fields that 04 R103 gives an opcode; none is an opcode not in its table. -/
def tileFields (op : Nat) : Option (List (Nat × Nat)) :=
  match op with
  | 0x00 => some []
  | 0x01 => some [(55, 54), (53, 53), (52, 49), (48, 45), (44, 43), (42, 41), (40, 40), (39, 38), (37, 36), (35, 31), (30, 26), (25, 21), (20, 16)
                 , (15, 11), (10, 6)]
  | 0x08 => some [(55, 54), (53, 53)]
  | 0x09 => some [(55, 54), (53, 52), (51, 47)]
  | 0x0A => some [(55, 54), (53, 52), (51, 47)]
  | 0x10 => some [(55, 54), (53, 50), (49, 48), (47, 47), (46, 45), (44, 40), (39, 35)]
  | 0x11 => some [(55, 54), (53, 50), (49, 48), (47, 47), (46, 45), (44, 40), (39, 35), (34, 30)]
  | 0x18 => some [(55, 54), (53, 52)]
  | 0x19 => some [(55, 54), (53, 52)]
  | 0x1A => some [(55, 54), (53, 52)]
  | 0x1B => some [(55, 54), (53, 52)]
  | 0x1C => some [(55, 54), (51, 47), (46, 46)]
  | 0x1D => some [(55, 54), (51, 47), (46, 46)]
  | 0x1E => some [(55, 54), (51, 47)]
  | 0x1F => some [(55, 54), (51, 47), (46, 46), (45, 44)]
  | 0x20 => some [(55, 54), (51, 47), (46, 46), (45, 45)]
  | 0x28 => some [(55, 51), (50, 46), (45, 42), (41, 35), (34, 34), (33, 29)]
  | 0x29 => some [(55, 51), (45, 42), (41, 41), (40, 36)]
  | 0x2A => some [(50, 46), (45, 42), (41, 36)]
  | 0x2B => some [(50, 46), (45, 42), (41, 36)]
  | 0x2C => some [(50, 46), (45, 42), (41, 41), (40, 40)]
  | 0x30 => some [(55, 52), (51, 47), (46, 42), (41, 37), (36, 35)]
  | 0x31 => some [(55, 52), (51, 47), (46, 42), (41, 37), (36, 35)]
  | 0x32 => some [(55, 52), (51, 47), (46, 42), (41, 37), (36, 35), (34, 30), (29, 25)]
  | 0x33 => some [(55, 52), (51, 47), (46, 42), (41, 37), (36, 35), (34, 30), (29, 25)]
  | 0x34 => some [(55, 54), (53, 48), (47, 43)]
  | 0x38 => some [(50, 46), (45, 42), (41, 36)]
  | 0x39 => some [(55, 40), (39, 36)]
  | 0x3A => some []
  | 0x3C => some [(55, 40)]
  | 0x40 => some [(55, 51), (31, 0)]
  | 0x41 => some [(55, 51), (50, 46), (31, 0)]
  | 0x42 => some [(55, 51), (50, 46), (31, 0)]
  | 0x43 => some [(55, 51), (50, 46), (45, 41)]
  | 0x44 => some [(55, 51), (50, 46), (45, 41)]
  | 0x45 => some [(55, 51), (50, 46), (45, 41)]
  | 0x46 => some [(55, 51), (50, 46), (4, 0)]
  | 0x47 => some [(55, 51), (50, 46), (4, 0)]
  | 0x48 => some [(55, 51), (15, 0)]
  | 0x49 => some [(31, 0)]
  | 0x4A => some [(55, 51), (50, 46), (45, 43), (31, 0)]
  | 0x4F => some [(7, 0)]
  | _ => none

/-- Every bit below the opcode that no field holds is 0 (04 R102). -/
def tileReservedOk (w : Nat) (fields : List (Nat × Nat)) : Bool :=
  w % 2 ^ 56 == fields.foldl (fun v f => v + tileBits w f.1 f.2 * 2 ^ f.2) 0

/-- The fields of MMA in a word (04 R103). -/
def tileMma (w : Nat) : MmaF :=
  { dt := Fin.ofNat 4 (tileBits w 55 54), z := w.testBit 53, fa := BitVec.ofNat 4 (tileBits w 52 49), fb := BitVec.ofNat 4 (tileBits w 48 45)
    sa := BitVec.ofNat 2 (tileBits w 44 43), sb := BitVec.ofNat 2 (tileBits w 42 41), esc := w.testBit 40, ms := Fin.ofNat 4 (tileBits w 39 38)
    ns := Fin.ofNat 4 (tileBits w 37 36), kb := Fin.ofNat 32 (tileBits w 35 31), ra := Fin.ofNat 32 (tileBits w 30 26)
    rb := Fin.ofNat 32 (tileBits w 25 21), rs := Fin.ofNat 32 (tileBits w 20 16), rt := Fin.ofNat 32 (tileBits w 15 11)
    rx := Fin.ofNat 32 (tileBits w 10 6) }
/-- The fields of QNT and QNTS. -/
def tileQnt (w : Nat) : QntF :=
  { ts := Fin.ofNat 4 (tileBits w 55 54), fmt := BitVec.ofNat 4 (tileBits w 53 50), sm := BitVec.ofNat 2 (tileBits w 49 48), axis := w.testBit 47
    rnd := BitVec.ofNat 2 (tileBits w 46 45), ra := Fin.ofNat 32 (tileBits w 44 40), rb := Fin.ofNat 32 (tileBits w 39 35) }
/-- The fields of SND. -/
def tileSnd (w : Nat) : SndF :=
  { ra := Fin.ofNat 32 (tileBits w 55 51), rb := Fin.ofNat 32 (tileBits w 50 46), mailbox := Fin.ofNat 16 (tileBits w 45 42)
    length := Fin.ofNat 128 (tileBits w 41 35), release := w.testBit 34, rc := Fin.ofNat 32 (tileBits w 33 29) }
/-- The fields that the mover instructions share. -/
def tileMov (w : Nat) : MovF :=
  { win := Fin.ofNat 16 (tileBits w 55 52), ra := Fin.ofNat 32 (tileBits w 51 47), rb := Fin.ofNat 32 (tileBits w 46 42)
    rc := Fin.ofNat 32 (tileBits w 41 37), qid := Fin.ofNat 4 (tileBits w 36 35) }

/-- The instruction that an opcode and the fields of a word make on a cell (04 R103). -/
def tileOp (c : CellId) (w : Nat) : Option Instr :=
  let r := fun (lo : Nat) => Fin.ofNat 32 (tileBits w (lo + 4) lo)
  let t := fun (lo : Nat) => Fin.ofNat 4 (tileBits w (lo + 1) lo)
  let n := fun (lo : Nat) => Fin.ofNat 64 (tileBits w (lo + 5) lo)
  let b := Fin.ofNat 16 (tileBits w 45 42)
  let imm := BitVec.ofNat 32 (tileBits w 31 0)
  match tileBits w 63 56 with
  | 0x00 => some (.nop c)
  | 0x01 => some (.mma c (tileMma w))
  | 0x08 => some (.zac c (t 54) (w.testBit 53))
  | 0x09 => some (.lda c (t 54) (t 52) (r 47))
  | 0x0A => some (.sta c (t 54) (t 52) (r 47))
  | 0x10 => some (.qnt c (tileQnt w))
  | 0x11 => some (.qnts c (tileQnt w) (r 30))
  | 0x18 => some (.eadd c (t 54) (t 52))
  | 0x19 => some (.emul c (t 54) (t 52))
  | 0x1A => some (.emax c (t 54) (t 52))
  | 0x1B => some (.ecpy c (t 54) (t 52))
  | 0x1C => some (.escl c (t 54) (r 47) (w.testBit 46))
  | 0x1D => some (.ebias c (t 54) (r 47) (w.testBit 46))
  | 0x1E => some (.eact c (t 54) (r 47))
  | 0x1F => some (.erow c (t 54) (r 47) (w.testBit 46) (BitVec.ofNat 2 (tileBits w 45 44)))
  | 0x20 => some (.ecvt c (t 54) (r 47) (w.testBit 46) (w.testBit 45))
  | 0x28 => some (.snd c (tileSnd w))
  | 0x29 => some (.rcv c (r 51) b (w.testBit 41) (r 36))
  | 0x2A => some (.grant c (r 46) b (n 36))
  | 0x2B => some (.rtn c (r 46) b (n 36))
  | 0x2C => some (.mbcfg c (r 46) b (w.testBit 41) (w.testBit 40))
  | 0x30 => some (.movr c (tileMov w))
  | 0x31 => some (.movw c (tileMov w))
  | 0x32 => some (.movr2 c (tileMov w) (r 30) (r 25))
  | 0x33 => some (.movw2 c (tileMov w) (r 30) (r 25))
  | 0x34 => some (.mwait c (t 54) (n 48) (r 43))
  | 0x38 => some (.wait c (r 46) b (n 36))
  | 0x39 => some (.bar c (BitVec.ofNat 16 (tileBits w 55 40)) (Fin.ofNat 16 (tileBits w 39 36)))
  | 0x3A => some (.fence c)
  | 0x3C => some (.yld c (BitVec.ofNat 16 (tileBits w 55 40)))
  | 0x40 => some (.li c (r 51) imm)
  | 0x41 => some (.addi c (r 51) (r 46) imm)
  | 0x42 => some (.andi c (r 51) (r 46) imm)
  | 0x43 => some (.add c (r 51) (r 46) (r 41))
  | 0x44 => some (.sub c (r 51) (r 46) (r 41))
  | 0x45 => some (.mul c (r 51) (r 46) (r 41))
  | 0x46 => some (.shli c (r 51) (r 46) (r 0))
  | 0x47 => some (.shri c (r 51) (r 46) (r 0))
  | 0x48 => some (.loop c (r 51) (BitVec.ofNat 16 (tileBits w 15 0)))
  | 0x49 => some (.br c imm)
  | 0x4A => some (.brc c (r 51) (r 46) (BitVec.ofNat 3 (tileBits w 45 43)) imm)
  | 0x4F => some (.halt c (BitVec.ofNat 8 (tileBits w 7 0)))
  | _ => none

/-- The tile instruction that a word holds (04 R102, R103): none where the opcode is not in the table or a reserved bit is set. A
reserved field value is the instruction's own fault (R101). -/
def tileInstr (c : CellId) (w : Nat) : Option Instr :=
  match tileFields (tileBits w 63 56) with
  | none => none
  | some l => if tileReservedOk w l then tileOp c w else none

end Sys2Proof
end

