-- ==== Sys2Proof/Machine/Bits.lean ====
section
/-!
DEFINITION. Bit fields of register values, little-endian byte strings, status codes (00 R10) and saturating counters.
-/

namespace Sys2Proof.Machine

/-- Bits [hi:lo] of a register value. -/
def bits (v hi lo : Nat) : Nat := (v >>> lo) % 2 ^ (hi + 1 - lo)

/-- v placed in bits [hi:lo]. -/
def field (hi lo v : Nat) : Nat := (v % 2 ^ (hi + 1 - lo)) <<< lo

/-- A register value with bits [hi:lo] replaced. -/
def setBits (v hi lo x : Nat) : Nat :=
  v - ((bits v hi lo) <<< lo) + field hi lo x

/-- 1 for true. -/
def bit (b : Bool) : Nat := if b then 1 else 0

/-- The sum of a counter and an increment, saturating at its width (R8 counters). -/
def satAdd (width a b : Nat) : Nat := min (a + b) (2 ^ width - 1)

/-- n bytes of v, byte 0 first (little-endian). -/
def leBytes : Nat → Nat → List Byte
  | 0, _ => []
  | n + 1, v => BitVec.ofNat 8 (v % 256) :: leBytes n (v / 256)

/-- The number that bytes spell, little-endian. -/
def ofLe : List Byte → Nat
  | [] => 0
  | b :: bs => b.toNat + 256 * ofLe bs

/-- The number that bytes spell, big-endian. -/
def ofBe (bs : List Byte) : Nat := ofLe bs.reverse

/-- n zero bytes. -/
def zeros (n : Nat) : List Byte := List.replicate n 0

/-- len bytes of a byte string from off; bytes past its end read 0. -/
def bslice (bs : List Byte) (off len : Nat) : List Byte :=
  let b := (bs.drop off).take len
  b ++ zeros (len - b.length)

/-- Little-endian field of len bytes at off of a byte string. -/
def fld (bs : List Byte) (off len : Nat) : Nat := ofLe (bslice bs off len)

/-- The indices below n whose bit is set in a mask. -/
def maskList (n mask : Nat) : List Nat := (List.range n).filter (fun i => mask.testBit i)

/-- How many bits below n are set. -/
def popCount (n mask : Nat) : Nat := (maskList n mask).length

/-- A mask with bit i set. -/
def setBit (mask i : Nat) : Nat := mask ||| (1 <<< i)

/-- A mask with bit i clear. -/
def clearBit (mask i : Nat) : Nat := if mask.testBit i then mask - (1 <<< i) else mask

/-- Bit i of a mask given the value b. -/
def putBit (mask i : Nat) (b : Bool) : Nat := if b then setBit mask i else clearBit mask i

/-- The element at position i of a list of numbers, 0 past its end. -/
def nth (l : List Nat) (i : Nat) : Nat := l.getD i 0

/-- Replace position i of a list. -/
def setNth {α : Type} (l : List α) (i : Nat) (v : α) : List α := l.set i v

/-- Drop position i of a list. -/
def dropNth {α : Type} (l : List α) (i : Nat) : List α := l.eraseIdx i

/-- Status codes (00 R10). -/
abbrev St := StatusCode
/-- Completed as asked. -/
def St.ok : St := 0x00
/-- Accepted, not yet complete. -/
def St.pending : St := 0x01
/-- The context was lost earlier. -/
def St.contextLost : St := 0x02
/-- Stopped by an abort. -/
def St.aborted : St := 0x03
/-- Translation fault. -/
def St.faultXlt : St := 0x04
/-- Access outside a window or a partition. -/
def St.faultBounds : St := 0x05
/-- Error response from a target. -/
def St.busError : St := 0x06
/-- Result depends on poisoned data. -/
def St.dross : St := 0x07
/-- A bound or watchdog expired. -/
def St.timeout : St := 0x08
/-- Staged fields disagree. -/
def St.cfgMismatch : St := 0x09
/-- Refused for now. -/
def St.busy : St := 0x0A
/-- Refused by permission, signature or life-cycle state. -/
def St.denied : St := 0x0B
/-- Stopped by a Fence or Quench alarm. -/
def St.alarmStop : St := 0x0C
/-- The target site is isolated. -/
def St.siteDead : St := 0x0D
/-- The target HBM stack is offline. -/
def St.stackOffline : St := 0x0E
/-- A ring collective was aborted. -/
def St.collectiveAbort : St := 0x0F
/-- A pool cannot satisfy the request. -/
def St.noMemory : St := 0x10

/-- Bits [hi:lo] of a value, in their place. -/
def keepBits (v hi lo : Nat) : Nat := field hi lo (bits v hi lo)

end Sys2Proof.Machine
end

