-- ==== Sys2Proof/Machine/Tab.lean ====
section
/-!
DEFINITION. Sparse tables: the one form in which the model keeps memory and every numbered collection of state. A table lists
(key, value) pairs with keys strictly rising and no value equal to what an unlisted key reads as, so that equal contents are
equal data. Log entry 5.
-/

namespace Sys2Proof.Machine

/-- A sparse table from numbers to values. -/
abbrev Tab (α : Type) := List (Nat × α)

/-- The value under key k; d is what an unlisted key reads as. -/
def Tab.get {α : Type} (d : α) : Tab α → Nat → α
  | [], _ => d
  | (k', v) :: t, k => if k' = k then v else Tab.get d t k

/-- Put (k, v) before the first greater key. -/
def Tab.insert {α : Type} (k : Nat) (v : α) : Tab α → Tab α
  | [] => [(k, v)]
  | (k', v') :: t => if k < k' then (k, v) :: (k', v') :: t else (k', v') :: Tab.insert k v t

/-- Drop key k. -/
def Tab.erase {α : Type} (k : Nat) : Tab α → Tab α
  | [] => []
  | (k', v) :: t => if k' = k then Tab.erase k t else (k', v) :: Tab.erase k t

/-- Set key k to v; setting it to the default d drops the entry. -/
def Tab.set {α : Type} [DecidableEq α] (d : α) (t : Tab α) (k : Nat) (v : α) : Tab α :=
  if v = d then Tab.erase k t else Tab.insert k v (Tab.erase k t)

/-- Apply f to the value under k. -/
def Tab.upd {α : Type} [DecidableEq α] (d : α) (t : Tab α) (k : Nat) (f : α → α) : Tab α :=
  Tab.set d t k (f (Tab.get d t k))

/-- Keep only the entries whose key satisfies p. -/
def Tab.keep {α : Type} (p : Nat → Bool) (t : Tab α) : Tab α := t.filter (fun e => p e.1)

/-- Apply g to every listed value (g must keep the default). -/
def Tab.mapVals {α : Type} [DecidableEq α] (d : α) (g : Nat → α → α) : Tab α → Tab α
  | [] => []
  | (k, v) :: t => if g k v = d then Tab.mapVals d g t else (k, g k v) :: Tab.mapVals d g t

/-- Every key is greater than b. -/
def Tab.above {α : Type} (b : Nat) (t : Tab α) : Bool := t.all (fun e => b < e.1)

/-- The canonical form: keys strictly rising, no default value listed. -/
def Tab.wf {α : Type} [DecidableEq α] (d : α) : Tab α → Bool
  | [] => true
  | (k, v) :: t => (!decide (v = d)) && Tab.above k t && Tab.wf d t

/-- Set the keys from k on to the values of a list, one after another. -/
def Tab.setList {α : Type} [DecidableEq α] (d : α) (t : Tab α) (k : Nat) : List α → Tab α
  | [] => t
  | v :: vs => Tab.setList d (Tab.set d t k v) (k + 1) vs

/-- The n values under k, k+1, ... -/
def Tab.getList {α : Type} (d : α) (t : Tab α) (k : Nat) : Nat → List α
  | 0 => []
  | n + 1 => Tab.get d t k :: Tab.getList d t (k + 1) n

end Sys2Proof.Machine
end

