-- ==== Sys2Proof/Machine/TypesCells.lean ====
section
/-!
DEFINITION. State of the cell grid: messages and tallies (03), matrix cells (04), safeguard counters (05), service cores,
receive queues and pools (06), tasks, gangs and contexts (07). Every default value is the reset value.
-/

namespace Sys2Proof.Machine

/-- A message: its 128-bit header as a number and 64 payload bytes (03 R75). -/
structure Msg where
  header : Nat
  payload : List Byte
  deriving DecidableEq, Repr

/-- A mailbox (03 R77): STANDING mode, URGENT class, standing sender, messages held oldest first, tallies out. -/
structure Mailbox where
  standing : Bool := false
  urgent : Bool := false
  sender : Nat := 0
  held : List Msg := []
  out : Nat := 0
  deriving DecidableEq, Repr

/-- A tally store entry (03 R78, R84, R85). -/
structure Tally where
  dest : Nat
  mailbox : Nat
  urgent : Bool
  count : Nat
  dead : Bool := false
  void : Bool := false
  /-- The context that granted the newest of them (03 R85). -/
  ctx : Nat := 0
  deriving DecidableEq, Repr

/-- The message state of one context on one cell, of one service core, or the tally store of one foreign endpoint. -/
structure MsgState where
  boxes : Tab Mailbox := []
  store : List Tally := []
  /-- The context is lost: its mailboxes accept nothing (03 R85). -/
  closed : Bool := false
  deriving DecidableEq, Repr

/-- What travels on the fabric between cells (03 R75, R78, R469). -/
inductive Flight where
  | msg (part src dest mailbox : Nat) (m : Msg)
  | grant (part src dest mailbox n : Nat) (urgent : Bool) (ctx : Nat)
  | ret (part src dest mailbox n : Nat) (ctx : Nat)
  deriving DecidableEq, Repr

/-- A message or grant that SND or FJ.SND, GRANT or RTN released and that its ingress has not judged yet. -/
structure Egress where
  src : Nat
  ctx : Nat
  flight : Flight
  /-- The send carries RELEASE (03 R80): it leaves when no mover write of its cell numbered below this is outstanding. -/
  after : Nat := 0
  deriving DecidableEq, Repr

/-- An active LOOP (04 R103): first instruction of the body, first after it, passes still to run after this one. -/
structure Loop where
  first : Nat
  last : Nat
  left : Nat
  deriving DecidableEq, Repr

/-- One access of a mover transfer (03 R70; 04 R106). -/
structure Access where
  off : Nat
  ppa : Nat
  spad : Nat
  len : Nat
  done : Bool := false
  /-- Held at the site by its regulator (08 R202). -/
  held : Bool := false
  deriving DecidableEq, Repr

/-- A mover transfer (04 R106). -/
structure Transfer where
  /-- Its number among the transfers of the cell: the model's own name for it. -/
  id : Nat
  write : Bool
  /-- Index and opcode of its instruction. -/
  pc : Nat
  op : Nat
  accesses : List Access
  deriving DecidableEq, Repr

/-- A matrix cell (04 R88, R113, R114). state: 0 idle, 1 running, 2 waiting, 3 saving, 4 restoring, 5 halted. -/
structure Cell where
  state : Nat := 0
  pc : Nat := 0
  ctx : Nat := 0
  sregs : Tab Word32 := []
  loops : List Loop := []
  scratch : Tab Byte := []
  lineDross : Tab Bool := []
  /-- Tile elements by t * 16384 + row * 128 + column, their dross bits, and INT32 TYPE by tile. -/
  tiles : Tab Word32 := []
  tileDross : Tab Bool := []
  tileInt : Tab Bool := []
  /-- The image loaded: its bytes, whose instructions are the instruction store. -/
  image : List Byte := []
  codeLen : Nat := 0
  movers : Tab (List Transfer) := []
  nextXfer : Nat := 0
  /-- The status with which the halted cell ends its task once its transfers have ended, and whether it ends its gang. -/
  halt : Option StatusCode := none
  bar : Option (Nat × Nat) := none
  /-- The instruction that waits to issue. -/
  waiting : Option Instr := none
  asked : Bool := false
  gang : Option Nat := none
  /-- The YLD that is being taken: its live-range table index. -/
  yld : Option Nat := none
  /-- A FENCE that waits: for each cell of its context, the number its mover writes must be below to count (04 R103). -/
  fence : Option (List (Nat × Nat)) := none
  excThr : Nat := 0
  excTrap : Bool := false
  mmaCycles : Nat := 0
  bankWait : Nat := 0
  retired : Bool := false
  deriving DecidableEq, Repr

/-- The running safeguard counters of a context (05 R132-R138). -/
structure Guard where
  sat : Nat := 0
  nan : Nat := 0
  firstTile : Nat := 0
  clipEl : Nat := 0
  clipBl : Nat := 0
  clipMax : Nat := 0
  excCount : Nat := 0
  worst : Nat := 255
  firstPc : Nat := 0
  pending : Bool := false
  drossEl : Nat := 0
  linesOut : Nat := 0
  msgs : Nat := 0
  task : Bool := false
  deriving DecidableEq, Repr

/-- A cell's saved state in a context's slot whose byte layout 07 R184 does not give (log entry 40). -/
structure Saved where
  pc : Nat := 0
  lrt : Nat := 0
  tileMask : Nat := 0
  tileInt : Tab Bool := []
  loops : List Loop := []
  gang : Nat := 0
  present : Bool := false
  deriving DecidableEq, Repr

/-- States of a context (07 R170), codes 0-5 in order. -/
inductive CtxSt where
  | idle | ready | active | preempted | held | lost
  deriving DecidableEq, Repr

/-- Code of a context state (07 R170). -/
def CtxSt.code : CtxSt → Nat
  | .idle => 0 | .ready => 1 | .active => 2 | .preempted => 3 | .held => 4 | .lost => 5

/-- A context of a partition (07 R169, R170; 03 R81; 04 R101; 05 R132). -/
structure Ctx where
  state : CtxSt := .idle
  status : StatusCode := 0
  debt : Nat := 0
  waived : Nat := 0
  run : Nat := 0
  saves : Nat := 0
  msgCount : Nat := 0
  msgDest : Nat := 0
  msgBox : Nat := 0
  msgStatus : StatusCode := 0
  /-- The tile fault word (04 R101), 0 until the first fault. -/
  fault : Nat := 0
  guard : Guard := {}
  /-- Latched fields of the context record (07 R169). -/
  latched : Bool := false
  slotLog2 : Nat := 0
  saveBase : Nat := 0
  saveLen : Nat := 0
  statusBase : Nat := 0
  twait : Nat := 0
  recSeq : Nat := 0
  aborting : Bool := false
  /-- Why the record failed its check when it was latched (07 R169; 17 R451). -/
  latchFail : StatusCode := 0
  /-- Channels whose resume records the save area holds (07 R187). -/
  savedChans : List Nat := []
  deriving DecidableEq, Repr

/-- Where a task came from: a service core, or an entry of a driver queue (07 R166). -/
inductive TaskSrc where
  | core (c : Nat)
  | queue (q idx : Nat)
  deriving DecidableEq, Repr

/-- An accepted task (07 R167). -/
structure Task where
  ctx : Nat
  mask : Nat
  site : Nat
  event : Bool
  evCore : Nat
  evBit : Nat
  image : Nat
  span : Nat
  taskId : Nat
  endAddr : Nat
  args : List Nat
  src : TaskSrc
  deriving DecidableEq, Repr

/-- A gang: a task that has started and not ended (07 R175, R177, R182). -/
structure Gang where
  id : Nat
  task : Task
  saved : Bool := false
  runUs : Nat := 0
  saves : Nat := 0
  excursion : Bool := false
  /-- Positions whose cell has ended the task, with its status. -/
  ended : Tab (Option StatusCode) := []
  /-- A halted cell has ended the gang and its record is written: the others stop at their next cheap point. -/
  stopping : Bool := false
  /-- The task has written a dross line to HBM or sent a dross message (05 R138, R139). -/
  dross : Bool := false
  deriving DecidableEq, Repr

/-- What the SCH block keeps for a partition (07 R171-R176). -/
structure Sch where
  ctxBase : Nat := 0
  runlist : Nat := 0
  list : List (Nat × Nat) := []
  cmdToken : Nat := 0
  cmdStatus : StatusCode := 0
  waiting : List Task := []
  gangs : List Gang := []
  nextGang : Nat := 0
  /-- Run lists written: a site adopts a newer one at its next slice boundary. -/
  listGen : Nat := 0
  deriving DecidableEq, Repr

/-- The residency of a partition on a site (07 R175, R176). -/
structure Res where
  resident : Option Nat := none
  /-- The list the site has adopted, which writing of it, the position of the next entry to take, and the slices that the turn
  still holds after the one that runs. -/
  list : List (Nat × Nat) := []
  gen : Nat := 0
  pos : Nat := 0
  left : Nat := 0
  /-- The context that becomes resident when the outgoing one has left. -/
  incoming : Option Nat := none
  /-- A slice end has been decided and the switch runs. -/
  switching : Bool := false
  /-- Microseconds by which DEBT shortened the slice that runs. -/
  shortened : Nat := 0
  deriving DecidableEq, Repr

/-- A service core (06 R148, R149, R151). rd is the value the last Xfjm instruction wrote to its rd register. -/
structure Core where
  ctx : Nat := 0
  twait : Nat := 10000
  evt : Nat := 0
  evtie : Nat := 0
  uen : Bool := false
  errDross : Bool := false
  waiting : Option Instr := none
  rd : Word64 := 0
  /-- Held in reset; false while it runs loaded code. -/
  inReset : Bool := true
  pc : Nat := 0
  /-- a0, a1 and a2 as its clusters' start set them (14 R391). -/
  a0 : Nat := 0
  a1 : Nat := 0
  a2 : Nat := 0
  /-- The last exception or interrupt the core took: mcause, mtval and the saved pc (06 R143, R149, R151), the instruction that waited
  and runs again on return, and how many it has taken. -/
  cause : Nat := 0
  tval : Nat := 0
  epc : Word64 := 0
  again : Option Instr := none
  excs : Nat := 0
  /-- Privilege mode: 3 M, 1 S, 0 U (06 R140, R146, R148); mstatus and satp, which is 0 with translation off (R142). -/
  priv : Nat := 3
  mstatus : Nat := 0
  satp : Nat := 0
  deriving DecidableEq, Repr

/-- A protected code image and the clusters that run it (06 R147). -/
structure CodeImg where
  base : Nat
  len : Nat
  clusters : Nat
  deriving DecidableEq, Repr

/-- Code loads of a partition (06 R145, R146). step: 0 none, 1 the clusters are stopping, 2 the image is being checked. -/
structure Code where
  token : Nat := 0
  /-- TOKEN of the load or stop that runs. -/
  job : Nat := 0
  status : StatusCode := 0
  running : Nat := 0
  step : Nat := 0
  stop : Bool := false
  clusters : Nat := 0
  image : Nat := 0
  images : List CodeImg := []
  deriving DecidableEq, Repr

/-- An Ethernet receive queue (06 R153-R157). -/
structure RxQ where
  ctrl : Nat := 0
  desc : Nat := 0
  cq : Nat := 0
  tail : Nat := 0
  cqHead : Nat := 0
  drop : Nat := 0
  /-- Hub indices: next descriptor to use, next completion to write, next completion to be released; all run without
  wrapping. -/
  dIdx : Nat := 0
  cIdx : Nat := 0
  cFree : Nat := 0
  unsignalled : Nat := 0
  deriving DecidableEq, Repr

/-- A sequence slot of a pool (06 R159, R160). state: 0 IDLE, 1 QUEUED, 2 RUNNING, 3 LEAVING. -/
structure Slot where
  state : Nat := 0
  need : Nat := 0
  grew : Bool := false
  status : StatusCode := 0
  pages : List Nat := []
  list : Nat := 0
  deriving DecidableEq, Repr

/-- A pool (06 R158-R163). -/
structure Pool where
  base : Nat := 0
  total : Nat := 0
  free : Nat := 0
  deferPages : List Nat := []
  reserve : Nat := 0
  extra : Nat := 0
  running : Nat := 0
  isOpen : Bool := false
  step : Nat := 0
  queue : List Nat := []
  slots : Tab Slot := []
  deriving DecidableEq, Repr

end Sys2Proof.Machine
end

