-- ==== Sys2Proof/Machine/TypesHost.lean ====
section
/-!
DEFINITION. State of the host interface (12): functions, interrupts, queues, requests toward the host. Every default value is
the reset value.
-/

namespace Sys2Proof.Machine

/-- A vector of an MSI-X table (12 R302, R317). -/
structure Msix where
  addr : Nat := 0
  data : Nat := 0
  masked : Bool := true
  pending : Bool := false
  deriving DecidableEq, Repr

/-- A virtual function (12 R313-R316). tdi: 0 CONFIG_UNLOCKED, 1 CONFIG_LOCKED, 2 RUN, 3 ERROR. -/
structure Vf where
  aperture : Nat := 0
  winSel : Tab Nat := []
  /-- CHIP_VF_DMA_VEC; an unlisted channel reads 8. -/
  dmaVec : Tab Nat := []
  dmaHalt : Nat := 0
  ctxLost : Nat := 0
  ctxDone : Nat := 0
  bounds : Nat := 0
  dross : Nat := 0
  tdi : Nat := 0
  deriving DecidableEq, Repr

/-- An entry of a queue that has been fetched and is not complete (12 R324). -/
structure QEnt where
  idx : Nat
  bytes : List Byte
  /-- Accepted by the SCH block and not ended. -/
  running : Bool := false
  deriving DecidableEq, Repr

/-- A command queue (12 R322). state: 0 DISABLED, 1 IDLE, 2 RUNNING, 3 WAITING, 4 HALTED. -/
structure Queue where
  ring : Nat := 0
  ctx : Nat := 0
  vector : Nat := 8
  en : Bool := false
  tail : Nat := 0
  head : Nat := 0
  status : StatusCode := 0
  state : Nat := 0
  entries : List QEnt := []
  deriving DecidableEq, Repr

/-- What a write that the hub made for a partition leaves to be judged at the end of the command: a protected image refused it
(06 R147), or it was the write-back of a queue entry of context c (12 R330). -/
inductive Due where
  | codeWrite (n : Nat)
  | writeBack (n c : Nat) (status : StatusCode)
  deriving DecidableEq, Repr

/-- Who issued a request toward the host. -/
inductive HostUser where
  | burst (ch k : Nat)
  deriving DecidableEq, Repr

/-- A request toward the host that awaits completions (12 R304-R306). -/
structure HostReq where
  tag : Nat
  user : HostUser
  /-- Offset in the burst of the request's first byte, the host address of the next byte awaited, the bytes still awaited, and
  those that have come. -/
  off : Nat
  addr : Nat
  left : Nat
  data : List Byte := []
  deriving DecidableEq, Repr

/-- The PCIe endpoint (12 R302-R312, R318). Vectors are kept by function * 2048 + vector, function 16 being PF0. -/
structure Pcie where
  up : Bool := false
  rate : Nat := 0
  width : Nat := 0
  flit : Bool := false
  /-- Max Read Request Size and Max Payload Size in PF0's Device Control (12 R302, R304; log entry 14). -/
  mrrs : Nat := 512
  mps : Nat := 128
  downs : Nat := 0
  cto : Nat := 900
  dropped : Nat := 0
  timeouts : Nat := 0
  reqs : List HostReq := []
  quarantine : List Nat := []
  msix : Tab Msix := []
  /-- BAR2 accesses that the endpoint's regulator holds, oldest first (08 R202). -/
  held : List Instr := []
  /-- Functions whose MSI-X is disabled (log entry 12). -/
  msixOff : Nat := 0
  /-- The Structure Table's GENERATION and bytes (12 R318). -/
  stGen : Nat := 0
  stBytes : List Byte := []
  deriving DecidableEq, Repr

end Sys2Proof.Machine
end

