-- ==== Sys2Proof/Machine/TypesIo.lean ====
section
/-!
DEFINITION. State of DMA and translation (11), chiplet sites (13), and network, ring and twins (14). Every default value is
the reset value.
-/

namespace Sys2Proof.Machine

/-- A DMA burst (11 R272). state: 0 read issued, 1 write issued, 2 acknowledged. next: it belongs to the descriptor after the
one in progress. -/
structure Burst where
  /-- Its number among the bursts of the channel: the model's own name for it. -/
  id : Nat
  next : Bool := false
  /-- Element index of its first byte, counted in element order. -/
  start : Nat
  len : Nat
  /-- Physical operands: in host memory or PPA. -/
  srcHost : Bool
  src : Nat
  dstHost : Bool
  dst : Nat
  /-- The operands as the descriptor names them: DVA or PPA. -/
  srcDva : Bool
  srcName : Nat
  dstDva : Bool
  dstName : Nat
  state : Nat := 0
  data : List Byte := []
  /-- Bytes that come from a dross line. -/
  marks : List Bool := []
  /-- Pieces that the host has returned, by offset (12 R305). -/
  parts : Tab (List Byte) := []
  deriving DecidableEq, Repr

/-- An entry of a DMA engine's walk cache: a table entry of level 3, 2 or 1 of a context (11 R290). -/
structure WalkEnt where
  part : Nat
  ctx : Nat
  addr : Nat
  word : Nat
  deriving DecidableEq, Repr

/-- A run of a translated operand (11 R289): a DVA extent on one contiguous physical extent. -/
structure Run where
  dva : Nat
  len : Nat
  host : Bool
  addr : Nat
  r : Bool
  w : Bool
  deriving DecidableEq, Repr

/-- What stands at the first element a segment could not reach (11 R292, R285): a fault with its reason and level, or the status
of a failed table read. -/
structure SegStop where
  fault : Bool
  status : StatusCode
  addr : Nat
  dir : Bool
  reason : Nat
  level : Nat
  deriving DecidableEq, Repr

/-- The segment after the one that issues, built while its bursts issue (11 R289). -/
structure Ahead where
  upTo : Nat
  src : List Run
  dst : List Run
  stop : Option SegStop
  deriving DecidableEq, Repr

/-- Why a channel that is stopping stops (11 R284, R285, R292, R280; 07 R187). -/
inductive Stop where
  | none | pause | save | halt | fault | abort
  deriving DecidableEq, Repr

/-- A DMA channel (11 R276-R285). state: 0 DISABLED, 1 IDLE, 2 RUNNING, 3 PAUSING, 4 PAUSED, 5 FAULT_WAIT, 6 HALTED,
7 ABORTING, 8 SAVED. -/
structure Chan where
  ctx : Nat := 0
  prio : Nat := 0
  pause : Bool := false
  en : Bool := false
  ring : Nat := 0
  tail : Nat := 0
  head : Nat := 0
  state : Nat := 0
  status : StatusCode := 0
  cmdStatus : StatusCode := 0
  cmdToken : Nat := 0
  dir : Bool := false
  spacePpa : Bool := false
  resolved : Bool := false
  limit : Bool := false
  faultId : Nat := 0xFFFF
  faultAddr : Nat := 0
  record : Nat := 0
  missed : Nat := 0
  lats : List Nat := []
  /-- The descriptor in progress: its bytes, or none. -/
  desc : Option (List Byte) := none
  /-- Bytes before the cursor, and bytes whose bursts have been issued, both in element order. -/
  done : Nat := 0
  issued : Nat := 0
  /-- The descriptor after it, fetched while its last bursts are outstanding, and its bytes issued (11 R273). -/
  nDesc : Option (List Byte) := none
  nIssued : Nat := 0
  bursts : List Burst := []
  burstCtr : Nat := 0
  /-- The completion of the descriptor in progress waits for a fault of its write-back (11 R278). -/
  wbWait : Bool := false
  /-- The segment that issues: the bytes it covers, its run lists, and what ends it (11 R289, R292). -/
  segEnd : Nat := 0
  srcRuns : List Run := []
  dstRuns : List Run := []
  segStop : Option SegStop := none
  /-- The segment after it. -/
  ahead : Option Ahead := none
  /-- A segment is to be walked before the next burst issues. -/
  needWalk : Bool := false
  /-- The channel waits for its outstanding bursts before it enters the state the stop leads to. -/
  stop : Stop := .none
  /-- What the stop reports: status, failing address, its space and direction, REASON and level; and the element it stands at. -/
  stopStatus : StatusCode := 0
  stopAddr : Nat := 0
  stopPpa : Bool := false
  stopDir : Bool := false
  stopReason : Nat := 0
  stopLevel : Nat := 0
  stopAt : Nat := 0
  /-- The fault that stopped the channel has been taken by the XLT block or resolved (11 R294). -/
  taken : Bool := false
  /-- Bytes of the descriptor in progress came from dross. -/
  dross : Bool := false
  seq : Nat := 0
  /-- While SAVED: KIND of the resume record (07 R186), and its place in the save area. -/
  kind : Nat := 0
  slot : Nat := 0
  deriving DecidableEq, Repr

/-- An open record of a partition's fault table (11 R293, R294). -/
structure FaultRec where
  ctx : Nat
  block : Nat
  dva : Nat
  reason : Nat
  level : Nat
  access : Nat
  waiters : Nat
  chans : List Nat
  written : Bool := false
  seq : Nat := 0
  deriving DecidableEq, Repr

/-- The XLT block's state for a partition (11 R293-R301). -/
structure Xlt where
  ctxBase : Nat := 0
  invAddr : Nat := 0
  invToken : Nat := 0
  invStatus : StatusCode := 0
  invMask : Nat := 0
  invCtx : Nat := 0
  invPages : Nat := 0
  fqRing : Nat := 0
  fqHead : Nat := 0
  /-- Records written to the ring, counted without wrapping. -/
  fqCount : Nat := 0
  fqFull : Nat := 0
  faultIdx : Nat := 0
  recs : Tab (Option FaultRec) := []
  /-- Slots of the open records that the ring had no room for, in the order they opened. -/
  unwritten : List Nat := []
  /-- Channels that wait for a free record, in the order they faulted. -/
  waitRec : List Nat := []
  seq : Nat := 0
  deriving DecidableEq, Repr

/-- Page-ready events on their way: the record's identity, its status, and the engines still to be told (11 R295). -/
structure PageReady where
  id : Nat
  status : StatusCode
  engines : Nat
  chans : List Nat
  /-- The status its waiters halt with where no driver named one: TIMEOUT after 1 s, or that of a record that could not be written (06
  R147). -/
  forced : Option StatusCode := none
  deriving DecidableEq, Repr

/-- One UCIe module of a site (13 R347, R354). -/
structure UMod where
  width : Nat := 0
  rate : Bool := false
  busy : Bool := false
  disagree : Nat := 0
  seq : Nat := 0
  /-- Retraining from scratch after the first disagreement (13 R347 step 3). -/
  scratch : Bool := false
  /-- Of the check exchange that runs: the width the hub's side has trained, 0 before; the chiplet's check word, if it has come;
  the narrower width has been set (R347 step 2). -/
  trained : Nat := 0
  peer : Option Nat := none
  narrowed : Bool := false
  deriving DecidableEq, Repr

/-- A chiplet site (13). fitted: 0 empty, 1 Renyr, 2 foreign (configuration, log entry 7). state as SITE_STATUS; step as the
steps of 13 R342. -/
structure Site where
  fitted : Nat := 1
  state : Nat := 0
  kind : Nat := 0
  power : Nat := 0
  cause : Nat := 0
  cmdToken : Nat := 0
  cmdStatus : StatusCode := 0
  step : Nat := 0
  retrains : Nat := 0
  mods : Tab UMod := []
  level : Nat := 0
  features : Nat := 0
  lost : Nat := 0
  /-- What its clock pair carries (13 R341): 0 not decided, 1 forwarded MCLK, 2 the 100 MHz reference. -/
  clock : Nat := 0
  capPeer : Tab Nat := []
  capGot : Nat := 0
  capAcked : Nat := 0
  ident : Tab Nat := []
  identGot : Nat := 0
  idMeas : BitVec 384 := 0
  correctable : Nat := 0
  droppedOsp : Nat := 0
  laneRepairs : Nat := 0
  failures : Nat := 0
  deriving DecidableEq, Repr

/-- A frame or RoCEv2 packet that waits in a port's receive buffer for its queue (06 R157; 14 R366): its partition, queue,
priority and length, and the command that brought it. -/
structure RxWait where
  part : Nat
  q : Nat
  prio : Nat
  len : Nat
  cmd : Instr
  deriving DecidableEq, Repr

/-- An Ethernet port (14 R361-R366, R374). state: 0 down, 1 training, 2 up, 3 fault; rate: 1 native, 2 IEEE 802.3dj. -/
structure Port where
  state : Nat := 0
  rate : Nat := 0
  /-- Native signalling has not come up within 500 ms: the port trains under IEEE 802.3dj (R362). -/
  ieee : Bool := false
  pauseRx : Nat := 0
  pauseTx : Nat := 0
  lossless : Nat := 0
  drop : Nat := 0
  /-- Priorities for which the peer has paused this port, and for which this port has sent a pause. -/
  rxPaused : Nat := 0
  txPaused : Nat := 0
  /-- Frames that wait in the receive buffer for their queue, oldest first. -/
  held : List RxWait := []
  deriving DecidableEq, Repr

/-- A send of an RC queue pair that awaits its acknowledgement (14 R371, R373): its first and last PSN, the queue and index of
its descriptor and the descriptor's fields, and for a READ the bytes that have come. -/
structure SendOp where
  psn : Nat
  last : Nat
  q : Nat
  idx : Nat
  op : Nat
  user : Nat
  addr : Nat
  len : Nat
  imm : Nat
  raddr : Nat
  rkey : Nat
  got : Nat := 0
  deriving DecidableEq, Repr

/-- A queue pair (14 R368, R369, R372, R373). state: 0 RESET, 1 INIT, 2 RTR, 3 RTS, 4 ERROR. -/
structure Qp where
  state : Nat := 0
  ud : Bool := false
  port : Nat := 0
  prio : Nat := 0
  rxq : Nat := 0
  pmtu : Nat := 0
  retry : Nat := 0
  destQpn : Nat := 0
  destMac : Nat := 0
  destIp : Nat := 0
  srcIp : Nat := 0
  sqPsn : Nat := 0
  rqPsn : Nat := 0
  retries : Nat := 0
  /-- Rate in Mb/s; 0 until the first CNP stands for the start rate. -/
  rate : Nat := 0
  /-- A CNP has been sent for it (R372). -/
  cnpSent : Bool := false
  sends : List SendOp := []
  deriving DecidableEq, Repr

/-- A frame that waits for its port (14 R365, R371). -/
structure TxFrame where
  part : Nat
  q : Nat
  /-- Completion to write when the frame leaves: descriptor index and USER. -/
  idx : Nat
  user : Nat
  prio : Nat
  /-- A UD send of this queue pair; none for a raw frame. -/
  qp : Option Nat
  bytes : List Byte
  deriving DecidableEq, Repr

/-- The Ethernet state of a partition and its queue pairs (14 R374). -/
structure EthPart where
  qpBase : Nat := 0
  mrBase : Nat := 0
  dgram : Nat := 0
  cmdToken : Nat := 0
  cmdQp : Nat := 0
  cmdOp : Nat := 0
  cmdStatus : StatusCode := 0
  rerr : Nat := 0
  hashKey : Tab Byte := []
  qps : Tab Qp := []
  deriving DecidableEq, Repr

/-- An Ethernet transmit queue (14 R371), with the registers and indices of a receive queue. -/
structure TxQ where
  ctrl : Nat := 0
  desc : Nat := 0
  cq : Nat := 0
  tail : Nat := 0
  cqHead : Nat := 0
  dIdx : Nat := 0
  cIdx : Nat := 0
  cFree : Nat := 0
  unsignalled : Nat := 0
  deriving DecidableEq, Repr

/-- The Ethernet paths (14). mac is by port * 16 + partition. -/
structure Net where
  ports : Tab Port := []
  mac : Tab Nat := []
  parts : Tab EthPart := []
  txqs : Tab TxQ := []
  txWait : Tab (List TxFrame) := []
  deriving DecidableEq, Repr

/-- A ring frame that has been sent and not acknowledged (14 R376). -/
structure RingFrame where
  seq : Nat
  cls : Nat
  dest : Nat
  payload : List Byte
  deriving DecidableEq, Repr

/-- One optical ring port (14 R375, R376, R380). link: 0 dark, 1 training, 2 up. -/
structure RingPort where
  lanes : Nat := 0
  link : Nat := 0
  replays : Nat := 0
  nextSeq : Nat := 0
  expect : Nat := 0
  retry : List RingFrame := []
  /-- Frames that wait to be sent, in order, and frames of other classes sent since the last of class 3 while one waits. -/
  waiting : List RingFrame := []
  since3 : Nat := 0
  /-- Dark since the last time the link was up (14 R391). -/
  dark : Bool := true
  deriving DecidableEq, Repr

/-- The ring's module-wide state (14 R377, R378, R380). adit: 0 THROUGH, 1 OPEN, 2 switching; aditTo is where a switching
ends. -/
structure Ring where
  adit : Nat := 0
  aditTo : Nat := 0
  position : Nat := 0
  size : Nat := 0
  ports : Tab RingPort := []
  /-- Beacon periods for which a position still counts as seen (14 R377). -/
  members : Tab Nat := []
  absent : Nat := 0
  deriving DecidableEq, Repr

/-- A collective in progress (14 R382-R386). -/
structure Coll where
  seq : Nat
  desc : List Byte
  /-- Steps whose frame has arrived, per direction. -/
  foreGot : Nat := 0
  aftGot : Nat := 0
  /-- A result line of it is dross. -/
  dross : Bool := false
  deriving DecidableEq, Repr

/-- A collective group (14 R381): state 0 idle, 1 keying, 2 active. -/
structure Group where
  state : Nat := 0
  members : Nat := 0
  parts : List Byte := []
  /-- Collectives begun: the k-th pairs with every member's k-th. -/
  seq : Nat := 0
  running : Option Coll := none
  /-- Abort tokens that came before their descriptor: sequence and position. -/
  early : List (Nat × Nat) := []
  /-- Frames of collectives whose descriptor has not been posted. -/
  ahead : List Instr := []
  deriving DecidableEq, Repr

/-- Collectives of a partition (14 R380-R386). -/
structure CollPart where
  ring : Nat := 0
  tail : Nat := 0
  head : Nat := 0
  watchdog : Nat := 0
  groupBase : Nat := 0
  cmdToken : Nat := 0
  cmdGroup : Nat := 0
  cmdOp : Nat := 0
  cmdStatus : StatusCode := 0
  recSeq : Nat := 0
  groups : Tab Group := []
  deriving DecidableEq, Repr

/-- Twin state of a partition (14 R388-R392). state: 0 OFF, 1 SYNCING, 2 MIRRORED, 3 DEGRADED, 4 STANDBY, 5 TAKEOVER,
6 FENCED. -/
structure Twin where
  token : Nat := 0
  cmdStatus : StatusCode := 0
  checkpoint : Nat := 0
  status : StatusCode := 0
  state : Nat := 0
  log : Nat := 0
  logTail : Nat := 0
  logAck : Nat := 0
  /-- Log index at the last boundary taken and at the last checkpoint complete. -/
  boundLog : Nat := 0
  relLog : Nat := 0
  stage : Nat := 0
  /-- 64 KiB regions written since the last boundary, and the frozen map that streams. -/
  dirty : List Nat := []
  frozen : List Nat := []
  /-- All regions are in the map, or in the frozen one: the first checkpoint after START (14 R389). -/
  allDirty : Bool := false
  allFrozen : Bool := false
  /-- A checkpoint runs: 1 reaching the boundary, 2 streaming. -/
  phase : Nat := 0
  /-- Standby side: regions staged, and dross lines with them. -/
  staged : Tab (List Byte) := []
  stagedDross : List Nat := []
  deriving DecidableEq, Repr

end Sys2Proof.Machine
end

