-- ==== Sys2Proof/Config.lean ====
section
/-!
DEFINITION. What one module fixes (its identity, the standards it names) and the free values: opaque constants with no body,
so that no statement can rest on a value of theirs. Log entries 1, 2 and 3.
-/

namespace Sys2Proof.Config

/-- The module's serial number (02 R34 SERIAL). -/
opaque serial : BitVec 64

/-- SHA-384 under FIPS 180-4 of a byte string, byte 0 first (02 R37; log entry 1). -/
opaque sha384 : List Byte → BitVec 384

/-- ECDSA P-384 verification under FIPS 186-5: public key x then y, digest, signature r then s (02 R37; log entry 1). -/
opaque ecdsaVerify : List Byte → BitVec 384 → List Byte → Bool

/-- A signature the alias key of generation g makes over a byte string: 96 bytes as one number (15 R416; log entry 1). -/
opaque aliasSign : Nat → List Byte → BitVec 768

/-- Lysurman's signing key, held whole in ROM (15 R398). -/
opaque lysurmanKey : List Byte

/-- Lysurman's test key, held whole in ROM (15 R398, R407). -/
opaque lysurmanTestKey : List Byte

/-- The public key in operator root key slot 0 of this module, x then y (15 R398; log entry 6). -/
opaque opKey0 : List Byte

/-- The k-th value drawn from the DRBG (15 R394): a free value. -/
opaque drbg : Nat → BitVec 384

/-- Free values of 64 bits, one for each reading of the model's free-value counter (log entry 2). -/
opaque freeValue : Nat → BitVec 64

/-- Free bytes, as freeValue (log entry 2). -/
opaque freeByte : Nat → Nat → Byte

/-- Free yes/no choices, as freeValue (log entry 2). -/
opaque freeBool : Nat → Bool

/-- Whether a walk cache still holds, and a walk uses, the table entry it keeps of an address, for a reading of the free-value counter (11 R290,
R291; log entry 130). -/
opaque walkHit : Nat → Nat → Bool

/-- Microseconds since this start began, as the free-value counter stands (02 R63 UPTIME; log entry 3). -/
opaque uptime : Nat → BitVec 64

/-- The Toeplitz hash of 14 R367: key (40 bytes), input bytes (log entry 1). -/
opaque toeplitz : List Byte → List Byte → BitVec 32

/-- The ROM revision, hub revision and firmware versions that identity registers show (15 R418 SEC_ID; 13 R355). -/
opaque romRevision : BitVec 8

/-- The measurement digest of the firmware part k of image bank image g (15 R405 blocks 1 and 2). -/
opaque fwMeasurement : Nat → BitVec 384 → BitVec 384

/-- Bits of the hub's capability word k that the spec leaves open (13 R339). -/
opaque hubCap : Nat → BitVec 64

/-- OSP features a half's site logic offers at a level other than 1.2 (13 R339, R345). -/
opaque featuresAt : Nat → BitVec 32

/-- The sealed integration record lists an open site with this VENDOR, DEVICE, REVISION and identity digest (13 R358, R359): the
record's layout is not given. -/
opaque recordLists : List Byte → Nat → Nat → BitVec 384 → Bool

/-- The Renyr identity digest that Lysurman records (13 R359). -/
opaque renyrIdentity : BitVec 384

/-- Ring position of the twin that the k-th pair key exchange found (14 R388). -/
opaque twinPos : Nat → Nat

/-- MiB of the staging area that the twin of Pn holds for it (14 R389). -/
opaque twinStage : Nat → Nat

/-- Bytes of a record of the twin request log (14 R390), which the spec does not give. -/
opaque twinRecord : Nat

/-- DETAIL of a commit's log record: the block and the first failing offset (02 R57), in a layout that the spec does not give. -/
opaque commitDetail : Nat → Nat → List (BitVec 8)

/-- The body of an SPDM response to request kind k of an endpoint, over the bytes that it signs or carries (15 R396): its encoding is
that of the standard, which the spec does not give (log entry 1). -/
opaque spdm : Nat → Nat → List (BitVec 8) → List (BitVec 8)

/-- The 28-bit tag of a line (10 R249) by the generation of its keys, its bytes, its address and metadata bits 3:0. No key is readable, so the model
holds neither the cipher nor the CMAC (log entry 1). -/
opaque lineTag : Nat → List (BitVec 8) → Nat → Nat → BitVec 28

end Sys2Proof.Config
end

