-- ==== Sys2Proof/Machine/TypesModule.lean ====
section
/-!
DEFINITION. State of the module-wide chapters: the pattern and its partitions (02), the hub fabric (08), coherence and the SLC
(09), HBM (10), security (15), power and start (16), errors (17). Every default value is the reset value.
-/

namespace Sys2Proof.Machine

/-- Partition states (02 R32), codes 0-3 in order. -/
inductive PState where
  | undefined | building | ready | lost
  deriving DecidableEq, Repr

/-- The code PAT_PART_STATE shows (02 R32). -/
def PState.code : PState → Nat
  | .undefined => 0 | .building => 1 | .ready => 2 | .lost => 3

/-- Steps of a build (02 R49): idle outside a build; drain is steps 1 and 2, fill step 3, flush step 4, reset step 5. -/
inductive BuildStep where
  | idle | drain | keyWait | fill | flush | reset
  deriving DecidableEq, Repr

/-- Life-cycle states (15 R407), codes 0-5 in order. -/
inductive Lcs where
  | blank | test | provisioned | deployed | analysis | scrapped
  deriving DecidableEq, Repr

/-- Code of a life-cycle state (15 R407). -/
def Lcs.code : Lcs → Nat
  | .blank => 0 | .test => 1 | .provisioned => 2 | .deployed => 3 | .analysis => 4 | .scrapped => 5

/-- Life-cycle state of a code. -/
def Lcs.ofCode : Nat → Option Lcs
  | 0 => some .blank | 1 => some .test | 2 => some .provisioned | 3 => some .deployed | 4 => some .analysis
  | 5 => some .scrapped | _ => none

/-- Alarm classes (15 R414), codes 0-2 in order. -/
inductive AClass where
  | note | fence | quench
  deriving DecidableEq, Repr

/-- Code of a class (15 R413, R418 SEC_ALARM_VIEW). -/
def AClass.code : AClass → Nat
  | .note => 0 | .fence => 1 | .quench => 2

/-- Class of a code; anything above 1 is Quench. -/
def AClass.ofCode : Nat → AClass
  | 0 => .note | 1 => .fence | _ => .quench

/-- A REGULATORS entry (08 R203). -/
structure RegEntry where
  stack : Bool
  target : Nat
  part : Nat
  window : Nat
  budget : Nat
  slots : Nat
  raw : List Byte
  deriving DecidableEq, Repr

/-- A PRIORITIES entry (08 R199). -/
structure PrioEntry where
  ofPart : Bool
  target : Nat
  prio : Nat
  raw : List Byte
  deriving DecidableEq, Repr

/-- An ALARM_RAISE entry (02 R35): scope 255 is the module. -/
structure RaiseEntry where
  source : Nat
  scope : Nat
  cls : Nat
  raw : List Byte
  deriving DecidableEq, Repr

/-- An ETH_PORTS entry (14 R363), as the raw fields of its 8 bytes. -/
structure PortEntry where
  raw : List Byte := []
  deriving DecidableEq, Repr

/-- What one partition owns under a pattern (02 R30, R48): bitmaps are numbers whose bit i stands for resource i. -/
structure Slice where
  defined : Bool := false
  generation : Nat := 0
  tenant : BitVec 384 := 0
  cells : Nat := 0
  clusters : Nat := 0
  ways : Nat := 0
  pchs : Nat := 0
  order : List Nat := []
  dma : Nat := 0
  ethq : Nat := 0
  pools : List Nat := []
  npLimit : Nat := 0
  mirror : Bool := false
  vf : Bool := false
  digest : BitVec 384 := 0
  deriving DecidableEq, Repr

/-- A pattern as checked (02 R34-R37). -/
structure Pattern where
  epoch : Nat := 0
  keyIndex : Nat := 0
  isPartial : Bool := false
  population : Nat := 0
  slices : Tab Slice := []
  arrangement : Nat := 0
  ports : Tab PortEntry := []
  regulators : List RegEntry := []
  priorities : List PrioEntry := []
  raises : List RaiseEntry := []
  digest : BitVec 384 := 0
  bytes : List Byte := []
  deriving DecidableEq, Repr

/-- A commit that has been accepted and not completed (02 R57): its block, token and snapshot of the staged values. -/
structure PendCommit where
  block : Nat
  token : Nat
  snap : Tab Nat
  deriving DecidableEq, Repr

/-- The outcome of the last commit of a scope (02 R56). -/
structure CommitStatus where
  status : StatusCode := 0
  token : Nat := 0
  failHalf : Nat := 0
  firstFail : Nat := 0
  deriving DecidableEq, Repr

/-- A hallmark that partition firmware has asked for and not got (15 R406): token, area, nonce and the blocks of the snapshot. -/
structure HmRun where
  token : Nat
  area : Nat
  nonce : List Byte
  blocks : List Byte
  deriving DecidableEq, Repr

/-- One partition: its state (02 R32, R41), its build in progress (R49), its security flags (15 R403, R404) and its code
measurements (06 R145). -/
structure Part where
  state : PState := .undefined
  /-- What the partition owns (02 R30), and what it owned before the build in progress (R49 step 2). -/
  slice : Slice := {}
  oldSlice : Slice := {}
  status : StatusCode := 0
  step : BuildStep := .idle
  /-- Stopped and released: ends in UNDEFINED (02 R48). -/
  releasing : Bool := false
  /-- Built by a partition reset (16 R434). -/
  byReset : Bool := false
  /-- Partitions whose step 2 this key step waits for (02 R49). -/
  awaits : List Nat := []
  /-- Defined in the old running pattern (so step 2's abort and drain run). -/
  hadWork : Bool := false
  conf : Bool := false
  debugged : Bool := false
  debugAuth : Bool := false
  debugOpen : Bool := false
  /-- SEC_PART_RAISE (15 R418). -/
  raise : Nat := 0
  codeMeas : BitVec 384 := 0
  tenantSvns : List Nat := []
  opCommits : Nat := 0
  hmToken : Nat := 0
  hmLen : Nat := 0
  hmStatus : StatusCode := 0
  hmRun : Option HmRun := none
  /-- Blocks 16-21 as they stood at the loss of a LOST partition (15 R406). -/
  lossBlocks : Option (List Byte) := none
  deriving DecidableEq, Repr

/-- The PAT block and the pattern store (02 R38-R58). -/
structure Pat where
  running : Option Pattern := none
  /-- The pattern being applied, while PHASE is 2 or 3. -/
  cand : Option Pattern := none
  stage : Tab Byte := []
  status : StatusCode := 0
  phase : Nat := 0
  failCode : Nat := 0
  failSection : Nat := 0
  slot0 : Option (List Byte) := none
  slot1 : Option (List Byte) := none
  selected : Bool := false
  /-- The sealed stored epoch (02 R45); 0: none was ever stored. -/
  storedEpoch : Nat := 0
  /-- The apply in progress is the start's own (02 R45), which writes no store slot. -/
  atStart : Bool := false
  parts : Tab Part := []
  commits : Tab CommitStatus := []
  pendCommits : Tab (Option PendCommit) := []
  deriving DecidableEq, Repr

/-- A record of the sealed event log (02 R63). -/
structure LogRec where
  seq : Nat
  boot : Nat
  uptime : BitVec 64
  event : Nat
  scope : Nat
  status : StatusCode
  role : Nat
  detail : List Byte
  chain : List Byte
  deriving DecidableEq, Repr

/-- A reader's copy of the log registers (15 R416). -/
structure LogReader where
  seq : Nat := 0
  nonce : Tab Byte := []
  token : Nat := 0
  delivered : Nat := 0
  status : StatusCode := 0
  head : List Byte := []
  win : List Byte := []
  deriving DecidableEq, Repr

/-- The sealed event log (02 R62-R65). Records below acked are acknowledged; those kept are in recs, oldest first. -/
structure SealedLog where
  recs : List LogRec := []
  next : Nat := 0
  lastChain : List Byte := zeros 16
  acked : Nat := 0
  lost : Nat := 0
  readers : Tab LogReader := []
  deriving DecidableEq, Repr

/-- An operator root key slot (15 R398): state 0 EMPTY, 1 ACTIVE, 2 REVOKED. -/
structure OpKey where
  state : Nat := 0
  digest : BitVec 384 := 0
  stored : Option (List Byte) := none
  deriving DecidableEq, Repr

/-- The fuses and the vendor-sealed flash records (02 R59; 15 R398, R407-R410). Their reset values are what this module was
fused with: log entry 6. -/
structure Fuses where
  lcs : Lcs := .deployed
  lcsRecords : Nat := 6
  lcsSpent : Nat := 0
  intent : Nat := 0
  pending : Bool := false
  svn : Nat := 0
  svnSpent : Nat := 0
  opkeys : Tab OpKey := [(0, { state := 1, digest := Config.sha384 Config.opKey0, stored := some Config.opKey0 })]
  opSpent : Nat := 0
  floor : Nat := 0
  floorSpent : Nat := 0
  twinUsed : Nat := 0
  twinSpent : Nat := 0
  twinActive : Bool := false
  twinPeer : Nat := 0
  twinPeerId : BitVec 384 := 0
  confOnly : Bool := false
  uds : Bool := true
  integration : Option (List Byte) := none
  userErased : Bool := false
  deriving DecidableEq, Repr

/-- A firmware image (15 R400). -/
structure FwImage where
  version : Nat := 0
  svn : Nat := 0
  manifest : BitVec 384 := 0
  signed : Bool := true
  deriving DecidableEq, Repr

/-- An SPDM session of an endpoint (15 R396): function n for Pn's VF, 16 for the module endpoint. -/
structure Spdm where
  open_ : Bool := false
  established : Bool := false
  ideKeys : Bool := false
  deriving DecidableEq, Repr

/-- Keys held in RAM or key registers (15 R395): which are present, and how often each has been made. -/
structure Keys where
  cdi : Bool := false
  deviceId : Bool := false
  alias_ : Bool := false
  aliasGen : Nat := 0
  vendorSeal : Bool := false
  operSeal : Bool := false
  pair : Bool := false
  pairGen : Nat := 0
  deriving DecidableEq, Repr

/-- A unit that a Fence holds at its ingress (15 R414). -/
inductive Held where
  | cell (i : Nat) | cluster (i : Nat) | chan (i : Nat) | vf (i : Nat) | site (i : Nat)
  deriving DecidableEq, Repr

/-- Which request waits for a key while the DRBG is unhealthy (15 R394). -/
inductive KeyWait where
  | request | rotate (n : Nat) | group (n g : Nat) | pair | session (fn : Nat)
  deriving DecidableEq, Repr

/-- The fuse records of a request that are being written: their valid bits are not programmed yet (02 R60; 15 R398). -/
structure FuseJob where
  kind : Nat
  target : Nat
  body : List Byte := []
  deriving DecidableEq, Repr

/-- The security controllers (15). -/
structure Sec where
  fuses : Fuses := {}
  keys : Keys := {}
  log : SealedLog := {}
  nonce : BitVec 384 := 0
  reqBuf : Tab Byte := []
  reqToken : Nat := 0
  reqKind : Nat := 0
  reqPhase : Nat := 0
  reqStatus : StatusCode := 0
  /-- A request accepted and waiting for its key or its wipe. -/
  reqTarget : Nat := 0
  fuseJob : Option FuseJob := none
  /-- Records spent by an abort that the log does not hold yet (02 R60). -/
  spentLog : Nat := 0
  fwToken : Nat := 0
  fwCmdStatus : StatusCode := 0
  fwState : Nat := 0
  fwBank : Nat := 0
  fwRunning : FwImage := {}
  fwStaged : Option FwImage := none
  /-- The image that the standby bank holds, staged or not (15 R400, R402). -/
  fwStandby : Option FwImage := none
  debugGrant : Nat := 0
  seenNote : Bool := false
  seenFence : Bool := false
  seenQuench : Bool := false
  lastSource : Nat := 0
  lastScope : Nat := 0
  alarmIdx : Nat := 0
  /-- Canaries latched tripped, by source (15 R415). -/
  canaries : List Nat := []
  /-- Notes per source * 256 + scope (15 R414), and those since the last NOTE_SUMMARY. -/
  notes : Tab Nat := []
  notesNew : Tab Nat := []
  /-- Module sources that a Fence closed (15 R414). -/
  closed : List Nat := []
  held : List Held := []
  drbgHealthy : Bool := true
  keyWaits : List KeyWait := []
  alarmLow : Bool := false
  alarmPulse : Bool := false
  sessions : Tab Spdm := []
  deriving DecidableEq, Repr

/-- Feed states (16 R422), codes 0-3 in order. -/
inductive FeedSt where
  | absent | under | good | overVolt
  deriving DecidableEq, Repr

/-- Code of a feed state (16 R437). -/
def FeedSt.code : FeedSt → Nat
  | .absent => 0 | .under => 1 | .good => 2 | .overVolt => 3

/-- Feeds, limiter, reset and start registers (16 R436-R440). -/
structure Pwr where
  feedA : FeedSt := .absent
  feedB : FeedSt := .absent
  voltA : Nat := 0
  voltB : Nat := 0
  /-- Feed carrying the load: false A, true B. -/
  activeB : Bool := false
  switches : Nat := 0
  pwrFail : Bool := false
  /-- Input power of the last milliseconds in W, newest first, at most 1,000 (16 R427, R436). -/
  watts : List Nat := []
  cap : Nat := 2400
  gatedMs : Nat := 0
  duty : Nat := 16
  thermal : Bool := false
  powerHold : Bool := false
  /-- Rails that a canary found out of their window (16 R426), by number. -/
  railsOut : List Nat := []
  rstToken : Nat := 0
  rstStatus : StatusCode := 0
  /-- Partition whose reset PWR_RESET_STATUS reports as PENDING. -/
  rstPart : Option Nat := none
  boot : Nat := 0
  cause : Nat := 0
  fail : Nat := 0
  lcsHold : Bool := false
  stage : Nat := 0
  /-- The ROM runs and the pithead stage has been entered (16 R432 step 3). -/
  pithead : Bool := false
  stageTime : Tab Nat := []
  rootLock : Bool := false
  refOk : Bool := false
  resetLow : Bool := false
  /-- PERST# on J_HOST is high (16 R432). -/
  perstHigh : Bool := false
  dieTemp : Tab Int := []
  /-- A module reset has run and is not yet released (16 R434). -/
  inReset : Bool := false
  /-- Something runs: the module has power (false after a brown-out). -/
  powered : Bool := false
  deriving DecidableEq, Repr

/-- A RAS record (17 R442). -/
structure RasRec where
  seq : Nat
  uptime : BitVec 64
  cls : Nat
  str : Nat
  scope : Nat
  status : StatusCode
  index : Nat
  addr : Nat
  action : Nat
  count : Nat
  detail : Nat
  deriving DecidableEq, Repr

/-- One waiting or running assay test (17 R448, R449), and the class of its error. -/
structure Assay where
  cls : Nat := 2
  str : Nat
  index : Nat
  scope : Nat
  addr : Nat
  detail : Nat
  deriving DecidableEq, Repr

/-- The RAS log and assay of one half (17 R442-R449). -/
structure Ras where
  log : List RasRec := []
  next : Nat := 0
  lost : Nat := 0
  corrected : Tab Nat := []
  correctedNew : Tab Nat := []
  unexpected : Nat := 0
  lasting : Nat := 0
  transient : Nat := 0
  deferred : Nat := 0
  queue : List Assay := []
  testing : List Assay := []
  /-- Uptimes of the transient errors of each structure code * 2^32 + INDEX (17 R449). -/
  transients : Tab (List (BitVec 64)) := []
  idx : Tab Nat := []
  deriving DecidableEq, Repr

/-- Repair map entry states (10 R260). -/
inductive RepairSt where
  | soft | hard | retired
  deriving DecidableEq, Repr

/-- An entry of a stack's repair map (10 R260): bad has bit i set when spare i is bad. -/
structure Repair where
  sid : Nat
  pc : Nat
  bank : Nat
  row : Nat
  spare : Nat
  bad : Nat
  st : RepairSt
  /-- Power failed while the row was being made HARD: its spare is tested before it is used (10 R260). -/
  suspect : Bool := false
  deriving DecidableEq, Repr

/-- An HBM stack and its controller (10 R239, R263, R264). -/
structure Stack where
  temp : Nat := 0
  level : Nat := 0
  /-- 0 untrained, 1 training, 2 online, 3 draining, 4 offline, 5 repairing. -/
  state : Nat := 0
  repairs : List Repair := []
  hard : Nat := 0
  hardSpent : Nat := 0
  deriving DecidableEq, Repr

/-- An entry of the write-combining buffer (10 R243): bit i of mask set when byte i is held. -/
structure Wcb where
  line : Nat
  mask : Nat
  data : List Byte
  dross : Bool
  deriving DecidableEq, Repr

/-- A pseudo-channel (10 R243, R257, R263). A 64 KiB region is cleared when clearedAll holds and zeroed does not list it. -/
structure Pch where
  wcb : List Wcb := []
  clearedAll : Bool := false
  zeroed : Tab Bool := []
  /-- Lines written since the build in regions still cleared. -/
  written : Tab Bool := []
  fails : Nat := 0
  repaired : Nat := 0
  retiredCnt : Nat := 0
  wcbFull : Nat := 0
  rmws : Nat := 0
  /-- The next offset line of the key sweep. -/
  sweep : Nat := 0
  deriving DecidableEq, Repr

/-- A partition's memory key slots (10 R253-R256). other: 0 STANDBY, 1 PREVIOUS, 2 EMPTY. -/
structure KeySlots where
  current : Nat := 0
  other : Nat := 0
  gen0 : Option Nat := none
  gen1 : Option Nat := none
  token : Nat := 0
  rotations : Nat := 0
  status : StatusCode := 0
  oldLines : Nat := 0
  retireIdx : Nat := 0
  deriving DecidableEq, Repr

/-- Metadata of a line in a stack (10 R250): its EPOCH and DROSS bits, and whether its tag has come not to match. -/
structure LineMeta where
  epoch : Nat := 0
  dross : Bool := false
  badTag : Bool := false
  deriving DecidableEq, Repr

/-- HBM (10). mem lists the bytes of HPA space, lines the metadata by line address, retired the retired granules by HPA >> 12. -/
structure Hbm where
  stackTab : Tab Stack := []
  pchs : Tab Pch := []
  keys : Tab KeySlots := []
  keyGen : Nat := 0
  retired : Tab Bool := []
  /-- Regulator accounts by stack * 16 + partition (10 R247), and whether the window has held the partition. -/
  account : Tab Int := []
  heldWin : Tab Bool := []
  /-- HMC_PART_REG as it acts since the last window start (08 R202), by the same key. -/
  acting : Tab Nat := []
  /-- Requests that a regulator holds in the input buffer, oldest first, with the regulator's key (10 R247). -/
  held : List (Nat × Instr) := []
  deriving DecidableEq, Repr

/-- Directory states (09 R225). -/
inductive DirSt where
  | i | s | o | x
  deriving DecidableEq, Repr

/-- Kinds of transaction open on a line (09 R225, R226, R228, R232). -/
inductive TxnKind where
  | rds | rdu | upgrade | writeBack | read | write | partialWrite | evict
  deriving DecidableEq, Repr

/-- An open transaction of a directory entry (09 R225-R232). Masks are over agent indices. -/
structure Txn where
  kind : TxnKind
  /-- Agent 0-14, or 15 + master for a home access of the directory's half; one from the other half comes through agent 14 (09 R229); 79 is no
  requester. -/
  requester : Nat
  hint : Hint := .alloc
  /-- Agents whose SnpShared, SnpUnique, SnpInv or SnpCur has not reached them. -/
  shared : Nat := 0
  unique : Nat := 0
  inv : Nat := 0
  cur : Nat := 0
  /-- Snooped agents whose answer has not reached the home. -/
  due : Nat := 0
  /-- The owner answered O to SnpShared. -/
  ownerKept : Bool := false
  /-- Data forwarded or returned by an owner, with its dross bit, and whether they are dirty. -/
  data : Option (List Byte) := none
  dross : Bool := false
  dirty : Bool := false
  /-- Byte mask and data of a home write. -/
  mask : Nat := 0
  wdata : List Byte := []
  wdross : Bool := false
  /-- Every snoop is answered; the state in which the requester holds the line, and whether it needs no data. -/
  delivered : Bool := false
  grantSt : Moesi := .i
  noData : Bool := false
  /-- The request waits for a directory entry (R231), or at a proxy for the line from its home (R220). -/
  waitsEntry : Bool := false
  waitsHome : Bool := false
  /-- A proxy keeps an S copy of the line read (R226). -/
  keep : Bool := false
  /-- The line that waits for the entry being emptied (R232). -/
  forLine : Option Nat := none
  /-- The master, half * 64 + index (08 R198), to which a home access is answered; none where a command's own access runs whole. -/
  origin : Option Nat := none
  /-- The requester's timer has expired (08 R212): what it is given later is dropped. -/
  late : Bool := false
  deriving DecidableEq, Repr

/-- A directory entry, of a home or of a proxy (09 R225, R231). part is its partition, 16 for none; used orders the entries of
a set, least recently used first. -/
structure DirEnt where
  st : DirSt := .i
  owner : Nat := 15
  sharers : Nat := 0
  part : Nat := 16
  used : Nat := 0
  txn : Option Txn := none
  deriving DecidableEq, Repr

/-- A caching agent's copy of a line (09 R224). -/
structure Copy where
  st : Moesi := .i
  data : List Byte := []
  dross : Bool := false
  deriving DecidableEq, Repr

/-- A write-back in progress (09 R228): the buffered copy, whether a SnpUnique or SnpInv has emptied it, and what the home has
decided: 0 nothing yet, 1 Grant, 2 stale. -/
structure WbEnt where
  st : Moesi := .i
  data : List Byte := []
  dross : Bool := false
  dead : Bool := false
  phase : Nat := 0
  deriving DecidableEq, Repr

/-- A line held in an SLC (09 R218-R221). stamp orders the lines of a set, least recently used first. -/
structure SlcLine where
  way : Nat
  part : Nat
  data : List Byte
  dirty : Bool
  dross : Bool
  stamp : Int
  deriving DecidableEq, Repr

/-- A retry tally (09 R229). -/
structure RTally where
  half : Nat
  requester : Nat
  line : Nat
  /-- The Retry has reached the requester; the grant has been sent; the grant has reached the requester. -/
  delivered : Bool := false
  sent : Bool := false
  granted : Bool := false
  /-- Refused because every entry of the partition in the set was pinned (R231). -/
  full : Bool := false
  deriving DecidableEq, Repr

/-- Coherence and the SLC of both halves (09). Keys: half * 2^38 + line for slc and dir; (half * 16 + agent) * 2^38 + line for
copies and write-backs. The proxy's state of a line is the copy of agent 14 of its home's half; its data is the line in the
SLC of the other half. -/
structure Coh where
  slc : Tab (Option SlcLine) := []
  dir : Tab DirEnt := []
  copies : Tab Copy := []
  wbs : Tab (Option WbEnt) := []
  tallies : List RTally := []
  clock : Nat := 0
  /-- Ways disabled by the assay, per half (09 R236). -/
  waysOff : Tab Nat := []
  /-- Ways that the assay disabled in a cluster cache (17 R449), by INDEX of R443, an L1 instruction cache by 256 + INDEX. -/
  cacheWays : Tab Nat := []
  /-- Agents isolated (09 R233), per half. -/
  dead : Tab Nat := []
  reclaimAgent : Tab Nat := []
  reclaimPart : Tab Nat := []
  reclaimActive : Tab Bool := []
  recovered : Tab Nat := []
  drossLines : Tab Nat := []
  deriving DecidableEq, Repr

/-- The hub fabric (08). Keys of the regulator tables: (half * 64 + master) * 16 + partition. -/
structure Fab where
  account : Tab Int := []
  heldWin : Tab Bool := []
  /-- FAB_INJ_REG as it acts since the last window start (08 R202). -/
  acting : Tab Nat := []
  bridgeUp : Bool := false
  halfFailed : Tab Bool := []
  /-- Pair levels, major * 256 + minor, by half (13 R345); an unlisted half reads 1.2. -/
  levels : Tab Nat := []
  /-- Message routes (13 R337) by sending end * 32 + receiving end, sites 0-11 and clusters 12-27: 1 + sending module * 4 +
  receiving module, 0 for none. -/
  routes : Tab Nat := []
  /-- Requests of foreign chiplets that their site's regulator holds, oldest first, with the site (08 R202; 13 R346). -/
  held : List (Nat × ForeignReq) := []
  deriving DecidableEq, Repr

end Sys2Proof.Machine
end

