-- ==== Sys2Proof/Machine/State.lean ====
section
/-!
DEFINITION. The state of the module: everything the spec gives it, as plain data, and the queue of waiting commands. Tables
(Tab) list what differs from the reset value of their element type. Also what the module presents to the outside (Out), the
closed reasons a step can stop, and the state after reset.
-/

namespace Sys2Proof.Machine

/-- What the module presents to the outside, oldest first in State.out. -/
inductive Out where
  /-- An MSI-X vector delivered: function 0-15 for VF n, 16 for PF0 (12 R317). -/
  | msix (fn vec : Nat)
  /-- The status and value a register access or a memory access on path p returns (01 R21, R25). -/
  | access (status : StatusCode) (value : Nat)
  /-- Bytes that a core's load, AMO or fetch returned (06 R143). -/
  | coreData (core : Nat) (data : List Byte)
  /-- A completion toward the host for VF n: UR, EP and data (12 R307, R310; 17 R451). -/
  | completion (n : Nat) (ur ep : Bool) (data : List Byte)
  /-- A read or write request toward a host address for Pn (12 R304, R310). -/
  | hostRead (n tag addr len : Nat) (tbit : Bool)
  | hostWrite (n addr : Nat) (data : List Byte) (ep tbit : Bool)
  /-- A message, grant or return delivered to a foreign chiplet's endpoint (03 R82). -/
  | toChiplet (addr : Nat) (f : Flight)
  /-- The answer of a home or of a site ingress to a request (09 R226; 13 R346). -/
  | homeData (master line : Nat) (status : StatusCode) (data : List Byte) (dross : Bool)
  /-- An Ethernet frame sent (14 R371), and a pause for one priority (14 R366). -/
  | frame (port : Nat) (bytes : List Byte)
  | pause (port prio : Nat) (on : Bool)
  /-- RoCEv2 answers of queue pair k of Pn: 0 ACK, 1 NAK remote access error, 2 NAK sequence, 3 READ response, 4 CNP,
  5 a request sent (14 R368-R373). -/
  | roce (n k kind psn : Nat) (data : List Byte)
  /-- A ring frame sent on half h's port (14 R376). -/
  | ring (h cls dest : Nat) (payload : List Byte)
  /-- A link-level answer on half h's port (14 R376): an acknowledgement of every frame below seq, or a NAK from seq on. -/
  | ringCtl (h seq : Nat) (nak : Bool)
  /-- An OSP sideband message to a site (13 R338). -/
  | osp (site code payload : Nat)
  /-- An SPDM response of a function: request code, and BUSY or an error (15 R396, R406). -/
  | spdm (fn code : Nat) (ok : Bool) (data : List Byte)
  /-- A test-access instruction's effect on a die: it acts as itself, or as BYPASS (13 R356; 15 R404). -/
  | tap (acts : Bool)
  deriving DecidableEq, Repr

/-- Why a step stops with a fault. No command of this model raises one: every event the spec calls a fault is a next state of
the module (log entry 8). -/
inductive Fault where
  /-- Raised by no command; safe. -/
  | none
  deriving DecidableEq, Repr

/-- Why a command is refused. -/
inductive Refusal where
  /-- Raised by the dispatch of a command that has no meaning yet; safe. -/
  | notModelled (mnemonic : String)
  deriving DecidableEq, Repr

/-- The state of the module. Keys of the tables: cells by global id; msgs by cell address * 4096 + context (context 0 for
cores and endpoints); ctxs by partition * 4096 + context; saved by that * 192 + cell; ress by site * 16 + partition; pools by
partition * 4 + pool; fences by partition * 4096 + fence; queues by partition * 128 + queue; the rest by their own number. -/
structure State where
  /-- Commands that wait, first in first out. -/
  pending : List Instr := []
  /-- The model's own counter of free values used (log entry 2); not the spec's. -/
  freeCtr : Nat := 0
  /-- What the module has presented to the outside (log entry 9); not the spec's. -/
  out : List Out := []
  /-- What the command that runs has yet to judge; empty between commands; not the spec's. -/
  dues : List Due := []
  /-- HBM bytes by HPA; an unlisted byte reads 0 (log entry 10). -/
  mem : List Host.Cell := []
  /-- Metadata of HBM lines by line address. -/
  lines : Tab LineMeta := []
  /-- Registers with no home of their own below, and counters, by HPA. -/
  regs : Tab Nat := []
  /-- Staged copies of RWS registers that differ from the committed ones, by HPA (02 R52): value + 1. -/
  staged : Tab Nat := []
  pat : Pat := {}
  fab : Fab := {}
  coh : Coh := {}
  hbm : Hbm := {}
  sec : Sec := {}
  pwr : Pwr := {}
  ras : Tab Ras := []
  cells : Tab Cell := []
  msgs : Tab MsgState := []
  egress : List Egress := []
  flights : List Flight := []
  ctxs : Tab Ctx := []
  saved : Tab Saved := []
  schs : Tab Sch := []
  ress : Tab Res := []
  cores : Tab Core := []
  /-- Bytes of the clusters' timer and software interrupt registers (06 R142), by cluster * 65536 + offset. -/
  aclint : Tab Byte := []
  codes : Tab Code := []
  rxqs : Tab RxQ := []
  pools : Tab Pool := []
  vfs : Tab Vf := []
  queues : Tab Queue := []
  fences : Tab Nat := []
  pcie : Pcie := {}
  chans : Tab Chan := []
  /-- The channel that issued last on each DMA engine (11 R273). -/
  dmaLast : Tab Nat := []
  /-- The channels of each DMA engine whose next burst waits, the oldest first (11 R273). -/
  dmaWait : Tab (List Nat) := []
  /-- The walk cache of each DMA engine, the entry used last first (11 R290). -/
  walkCaches : Tab (List WalkEnt) := []
  xlts : Tab Xlt := []
  pageReady : List PageReady := []
  sites : Tab Site := []
  net : Net := {}
  ring : Ring := {}
  colls : Tab CollPart := []
  twins : Tab Twin := []
  deriving DecidableEq, Repr

/-- The outcome of a command. -/
abbrev Res' := Host.Outcome State Fault Refusal

/-- The module right after reset: every field at its reset value, nothing powered, no command waiting. -/
def State.reset : State := {}

end Sys2Proof.Machine
end

