-- ==== Sys2Proof/Machine/Ops.lean ====
section
/-!
DEFINITION. Named operations over the state that every chapter uses: ownership (02 R30), address maps (01 R22), register homes,
the sealed event log (02 R62-R65), interrupts (12 R317), RAS records (17 R442-R445).
-/

namespace Sys2Proof.Machine

/-- A total meaning: the command answers the next state. -/
def done (s : State) : Res' := .next s

/-- Run f only where b holds; otherwise the event has nothing to act on and the state stays (log entry 13). -/
def onlyIf (b : Bool) (f : State → State) (s : State) : State := if b then f s else s

/-- Fold a list of numbers over the state. -/
def forAll (l : List Nat) (f : Nat → State → State) (s : State) : State := l.foldl (fun s i => f i s) s

/-- The 16 partitions. -/
def allParts : List Nat := List.range 16

/-- Partition n. -/
def State.part (s : State) (n : Nat) : Part := s.pat.parts.get {} n

/-- Change partition n. -/
def State.updPart (s : State) (n : Nat) (f : Part → Part) : State :=
  { s with pat := { s.pat with parts := s.pat.parts.upd {} n f } }

/-- What Pn owns (02 R30). -/
def State.slice (s : State) (n : Nat) : Slice := (s.part n).slice

/-- Pn is READY (02 R32). -/
def State.ready (s : State) (n : Nat) : Bool := (s.part n).state == .ready

/-- The first partition whose slice satisfies p: at most one does (02 R30). -/
def State.ownerBy (s : State) (p : Slice → Bool) : Option Nat := allParts.find? (fun n => p (s.slice n))

/-- Owner of matrix cell i (02 R30; a foreign chiplet's positions included, R31). -/
def State.ownerCell (s : State) (i : Nat) : Option Nat := s.ownerBy (fun l => l.cells.testBit i)
/-- Owner of cluster c. -/
def State.ownerCluster (s : State) (c : Nat) : Option Nat := s.ownerBy (fun l => l.clusters.testBit c)
/-- Owner of service core c. -/
def State.ownerCore (s : State) (c : Nat) : Option Nat := s.ownerCluster (c / 8)
/-- Owner of pseudo-channel i. -/
def State.ownerPch (s : State) (i : Nat) : Option Nat := s.ownerBy (fun l => l.pchs.testBit i)
/-- Owner of DMA channel i (11 R265). -/
def State.ownerChan (s : State) (i : Nat) : Option Nat := s.ownerBy (fun l => l.dma.testBit i)
/-- Owner of Ethernet queue q, by its group (06 R153). -/
def State.ownerEthQ (s : State) (q : Nat) : Option Nat := s.ownerBy (fun l => l.ethq.testBit (q / 16))
/-- Owner of way w of half h (09 R218). -/
def State.ownerWay (s : State) (h w : Nat) : Option Nat := s.ownerBy (fun l => l.ways.testBit (h * 32 + w))

/-- Half of a site (01 R15). -/
def halfOfSite (k : Nat) : Nat := if k ≤ 5 then 0 else 1
/-- Half of a stack. -/
def halfOfStack (k : Nat) : Nat := if k ≤ 7 then 0 else 1
/-- Half of a service core. -/
def halfOfCore (c : Nat) : Nat := if c ≤ 63 then 0 else 1

/-- Bytes of a pseudo-channel (01 R20). -/
def pchBytes : Nat := 0x48000000

/-- PPA size of Pn (01 R22). -/
def State.ppaSize (s : State) (n : Nat) : Nat := (s.slice n).order.length * pchBytes

/-- HPA of a PPA of Pn, none at or beyond its size (01 R22). -/
def State.ppaToHpa (s : State) (n ppa : Nat) : Option Nat :=
  let order := (s.slice n).order
  if ppa < s.ppaSize n then
    some (nth order ((ppa >>> 12) % order.length) * pchBytes + ((ppa >>> 12) / order.length) * 4096 + ppa % 4096)
  else none

/-- PPA of an HPA in a pseudo-channel of Pn, none outside Pn's PPA (17 R445). -/
def State.hpaToPpa (s : State) (n hpa : Nat) : Option Nat :=
  let order := (s.slice n).order
  match order.findIdx? (fun p => p == hpa / pchBytes) with
  | some i => some ((((hpa % pchBytes) / 4096) * order.length + i) * 4096 + hpa % 4096)
  | none => none

/-- A fresh position of the model's free-value counter (log entry 2). -/
def State.tick (s : State) : State := { s with freeCtr := s.freeCtr + 1 }

/-- Present something to the outside. -/
def State.emit (s : State) (o : Out) : State := { s with out := s.out ++ [o] }

/-- Register at an HPA: committed or plain value. -/
def State.reg (s : State) (a : Nat) : Nat := s.regs.get 0 a
/-- Set a register. -/
def State.setReg (s : State) (a v : Nat) : State := { s with regs := s.regs.set 0 a v }
/-- Add to a counter register of the given width, saturating. -/
def State.addReg (s : State) (a width x : Nat) : State := s.setReg a (satAdd width (s.reg a) x)

/-- Register base of half h (01 R21, R23), and of block N in it. -/
def regBase (h : Nat) : Nat := 0xF0000000000 + h * 0x8000000000
/-- HPA of offset o of block N of half h (01 R23). -/
def regAddr (h N o : Nat) : Nat := regBase h + N * 0x1000000 + o

/-- Deliver a vector of function fn (16: PF0), or set its pending bit where it is masked or MSI-X is off (12 R317). -/
def State.raise (s : State) (fn vec : Nat) : State :=
  let k := fn * 2048 + vec
  if (s.pcie.msix.get {} k).masked || s.pcie.msixOff.testBit fn then
    { s with pcie := { s.pcie with msix := s.pcie.msix.upd {} k (fun m => { m with pending := true }) } }
  else if s.pcie.up then s.emit (.msix fn vec) else s

/-- Room in the sealed log for an act that a role requests (02 R65): places outside the reserve of 1,024. -/
def State.logRoom (s : State) : Bool := decide (s.sec.log.next - s.sec.log.acked < 64512)

/-- The 48 bytes 0x00-0x2F of a log record (02 R63). -/
def logBytes (seq boot : Nat) (up : BitVec 64) (event scope : Nat) (status : StatusCode) (role : Nat) (detail : List Byte) :
    List Byte :=
  leBytes 8 seq ++ leBytes 4 boot ++ zeros 4 ++ leBytes 8 up.toNat ++ leBytes 2 event ++ leBytes 1 scope
    ++ leBytes 1 status.toNat ++ leBytes 1 role ++ zeros 3 ++ bslice detail 0 16

/-- The 64 bytes of a log record (02 R63). -/
def LogRec.bytes (r : LogRec) : List Byte :=
  logBytes r.seq r.boot r.uptime r.event r.scope r.status r.role r.detail ++ r.chain

/-- The digest as bytes: digest byte 0 first, which is the number's most significant byte (02 R37, R468). -/
def digestBytes (d : BitVec 384) : List Byte := (leBytes 48 d.toNat).reverse

/-- The CHAIN of a record: first 128 bits of SHA-384 of the previous CHAIN and bytes 0x00-0x2F (02 R63). -/
def chainOf (prev body : List Byte) : List Byte := (digestBytes (Config.sha384 (prev ++ body))).take 16

/-- Write a record to the sealed log, into the reserve if need be; a full reserve counts it in SEC_LOG_LOST (02 R65). An empty
detail stands for a DETAIL that no rule gives: its bytes are free (log entry 37). -/
def State.log (s : State) (event scope : Nat) (status : StatusCode) (role : Nat) (detail : List Byte) : State :=
  let l := s.sec.log
  if l.next - l.acked < 65536 then
    let up := Config.uptime s.freeCtr
    let detail := if detail.isEmpty then (List.range 16).map (Config.freeByte s.freeCtr) else detail
    let body := logBytes l.next s.pwr.boot up event scope status role detail
    let chain := chainOf l.lastChain body
    let r : LogRec := { seq := l.next, boot := s.pwr.boot, uptime := up, event := event, scope := scope, status := status,
                        role := role, detail := bslice detail 0 16, chain := chain }
    let recs := (if l.recs.length < 65536 then l.recs else l.recs.drop 1) ++ [r]
    let s := { s.tick with sec := { s.sec with log := { l with recs := recs, next := l.next + 1, lastChain := chain } } }
    if l.next + 1 - l.acked = 63488 || l.next + 1 - l.acked = 64512 then s.raise 16 6 else s
  else { s with sec := { s.sec with log := { l with lost := satAdd 64 l.lost 1 } } }

/-- Code of a RAS structure (17 R443). -/
def rasCode : RasStruct → Nat
  | .hbmRow => 1 | .slcSet => 2 | .fabricLink => 3 | .scratchBank => 4 | .clusterCache => 5 | .siteLink => 6 | .stack => 7
  | .agent => 8 | .dmaEngine => 9 | .pcie => 10 | .ethPort => 11 | .ringPort => 12 | .half => 13

/-- Code of an error class (17 R441). -/
def clsCode : ErrClass → Nat
  | .corrected => 1 | .contained => 2 | .context => 3 | .partition => 4 | .module => 5

/-- The RAS block of half h. -/
def State.rasOf (s : State) (h : Nat) : Ras := s.ras.get {} h
/-- Change the RAS block of half h. -/
def State.updRas (s : State) (h : Nat) (f : Ras → Ras) : State := { s with ras := s.ras.upd {} h f }

/-- Does record r merge with a new error of this structure, INDEX and class: it is less than 1 ms old (17 R444). -/
def rasMerges (now : BitVec 64) (cls str index : Nat) (r : RasRec) : Bool :=
  r.str == str && r.index == index && r.cls == cls && decide ((now - r.uptime).toNat < 1000)

/-- Write a RAS record of half h (17 R442), and raise its vectors (R445). -/
def State.rasWrite (s : State) (h cls str scope : Nat) (status : StatusCode) (index addr action count detail : Nat) : State :=
  let r := s.rasOf h
  let e : RasRec := { seq := r.next, uptime := Config.uptime s.freeCtr, cls := cls, str := str, scope := scope, status := status
                      index := index, addr := addr, action := action, count := min count 65535, detail := detail }
  let full := decide (1024 ≤ r.log.length)
  let s := s.tick.updRas h (fun r =>
    { r with log := (if full then r.log.drop 1 else r.log) ++ [e], next := r.next + 1
             lost := if full then satAdd 64 r.lost 1 else r.lost })
  let s := if cls = 1 then s else s.raise 16 0
  if scope < 16 then s.raise scope 4 else s

/-- Write a RAS record of half h, or merge it into a recent one (17 R442, R444). -/
def State.rasRecord (s : State) (h cls str scope : Nat) (status : StatusCode) (index addr action count detail : Nat) : State :=
  let r := s.rasOf h
  let now := Config.uptime s.freeCtr
  if r.log.any (rasMerges now cls str index) then
    s.tick.updRas h (fun r => { r with log := r.log.map (fun e =>
      if rasMerges now cls str index e then { e with count := satAdd 16 e.count count } else e) })
  else s.rasWrite h cls str scope status index addr action count detail

/-- k corrected errors of a structure (17 R444): they are counted, and make no record each. -/
def State.corrected (s : State) (h str k : Nat) : State :=
  s.updRas h (fun r => { r with corrected := r.corrected.upd 0 str (fun c => satAdd 64 c k)
                                correctedNew := r.correctedNew.upd 0 str (fun c => satAdd 64 c k) })

/-- One error of class 2-4 of a tested structure joins its assay entry, or queues a test, or finds the queue full
(17 R448). -/
def State.queueAssay (s : State) (h : Nat) (e : Assay) : State :=
  let r := s.rasOf h
  let same := fun (x : Assay) => x.str == e.str && x.index == e.index
  if 5 < e.str || r.queue.any same || r.testing.any same then s
  else if r.queue.length < 32 then s.updRas h (fun r => { r with queue := r.queue ++ [e] })
  else s.updRas h (fun r => { r with deferred := satAdd 16 r.deferred 1 })

/-- Does an error of this structure find the assay queue full (17 R448): its record carries ACTION 7. -/
def State.assayFull (s : State) (h str index : Nat) : Bool :=
  let r := s.rasOf h
  let same := fun (x : Assay) => x.str == str && x.index == index
  decide (str ≤ 5) && !(r.queue.any same) && !(r.testing.any same) && decide (32 ≤ r.queue.length)

/-- An error of class 2-5: its record and its test (17 R444, R448). -/
def State.rasError (s : State) (h cls str scope : Nat) (status : StatusCode) (index addr detail : Nat) : State :=
  let action := if cls ≤ 4 && s.assayFull h str index then 7 else 0
  let s := s.rasRecord h cls str scope status index addr action 1 detail
  if cls ≤ 4 then s.queueAssay h { cls := cls, str := str, index := index, scope := scope, addr := addr, detail := detail } else s

/-- A scratchpad bank of cell i waits for a test or is under test: the cell takes no dispatch (17 R449). -/
def State.cellTested (s : State) (i : Nat) : Bool :=
  let r := s.rasOf (if i < 96 then 0 else 1)
  (r.queue ++ r.testing).any (fun e => e.str == 4 && e.index / 256 == i)

/-- Pn's STATE changes: PF0 vector 16 + n and VF n vector 5 (12 R317). -/
def State.stateVectors (s : State) (n : Nat) : State := (s.raise 16 (16 + n)).raise n 5

/-- FAB_ISOLATED of half h (08 R208), and one of its bits. -/
def isoAddr (h : Nat) : Nat := regAddr h 2 0x1018
/-- Is the attachment point isolated. -/
def State.isolated (s : State) (h bit : Nat) : Bool := (s.reg (isoAddr h)).testBit bit
/-- Set or clear a bit of FAB_ISOLATED. -/
def State.setIso (s : State) (h bit : Nat) (b : Bool) : State := s.setReg (isoAddr h) (putBit (s.reg (isoAddr h)) bit b)

/-- Is the site isolated as dead (08 R211). -/
def State.siteIsolated (s : State) (k : Nat) : Bool := s.isolated (halfOfSite k) (k % 6)

/-- Cell i. -/
def State.cell (s : State) (i : Nat) : Cell := s.cells.get {} i
/-- Change cell i. -/
def State.updCell (s : State) (i : Nat) (f : Cell → Cell) : State := { s with cells := s.cells.upd {} i f }
/-- Context c of Pn, as its table holds it. -/
def State.ctx (s : State) (n c : Nat) : Ctx := s.ctxs.get {} (n * 4096 + c)
/-- Change context c of Pn. -/
def State.updCtx (s : State) (n c : Nat) (f : Ctx → Ctx) : State := { s with ctxs := s.ctxs.upd {} (n * 4096 + c) f }
/-- Is context c of Pn LOST: on its own, or with its partition (12 R330). -/
def State.ctxLost (s : State) (n c : Nat) : Bool := (s.ctx n c).state == .lost || (s.part n).state == .lost
/-- Service core i. -/
def State.core (s : State) (i : Nat) : Core := s.cores.get {} i
/-- Change core i. -/
def State.updCore (s : State) (i : Nat) (f : Core → Core) : State := { s with cores := s.cores.upd {} i f }
/-- An FJ.EVWAIT that waits ends as soon as one of its events is pending (06 R149): it takes them, as one act. -/
def Core.settleEvents (c : Core) : Core :=
  match c.waiting with
  | some (.fjEvwait _ m) =>
    let hit := c.evt &&& m.toNat
    if hit = 0 then c else { c with waiting := none, rd := BitVec.ofNat 64 hit, evt := c.evt - hit }
  | _ => c
/-- Set event bit b of a core's fjevt (06 R152). -/
def State.setEvent (s : State) (core b : Nat) : State :=
  s.updCore core (fun c => ({ c with evt := setBit c.evt b } : Core).settleEvents)
/-- DMA channel i. -/
def State.chan (s : State) (i : Nat) : Chan := s.chans.get {} i
/-- Change channel i. -/
def State.updChan (s : State) (i : Nat) (f : Chan → Chan) : State := { s with chans := s.chans.upd {} i f }
/-- VF n. -/
def State.vf (s : State) (n : Nat) : Vf := s.vfs.get {} n
/-- Change VF n. -/
def State.updVf (s : State) (n : Nat) (f : Vf → Vf) : State := { s with vfs := s.vfs.upd {} n f }
/-- Site k. -/
def State.site (s : State) (k : Nat) : Site := s.sites.get {} k
/-- Change site k. -/
def State.updSite (s : State) (k : Nat) (f : Site → Site) : State := { s with sites := s.sites.upd {} k f }
/-- Stack k. -/
def State.stack (s : State) (k : Nat) : Stack := s.hbm.stackTab.get {} k
/-- Change stack k. -/
def State.updStack (s : State) (k : Nat) (f : Stack → Stack) : State :=
  { s with hbm := { s.hbm with stackTab := s.hbm.stackTab.upd {} k f } }
/-- Pseudo-channel i. -/
def State.pch (s : State) (i : Nat) : Pch := s.hbm.pchs.get {} i
/-- Change pseudo-channel i. -/
def State.updPch (s : State) (i : Nat) (f : Pch → Pch) : State :=
  { s with hbm := { s.hbm with pchs := s.hbm.pchs.upd {} i f } }
/-- Key slots of Pn. -/
def State.keys (s : State) (n : Nat) : KeySlots := s.hbm.keys.get {} n
/-- Change the key slots of Pn. -/
def State.updKeys (s : State) (n : Nat) (f : KeySlots → KeySlots) : State :=
  { s with hbm := { s.hbm with keys := s.hbm.keys.upd {} n f } }
/-- SCH state of Pn. -/
def State.sch (s : State) (n : Nat) : Sch := s.schs.get {} n
/-- Change the SCH state of Pn. -/
def State.updSch (s : State) (n : Nat) (f : Sch → Sch) : State := { s with schs := s.schs.upd {} n f }
/-- Residency of Pn on a site. -/
def State.res (s : State) (site n : Nat) : Res := s.ress.get {} (site * 16 + n)
/-- Change the residency of Pn on a site. -/
def State.updRes (s : State) (site n : Nat) (f : Res → Res) : State := { s with ress := s.ress.upd {} (site * 16 + n) f }
/-- XLT state of Pn. -/
def State.xlt (s : State) (n : Nat) : Xlt := s.xlts.get {} n
/-- Change the XLT state of Pn. -/
def State.updXlt (s : State) (n : Nat) (f : Xlt → Xlt) : State := { s with xlts := s.xlts.upd {} n f }
/-- Code-load state of Pn. -/
def State.code (s : State) (n : Nat) : Code := s.codes.get {} n
/-- Change the code-load state of Pn. -/
def State.updCode (s : State) (n : Nat) (f : Code → Code) : State := { s with codes := s.codes.upd {} n f }
/-- Twin state of Pn. -/
def State.twin (s : State) (n : Nat) : Twin := s.twins.get {} n
/-- Change the twin state of Pn. -/
def State.updTwin (s : State) (n : Nat) (f : Twin → Twin) : State := { s with twins := s.twins.upd {} n f }
/-- Message state under a key of State.msgs. -/
def State.msgSt (s : State) (k : Nat) : MsgState := s.msgs.get {} k
/-- Change a message state. -/
def State.updMsg (s : State) (k : Nat) (f : MsgState → MsgState) : State := { s with msgs := s.msgs.upd {} k f }
/-- Queue q of Pn. -/
def State.queue (s : State) (n q : Nat) : Queue := s.queues.get {} (n * 128 + q)
/-- Change queue q of Pn. -/
def State.updQueue (s : State) (n q : Nat) (f : Queue → Queue) : State :=
  { s with queues := s.queues.upd {} (n * 128 + q) f }

/-- Pn is confidential (15 R403). -/
def State.confidential (s : State) (n : Nat) : Bool := (s.part n).conf

/-- Operator paths (01 R19): PF0 BAR0 and MCTP. -/
def isOper : Path → Bool
  | .pf0 => true | .mctp => true | _ => false

/-- Is the path that of hub firmware (01 R27). -/
def isFirmware : Path → Bool
  | .firmware _ => true | _ => false

/-- Does path p reach a register of Pn: its VF, its alias, or hub firmware at HPA (01 R27; 02 R53). -/
def reaches (p : Path) (n : Nat) : Bool :=
  match p with
  | .vf m => m.val == n
  | .partAlias m => m.val == n
  | .firmware _ => true
  | _ => false

/-- The pattern whose settings act: the one being applied from PHASE 2 on, else the running one (02 R44, R58). -/
def State.inForce (s : State) : Option Pattern := if 2 ≤ s.pat.phase && s.pat.phase ≤ 3 then s.pat.cand.orElse (fun _ => s.pat.running) else s.pat.running

/-- Static priority of Pn: its PRIORITIES entry, else 2 (08 R198, R199; FAB_PART_PRIO). -/
def State.partPrio (s : State) (n : Nat) : Nat :=
  match s.inForce with
  | some p => match p.priorities.find? (fun e => e.ofPart && e.target == n) with
    | some e => e.prio
    | none => 2
  | none => 2

/-- Ring port of half h (14 R375). -/
def State.ringPort (s : State) (h : Nat) : RingPort := s.ring.ports.get {} h
/-- Change the ring port of half h. -/
def State.updRingPort (s : State) (h : Nat) (f : RingPort → RingPort) : State :=
  { s with ring := { s.ring with ports := s.ring.ports.upd {} h f } }

/-- Payload bytes of frames that are kept (14 R376). -/
def frameBytes (l : List RingFrame) : Nat := l.foldl (fun a f => a + f.payload.length) 0

/-- The waiting frame of the lowest class that waits longest. -/
def firstOfClass (l : List RingFrame) : Option RingFrame :=
  l.foldl (fun m f => match m with | none => some f | some g => if f.cls < g.cls then some f else some g) none

/-- The frame that a port serves next (14 R376): strict priority, but class 3 takes one frame in eight while it holds data. -/
def RingPort.next (p : RingPort) : Option RingFrame :=
  if 7 ≤ p.since3 then (p.waiting.find? (fun f => f.cls == 3)).orElse (fun _ => firstOfClass p.waiting) else firstOfClass p.waiting

/-- A port may send a frame (14 R376, R378): the adit is OPEN, the link is up and the 4 MiB retry buffer has room. -/
def State.ringOpen (s : State) (h : Nat) (f : RingFrame) : Bool :=
  s.ring.adit == 1 && (s.ringPort h).link == 2 && decide (frameBytes (s.ringPort h).retry + f.payload.length ≤ 4194304)

/-- A port sends a frame: it takes the next link sequence number and is kept until acknowledged (14 R376). -/
def RingPort.sent (p : RingPort) (f : RingFrame) : RingPort :=
  let rest := p.waiting.erase f
  { p with nextSeq := p.nextSeq + 1, waiting := rest, retry := p.retry ++ [{ f with seq := p.nextSeq }]
           since3 := if f.cls = 3 || !(rest.any (fun x => x.cls == 3)) then 0 else p.since3 + 1 }

/-- A port sends what waits, as far as it may (14 R376). -/
def State.ringDrain (h : Nat) : Nat → State → State
  | 0, s => s
  | fuel + 1, s =>
    match (s.ringPort h).next with
    | none => s
    | some f =>
      if s.ringOpen h f then
        State.ringDrain h fuel ((s.updRingPort h (fun p => p.sent f)).emit (.ring h f.cls f.dest f.payload))
      else s

/-- Send a frame on half h's port, or let it wait there (14 R376). dest 64 is every member in the direction of travel. -/
def State.ringSend (s : State) (h cls dest : Nat) (payload : List Byte) : State :=
  let s := s.updRingPort h (fun p => { p with waiting := p.waiting ++ [{ seq := 0, cls := cls, dest := dest, payload := payload }] })
  State.ringDrain h (s.ringPort h).waiting.length s

/-- Send bytes as frames of at most 4 KiB (14 R376). -/
def State.ringSendAll (s : State) (h cls dest : Nat) (bytes : List Byte) : State :=
  (List.range ((bytes.length + 4095) / 4096)).foldl (fun s i => s.ringSend h cls dest ((bytes.drop (4096 * i)).take 4096)) s

/-- Change the collectives of Pn. -/
def State.updColl (s : State) (n : Nat) (f : CollPart → CollPart) : State := { s with colls := s.colls.upd {} n f }
/-- Collectives of Pn. -/
def State.coll (s : State) (n : Nat) : CollPart := s.colls.get {} n

end Sys2Proof.Machine
end

