-- ==== Sys2Proof/Machine/Regulate.lean ====
section
/-!
DEFINITION. Byte regulators: the injection regulators of the fabric (08 R201-R206) and the stack regulators of the HBM
controllers (10 R247, R248). A window's account, the hold, and the charge.
-/

namespace Sys2Proof.Machine

/-- Master i of half h is regulated (08 R201). -/
def regulated (h i : Nat) : Bool := decide (i ≤ 5) || (decide (8 ≤ i) && decide (i ≤ 23)) || i == 25 || (i == 26 && h == 0)

/-- Key of the injection regulator of master i of half h for Pn. -/
def injKey (h i n : Nat) : Nat := (h * 64 + i) * 16 + n
/-- HPA of FAB_INJ_REG (08 R205). -/
def injRegAddr (h i n : Nat) : Nat := regAddr h 2 (0x10000 + i * 0x80 + n * 8)
/-- HPA of FAB_INJ_STALL. -/
def injStallAddr (h i n : Nat) : Nat := regAddr h 2 (0x20000 + i * 0x80 + n * 8)

/-- A request of bytes at a regulator: with BUDGET 0, or an account above 0, it is issued (08 R202). -/
def regOpen (acting : Nat) (account : Int) : Bool := bits acting 19 0 == 0 || decide (0 < account)
/-- The account after a request is issued: BUDGET 0 charges nothing. -/
def regCharge (acting : Nat) (account : Int) (bytes : Nat) : Int :=
  if bits acting 19 0 = 0 then account else account - bytes
/-- The account at a window start: overdraft carried, surplus lost (08 R202). -/
def regRefill (budget : Nat) (account : Int) : Int := min account 0 + budget * 4096

/-- Committed values act from a window start that is a multiple of their own length (08 R202): one of a length no greater than the old is
always so; of a longer one, whether this start is such a multiple is a free choice. -/
def regAdopts (old new : Nat) (free : Bool) : Bool := decide (bits new 34 32 ≤ bits old 34 32) || free

/-- Master i of half h may inject for Pn now. -/
def State.injOpen (s : State) (h i n : Nat) : Bool :=
  regOpen (s.fab.acting.get 0 (injKey h i n)) (s.fab.account.get 0 (injKey h i n))
/-- Charge the bytes of an injected request. -/
def State.injCharge (s : State) (h i n bytes : Nat) : State :=
  let k := injKey h i n
  { s with fab := { s.fab with account := s.fab.account.upd 0 k (fun a => regCharge (s.fab.acting.get 0 k) a bytes) } }
/-- A request of Pn is held at master i: FAB_INJ_STALL counts the window once (08 R202). -/
def State.injHold (s : State) (h i n : Nat) : State :=
  let k := injKey h i n
  if s.fab.heldWin.get false k then s
  else ({ s with fab := { s.fab with heldWin := s.fab.heldWin.set false k true } }).addReg (injStallAddr h i n) 64 1
/-- Inject a request of bytes or hold it: the answer says which. -/
def State.inject (s : State) (h i n bytes : Nat) : State × Bool :=
  if s.injOpen h i n then (s.injCharge h i n bytes, true) else (s.injHold h i n, false)
/-- A window of an injection regulator starts: the account is refilled under the values that act from here on (08 R202). -/
def State.injRefill (s : State) (h i n : Nat) : State :=
  let k := injKey h i n
  let old := s.fab.acting.get 0 k
  let new := s.reg (injRegAddr h i n)
  let v := if regAdopts old new (Config.freeBool s.freeCtr) then new else old
  { s.tick with fab := { s.fab with
      acting := s.fab.acting.set 0 k v
      account := s.fab.account.upd 0 k (regRefill (bits v 19 0))
      heldWin := s.fab.heldWin.set false k false } }

/-- HPA of a register of stack k's controller slot (01 R24). -/
def hmcAddr (k o : Nat) : Nat := regAddr (halfOfStack k) 4 (k * 0x10000 + o)
/-- Stack k may issue for Pn now (10 R247). -/
def State.stkOpen (s : State) (k n : Nat) : Bool :=
  regOpen (s.hbm.acting.get 0 (k * 16 + n)) (s.hbm.account.get 0 (k * 16 + n))
/-- Bytes issued to stack k for Pn: the account and HMC_PART_BYTES (10 R247, R263). -/
def State.stkCharge (s : State) (k n bytes : Nat) : State :=
  let key := k * 16 + n
  ({ s with hbm := { s.hbm with account := s.hbm.account.upd 0 key (fun a => regCharge (s.hbm.acting.get 0 key) a bytes) } }).addReg
    (hmcAddr k (0x110 + n * 0x20)) 64 bytes
/-- A request of Pn is held at stack k: HMC_PART_STALL counts the window once. -/
def State.stkHold (s : State) (k n : Nat) : State :=
  let key := k * 16 + n
  if s.hbm.heldWin.get false key then s
  else ({ s with hbm := { s.hbm with heldWin := s.hbm.heldWin.set false key true } }).addReg (hmcAddr k (0x108 + n * 0x20)) 64 1
/-- A window of a stack's regulator starts (10 R247). -/
def State.stkRefill (s : State) (k n : Nat) : State :=
  let key := k * 16 + n
  let old := s.hbm.acting.get 0 key
  let new := s.reg (hmcAddr k (0x100 + n * 0x20))
  let v := if regAdopts old new (Config.freeBool s.freeCtr) then new else old
  { s.tick with hbm := { s.hbm with
      acting := s.hbm.acting.set 0 key v
      account := s.hbm.account.upd 0 key (regRefill (bits v 19 0))
      heldWin := s.hbm.heldWin.set false key false } }

end Sys2Proof.Machine
end

