-- ==== Sys2Proof/Machine/Memory.lean ====
section
/-!
DEFINITION. Memory: the lines of HBM with their metadata (10 R249-R251, R257, R262), the write-combining buffers (R243, R244),
the newest copy of a line and a write at its home (09 R226), and accesses of a partition by PPA (01 R22). The key of a line is
its line address HPA[43:6]. Encryption is not visible to any command: plaintext is kept, with the key slot that holds it.
-/

namespace Sys2Proof.Machine

/-- Lines of a pseudo-channel (01 R20). -/
def pchLines : Nat := 0x1200000
/-- Pseudo-channel of a line. -/
def pchOfLine (l : Nat) : Nat := l / pchLines
/-- Stack of a line. -/
def stackOfLine (l : Nat) : Nat := pchOfLine l / 32
/-- Home half of a line (01 R13). -/
def homeOf (l : Nat) : Nat := if pchOfLine l ≤ 255 then 0 else 1
/-- 64 KiB region of a line within its pseudo-channel (10 R257). -/
def regionOf (l : Nat) : Nat := (l % pchLines) / 1024

/-- RAS INDEX of the row that holds an HPA (10 R240; 17 R443). -/
def rowIndex (hpa : Nat) : Nat :=
  let o := hpa % pchBytes
  (((o % 0x18000000) >>> 14) <<< 16) + ((o / 0x18000000) <<< 14) + (bits o 11 10 <<< 12) + (bits o 13 12 <<< 10) + hpa / pchBytes

/-- The 64 bytes a stack holds for a line. -/
def State.memLine (s : State) (l : Nat) : List Byte := Tab.getList 0 s.mem (l * 64) 64
/-- Metadata of a line. -/
def State.lineMeta (s : State) (l : Nat) : LineMeta := s.lines.get {} l
/-- The line's granule is retired (10 R262). -/
def State.isRetired (s : State) (l : Nat) : Bool := s.hbm.retired.get false (l / 64)
/-- The stack that holds the line does not serve requests: it is neither online, draining nor repairing (10 R259, R264). -/
def State.lineOffline (s : State) (l : Nat) : Bool :=
  let st := (s.stack (stackOfLine l)).state
  !(st == 2 || st == 3 || st == 5)
/-- The cleared bit of the line's region is set and the line has not been written since (10 R257). -/
def State.lineCleared (s : State) (l : Nat) : Bool :=
  let p := s.pch (pchOfLine l)
  p.clearedAll && !(p.zeroed.get false (regionOf l)) && !(p.written.get false l)
/-- The key slot e of Pn holds a key in use (10 R253). -/
def State.slotKey (s : State) (n e : Nat) : Bool := (if e = 0 then (s.keys n).gen0 else (s.keys n).gen1).isSome
/-- The generation of the keys in slot e of Pn (10 R249, R253). -/
def State.slotGen (s : State) (n e : Nat) : Nat := ((if e = 0 then (s.keys n).gen0 else (s.keys n).gen1)).getD 0
/-- Metadata word of a line on its channel (10 R250): TAG is a free function of the slot's keys, the line's bytes, its address and bits 3:0 (R249). -/
def State.lineWord (s : State) (l : Nat) : Nat :=
  let m := s.lineMeta l
  let low := field 3 3 m.epoch + field 2 2 (if m.dross then 1 else 0)
  let n := (s.ownerPch (pchOfLine l)).getD 16
  field 31 4 (Config.lineTag (s.slotGen n m.epoch) (s.memLine l) l low).toNat + low
/-- An integrity failure: the tag does not match, or EPOCH names a slot with no key in use (10 R251). Between the fresh keys of a build and its zero-fill
no line has been written under them (02 R49). -/
def State.lineFails (s : State) (l : Nat) : Bool :=
  (s.lineMeta l).badTag || match s.ownerPch (pchOfLine l) with
    | none => true
    | some n => !(s.slotKey n (s.lineMeta l).epoch) || (s.part n).step == .fill

/-- Bytes of b laid over a where the mask has a bit set. -/
def overlay (mask : Nat) : Nat → List Byte → List Byte → List Byte
  | _, [], _ => []
  | i, x :: xs, b => (if mask.testBit i then b.headD 0 else x) :: overlay mask (i + 1) xs b.tail

/-- What a read of a line gives: its bytes, its dross mark, the status, and whether the integrity check failed. -/
structure Rd where
  data : List Byte
  dross : Bool
  status : StatusCode
  fails : Bool
  deriving DecidableEq, Repr

/-- The entry of the write-combining buffer for a line (10 R243). -/
def State.wcbOf (s : State) (l : Nat) : Option Wcb := (s.pch (pchOfLine l)).wcb.find? (fun e => e.line == l)

/-- What a line's home reads from HBM (10 R243, R250, R251, R257, R259, R262), without the failure's report. -/
def State.hbmPeek (s : State) (l : Nat) : Rd :=
  if s.lineOffline l then { data := zeros 64, dross := false, status := St.stackOffline, fails := false }
  else if s.isRetired l then { data := zeros 64, dross := true, status := St.ok, fails := false }
  else
    let b : Rd :=
      if s.lineCleared l then { data := zeros 64, dross := false, status := St.ok, fails := false }
      else if s.lineFails l then { data := zeros 64, dross := true, status := St.ok, fails := true }
      else { data := s.memLine l, dross := (s.lineMeta l).dross, status := St.ok, fails := false }
    match s.wcbOf l with
    | none => b
    | some e => { b with data := overlay e.mask 0 b.data e.data, dross := b.dross || e.dross }

/-- Report an integrity failure: HMC_PC_ERR, a RAS record, a test of the row (10 R251; 17 R441). -/
def State.reportFail (s : State) (l : Nat) : State :=
  let s := s.updPch (pchOfLine l) (fun p => { p with fails := satAdd 32 p.fails 1 })
  s.rasError (homeOf l) 2 1 ((s.ownerPch (pchOfLine l)).getD 255) St.dross (rowIndex (l * 64)) (l * 64) 0

/-- 64 bytes are issued to the line's stack for its owner (10 R247). -/
def State.charge (s : State) (l : Nat) : State :=
  match s.ownerPch (pchOfLine l) with
  | some n => s.stkCharge (stackOfLine l) n 64
  | none => s

/-- A read of a line from HBM, its failure reported. -/
def State.hbmRead (s : State) (l : Nat) : State × Rd :=
  let r := s.hbmPeek l
  (if r.fails then s.reportFail l else s, r)

/-- Store 64 bytes with their dross bit under the current slot (10 R250); the line has been written (R257). -/
def State.storeLine (s : State) (l : Nat) (data : List Byte) (dross : Bool) : State :=
  let cur := match s.ownerPch (pchOfLine l) with
    | some n => (s.keys n).current
    | none => 0
  let s := { s with mem := Tab.setList 0 s.mem (l * 64) (bslice data 0 64)
                    lines := s.lines.set {} l { epoch := cur, dross := dross, badTag := false } }
  s.updPch (pchOfLine l) (fun p =>
    if p.clearedAll && !(p.zeroed.get false (regionOf l)) then { p with written := p.written.set false l true } else p)

/-- A full-line write to HBM: it replaces a write-combining entry (10 R243); a retired or offline line discards it. -/
def State.hbmWrite (s : State) (l : Nat) (data : List Byte) (dross : Bool) : State :=
  let s := s.updPch (pchOfLine l) (fun p => { p with wcb := p.wcb.filter (fun e => !(e.line == l)) })
  if s.lineOffline l || s.isRetired l then s else (s.charge l).storeLine l data dross

/-- Write a write-combining entry by read-modify-write (10 R243, R244) and free it. -/
def State.rmw (s : State) (e : Wcb) : State :=
  let s := s.updPch (pchOfLine e.line) (fun p =>
    { p with wcb := p.wcb.filter (fun x => !(x.line == e.line)), rmws := satAdd 32 p.rmws 1 })
  let (s, r) := s.hbmRead e.line
  s.hbmWrite e.line (overlay e.mask 0 r.data e.data) (r.dross || e.dross)

/-- A write-combining entry with a partial write merged in (10 R243). -/
def mergeWcb (old : Option Wcb) (l mask : Nat) (data : List Byte) (dross : Bool) : Wcb :=
  match old with
  | some e => { e with mask := e.mask ||| mask, data := overlay mask 0 e.data data, dross := e.dross || dross }
  | none => { line := l, mask := mask, data := overlay mask 0 (zeros 64) data, dross := dross }

/-- A partial write: merge into the line's entry, or take a free one, the oldest going by RMW when none is free; a full mask is
written as a full line (10 R243). -/
def State.hbmPartial (s : State) (l mask : Nat) (data : List Byte) (dross : Bool) : State :=
  if s.lineOffline l || s.isRetired l then s else
  let p := s.pch (pchOfLine l)
  let e := mergeWcb (p.wcb.find? (fun e => e.line == l)) l mask data dross
  if e.mask % 2 ^ 64 = 2 ^ 64 - 1 then
    (s.hbmWrite l e.data e.dross).updPch (pchOfLine l) (fun p => { p with wcbFull := satAdd 32 p.wcbFull 1 })
  else if p.wcb.any (fun x => x.line == l) then
    s.updPch (pchOfLine l) (fun p => { p with wcb := p.wcb.map (fun x => if x.line == l then e else x) })
  else
    let s := if 64 ≤ p.wcb.length then (match p.wcb with | [] => s | o :: _ => s.rmw o) else s
    s.updPch (pchOfLine l) (fun p => { p with wcb := p.wcb ++ [e] })

/-- Key of a line in the SLC and directory of half h. -/
def slcKey (h l : Nat) : Nat := h * 2 ^ 38 + l
/-- Key of a line in the cache of an agent of half h. -/
def agentKey (h a l : Nat) : Nat := (h * 16 + a) * 2 ^ 38 + l
/-- The agents of both halves: half * 16 + index (09 R223). Agent 14 stands for the other half's SLC. -/
def allAgents : List Nat := (List.range 32).filter (fun i => decide (i % 16 < 15))

/-- Data of a line that an open transaction of half h holds, on its way to the requester or the home (09 R224, R232). -/
def State.txnCopy (s : State) (h l : Nat) : Option Copy :=
  match (s.coh.dir.get {} (slcKey h l)).txn with
  | some t => t.data.map (fun d => { st := if t.dirty then .m else .e, data := d, dross := t.dross })
  | none => none

/-- A dirty or exclusive copy of a line held by a caching agent, in a live write-back buffer, or on its way (09 R224, R228). -/
def State.ownerCopy (s : State) (l : Nat) : Option Copy :=
  ((s.txnCopy 0 l).orElse (fun _ => s.txnCopy 1 l)).orElse (fun _ => allAgents.findSome? (fun i =>
    let c := s.coh.copies.get {} (i * 2 ^ 38 + l)
    if i % 16 < 14 && (c.st == .m || c.st == .o || c.st == .e) then some c else
    match s.coh.wbs.get none (i * 2 ^ 38 + l) with
    | some w => if !w.dead && (w.st == .m || w.st == .o) then some { st := w.st, data := w.data, dross := w.dross } else none
    | none => none))

/-- A line in the SLC of half h. -/
def State.slcLine (s : State) (h l : Nat) : Option SlcLine := s.coh.slc.get none (slcKey h l)

/-- Key of the proxy's state of a line (09 R220): agent 14 of the home. -/
def proxyKey (l : Nat) : Nat := agentKey (homeOf l) 14 l

/-- The newest copy of a line as its home returns it (09 R226): the owner's, a dirty proxy's, else an SLC's, else HBM's. A retired granule
gives every reader zeros marked as dross (10 R262). -/
def State.newest (s : State) (l : Nat) : Rd :=
  if s.lineOffline l then { data := zeros 64, dross := false, status := St.stackOffline, fails := false }
  else if s.isRetired l then { data := zeros 64, dross := true, status := St.ok, fails := false } else
  match s.ownerCopy l with
  | some c => { data := c.data, dross := c.dross, status := St.ok, fails := false }
  | none =>
    match (((s.slcLine (1 - homeOf l) l).filter (fun c => c.dirty)).orElse (fun _ => s.slcLine (homeOf l) l)).orElse
        (fun _ => s.slcLine (1 - homeOf l) l) with
    | some c => { data := c.data, dross := c.dross, status := St.ok, fails := false }
    | none => s.hbmPeek l

/-- Is any copy of the line cached. -/
def State.anyCopy (s : State) (l : Nat) : Bool :=
  (s.ownerCopy l).isSome || (s.slcLine 0 l).isSome || (s.slcLine 1 l).isSome

/-- A read of the line's newest copy comes from its stack: no cache holds it and its region is not cleared (10 R257). -/
def State.fromHbm (s : State) (l : Nat) : Bool := !(s.anyCopy l) && !(s.lineOffline l) && !(s.lineCleared l)

/-- Every copy of a line that its home does not hold goes (09 R226 writes): agents, write-back buffers, the other half's SLC; the
directories become I. A transaction that is open takes its data from the home again (log entry 50). -/
def State.dropCopies (s : State) (l : Nat) : State :=
  let c := s.coh
  let drop := fun (d : Tab DirEnt) (h : Nat) =>
    Tab.upd {} d (slcKey h l) (fun e => match e.txn with
      | none => {}
      | some t => { e with txn := some { t with data := none, dirty := false, noData := false } })
  { s with coh := { c with
      copies := Tab.set {} (allAgents.foldl (fun t i => Tab.set {} t (i * 2 ^ 38 + l) {}) c.copies) (proxyKey l) {}
      wbs := allAgents.foldl (fun t i => Tab.upd none t (i * 2 ^ 38 + l) (fun w => w.map (fun w => { w with dead := true }))) c.wbs
      slc := Tab.set none c.slc (slcKey (1 - homeOf l) l) none
      dir := drop (drop c.dir 0) 1 } }

/-- The pieces of a range, split at 64-byte lines: address of each piece and its length. -/
def pieces : Nat → Nat → Nat → List (Nat × Nat)
  | 0, _, _ => []
  | fuel + 1, a, len =>
    if len = 0 then [] else
    let k := min len (64 - a % 64)
    (a, k) :: pieces fuel (a + k) (len - k)

/-- A range of Pn's PPA lies within its size. -/
def State.inPpa (s : State) (n ppa len : Nat) : Bool := decide (ppa + len ≤ s.ppaSize n)

/-- What a read of Pn's PPA gives, line by line at each line's home: bytes, whether any line is dross, and the status: that of
the first line not read (10 R259), or FAULT_BOUNDS with nothing read beyond the size (01 R22). -/
def State.ppaPeek (s : State) (n ppa len : Nat) : List Byte × Bool × StatusCode :=
  if s.inPpa n ppa len then
    (pieces (len / 64 + 2) ppa len).foldl (fun acc pc =>
      let hpa := (s.ppaToHpa n pc.1).getD 0
      let r := s.newest (hpa / 64)
      (acc.1 ++ bslice r.data (hpa % 64) pc.2, acc.2.1 || r.dross, if acc.2.2 = St.ok then r.status else acc.2.2))
      ([], false, St.ok)
  else ([], false, St.faultBounds)

/-- A little-endian word of Pn's PPA. -/
def State.ppaWord (s : State) (n ppa len : Nat) : Nat := ofLe (s.ppaPeek n ppa len).1

/-- The range touches a granule of an image that loaded code runs from (06 R147). -/
def State.protected (s : State) (n ppa len : Nat) : Bool :=
  (s.code n).images.any (fun i => i.clusters != 0 && decide (ppa < (i.base + i.len + 4095) / 4096 * 4096)
    && decide (i.base / 4096 * 4096 < ppa + len))

/-- Note that a region of 64 KiB of a mirrored partition has been written (14 R389 step 3). -/
def State.markDirty (s : State) (n ppa len : Nat) : State :=
  let t := s.twin n
  if t.state = 0 || t.state = 4 || t.allDirty then s else
  s.updTwin n (fun t => { t with dirty := (List.range ((ppa + len - 1) / 65536 + 1 - ppa / 65536)).foldl (fun d i =>
    if d.contains (ppa / 65536 + i) then d else d ++ [ppa / 65536 + i]) t.dirty })

end Sys2Proof.Machine
end

