-- ==== Sys2Proof/Machine/Slc.lean ====
section
/-!
DEFINITION. The system cache and the directories (09 R216-R233): sets and ways, fills and victims, what a home or a proxy holds,
the transactions of a directory entry, and the reclaim of a dead agent's lines.
-/

namespace Sys2Proof.Machine

/-- Slice of a line (09 R217). -/
def sliceOfLine (l : Nat) : Nat := (l % 64) ^^^ ((l >>> 6) % 64)
/-- SLC set of a line. -/
def setOfLine (l : Nat) : Nat := ((l >>> 6) % 1024) ^^^ ((l >>> 16) % 1024)
/-- Directory set of a line. -/
def dirSetOf (l : Nat) : Nat := setOfLine l % 512

/-- Ways of Pn on half h that are not disabled (09 R218). -/
def State.waysOf (s : State) (n h : Nat) : List Nat :=
  (maskList 32 ((s.slice n).ways >>> (h * 32))).filter (fun w => !((s.coh.waysOff.get 0 h).testBit w))

/-- Ways of a cluster cache by its key in Coh.cacheWays (06 R140, R141). -/
def cacheWaysOf (k : Nat) : Nat := if 256 ≤ k then 4 else if k.testBit 3 then 16 else 8

/-- A cluster is out of service: one of its caches has half of its ways disabled (17 R449). -/
def State.clusterOut (s : State) (c : Nat) : Bool := s.coh.cacheWays.any (fun e => e.1 % 256 / 16 == c && decide (cacheWaysOf e.1 ≤ 2 * e.2))

/-- Partition of caching agent a of half h (09 R223): its cluster's or its chiplet's owner. -/
def State.agentPart (s : State) (h a : Nat) : Option Nat :=
  if a < 8 then s.ownerCluster (h * 8 + a) else if a < 14 then s.ownerCell (((a - 8) + 6 * h) * 16) else none

/-- HPA of a register of Pn in the SLC block of half h (09 R235). -/
def slcPartAddr (h n o : Nat) : Nat := regAddr h 3 (0x1000 + n * 0x40 + o)

/-- Lines of the set of l that half h holds for Pn. -/
def State.slcSetOf (s : State) (h l n : Nat) : List (Nat × SlcLine) :=
  s.coh.slc.filterMap (fun e => match e.2 with
    | some c => if e.1 / 2 ^ 38 = h && sliceOfLine (e.1 % 2 ^ 38) = sliceOfLine l && setOfLine (e.1 % 2 ^ 38) = setOfLine l && c.part = n
        then some (e.1 % 2 ^ 38, c) else none
    | none => none)

/-- Put or drop a line of half h's SLC. -/
def State.setSlc (s : State) (h l : Nat) (c : Option SlcLine) : State :=
  { s with coh := { s.coh with slc := s.coh.slc.set none (slcKey h l) c } }
/-- The directory entry of a line on half h (a home entry, or a proxy entry). -/
def State.dirEnt (s : State) (h l : Nat) : DirEnt := s.coh.dir.get {} (slcKey h l)
/-- Set a directory entry; one in I with no transaction is not listed. -/
def State.setDir (s : State) (h l : Nat) (e : DirEnt) : State :=
  { s with coh := { s.coh with dir := s.coh.dir.set {} (slcKey h l) (if e.st == .i && e.txn.isNone then {} else e) } }
/-- Copy of a line at agent a of half h. -/
def State.copyOf (s : State) (h a l : Nat) : Copy := s.coh.copies.get {} (agentKey h a l)
/-- Set an agent's copy; I lists nothing. -/
def State.setCopy (s : State) (h a l : Nat) (c : Copy) : State :=
  { s with coh := { s.coh with copies := s.coh.copies.set {} (agentKey h a l) (if c.st == .i then {} else c) } }
/-- Write-back buffer entry of an agent for a line. -/
def State.wbOf (s : State) (h a l : Nat) : Option WbEnt := s.coh.wbs.get none (agentKey h a l)
/-- Set or drop a write-back buffer entry. -/
def State.setWb (s : State) (h a l : Nat) (w : Option WbEnt) : State :=
  { s with coh := { s.coh with wbs := s.coh.wbs.set none (agentKey h a l) w } }
/-- The next position of the replacement order. -/
def State.cohTick (s : State) : State := { s with coh := { s.coh with clock := s.coh.clock + 1 } }

/-- A state in which the holder answers a snoop with data. -/
def moesiOwns : Moesi → Bool
  | .m => true | .o => true | .e => true | _ => false
/-- A dirty state. -/
def moesiDirty : Moesi → Bool
  | .m => true | .o => true | _ => false

/-- The lines that the agents of half h hold of a line, newest first: data, dross bit, and whether they are dirty. -/
def State.halfCopy (s : State) (h l : Nat) : Option Copy :=
  (List.range 14).findSome? (fun a =>
    let c := s.copyOf h a l
    if moesiOwns c.st then some c else
    match s.wbOf h a l with
    | some w => if !w.dead && moesiDirty w.st then some { st := w.st, data := w.data, dross := w.dross } else none
    | none => none)

/-- What the proxy of a line's other half gives: the copy of one of its agents, else its own line (09 R220, R224). -/
def State.proxyCopy (s : State) (l : Nat) : Option Copy :=
  let p := (s.coh.copies.get {} (proxyKey l)).st
  let own := (s.slcLine (1 - homeOf l) l).map (fun c => ({ st := if c.dirty || moesiDirty p then .m else p, data := c.data, dross := c.dross } : Copy))
  match s.halfCopy (1 - homeOf l) l, own with
  | some c, some o => some { c with st := if moesiDirty c.st || moesiDirty o.st then .m else .e }
  | some c, none => some c
  | none, o => o

/-- Every copy of a line on half h goes: its agents', their buffers', its proxy entry (09 R220); a waiting request stays. -/
def State.clearHalf (s : State) (h l : Nat) : State :=
  let s := forAll (List.range 14) (fun a s =>
    (s.setCopy h a l {}).setWb h a l ((s.wbOf h a l).map (fun w => { w with dead := true }))) s
  let e := s.dirEnt h l
  s.setDir h l { e with st := .i, owner := 15, sharers := 0 }

/-- A line is written into HBM from a cache: dropped where its stack is offline (10 R259). -/
def State.evictWrite (s : State) (l : Nat) (data : List Byte) (dross : Bool) : State := s.hbmWrite l data dross

/-- The proxy gives up a line (09 R220, R224, R232), with data that its half's owner has returned: its half's copies go; what it owned stays in a
buffer until its write-back or its eviction notice is settled at the home (R228). -/
def State.evictProxy (s : State) (l : Nat) (got : Option Copy := none) : State :=
  let h := homeOf l
  let p := (s.copyOf h 14 l).st
  let c := got.orElse (fun _ => s.proxyCopy l)
  let s := ((s.clearHalf (1 - h) l).setSlc (1 - h) l none).setCopy h 14 l {}
  match c with
  | some c =>
    if moesiDirty c.st || moesiDirty p then s.setWb h 14 l (some { st := if p == .o then .o else .m, data := c.data, dross := c.dross })
    else if p == .e then s.setWb h 14 l (some { st := .e, data := c.data, dross := c.dross })
    else s
  | none => s

/-- A line leaves half h's SLC as a victim (09 R219, R220). -/
def State.evictSlc (s : State) (h l : Nat) : State :=
  match s.slcLine h l with
  | none => s
  | some c =>
    if homeOf l = h then
      let s := s.setSlc h l none
      if c.dirty then s.evictWrite l c.data c.dross else s
    else s.evictProxy l

/-- The position a hint gives a line in its set (09 R221): most recently used, or next victim. -/
def State.stampFor (s : State) (h l n : Nat) (hint : Hint) : Int :=
  match hint with
  | .evictFirst => (s.slcSetOf h l n).foldl (fun m e => min m e.2.stamp) (s.coh.clock : Int) - 1
  | _ => s.coh.clock + 1

/-- The line of a set that was used least recently. -/
def oldestOf (set : List (Nat × SlcLine)) : Option Nat :=
  (set.foldl (fun (m : Option (Nat × Int)) e => match m with
    | none => some (e.1, e.2.stamp)
    | some x => if e.2.stamp < x.2 then some (e.1, e.2.stamp) else some x) none).map (·.1)

/-- A remote line whose proxy entry has an open transaction stays where it is (09 R220, R231). -/
def State.pinnedAt (s : State) (h l : Nat) : Bool := homeOf l != h && (s.dirEnt h l).txn.isSome
/-- A way of Pn that is free in the set of l. -/
def State.freeWay (s : State) (h l n : Nat) : Option Nat :=
  (s.waysOf n h).find? (fun w => !(((s.slcSetOf h l n).map (fun e => e.2.way)).contains w))
/-- The line that a fill of l replaces: the least recently used of Pn's in the set that is not pinned (09 R218). -/
def State.victimOf (s : State) (h l n : Nat) : Option Nat := oldestOf ((s.slcSetOf h l n).filter (fun e => !(s.pinnedAt h e.1)))
/-- Half h's SLC can take line l for Pn (09 R218, R222). -/
def State.roomAt (s : State) (h l n : Nat) : Bool :=
  (s.slcLine h l).isSome || (!(s.waysOf n h).isEmpty && ((s.freeWay h l n).isSome || (s.victimOf h l n).isSome))

/-- Fill a line into half h's SLC in a free way of Pn, else in place of its least recently used (09 R218, R221), where there is room. -/
def State.fillSlc (s : State) (h l n : Nat) (data : List Byte) (dross dirty : Bool) (hint : Hint) : State :=
  let s := s.setSlc h l none
  let place : Option (State × Nat) := match s.freeWay h l n with
    | some w => some (s, w)
    | none => (s.victimOf h l n).map (fun v => (s.evictSlc h v, match s.slcLine h v with | some c => c.way | none => 0))
  match place with
  | some (s, way) => s.cohTick.setSlc h l (some { way := way, part := n, data := data, dirty := dirty, dross := dross
                                                  stamp := s.stampFor h l n hint })
  | none => s

/-- A hit moves a line by the hint; NOALLOC keeps its position (09 R221). -/
def State.touchSlc (s : State) (h l n : Nat) (hint : Hint) : State :=
  match s.slcLine h l with
  | none => s
  | some c => if hint == .noAlloc then s else s.cohTick.setSlc h l (some { c with stamp := s.stampFor h l n hint })

/-- A lookup of Pn in the SLC of half h hit or missed (09 R235). -/
def State.countLook (s : State) (h n : Nat) (hit : Bool) : State := s.addReg (slcPartAddr h n (if hit then 8 else 0x10)) 64 1

/-- Data of a line at half h: at its home, from the SLC or HBM, filled by the hint (09 R221, R222, R226); at the proxy, from
its SLC. The lookup counts in SLC_PART_HITS or SLC_PART_MISSES (R235). A retired granule gives zeros as dross (10 R262). -/
def State.lineData (s : State) (h l n : Nat) (hint : Hint) : State × Rd :=
  match if s.isRetired l then none else s.slcLine h l with
  | some c =>
    ((s.touchSlc h l n hint).countLook h n true, { data := c.data, dross := c.dross, status := St.ok, fails := false })
  | none =>
    let s := s.countLook h n false
    if homeOf l = h then
      let r := s.hbmPeek l
      let s := if r.fails then s.reportFail l else s
      let s := if s.lineOffline l || s.lineCleared l then s else s.charge l
      let fill := hint != .noAlloc && s.roomAt h l n && r.status = St.ok && !(s.isRetired l)
      (if fill then s.fillSlc h l n r.data r.dross false hint else s, r)
    else (s, s.newest l)

/-- A full line is written at half h (09 R219, R221): into its SLC on a hit or by the hint, else to HBM. -/
def State.putLine (s : State) (h l n : Nat) (data : List Byte) (dross : Bool) (hint : Hint) : State :=
  if s.isRetired l || s.lineOffline l then (s.setSlc h l none).hbmWrite l data dross
  else match s.slcLine h l with
    | some c => (s.setSlc h l (some { c with data := data, dross := dross, dirty := true })).touchSlc h l n hint
    | none =>
      if hint != .noAlloc && s.roomAt h l n then s.fillSlc h l n data dross true hint
      else if homeOf l = h then s.hbmWrite l data dross
      else s

/-- Bits of the snoops of a transaction that are unanswered. -/
def Txn.waits (t : Txn) : Nat := t.shared ||| t.unique ||| t.inv ||| t.cur ||| t.due
/-- Forget every snoop to an agent. -/
def Txn.forget (t : Txn) (a : Nat) : Txn :=
  { t with shared := clearBit t.shared a, unique := clearBit t.unique a, inv := clearBit t.inv a, cur := clearBit t.cur a
           due := clearBit t.due a }

/-- Send the grants that a closed transaction on line l of half h frees (09 R229, R231). -/
def State.sendGrants (s : State) (h l part : Nat) : State :=
  let ts := s.coh.tallies
  let i1 := ts.findIdx? (fun t => t.half == h && t.line == l && !t.sent)
  let i2 := ts.findIdx? (fun t => t.half == h && t.full && !t.sent && sliceOfLine t.line == sliceOfLine l && dirSetOf t.line == dirSetOf l
    && s.ownerPch (pchOfLine t.line) == some part)
  let mark := fun (ts : List RTally) (i : Option Nat) => match i with
    | some i => ts.modify i (fun t => { t with sent := true })
    | none => ts
  { s with coh := { s.coh with tallies := mark (mark ts i1) i2 } }

/-- Close the transaction of an entry (09 R230): it unpins, and grants go out. -/
def State.closeTxn (s : State) (h l : Nat) : State :=
  let e := s.dirEnt h l
  (s.setDir h l { e with txn := none }).sendGrants h l e.part

/-- Refuse a request with a retry tally (09 R229). -/
def State.refuse (s : State) (h r l n : Nat) (full : Bool) : State :=
  if s.coh.tallies.any (fun t => t.half == h && t.requester == r && t.line == l && !t.granted) then s
  else
    let s := { s with coh := { s.coh with tallies := s.coh.tallies ++ [({ half := h, requester := r, line := l, full := full } : RTally)] } }
    s.addReg (slcPartAddr h n 0x18) 64 1

/-- A response that nobody waits for is dropped and counted (08 R212). -/
def State.strayResponse (s : State) (h : Nat) : State := s.updRas h (fun r => { r with unexpected := satAdd 64 r.unexpected 1 })

/-- What the requester of a home access gets (09 R226). -/
def State.answer (s : State) (t : Txn) (l : Nat) (r : Rd) : State :=
  match t.origin with
  | some m => if t.late then s.strayResponse (m / 64) else s.emit (.homeData m l r.status r.data r.dross)
  | none => s

/-- The proxy keeps an S copy of a line read through it (09 R226). -/
def State.keepAtProxy (s : State) (h l n : Nat) (t : Txn) (r : Rd) : State :=
  if t.keep && r.status = St.ok then
    let s := { s with coh := { s.coh with copies := s.coh.copies.set {} (proxyKey l) { st := .s } } }
    (s.fillSlc (1 - h) l n r.data r.dross false t.hint)
  else s

/-- Data that a transaction holds from a snooped owner. -/
def Txn.got (t : Txn) : Option Rd := t.data.map (fun d => { data := d, dross := t.dross, status := St.ok, fails := false })

/-- The line of a transaction: what its owner returned, else what its half holds (09 R222, R226). -/
def State.txnLine (s : State) (h l n : Nat) (t : Txn) : State × Rd :=
  match t.got with
  | some r => (s, r)
  | none => s.lineData h l n t.hint

/-- An entry after a read that agent r shares: an owner that kept its copy stays O, one that gave its dirty data up is a sharer (09 R225). -/
def shareEntry (e : DirEnt) (r : Nat) (kept : Bool) : DirEnt :=
  if kept then { e with st := .o, sharers := setBit e.sharers r }
  else { e with st := .s, owner := 15, sharers := setBit (setBit e.sharers r) e.owner }

/-- An entry in which an agent owns the line. -/
def DirEnt.owned (e : DirEnt) : Bool := e.st == .o || e.st == .x

/-- RdS, RdU or Upgrade: the line goes to its requester, who acknowledges it; one that has timed out (08 R212) is dropped, what an owner gave up dirty
goes home. -/
def State.finishGrant (s : State) (h l n : Nat) (t : Txn) : State :=
  let x : State × Rd := if t.noData then (s, { data := [], dross := false, status := St.ok, fails := false }) else s.txnLine h l n t
  let s := x.1
  let e := s.dirEnt h l
  let e := if t.kind == .rds && e.owned && e.owner != t.requester then shareEntry e t.requester t.ownerKept else e
  if t.late then
    let s := if t.dirty && t.kind != .rds then s.putLine h l n (t.data.getD []) t.dross .noAlloc else s
    ((s.setDir h l e).strayResponse h).closeTxn h l
  else
    s.setDir h l { e with txn := some { t with
      delivered := true, grantSt := if t.kind != .rds && t.dirty then .m else t.grantSt
      data := if t.noData then none else some x.2.data, dross := !t.noData && x.2.dross } }

/-- A home read is answered, and its half's proxy keeps an S copy where the access keeps one (09 R226). -/
def State.finishRead (s : State) (h l n : Nat) (t : Txn) : State :=
  let x := s.txnLine h l n t
  let e := x.1.dirEnt h l
  let e := if t.keep && x.2.status = St.ok then
      (if e.owned then shareEntry e 14 t.ownerKept else { e with st := .s, sharers := setBit e.sharers 14, part := n })
    else e
  (((x.1.setDir h l e).keepAtProxy h l n t x.2).answer t l x.2).closeTxn h l

/-- A home write is done: the entry is empty and the access is answered. -/
def State.finishWrite (s : State) (h l : Nat) (t : Txn) (st : StatusCode) : State :=
  ((s.setDir h l { s.dirEnt h l with st := .i, owner := 15, sharers := 0 }).answer t l
    { data := [], dross := false, status := st, fails := false }).closeTxn h l

/-- The bytes of a partial write: merged into the newest copy, or sent to the write-combining buffer where none is cached (09 R226). -/
def State.mergeLine (s : State) (h l n : Nat) (t : Txn) : State :=
  match t.got.orElse (fun _ => (s.slcLine h l).map (fun c => { data := c.data, dross := c.dross, status := St.ok, fails := false })) with
  | some r => (s.dropCopies l).putLine h l n (overlay t.mask 0 r.data t.wdata) (r.dross || t.wdross) t.hint
  | none => (s.dropCopies l).hbmPartial l t.mask t.wdata t.wdross

/-- An entry is emptied (09 R232): at a home dirty data go to the cache or to HBM, a proxy gives the line up. -/
def State.finishEvict (s : State) (h l n : Nat) (t : Txn) : State :=
  let s := if homeOf l = h then
      (match t.got with
       | some r => if t.dirty then s.putLine h l n r.data r.dross .noAlloc else s
       | none => s)
    else s.evictProxy l (t.got.bind (fun r => if t.dirty then some { st := .m, data := r.data, dross := r.dross } else none))
  (s.setDir h l { s.dirEnt h l with st := .i, owner := 15, sharers := 0 }).closeTxn h l

/-- Every snoop of a transaction is answered: deliver the line, or write it (09 R225, R226, R232). -/
def State.finishTxn (s : State) (h l : Nat) : State :=
  let n := (s.ownerPch (pchOfLine l)).getD 16
  let st := if s.lineOffline l then St.stackOffline else St.ok
  let hit := (s.slcLine h l).isSome
  match (s.dirEnt h l).txn with
  | none => s
  | some t =>
    match t.kind with
    | .rds | .rdu | .upgrade => s.finishGrant h l n t
    | .read => s.finishRead h l n t
    | .write => (((s.dropCopies l).putLine h l n t.wdata t.wdross t.hint).countLook h n hit).finishWrite h l t st
    | .partialWrite => ((s.mergeLine h l n t).countLook h n hit).finishWrite h l t st
    | .writeBack => s
    | .evict => s.finishEvict h l n t

/-- The state the entry takes when a request is serialized, and the snoops that go out (09 R225, R226). held says whether the
requester of an Upgrade still holds its copy; cap whether a shared read may give no more than S. -/
def openEntry (e : DirEnt) (t : Txn) (n clock : Nat) (held cap : Bool) : DirEnt :=
  let r := t.requester
  let others := clearBit e.sharers r
  let own := if e.owner = r then 0 else 1 <<< e.owner
  let owned := e.st == .o || e.st == .x
  let base : DirEnt := { e with part := n, used := clock }
  match t.kind with
  | .rds =>
    if e.st == .i then
      (if cap then { base with st := .s, sharers := 1 <<< r, txn := some { t with grantSt := .s } }
       else { base with st := .x, owner := r, sharers := 0, txn := some { t with grantSt := .e } })
    else if e.st == .s then { base with sharers := setBit e.sharers r, txn := some { t with grantSt := .s } }
    else { base with txn := some { t with shared := own, grantSt := .s } }
  | .upgrade =>
    if held && (e.sharers.testBit r || e.owner = r) && e.st != .i then
      { base with st := .x, owner := r, sharers := 0
                  txn := some { t with inv := others ||| (if owned then own else 0), noData := true
                                       grantSt := if owned then .m else .e } }
    else { base with st := .x, owner := r, sharers := 0
                     txn := some { t with kind := .rdu, unique := if owned then own else 0
                                          inv := clearBit others e.owner, grantSt := .e } }
  | .rdu =>
    { base with st := .x, owner := r, sharers := 0
                txn := some { t with unique := if owned then own else 0
                                     inv := if owned then clearBit others e.owner else others, grantSt := .e } }
  | .read =>
    { base with txn := some (if owned then (if t.keep then { t with shared := 1 <<< e.owner } else { t with cur := 1 <<< e.owner }) else t) }
  | .write => { base with txn := some { t with inv := e.sharers ||| (if owned then 1 <<< e.owner else 0) } }
  | .partialWrite | .evict =>
    { base with txn := some { t with unique := if owned then 1 <<< e.owner else 0
                                     inv := if owned then clearBit e.sharers e.owner else e.sharers } }
  | .writeBack => { base with txn := some t }

/-- Serialize a request at its entry and send its snoops; without any it is finished at once. -/
def State.serveEntry (s : State) (h l n : Nat) (t : Txn) : State :=
  let r := t.requester
  let held := (s.copyOf h r l).st != .i
  let cap := homeOf l != h && (let p := (s.coh.copies.get {} (proxyKey l)).st; p == .s || p == .o)
  let e := openEntry { s.dirEnt h l with txn := none } { t with waitsEntry := false, waitsHome := false } n (s.coh.clock + 1) held cap
  let s := s.cohTick.setDir h l e
  match e.txn with
  | some t => if t.waits = 0 then s.finishTxn h l else s
  | none => s

/-- A proxy can serve the request from what its half holds (09 R220, R226). -/
def State.proxyServes (s : State) (h l : Nat) (k : TxnKind) : Bool :=
  let p := (s.coh.copies.get {} (proxyKey l)).st
  let e := s.dirEnt h l
  match k with
  | .rds => e.st == .o || e.st == .x || p != .i
  | .rdu | .upgrade => p == .m || p == .e
  | .read => e.st == .o || e.st == .x || p != .i
  | _ => false

/-- Serve a request whose entry is free: at a proxy it may have to wait for the line from its home (09 R220). -/
def State.serve (s : State) (h l n : Nat) (t : Txn) : State :=
  if homeOf l = h || s.proxyServes h l t.kind || t.kind == .evict then s.serveEntry h l n t
  else
    let e := s.dirEnt h l
    s.setDir h l { e with part := n, txn := some { t with waitsHome := true, waitsEntry := false } }

/-- Entries of Pn in the directory set of l on half h that hold a line (09 R231). -/
def State.dirSetEntries (s : State) (h l n : Nat) : List (Nat × DirEnt) :=
  s.coh.dir.filter (fun e => e.1 / 2 ^ 38 == h && sliceOfLine (e.1 % 2 ^ 38) == sliceOfLine l && dirSetOf (e.1 % 2 ^ 38) == dirSetOf l
    && e.2.part == n && !((e.2.txn.map (·.waitsEntry)).getD false))

/-- The entry used least recently. -/
def oldestEntry (es : List (Nat × DirEnt)) : Option Nat :=
  (es.foldl (fun (m : Option (Nat × Nat)) e => match m with
    | none => some (e.1, e.2.used)
    | some x => if e.2.used < x.2 then some (e.1, e.2.used) else some x) none).map (·.1)

/-- A home access (09 R226). -/
def isHome (k : TxnKind) : Bool := k == .read || k == .write || k == .partialWrite

/-- A request that its line does not block takes an entry (09 R231, R232). -/
def State.takeIn (s : State) (h l n : Nat) (t : Txn) : State :=
  if (s.dirEnt h l).st != .i || isHome t.kind && !t.keep then s.serve h l n t
  else
    let es := s.dirSetEntries h l n
    if es.length < popCount 64 (s.slice n).ways then s.serve h l n t
    else match oldestEntry (es.filter (fun e => e.2.txn.isNone)) with
      | none => s.refuse h t.requester l n true
      | some k =>
        let v := k % 2 ^ 38
        let s := s.setDir h l { (s.dirEnt h l) with part := n, txn := some { t with waitsEntry := true } }
        let s := s.addReg (slcPartAddr h n 0x20) 64 1
        let s := s.serveEntry h v n { kind := .evict, requester := 79, forLine := some l }
        -- the victim may have been emptied at once
        if (s.dirEnt h v).txn.isNone then s.serve h l n t else s

/-- Requests of r outstanding to the slice of line l on half h: served, or waiting with a tally (09 R229). -/
def State.outstandingAt (s : State) (h r l : Nat) : Nat :=
  (s.coh.dir.filter (fun e => e.1 / 2 ^ 38 == h && sliceOfLine (e.1 % 2 ^ 38) == sliceOfLine l && e.2.txn.any (fun t => t.requester == r))).length
    + (s.coh.tallies.filter (fun t => t.half == h && t.requester == r && sliceOfLine t.line == sliceOfLine l)).length

/-- A request reaches the directory (09 R227, R229): retried behind an open transaction or other tallies of the line. One without a tally is not
issued while 16 of its requester are outstanding to the slice. -/
def State.request (s : State) (h l n : Nat) (tally : Bool) (t : Txn) : State :=
  let r := t.requester
  let mine := fun (x : RTally) => x.half == h && x.requester == r && x.line == l && x.granted
  if tally && !(s.coh.tallies.any mine) || !tally && decide (16 ≤ s.outstandingAt h r l) then s
  else
    let s1 : State := if tally then { s with coh := { s.coh with tallies := s.coh.tallies.filter (fun x => !(mine x)) } } else s
    if (s1.dirEnt h l).txn.isSome then s1.refuse h r l n false
    else if !tally && s1.coh.tallies.any (fun x => x.half == h && x.line == l) then s1.refuse h r l n false
    else s1.takeIn h l n t

/-- After the transaction of an entry has ended: the line that waited for it is served (09 R232). -/
def State.afterEvict (s : State) (h : Nat) (forLine : Option Nat) : State :=
  match forLine with
  | none => s
  | some l =>
    match (s.dirEnt h l).txn with
    | some t => if t.waitsEntry then s.serve h l (s.dirEnt h l).part { t with waitsEntry := false } else s
    | none => s

/-- A snoop answer has come in, or a snoop is settled: finish the transaction when none is awaited. -/
def State.advanceTxn (s : State) (h l : Nat) : State :=
  match (s.dirEnt h l).txn with
  | some t =>
    if t.waits = 0 && !t.delivered && !t.waitsEntry && !t.waitsHome && t.kind != .writeBack then
      (s.finishTxn h l).afterEvict h t.forLine
    else s
  | none => s

/-- The lines of which agent a of half h holds a copy or a live buffer entry. -/
def State.linesOfAgent (s : State) (h a : Nat) : List Nat :=
  (s.coh.copies.filter (fun e => e.1 / 2 ^ 38 == h * 16 + a)).map (·.1 % 2 ^ 38)
    ++ (s.coh.wbs.filter (fun e => e.1 / 2 ^ 38 == h * 16 + a && (match e.2 with | some w => !w.dead | none => false))).map (·.1 % 2 ^ 38)

/-- Reclaim one line of a dead agent (09 R233): a dirty line with no other sharer becomes dross at its home; an O line is copied
from the sharer of lowest index. -/
def State.reclaimLine (s : State) (h a l : Nat) : State :=
  let c := s.copyOf h a l
  let st := if c.st != .i then c.st else match s.wbOf h a l with | some w => if w.dead then .i else w.st | none => .i
  let s := (s.setCopy h a l {}).setWb h a l none
  let e := s.dirEnt h l
  let n := (s.ownerPch (pchOfLine l)).getD 16
  let other := (List.range 15).find? (fun b => b != a && e.sharers.testBit b && (s.copyOf h b l).st != .i)
  match moesiDirty st, st, other with
  | true, .o, some b =>
    let k := if b = 14 then (s.proxyCopy l).getD {} else s.copyOf h b l
    let s := s.putLine h l n k.data k.dross .noAlloc
    let s := if e.owner = a then s.setDir h l { e with st := .s, owner := 15 } else s
    { s with coh := { s.coh with recovered := s.coh.recovered.upd 0 h (fun x => satAdd 24 x 1) } }
  | true, _, _ =>
    let r := match s.slcLine h l with
      | some x => x.data
      | none => (s.hbmPeek l).data
    let s := s.putLine h l n r true .noAlloc
    let s := if e.owner = a then s.setDir h l { e with st := .i, owner := 15 } else s
    { s with coh := { s.coh with drossLines := s.coh.drossLines.upd 0 h (fun x => satAdd 24 x 1) } }
  | _, _, _ => s

/-- Take a dead agent out of an entry of half h (09 R233). -/
def State.reclaimEntry (s : State) (h a l : Nat) : State :=
  let e := s.dirEnt h l
  let e : DirEnt := if e.owner = a && (e.st == .x || e.st == .o) then { e with st := if e.sharers = 0 || e.st == .x then .i else .s, owner := 15 } else e
  let e : DirEnt := { e with sharers := clearBit e.sharers a }
  let e : DirEnt := if e.st == .s && e.sharers = 0 then { e with st := .i } else e
  match e.txn with
  | none => s.setDir h l e
  | some t =>
    if t.requester = a then ((s.setDir h l e).closeTxn h l)
    else (s.setDir h l { e with txn := some (t.forget a) }).advanceTxn h l

/-- Reclaim every line of a dead agent of half h (09 R233): its tallies go, and pass their turn on. -/
def State.reclaim (s : State) (h a : Nat) : State :=
  let s := forAll (s.linesOfAgent h a) (fun l s => s.reclaimLine h a l) s
  let ls := (s.coh.dir.filter (fun e => e.1 / 2 ^ 38 == h)).map (·.1 % 2 ^ 38)
  let s := forAll ls (fun l s => s.reclaimEntry h a l) s
  let mine := fun (t : RTally) => t.half == h && t.requester == a
  let gone := s.coh.tallies.filter mine
  let s : State := { s with coh := { s.coh with tallies := s.coh.tallies.filter (fun t => !(mine t)) } }
  gone.foldl (fun (s : State) t => if t.sent then s.sendGrants h t.line (s.dirEnt h t.line).part else s) s

end Sys2Proof.Machine
end

