-- ==== Sys2Proof/Machine/Agents.lean ====
section
/-!
DEFINITION. The caching agents and what they send to the homes (09 R220-R232): requests, write-backs, eviction notices, snoops and their answers, and a
transaction run whole for the access of a command.
-/

namespace Sys2Proof.Machine

/-- Agent a of half h may send a request for line l: alive, of the line's partition, which is READY; the proxy only at a home
(09 R220, R222, R223). -/
def State.agentMay (s : State) (h a l : Nat) : Bool :=
  match s.ownerPch (pchOfLine l) with
  | none => false
  | some n => s.ready n && !((s.coh.dead.get 0 h).testBit a)
      && (if a = 14 then homeOf l == h else s.agentPart h a == some n)
      && (if 8 ≤ a && a < 14 then (s.site ((a - 8) + 6 * h)).kind == 2 && (s.site ((a - 8) + 6 * h)).features.testBit 1 else true)
      && (if a = 14 then !(s.waysOf n (1 - h)).isEmpty else true)

/-- A coherent request of an agent (09 R225, R227): service cores always use ALLOC (R221). A line of an offline stack is answered STACK_OFFLINE
(10 R259); one that its own write-back buffer still holds waits there (R228). -/
def State.agentRequest (s : State) (h a l : Nat) (tally : Bool) (k : TxnKind) (hint : Hint) : State :=
  if !(s.agentMay h a l) then s
  else if s.lineOffline l then s.emit (.homeData a l St.stackOffline (zeros 64) false)
  else if (s.wbOf h a l).isSome then s
  else s.request h l ((s.ownerPch (pchOfLine l)).getD 16) tally { kind := k, requester := a, hint := if a < 8 then .alloc else hint }

/-- The other half's SLC, agent 14 at home half h, gives up a line that it holds in a state of p before it says so to the home (09 R220, R232);
one whose proxy entry has an open transaction stays. -/
def State.proxyGives (s : State) (h a l : Nat) (p : Moesi → Bool) : State :=
  if a = 14 && homeOf l == h && p (((s.proxyCopy l).map (·.st)).getD .i) && (s.wbOf h 14 l).isNone && !(s.pinnedAt (1 - h) l) then s.evictProxy l else s

/-- A tally that has been used up by a request that opens no transaction gives its turn to the next one (09 R229). -/
def State.passTurn (s : State) (h l : Nat) (used : Bool) : State :=
  if used && (s.dirEnt h l).txn.isNone then s.sendGrants h l (s.dirEnt h l).part else s

/-- A write-back reaches the home (09 R225, R228): Grant where its directory names the sender as owner, else stale; retried
behind an open transaction of a line that the sender owns. -/
def State.writeBack (s : State) (h a l : Nat) : State :=
  let s := s.proxyGives h a l moesiDirty
  let c := s.copyOf h a l
  let w : Option WbEnt := match s.wbOf h a l with
    | some w => if w.phase = 0 && moesiDirty w.st then some w else none
    | none => if moesiDirty c.st then some { st := c.st, data := c.data, dross := c.dross } else none
  match w with
  | none => s
  | some w =>
    let s := (s.setCopy h a l {}).setWb h a l (some w)
    let e := s.dirEnt h l
    let mine := fun (t : RTally) => t.half == h && t.requester == a && t.line == l && t.granted
    let s1 : State := { s with coh := { s.coh with tallies := s.coh.tallies.filter (fun t => !(mine t)) } }
    if !(e.owner = a && (e.st == .o || e.st == .x)) then
      (s1.setWb h a l (some { w with phase := 2 })).passTurn h l (s.coh.tallies.any mine)
    else if e.txn.isSome || (!(s.coh.tallies.any mine) && s.coh.tallies.any (fun t => t.half == h && t.line == l)) then
      s1.refuse h a l e.part false
    else
      let s2 := s1.setWb h a l (some { w with phase := 1 })
      s2.setDir h l { e with st := if e.st == .o && e.sharers != 0 then .s else .i, owner := 15
                             txn := some { kind := .writeBack, requester := a } }

/-- An owner in E gives up its line (09 R224, R225). -/
def State.evictNotice (s : State) (h a l : Nat) : State :=
  let mine := fun (t : RTally) => t.half == h && t.requester == a && t.line == l && t.granted
  let s := s.proxyGives h a l (fun x => x == .e)
  let held := match s.wbOf h a l with | some w => w.phase = 0 && !(moesiDirty w.st) | none => false
  if (s.copyOf h a l).st == .e || held || s.coh.tallies.any mine then
    let s := s.setCopy h a l {}
    let s := if held then s.setWb h a l none else s
    let s1 : State := { s with coh := { s.coh with tallies := s.coh.tallies.filter (fun t => !(mine t)) } }
    let e := s.dirEnt h l
    if e.owner = a && e.st == .x then
      if e.txn.isSome then s1.refuse h a l e.part false
      else (s1.setDir h l { e with st := .i, owner := 15, sharers := 0 }).sendGrants h l e.part
    else s1.passTurn h l (s.coh.tallies.any mine)
  else s

/-- Send a home access of master m of half h (09 R226): a read that hits its half's proxy is served there; one that misses goes to the home and keeps
an S copy at the proxy unless its hint is NOALLOC; a write goes to the home. From the other half it arrives as agent 14 (R229). -/
def State.homeSend (s : State) (h l n : Nat) (tally : Bool) (t : Txn) : State :=
  if homeOf l = h || s.proxyServes h l t.kind then s.request h l n tally t
  else
    let s := if t.kind == .read then s.countLook h n false else s
    let keep := t.kind == .read && t.hint != .noAlloc && s.roomAt h l n
    s.request (homeOf l) l n tally { t with requester := 14, keep := keep }

/-- A home access of a master (09 R226), answered with STACK_OFFLINE where the line's stack is offline (10 R259). -/
def State.homeAccess (s : State) (h m l : Nat) (tally : Bool) (t : Txn) : State :=
  match s.ownerPch (pchOfLine l) with
  | none => s
  | some n =>
    if s.lineOffline l then s.emit (.homeData (h * 64 + m) l St.stackOffline (if t.kind == .read then zeros 64 else []) false)
    else s.homeSend h l n tally { t with requester := 15 + m, origin := some (h * 64 + m) }

/-- The kinds of snoop (09 R224). -/
inductive Snoop where
  | shared | unique | inv | cur
  deriving DecidableEq, Repr

/-- State after a snoop, what is forwarded or copied, and whether the answer is O (09 R224). -/
def snoopState (k : Snoop) (st : Moesi) : Moesi × Bool × Bool :=
  match k, st with
  | .shared, .m => (.o, true, true)
  | .shared, .o => (.o, true, true)
  | .shared, .e => (.s, true, false)
  | .shared, x => (x, false, false)
  | .unique, x => (.i, moesiOwns x, false)
  | .inv, _ => (.i, false, false)
  | .cur, x => (x, moesiOwns x, false)

/-- A transaction with the snoop of kind k to agent a outstanding. -/
def snoopOut (k : Snoop) (t : Txn) (a : Nat) : Bool :=
  match k with
  | .shared => t.shared.testBit a
  | .unique => t.unique.testBit a
  | .inv => t.inv.testBit a
  | .cur => t.cur.testBit a

/-- The snoop has been answered: its answer travels to the home. -/
def snoopSent (k : Snoop) (t : Txn) (a : Nat) : Txn :=
  let t : Txn := match k with
    | .shared => { t with shared := clearBit t.shared a }
    | .unique => { t with unique := clearBit t.unique a }
    | .inv => { t with inv := clearBit t.inv a }
    | .cur => { t with cur := clearBit t.cur a }
  { t with due := setBit t.due a }

/-- A snoop reaches an agent of the directory's half: answered from a live write-back buffer entry first (09 R228). -/
def State.snoopAgent (s : State) (k : Snoop) (h a l : Nat) : State × Option Copy × Bool :=
  match s.wbOf h a l with
  | some w =>
    if w.dead then (s, none, false)
    else
      let r := snoopState k w.st
      let gone := k == .unique || k == .inv
      (s.setWb h a l (some { w with st := if gone then w.st else r.1, dead := gone }),
        if r.2.1 then some { st := w.st, data := w.data, dross := w.dross } else none, r.2.2)
  | none =>
    let c := s.copyOf h a l
    let r := snoopState k c.st
    (s.setCopy h a l { c with st := r.1 }, if r.2.1 then some c else none, r.2.2)

/-- A snoop reaches the other half's SLC, which answers for its half (09 R220; log entry 51). -/
def State.snoopProxy (s : State) (k : Snoop) (l : Nat) : State × Option Copy × Bool :=
  let hp := 1 - homeOf l
  let c := s.proxyCopy l
  match k with
  | .cur => (s, c, false)
  | .shared =>
    let dirty := match c with | some c => moesiDirty c.st | none => false
    let s := forAll (List.range 14) (fun a s =>
      let x := s.copyOf hp a l
      s.setCopy hp a l { x with st := if x.st == .i then .i else .s }) s
    let e := s.dirEnt hp l
    let s := if e.st == .x || e.st == .o then s.setDir hp l { e with st := .s, sharers := setBit e.sharers e.owner, owner := 15 } else s
    let s := match c, s.slcLine hp l with
      | some c, some x => s.setSlc hp l (some { x with data := c.data, dross := c.dross, dirty := dirty })
      | _, _ => s
    let s := { s with coh := { s.coh with copies := s.coh.copies.upd {} (proxyKey l) (fun p =>
                 { p with st := if p.st == .i then .i else if dirty then .o else .s }) } }
    (s, c, dirty)
  | _ =>
    let s := (s.clearHalf hp l).setSlc hp l none
    let s := { s with coh := { s.coh with copies := s.coh.copies.set {} (proxyKey l) {} } }
    (s, if k == .unique then c else none, false)

/-- The proxy's own entry lets a snoop in: it has no transaction of its own but one that waits for the home (09 R230). -/
def State.proxyFree (s : State) (l : Nat) : Bool :=
  match (s.dirEnt (1 - homeOf l) l).txn with
  | none => true
  | some t => t.waitsHome

/-- A snoop reaches agent 14: its buffer first (09 R228), then what its half holds. -/
def State.snoopOther (s : State) (k : Snoop) (l : Nat) : State × Option Copy × Bool :=
  match s.wbOf (homeOf l) 14 l with
  | none => s.snoopProxy k l
  | some _ =>
    let b := s.snoopAgent k (homeOf l) 14 l
    let r := b.1.snoopProxy k l
    (r.1, b.2.1.orElse (fun _ => r.2.1), b.2.2 || r.2.2)

/-- A snoop of kind k reaches agent a (09 R224, R228). -/
def State.snoop (s : State) (k : Snoop) (h a l : Nat) : State :=
  match (s.dirEnt h l).txn with
  | none => s
  | some t =>
    if snoopOut k t a && (a != 14 || s.proxyFree l) then
      let r := if a = 14 then s.snoopOther k l else s.snoopAgent k h a l
      let t := snoopSent k t a
      let t : Txn := match r.2.1 with
        | some c => { t with data := some c.data, dross := c.dross, dirty := t.dirty || moesiDirty c.st, ownerKept := r.2.2 }
        | none => t
      r.1.setDir h l { r.1.dirEnt h l with txn := some t }
    else s

/-- An agent's answer reaches the home (09 R225). -/
def State.snoopAnswer (s : State) (h a l : Nat) : State :=
  match (s.dirEnt h l).txn with
  | some t => if t.due.testBit a then
      (s.setDir h l { s.dirEnt h l with txn := some { t with due := clearBit t.due a } }).advanceTxn h l else s
  | none => s

/-- The line as its requester gets it (09 R230): what the transaction carries, the copy that an Upgrade keeps, else what the home holds. -/
def State.givenLine (s : State) (h a l : Nat) (t : Txn) : State × List Byte × Bool :=
  let old := s.copyOf h a l
  match t.data with
  | some d => (s, d, t.dross)
  | none =>
    if t.noData && old.st != .i then (s, old.data, old.dross)
    else
      let x := s.lineData h l ((s.ownerPch (pchOfLine l)).getD 16) t.hint
      (x.1, x.2.data, x.2.dross)

/-- The other half's SLC takes a line from home half h (09 R220): an Upgrade keeps its data; a request there that waited for it goes on. -/
def State.takeAtProxy (s : State) (h l : Nat) (t : Txn) (data : List Byte) (dross : Bool) : State :=
  let n := (s.ownerPch (pchOfLine l)).getD 16
  let hp := 1 - h
  let s := { s with coh := { s.coh with copies := s.coh.copies.set {} (proxyKey l) { st := t.grantSt } } }
  let d := match if t.noData then s.slcLine hp l else none with
    | some c => (c.data, c.dross)
    | none => (data, dross)
  let s := s.fillSlc hp l n d.1 d.2 (moesiDirty t.grantSt) t.hint
  match (s.dirEnt hp l).txn with
  | some p => if p.waitsHome then s.serveEntry hp l n p else s
  | none => s

/-- An agent takes a line and performs its access on it (09 R230). A store of a foreign chiplet into a line it asked to own gives bytes that no command
carries: free values (log entry 123). -/
def State.takeAtAgent (s : State) (h a l : Nat) (t : Txn) (data : List Byte) (dross : Bool) : State :=
  let stores := decide (8 ≤ a) && t.kind != .rds
  let c : Copy := if stores then { st := .m, data := (List.range 64).map (Config.freeByte s.freeCtr), dross := dross }
    else { st := t.grantSt, data := data, dross := dross }
  let s := (if stores then s.tick else s).setCopy h a l c
  if homeOf l != h && t.grantSt == .m then
    { s with coh := { s.coh with copies := s.coh.copies.set {} (proxyKey l) { st := .m } } }
  else s

/-- The requester holds the line in the state granted to it. -/
def State.takeLine (s : State) (h a l : Nat) (t : Txn) : State :=
  let r := s.givenLine h a l t
  if a = 14 then r.1.takeAtProxy h l t r.2.1 r.2.2 else r.1.takeAtAgent h a l t r.2.1 r.2.2

/-- The requester's acknowledgement closes the transaction (09 R230): a proxy takes its line only where a way is free of pinned lines. -/
def State.complete (s : State) (h a l : Nat) : State :=
  match (s.dirEnt h l).txn with
  | some t =>
    if t.delivered && t.requester == a && (a != 14 || s.roomAt (1 - h) l ((s.ownerPch (pchOfLine l)).getD 16)) then
      (s.takeLine h a l t).closeTxn h l else s
  | none => s

/-- The snoops of an open transaction of half h reach their agents, and the answers the home, in one go. -/
def State.runSnoops (s : State) (h l : Nat) : State :=
  forAll (List.range 15) (fun a s =>
    if (s.dirEnt h l).txn.isSome then
      ([Snoop.shared, .unique, .inv, .cur].foldl (fun (s : State) k => s.snoop k h a l) s).snoopAnswer h a l
    else s) s

/-- A transaction just opened for a line runs as far as answers take it: the entry it waits for is emptied first (09 R232). -/
def State.runTxn (s : State) (h l : Nat) : State :=
  match (s.dirEnt h l).txn with
  | none => s
  | some t =>
    let s := if t.waitsEntry then
        (match s.coh.dir.find? (fun e => e.1 / 2 ^ 38 == h && (e.2.txn.bind (·.forLine)) == some l) with
         | some v => s.runSnoops h (v.1 % 2 ^ 38)
         | none => s)
      else s
    s.runSnoops h l

/-- A tally of requester r for a line of half h has been granted. -/
def State.granted (s : State) (h r l : Nat) : Bool := s.coh.tallies.any (fun t => t.half == h && t.requester == r && t.line == l && t.granted)

/-- A caching agent holds a line in a state that permits a load, or a store (09 R224). -/
def State.mayAccess (s : State) (h a l : Nat) (store : Bool) : Bool :=
  let st := (s.copyOf h a l).st
  if store then st == .m || st == .e else st != .i

/-- An agent of half h gets a line of Pn from its home, or through its proxy, for a load or a store of its own (09 R220, R225): the requests, their
snoops and their answers, run whole. What another transaction blocks stays as it is then. -/
def State.fetchLine (s : State) (h a l n : Nat) (store : Bool) : State :=
  if s.mayAccess h a l store || !(s.agentMay h a l) || s.isRetired l || s.lineOffline l || (s.wbOf h a l).isSome then s
  else
    let kind := fun (st : Moesi) => if !store then TxnKind.rds else if st == .i then TxnKind.rdu else TxnKind.upgrade
    let s := (s.request h l n (s.granted h a l) { kind := kind (s.copyOf h a l).st, requester := a }).runTxn h l
    let waits := match (s.dirEnt h l).txn with | some t => t.waitsHome && t.requester == a | none => false
    let s := if waits && (s.wbOf (homeOf l) 14 l).isNone then
        let home := homeOf l
        let s := (s.request home l n (s.granted home 14 l) { kind := kind (s.copyOf home 14 l).st, requester := 14 }).runTxn home l
        (s.complete home 14 l).runTxn h l
      else s
    s.complete h a l

end Sys2Proof.Machine
end

