-- ==== Sys2Proof/Machine/Access.lean ====
section
/-!
DEFINITION. Accesses at a line's home (09 R221, R226, R227; 10 R247) and accesses of a partition by PPA (01 R22): each line of an access is a home
access, or an access of a cluster's L2, that runs whole. An access of a command that stands for one response (a burst, a mover access, an access of a core
or of BAR2) waits where a line has an open transaction or a regulator holds it; one inside a longer operation does not (log entry 50).
-/

namespace Sys2Proof.Machine

/-- How an access reaches a line: from a half's proxy or at the home itself, as which master (08 R198), with which hint (09 R221), or through a cluster's
L2 (06 R141). What the spec names no hint for goes to the home with NOALLOC (log entry 78). -/
structure Via where
  half : Option Nat := none
  master : Nat := 41
  hint : Hint := .noAlloc
  cluster : Option Nat := none
  /-- The cluster's access is a store. -/
  store : Bool := false
  deriving DecidableEq, Repr

/-- A hint field (09 R237). -/
def hintOf (v : Nat) : Hint := if v = 1 then .evictFirst else if v = 2 then .noAlloc else .alloc

/-- SLC_PART_POLICY at reset (09 R237): the register is kept as its difference from it. -/
def policyReset : Nat := 0x200

/-- The hint that SLC_PART_POLICY of half h sets for Pn in the field at bit lo (09 R237). -/
def State.policyHint (s : State) (h n lo : Nat) : Hint := hintOf (bits (s.reg (slcPartAddr h n 0) ^^^ policyReset) (lo + 1) lo)

/-- A port of master m of half h whose hint is the field at bit lo of SLC_PART_POLICY. -/
def State.policyVia (s : State) (h m n lo : Nat) : Via := { half := some h, master := m, hint := s.policyHint h n lo }
/-- Mover reads and restores of site k (09 R237). -/
def State.moverReads (s : State) (k n : Nat) : Via := s.policyVia (k / 6) (k % 6) n 0
/-- Mover writes and saves of site k. -/
def State.moverWrites (s : State) (k n : Nat) : Via := s.policyVia (k / 6) (k % 6) n 2
/-- Data of a descriptor of DMA channel i: its own HINT, or the policy's (09 R237; 11 R268). -/
def State.dmaVia (s : State) (i n hint : Nat) : Via :=
  let e := i / 32
  let p := s.policyVia (e / 16) (8 + e % 16) n 4
  if hint = 0 then p else { p with hint := if hint = 1 then .alloc else if hint = 2 then .evictFirst else .noAlloc }
/-- Ethernet receive on half h. -/
def State.netVia (s : State) (h n : Nat) : Via := s.policyVia h 24 n 6
/-- Ring writes (log entry 78: the collective engine of half 0 stands for both). -/
def State.ringVia (s : State) (n : Nat) : Via := s.policyVia 0 27 n 6
/-- BAR2 accesses of Pn's VF. -/
def State.bar2Via (s : State) (n : Nat) : Via := s.policyVia 0 26 n 8

/-- A line has an open transaction, or tallies that wait for it, at either half. -/
def State.lineBusy (s : State) (l : Nat) : Bool :=
  (s.dirEnt 0 l).txn.isSome || (s.dirEnt 1 l).txn.isSome || s.coh.tallies.any (fun t => t.line == l && !t.granted)

/-- A read at the line's home that opens no transaction: its failure is reported, and what comes from the stack is charged. -/
def State.readAtHome (s : State) (l : Nat) : State :=
  let s := if (s.newest l).fails then s.reportFail l else s
  if s.fromHbm l then s.charge l else s

/-- A home access of half h that runs whole, with the tally it may have been granted (09 R226, R229). -/
def State.homeRun (s : State) (h l n : Nat) (t : Txn) : State :=
  let here := homeOf l = h || s.proxyServes h l t.kind
  let s := s.homeSend h l n (if here then s.granted h t.requester l else s.granted (homeOf l) 14 l) t
  s.runTxn (if here then h else homeOf l) l

/-- A home read of a line of Pn (09 R226). -/
def State.homeRead (s : State) (l n : Nat) (p : Via) : State :=
  if s.lineBusy l || s.lineOffline l then s.readAtHome l
  else
    let h := p.half.getD (homeOf l)
    s.homeRun h l n { kind := .read, requester := 15 + p.master, hint := p.hint }

/-- Read a line (09 R221, R226): through the L2 of the port's cluster, or as a home access. -/
def State.noteRead (s : State) (l : Nat) (p : Via := {}) : State :=
  match s.ownerPch (pchOfLine l), p.cluster with
  | none, _ => s.readAtHome l
  | some n, none => s.homeRead l n p
  | some n, some c =>
    let t := if s.lineBusy l then s else s.fetchLine (c / 8) (c % 8) l n false
    if t.mayAccess (c / 8) (c % 8) l false then t else t.homeRead l n { half := some (c / 8), master := 32 + c % 8, hint := .alloc }

/-- A write at the line's home that opens no transaction: every copy goes, and the line is written. -/
def State.writeAtHome (s : State) (l n off : Nat) (bytes : List Byte) (dross : Bool) : State :=
  let h := homeOf l
  if off = 0 && bytes.length == 64 then (s.dropCopies l).putLine h l n bytes dross .noAlloc
  else
    let mask := (2 ^ bytes.length - 1) <<< off
    if s.anyCopy l then
      let r := s.newest l
      (s.dropCopies l).putLine h l n (overlay mask 0 r.data (zeros off ++ bytes)) (r.dross || dross) .noAlloc
    else (s.dropCopies l).hbmPartial l mask (zeros off ++ bytes) dross

/-- A home write of a line of Pn (09 R226): a full line replaces it, a part merges into its newest copy. -/
def State.homeWrite (s : State) (l n off : Nat) (bytes : List Byte) (dross : Bool) (p : Via) : State :=
  if s.lineBusy l then s.writeAtHome l n off bytes dross
  else
    let h := p.half.getD (homeOf l)
    let full := off = 0 && bytes.length == 64
    s.homeRun h l n
      { kind := if full then .write else .partialWrite, requester := 15 + p.master, hint := p.hint
        mask := (2 ^ bytes.length - 1) <<< off, wdata := zeros off ++ bytes, wdross := dross }

/-- A store into a copy that an agent owns (09 R224): E becomes M. Dross clears only with a full clean line (17 R453). -/
def State.storeCopy (s : State) (h a l off : Nat) (bytes : List Byte) (dross : Bool) : State :=
  let c := s.copyOf h a l
  let full := off = 0 && bytes.length == 64
  s.setCopy h a l { st := .m, data := overlay ((2 ^ bytes.length - 1) <<< off) 0 c.data (zeros off ++ bytes), dross := dross || (c.dross && !full) }

/-- Write bytes into a line from byte off on (09 R224, R226): in the L2 of the port's cluster, or as a home access. -/
def State.writeLine (s : State) (l off : Nat) (bytes : List Byte) (dross : Bool) (p : Via := {}) : State × StatusCode :=
  if s.lineOffline l then (s, St.stackOffline)
  else match s.ownerPch (pchOfLine l), p.cluster with
    | none, _ => (s.writeAtHome l 16 off bytes dross, St.ok)
    | some n, none => (s.homeWrite l n off bytes dross p, St.ok)
    | some n, some c =>
      let t := if s.lineBusy l then s else s.fetchLine (c / 8) (c % 8) l n true
      if !(t.isRetired l) && t.mayAccess (c / 8) (c % 8) l true then (t.storeCopy (c / 8) (c % 8) l off bytes dross, St.ok)
      else (t.homeWrite l n off bytes dross { half := some (c / 8), master := 32 + c % 8, hint := .alloc }, St.ok)

/-- What a read of Pn's PPA reports, charges and moves, line by line. -/
def State.ppaReport (s : State) (n ppa len : Nat) (p : Via := {}) : State :=
  if s.inPpa n ppa len then
    (pieces (len / 64 + 2) ppa len).foldl (fun s pc => s.noteRead ((s.ppaToHpa n pc.1).getD 0 / 64) p) s
  else s

/-- A read of Pn's PPA. -/
def State.ppaRead (s : State) (n ppa len : Nat) (p : Via := {}) : State × List Byte × Bool × StatusCode :=
  (s.ppaReport n ppa len p, s.ppaPeek n ppa len)

/-- Write one piece of a PPA write: (state, bytes still to write, status so far). -/
def writePiece (n : Nat) (dross : Bool) (p : Via) (acc : State × List Byte × StatusCode) (pc : Nat × Nat) :
    State × List Byte × StatusCode :=
  let hpa := (acc.1.ppaToHpa n pc.1).getD 0
  let w := acc.1.writeLine (hpa / 64) (hpa % 64) (acc.2.1.take pc.2) dross p
  (w.1, acc.2.1.drop pc.2, if acc.2.2 = St.ok then w.2 else acc.2.2)

/-- Write bytes to Pn's PPA at their homes, line by line (10 R259), the range having been checked. -/
def State.ppaStore (s : State) (n ppa : Nat) (bytes : List Byte) (dross : Bool) (p : Via := {}) : State × StatusCode :=
  let r := (pieces (bytes.length / 64 + 2) ppa bytes.length).foldl (writePiece n dross p) (s, bytes, St.ok)
  (r.1.markDirty n ppa bytes.length, r.2.2)

/-- A write that the hub makes for Pn: FAULT_BOUNDS beyond the size (01 R22) or into a protected image (06 R147), with
nothing written. -/
def State.hubWrite (s : State) (n ppa : Nat) (bytes : List Byte) (p : Via := {}) : State × StatusCode :=
  if !(s.inPpa n ppa bytes.length) then (s, St.faultBounds)
  else if s.protected n ppa bytes.length then ({ s with dues := s.dues ++ [.codeWrite n] }, St.faultBounds)
  else s.ppaStore n ppa bytes false p

/-- The partition whose regulator holds a request for a line at its stack (10 R247). -/
def State.hmcHolds (s : State) (l : Nat) : Option Nat :=
  match s.ownerPch (pchOfLine l) with
  | some n => if s.stkOpen (stackOfLine l) n || s.lineOffline l then none else some n
  | none => none

/-- The line of a request to a controller that waits in its input buffer. -/
def heldLine : Instr → Option Nat
  | .hmcRead l => some l
  | .hmcFullWrite l _ _ => some l
  | .hmcPartialWrite l _ _ => some l
  | .rds _ _ l _ _ => some l
  | .rdu _ _ l _ _ => some l
  | .homeRead _ _ l _ _ => some l
  | .homeFullWrite _ _ l _ _ _ _ => some l
  | _ => none

/-- A request for the line waits in the input buffer: what comes after it waits behind it (10 R242). -/
def State.lineHeld (s : State) (l : Nat) : Bool := s.hbm.held.any (fun e => heldLine e.2 == some l)

/-- Put a request into the input buffer behind the regulator of the line's owner (10 R247) or an earlier request of the line (R242), or serve it with f. -/
def State.hmcServe (s : State) (l : Nat) (c : Instr) (f : State → State) : State :=
  let wait := fun (s : State) (n : Nat) => { s with hbm := { s.hbm with held := s.hbm.held ++ [(stackOfLine l * 16 + n, c)] } }
  match s.hmcHolds l with
  | some n => wait (s.stkHold (stackOfLine l) n) n
  | none => if s.lineHeld l then wait s ((s.ownerPch (pchOfLine l)).getD 0) else f s

/-- A request at a home that will need its line's stack passes the stack's regulator first (10 R247); one that meets an open transaction does not reach
the stack (09 R227). -/
def State.homeServe (s : State) (l : Nat) (c : Instr) (f : State → State) : State :=
  if s.fromHbm l && !(s.lineBusy l) then s.hmcServe l c f else f s

/-- An access from a port that needs the line from its stack waits there: behind a request of the line, or for the regulator (10 R242, R247). -/
def State.stackHolds (s : State) (l : Nat) : Option State :=
  if !(s.fromHbm l) then none
  else match s.hmcHolds l with
    | some n => some (s.stkHold (stackOfLine l) n)
    | none => if s.lineHeld l then some s else none

/-- The directory slice where an access from a port meets an open transaction of a line, or tallies before it, and its index there (09 R227, R229). -/
def State.meets (s : State) (l : Nat) (p : Via) : Option (Nat × Nat) :=
  let home := homeOf l
  let h := match p.cluster with | some c => c / 8 | none => p.half.getD home
  let r := match p.cluster with | some c => c % 8 | none => 15 + p.master
  let open_ := fun (h r : Nat) => (s.dirEnt h l).txn.isSome || (!(s.granted h r l) && s.coh.tallies.any (fun t => t.half == h && t.line == l))
  if (match p.cluster with | some _ => s.mayAccess h r l p.store | none => false) then none
  else if open_ h r then some (h, r)
  else if homeOf l != h && open_ home 14 then some (home, 14)
  else none

/-- Why an access of a line waits: Retry with a tally (09 R229), or the stack (10 R242, R247). -/
def State.lineWaits (s : State) (l : Nat) (p : Via) : Option State :=
  match s.meets l p with
  | some (h, r) => some (s.refuse h r l ((s.ownerPch (pchOfLine l)).getD 16) false)
  | none => s.stackHolds l

/-- Run the access of a response over the lines of a range of Pn, or wait at the first line that holds it. -/
def State.onLines (s : State) (n ppa len : Nat) (p : Via) (f : State → State) : State :=
  if s.inPpa n ppa len then
    (match (pieces (len / 64 + 2) ppa len).findSome? (fun pc => s.lineWaits ((s.ppaToHpa n pc.1).getD 0 / 64) p) with
     | some t => t
     | none => f s)
  else f s

end Sys2Proof.Machine
end

