-- ==== Sys2Proof/Machine/Float.lean ====
section
/-!
DEFINITION. Exact arithmetic and the number formats (05 R115-R117, R120-R126, R466): values as signed dyadic numbers, decoding of
every element and scale format, and one rounding to any of them.
-/

namespace Sys2Proof.Machine

/-- A value read from a format: NaN, an infinity, or (-1)^neg * m * 2^e exactly. -/
inductive Fp where
  | nan
  | inf (neg : Bool)
  | fin (neg : Bool) (m : Nat) (e : Int)
  deriving DecidableEq, Repr

/-- A dyadic number m * 2^e. -/
structure Dy where
  m : Int := 0
  e : Int := 0
  deriving DecidableEq, Repr

/-- 2^k for k at or above 0, and 1 below. -/
def pow2 (k : Int) : Nat := 2 ^ k.toNat

/-- Sum of two dyadic numbers. -/
def Dy.add (a b : Dy) : Dy :=
  let e := min a.e b.e
  { m := a.m * pow2 (a.e - e) + b.m * pow2 (b.e - e), e := e }

/-- Product of two dyadic numbers. -/
def Dy.mul (a b : Dy) : Dy := { m := a.m * b.m, e := a.e + b.e }

/-- Sum of a list. -/
def Dy.sum (l : List Dy) : Dy := l.foldl Dy.add {}

/-- The signed dyadic number of a finite value; 0 for the others. -/
def Fp.dy : Fp → Dy
  | .fin neg m e => { m := if neg then -(m : Int) else m, e := e }
  | _ => {}

/-- Neither NaN nor infinite. -/
def Fp.isFin : Fp → Bool
  | .fin _ _ _ => true
  | _ => false

/-- A value of a dyadic number; neg is the sign of a zero. -/
def Dy.fp (d : Dy) (neg : Bool) : Fp := .fin (if d.m = 0 then neg else decide (d.m < 0)) d.m.natAbs d.e

/-- Floor of log2 of n * 2^e / d, for n and d above 0. -/
def floorLog2 (n d : Nat) (e : Int) : Int :=
  let k : Int := (n.log2 : Int) - (d.log2 : Int)
  (if n * pow2 (-k) < d * pow2 k then k - 1 else k) + e

/-- How a quotient is rounded. -/
inductive Rnd where
  | even | zero | up
  deriving DecidableEq, Repr

/-- n * 2^e / d rounded to a multiple of 2^qe: the multiple. -/
def roundAt (r : Rnd) (n d : Nat) (e qe : Int) : Nat :=
  let num := n * pow2 (e - qe)
  let den := d * pow2 (qe - e)
  let q := num / den
  let rem := num % den
  match r with
  | .zero => q
  | .up => if rem = 0 then q else q + 1
  | .even => if den < 2 * rem then q + 1 else if 2 * rem = den then q + q % 2 else q

/-- A binary floating format: mantissa bits, exponent of the smallest normal, code of the largest finite magnitude, sign bit
position, codes of the canonical NaN (R466) and of the infinity where it has them. -/
structure Fmt where
  mb : Nat
  emin : Int
  maxCode : Nat
  sign : Nat
  nan : Option Nat
  inf : Option Nat
  deriving DecidableEq, Repr

/-- Magnitude code of n * 2^e / d rounded as if the format had no largest exponent (05 R121, R123, R126). -/
def Fmt.round (f : Fmt) (r : Rnd) (n d : Nat) (e : Int) : Nat :=
  if n = 0 then 0 else
  let k := floorLog2 n d e
  let qe := max k f.emin - f.mb
  (qe - (f.emin - f.mb)).toNat * 2 ^ f.mb + roundAt r n d e qe

/-- binary32. -/
def binary32 : Fmt := { mb := 23, emin := -126, maxCode := 0x7F7FFFFF, sign := 31, nan := some 0x7FC00000, inf := some 0x7F800000 }
/-- BF16. -/
def bf16 : Fmt := { mb := 7, emin := -126, maxCode := 0x7F7F, sign := 15, nan := some 0x7FC0, inf := some 0x7F80 }
/-- FP16. -/
def fp16 : Fmt := { mb := 10, emin := -14, maxCode := 0x7BFF, sign := 15, nan := some 0x7E00, inf := some 0x7C00 }
/-- FP8 E4M3. -/
def e4m3 : Fmt := { mb := 3, emin := -6, maxCode := 0x7E, sign := 7, nan := some 0x7F, inf := none }
/-- FP8 E5M2. -/
def e5m2 : Fmt := { mb := 2, emin := -14, maxCode := 0x7B, sign := 7, nan := some 0x7E, inf := some 0x7C }
/-- MXFP6 E2M3. -/
def e2m3 : Fmt := { mb := 3, emin := 0, maxCode := 0x1F, sign := 5, nan := none, inf := none }
/-- MXFP6 E3M2. -/
def e3m2 : Fmt := { mb := 2, emin := -2, maxCode := 0x1F, sign := 5, nan := none, inf := none }
/-- MXFP4 E2M1. -/
def e2m1 : Fmt := { mb := 1, emin := 0, maxCode := 7, sign := 3, nan := none, inf := none }

/-- Value of a code of a floating format (05 R116). -/
def Fmt.decode (f : Fmt) (c : Nat) : Fp :=
  let neg := c.testBit f.sign
  let mag := c % 2 ^ f.sign
  if f.maxCode < mag then
    (match f.inf with
     | some i => if mag = i then .inf neg else .nan
     | none => .nan)
  else if mag / 2 ^ f.mb = 0 then .fin neg mag (f.emin - f.mb)
  else .fin neg (2 ^ f.mb + mag % 2 ^ f.mb) (f.emin - f.mb + (mag / 2 ^ f.mb - 1 : Nat))

/-- Code of a magnitude with its sign. -/
def Fmt.signed (f : Fmt) (neg : Bool) (mag : Nat) : Nat := mag + (if neg then 2 ^ f.sign else 0)

/-- A value in a floating format, rounded to nearest even, and whether it was beyond the largest magnitude: written then as that
magnitude (05 R121, R123). An infinity stays one where the format has it; a NaN is the canonical one (R466). -/
def Fmt.encode (f : Fmt) (v : Fp) : Nat × Bool :=
  match v with
  | .nan => (f.nan.getD 0, false)
  | .inf neg => (f.signed neg (f.inf.getD f.maxCode), false)
  | .fin neg m e =>
    let c := f.round .even m 1 e
    if f.maxCode < c then (f.signed neg f.maxCode, true) else (f.signed neg c, false)

/-- Value of a binary32 word. -/
def f32 (w : Word32) : Fp := binary32.decode w.toNat
/-- A value rounded to binary32, and whether it saturated (05 R121). -/
def rne32 (v : Fp) : Word32 × Bool := let r := binary32.encode v; (BitVec.ofNat 32 r.1, r.2)
/-- The canonical NaN of binary32 (05 R466). -/
def nan32 : Word32 := 0x7FC00000
/-- A binary32 word is a NaN. -/
def isNan32 (w : Word32) : Bool := f32 w == .nan

/-- Exact sum of two values under IEEE 754 (05 R121). -/
def Fp.add (a b : Fp) : Fp :=
  match a, b with
  | .nan, _ => .nan
  | _, .nan => .nan
  | .inf x, .inf y => if x == y then .inf x else .nan
  | .inf x, _ => .inf x
  | _, .inf y => .inf y
  | .fin x m e, .fin y n g => ((Fp.fin x m e).dy.add (Fp.fin y n g).dy).fp (x && y)

/-- Exact product of two values under IEEE 754. -/
def Fp.mul (a b : Fp) : Fp :=
  match a, b with
  | .nan, _ => .nan
  | _, .nan => .nan
  | .inf x, .inf y => .inf (x != y)
  | .inf x, .fin y n _ => if n = 0 then .nan else .inf (x != y)
  | .fin x m _, .inf y => if m = 0 then .nan else .inf (x != y)
  | .fin x m e, .fin y n g => .fin (x != y) (m * n) (e + g)

/-- The negative of a value. -/
def Fp.neg : Fp → Fp
  | .nan => .nan
  | .inf x => .inf (!x)
  | .fin x m e => .fin (!x) m e

/-- a < b for values that are not NaN; zeros of either sign are equal. -/
def Fp.lt (a b : Fp) : Bool :=
  match a, b with
  | .nan, _ => false
  | _, .nan => false
  | .inf x, .inf y => x && !y
  | .inf x, _ => x
  | _, .inf y => !y
  | .fin x m e, .fin y n g => decide (((Fp.fin x m e).dy.add (Fp.fin y n g).neg.dy).m < 0)

/-- a <= b for values that are not NaN. -/
def Fp.le (a b : Fp) : Bool := a != .nan && b != .nan && !(Fp.lt b a)

/-- A zero. -/
def Fp.isZero : Fp → Bool
  | .fin _ m _ => m == 0
  | _ => false

/-- The maximum of two values (05 R123): NaN when either is; the maximum of +0 and -0 is +0. -/
def Fp.max (a b : Fp) : Fp :=
  if a == .nan || b == .nan then .nan
  else if a.isZero && b.isZero then (match a with | .fin true _ _ => b | _ => a)
  else if Fp.lt a b then b else a

/-- A signed integer as a value. -/
def fpInt (v : Int) : Fp := .fin (decide (v < 0)) v.natAbs 0

/-- The larger of two magnitudes m * 2^e (05 R124, R125). -/
def magMax (a b : Nat × Int) : Nat × Int :=
  if a.1 * pow2 (a.2 - b.2) < b.1 * pow2 (b.2 - a.2) then b else a

end Sys2Proof.Machine
end

