-- ==== Sys2Proof/Machine/Operands.lean ====
section
/-!
DEFINITION. The operand forms of the matrix cells: scratchpad bytes and their dross marks (04 R88, R99; 05 R137), tile elements
(04 R96), element blocks and scales in block-panel layout (04 R90-R93; 05 R115-R117), and the escape sidecar (04 R94; 05 R118).
-/

namespace Sys2Proof.Machine

/-- Bytes of a scratchpad (04 R88). -/
def scratchBytes : Nat := 0x600000

/-- Bytes of the scratchpad of a cell. -/
def Cell.bytes (c : Cell) (a len : Nat) : List Byte := Tab.getList 0 c.scratch a len
/-- A little-endian word of the scratchpad. -/
def Cell.word (c : Cell) (a len : Nat) : Nat := ofLe (c.bytes a len)
/-- Any line that holds a byte of a range is dross. -/
def Cell.rangeDross (c : Cell) (a len : Nat) : Bool :=
  len != 0 && c.lineDross.any (fun e => decide (a / 64 ≤ e.1) && decide (e.1 ≤ (a + len - 1) / 64))

/-- Write bytes: a line is marked when the data are dross; its mark clears only when all 64 of its bytes are written clean
(05 R137). -/
def Cell.write (c : Cell) (a : Nat) (data : List Byte) (dross : Bool) : Cell :=
  let last := (a + data.length - 1) / 64
  let n := if data.length = 0 then 0 else last + 1 - a / 64
  let marks := (List.range n).foldl (fun t i =>
    let l := a / 64 + i
    if dross then Tab.set false t l true
    else if a ≤ l * 64 ∧ l * 64 + 64 ≤ a + data.length then Tab.set false t l false else t) c.lineDross
  { c with scratch := Tab.setList 0 c.scratch a data, lineDross := marks }

/-- Key of element (row, column) of tile t. -/
def tileKey (t row col : Nat) : Nat := t * 16384 + row * 128 + col
/-- Element of a tile. -/
def Cell.elem (c : Cell) (t row col : Nat) : Word32 := c.tiles.get 0 (tileKey t row col)
/-- Dross bit of an element. -/
def Cell.elemDross (c : Cell) (t row col : Nat) : Bool := c.tileDross.get false (tileKey t row col)
/-- TYPE of a tile: INT32. -/
def Cell.isInt (c : Cell) (t : Nat) : Bool := c.tileInt.get false t
/-- Value of an element under its tile's TYPE. -/
def Cell.val (c : Cell) (t row col : Nat) : Fp := if c.isInt t then fpInt (c.elem t row col).toInt else f32 (c.elem t row col)

/-- Scalar register r; s0 reads 0 (04 R88). -/
def Cell.reg (c : Cell) (r : Nat) : Word32 := if r = 0 then 0 else c.sregs.get 0 r
/-- Write a scalar register; s0 ignores it. -/
def Cell.setReg (c : Cell) (r : Nat) (v : Word32) : Cell := if r = 0 then c else { c with sregs := c.sregs.set 0 r v }

/-- Bits of an element of a format code (04 R90). -/
def fmtBits (f : Nat) : Nat :=
  match f with
  | 0 => 16 | 1 => 16 | 2 => 8 | 3 => 8 | 4 => 6 | 5 => 6 | 6 => 4 | 7 => 8 | 8 => 8 | 9 => 4 | 10 => 2 | 11 => 2 | _ => 0
/-- Bytes of a block of 32 elements. -/
def blockBytes (f : Nat) : Nat := 4 * fmtBits f
/-- A format code that R90 defines. -/
def fmtDefined (f : Nat) : Bool := decide (f < 12)
/-- Scale modes allowed for an FP32 result and for QNT (04 R90). -/
def scaleAllowed (f sm : Nat) : Bool :=
  if f ≤ 1 then sm == 0
  else if f = 2 || f = 3 || f = 8 || f = 9 then sm == 0 || sm == 2
  else if f ≤ 7 then sm == 1
  else sm == 1 || sm == 2
/-- A format that is a QNT target. -/
def isTarget (f : Nat) : Bool := decide (f ≤ 9)
/-- A pair that accumulates in INT32 (04 R91). -/
def intPair (fa fb : Nat) : Bool := decide (8 ≤ fa) && decide (8 ≤ fb)

/-- Two's complement value of a b-bit code. -/
def signed (b c : Nat) : Int := if c.testBit (b - 1) then (c : Int) - 2 ^ b else c

/-- Floating format of a format code, for codes 0-6. -/
def fmtOf (f : Nat) : Fmt :=
  match f with
  | 0 => bf16 | 1 => fp16 | 2 => e4m3 | 3 => e5m2 | 4 => e2m3 | 5 => e3m2 | _ => e2m1

/-- Value d(c) of a code (05 R116); none is the T2 escape. -/
def elemVal (f c : Nat) : Option Fp :=
  if f ≤ 6 then some ((fmtOf f).decode c)
  else if f = 7 then (let v := signed 8 c; some (.fin (decide (v < 0)) v.natAbs (-6)))
  else if f = 8 then some (fpInt (signed 8 c))
  else if f = 9 then some (fpInt (signed 4 c))
  else if f = 10 then some (.fin (c.testBit 1) (if c.testBit 0 then 3 else 1) (-1))
  else match c with
    | 0 => some (.fin false 0 0)
    | 1 => some (.fin false 1 0)
    | 3 => some (.fin true 1 0)
    | _ => none

/-- Raw level that an INT32 MMA adds (04 R91): B2 enters as twice its level; an escape has none. -/
def rawLevel (f c : Nat) : Int :=
  if f = 8 then signed 8 c
  else if f = 9 then signed 4 c
  else if f = 10 then (if c.testBit 1 then -1 else 1) * (if c.testBit 0 then 3 else 1)
  else match c with | 1 => 1 | 3 => -1 | _ => 0

/-- The 32 element codes of a block (05 R115). -/
def blockCodes (f : Nat) (bytes : List Byte) : List Nat :=
  let v := ofLe bytes
  (List.range 32).map (fun i => bits v (fmtBits f * (i + 1) - 1) (fmtBits f * i))

/-- Address of the block of row or column i in panel p (04 R92). -/
def blockAddr (base f p i : Nat) : Nat := base + p * 128 * blockBytes f + i * blockBytes f
/-- The codes of a block in a scratchpad. -/
def Cell.codes (c : Cell) (base f p i : Nat) : List Nat := blockCodes f (c.bytes (blockAddr base f p i) (blockBytes f))

/-- Bytes an operand reaches beyond its base (04 R92): n rows or columns, k panels. -/
def operandLen (f k n : Nat) : Nat := (k - 1) * 128 * blockBytes f + n * blockBytes f
/-- Bytes a scale region reaches (04 R93). -/
def scaleLen (sm k n : Nat) : Nat :=
  match sm with
  | 1 => (k - 1) * 128 + n
  | 2 => 64 + (k - 1) * 256 + 2 * n
  | _ => 0
/-- Address of a block's scales in its region. -/
def scaleAddr (sm base p i : Nat) : Nat := if sm = 2 then base + 64 + p * 256 + 2 * i else base + p * 128 + i
/-- Bytes of a block's scales. -/
def scaleBytes (sm : Nat) : Nat := if sm = 2 then 2 else if sm = 1 then 1 else 0

/-- Value of an E8M0 scale (05 R117): none is NaN. -/
def e8m0 (c : Nat) : Option Dy := if c = 255 then none else some { m := 1, e := (c : Int) - 127 }
/-- Magnitude of an E4M3 sub-scale: none is NaN. -/
def subScale (c : Nat) : Option Dy :=
  match e4m3.decode (c % 128) with
  | .fin _ m e => some { m := m, e := e }
  | _ => none
/-- The scales of the two halves of a block, tile scale apart (05 R117): none is NaN. -/
def Cell.blockScale (c : Cell) (sm base p i : Nat) : Option (Dy × Dy) :=
  match sm with
  | 1 => (e8m0 (c.word (scaleAddr 1 base p i) 1)).map (fun d => (d, d))
  | 2 => match subScale (c.word (scaleAddr 2 base p i) 1), subScale (c.word (scaleAddr 2 base p i + 1) 1) with
    | some a, some b => some (a, b)
    | _, _ => none
  | _ => some ({ m := 1, e := 0 }, { m := 1, e := 0 })

/-- A sidecar record (05 R118). -/
structure SideRec where
  count : Nat
  idx0 : Nat
  idx1 : Nat
  rsv : Nat
  val1 : Nat
  val0 : Nat
  deriving DecidableEq, Repr

/-- Fields of a record. -/
def sideRec (v : Nat) : SideRec :=
  { count := bits v 31 30, idx0 := bits v 29 25, idx1 := bits v 24 20, rsv := bits v 19 16, val1 := bits v 15 8, val0 := bits v 7 0 }
/-- Address of column n's record in panel p (04 R94). -/
def sideAddr (base p n : Nat) : Nat := base + p * 512 + n * 4

/-- Indices of the escape codes of a T2 block. -/
def escapes (codes : List Nat) : List Nat := (List.range 32).filter (fun i => nth codes i == 2)

/-- A record agrees with its block (04 R94; 05 R118). -/
def sideOk (codes : List Nat) (r : SideRec) : Bool :=
  let esc := escapes codes
  r.count == esc.length && decide (r.count ≤ 2) && r.rsv == 0
    && (if 1 ≤ r.count then esc.contains r.idx0 && r.val0 % 128 != 127 else r.idx0 == 0 && r.val0 == 0)
    && (if r.count = 2 then esc.contains r.idx1 && decide (r.idx0 < r.idx1) && r.val1 % 128 != 127 else r.idx1 == 0 && r.val1 == 0)

/-- The 32 values of a block; an escape takes its record's value (05 R118). -/
def blockVals (f : Nat) (codes : List Nat) (r : Option SideRec) : List Fp :=
  (List.range 32).map (fun i => match elemVal f (nth codes i) with
    | some v => v
    | none => match r with
      | some r => e4m3.decode (if r.idx0 = i then r.val0 else r.val1)
      | none => .fin false 0 0)

end Sys2Proof.Machine
end

