-- ==== Sys2Proof/Machine/Flags.lean ====
section
/-!
DEFINITION. The safeguard counters of a context (05 R131-R139): what each event counts, the four words, and the tile fault word
(04 R101).
-/

namespace Sys2Proof.Machine

/-- n tile elements saturated in one instruction into a tile (05 R132). -/
def Guard.addSat (g : Guard) (n tile : Nat) : Guard :=
  if n = 0 then g else { g with sat := satAdd 32 g.sat n, firstTile := if g.sat = 0 then tile else g.firstTile }
/-- n tile elements became NaN. -/
def Guard.addNan (g : Guard) (n : Nat) : Guard := { g with nan := satAdd 24 g.nan n }
/-- n tile elements were marked as dross (05 R138). -/
def Guard.addDross (g : Guard) (n : Nat) : Guard := { g with drossEl := satAdd 32 g.drossEl n }
/-- STA clipped n elements (05 R133). -/
def Guard.addClip (g : Guard) (n : Nat) : Guard := { g with clipEl := satAdd 32 g.clipEl n }
/-- A QNT or QNTS block with n clipped elements (05 R133). -/
def Guard.addClipBlock (g : Guard) (n : Nat) : Guard :=
  if n = 0 then g else { g with clipEl := satAdd 32 g.clipEl n, clipBl := satAdd 24 g.clipBl 1, clipMax := max g.clipMax n }
/-- A block that got an excursion code (05 R134, R135): thr and trap are the safeguard word's, pc the instruction's index. -/
def Guard.addCode (g : Guard) (code thr pc : Nat) (trap : Bool) : Guard :=
  let g := { g with worst := min g.worst code }
  if thr != 0 && decide (code < thr) then
    { g with excCount := satAdd 32 g.excCount 1, firstPc := if g.excCount = 0 then pc else g.firstPc, pending := g.pending || trap }
  else g
/-- A line leaves for HBM with its dross bit set (05 R138). -/
def Guard.addLinesOut (g : Guard) (n : Nat) : Guard :=
  if n = 0 then g else { g with linesOut := satAdd 16 g.linesOut n, task := true }
/-- A message leaves with DROSS set. -/
def Guard.addMsg (g : Guard) : Guard := { g with msgs := satAdd 12 g.msgs 1, task := true }

/-- The guard word (05 R132). -/
def guardWord (g : Guard) : Nat := field 63 32 g.sat + field 31 8 g.nan + field 7 6 g.firstTile
/-- The clip word (05 R133). -/
def clipWord (g : Guard) : Nat := field 63 32 g.clipEl + field 31 8 g.clipBl + field 7 2 g.clipMax
/-- The excursion word (05 R135). -/
def excWord (g : Guard) : Nat := field 63 32 g.excCount + field 31 24 g.worst + field 23 11 g.firstPc + bit g.pending
/-- The dross word (05 R138). -/
def drossWord (g : Guard) : Nat := field 63 32 g.drossEl + field 31 16 g.linesOut + field 15 4 g.msgs + bit g.task

/-- Write one 64-bit word of a latched context's status block (07 R170). -/
def State.putWord (s : State) (n c off w : Nat) : State :=
  let x := s.ctx n c
  if x.latched then (s.hubWrite n (x.statusBase + off) (leBytes 8 w)).1 else s

/-- Write the four safeguard words to the status block (05 R132). -/
def State.putGuard (s : State) (n c : Nat) : State :=
  let g := (s.ctx n c).guard
  (((s.putWord n c 0x50 (guardWord g)).putWord n c 0x58 (clipWord g)).putWord n c 0x60 (excWord g)).putWord n c 0x68 (drossWord g)

/-- STATUS of a fault DETAIL other than a mover failure (04 R101). -/
def faultStatus (detail : Nat) : StatusCode :=
  if detail = 2 || detail = 3 then St.faultBounds else if detail = 6 then St.dross else St.denied

/-- The tile fault word (04 R101). -/
def faultWord (pc op detail aux : Nat) (status : StatusCode) : Nat :=
  field 63 51 pc + field 50 43 op + field 42 35 detail + field 34 8 aux + status.toNat

/-- Record the first fault of a context's tile instructions (04 R101). -/
def State.recordFault (s : State) (n c w : Nat) : State :=
  if (s.ctx n c).fault = 0 then (s.updCtx n c (fun x => { x with fault := w })).putWord n c 0x48 w else s

end Sys2Proof.Machine
end

