-- ==== Sys2Proof/Machine/Context.lean ====
section
/-!
DEFINITION. What a context's work stands on: the keys of its message state (03 R77, R78), its transfers in flight (03 R80; 04 R106), its
gangs (07 R175), its record (R169) and its status block (R170; 03 R81).
-/

namespace Sys2Proof.Machine

/-- Key of the message state of a context on a cell. -/
def msgKey (cell c : Nat) : Nat := cell * 4096 + c

/-- Key of the message state of an address for a context: cores and endpoints have one state. -/
def addrKey (a c : Nat) : Nat := if a < 192 then msgKey a c else a * 4096

/-- Mailbox b of a message state. -/
def MsgState.box (m : MsgState) (b : Nat) : Mailbox := m.boxes.get {} b

/-- Change mailbox b. -/
def MsgState.updBox (m : MsgState) (b : Nat) (f : Mailbox → Mailbox) : MsgState := { m with boxes := m.boxes.upd {} b f }

/-- OUT of a mailbox falls by n (03 R78). -/
def State.outFalls (s : State) (key b n : Nat) : State := s.updMsg key (fun m => m.updBox b (fun x => { x with out := x.out - n }))

/-- No mover write of a cell numbered below k is outstanding (03 R80). -/
def Cell.writesDone (c : Cell) (k : Nat) : Bool :=
  c.movers.all (fun q => q.2.all (fun t => !t.write || decide (k ≤ t.id) || t.accesses.all (fun a => a.done)))

/-- Every access of a cell's movers has returned. -/
def Cell.moversIdle (c : Cell) : Bool := c.movers.all (fun q => q.2.all (fun t => t.accesses.all (fun a => a.done)))

/-- The gang of a cell. -/
def State.gangOf (s : State) (n gid : Nat) : Option Gang := (s.sch n).gangs.find? (fun g => g.id == gid)

/-- Change a gang. -/
def State.updGang (s : State) (n gid : Nat) (f : Gang → Gang) : State :=
  s.updSch n (fun h => { h with gangs := h.gangs.map (fun g => if g.id = gid then f g else g) })

/-- Add the microseconds a cell has run to its gang's and its context's counts: how many is free (log entry 27). -/
def State.addCellRun (s : State) (n c gid : Nat) : State :=
  let us := (Config.freeValue s.freeCtr).toNat % 2 ^ 32
  let s := s.tick.updCtx n c (fun x => { x with run := x.run + us })
  (s.updSch n (fun h => { h with gangs := h.gangs.map (fun g => if g.id = gid then { g with runUs := g.runUs + us } else g) })).putWord n c 0x10
    (s.ctx n c).run

/-- Cells of Pn that run context c. -/
def State.cellsOf (s : State) (n c : Nat) : List Nat :=
  (s.cells.filter (fun e => e.2.state != 0 && e.2.ctx == c && s.ownerCell e.1 == some n)).map (·.1)

/-- The state word of a context (07 R170). -/
def stateWord (c : Ctx) : Nat := c.status.toNat * 256 + c.state.code

/-- The debt word. -/
def debtWord (c : Ctx) : Nat := c.waived * 2 ^ 32 + c.debt

/-- The message word (03 R81). -/
def msgWord (c : Ctx) : Nat :=
  c.msgCount * 2 ^ 48 + c.msgDest * 2 ^ 38 + c.msgBox * 2 ^ 34 + c.msgStatus.toNat

/-- Write the state, debt, run, save and message words of a context. -/
def State.putStatus (s : State) (n c : Nat) : State :=
  let x := s.ctx n c
  ((((s.putWord n c 0 (stateWord x)).putWord n c 8 (debtWord x)).putWord n c 0x10 x.run).putWord n c 0x18 x.saves).putWord n c
    0x40 (msgWord x)

/-- Change a context's state and status and show them. -/
def State.setCtxState (s : State) (n c : Nat) (st : CtxSt) (status : StatusCode) : State :=
  (s.updCtx n c (fun x => { x with state := st, status := status })).putStatus n c

/-- Count a message failure of a context in its message word (03 R81). -/
def State.msgFail (s : State) (n c dest box : Nat) (status : StatusCode) : State :=
  (s.updCtx n c (fun x =>
    if x.msgStatus = St.ok then
      { x with msgCount := satAdd 16 x.msgCount 1, msgDest := dest, msgBox := box, msgStatus := status }
    else { x with msgCount := satAdd 16 x.msgCount 1 })).putStatus n c

/-- Address of context record c of Pn (07 R169). -/
def State.recordAddr (s : State) (n c : Nat) : Nat := (s.sch n).ctxBase + c * 64

/-- A context record read (07 R169; 17 R451): its bytes, or the status of a record that cannot be used. -/
def State.readRecord (s : State) (n c : Nat) : State × Except StatusCode (List Byte) :=
  let r := s.ppaRead n (s.recordAddr n c) 64
  (r.1, if r.2.2.2 != St.ok then .error r.2.2.2 else if r.2.2.1 then .error St.dross else .ok r.2.1)

/-- A context record passes its check (07 R169). -/
def State.recordOk (s : State) (n : Nat) (b : List Byte) : Bool :=
  let ctrl := fld b 0 8
  ctrl.testBit 0 && decide (16 ≤ bits ctrl 15 8) && decide (bits ctrl 15 8 ≤ 23) && s.inPpa n (fld b 8 8) (fld b 0x10 8)
    && s.inPpa n (fld b 0x18 8) 256

/-- Latch CTRL, SAVE_BASE, SAVE_LEN and STATUS_BASE when a context leaves IDLE (07 R169). -/
def State.latch (s : State) (n c : Nat) : State :=
  match s.readRecord n c with
  | (s, .error st) => s.updCtx n c (fun x => { x with latched := false, latchFail := st })
  | (s, .ok b) =>
    if s.recordOk n b then
      s.updCtx n c (fun x => { x with latched := true, latchFail := St.ok, slotLog2 := bits (fld b 0 8) 15 8, saveBase := fld b 8 8
                                      saveLen := fld b 0x10 8, statusBase := fld b 0x18 8 })
    else s.updCtx n c (fun x => { x with latched := false, latchFail := St.denied })

end Sys2Proof.Machine
end

