-- ==== Sys2Proof/Machine/Table.lean ====
section
/-!
DEFINITION. The Structure Table (12 R318, R319): its records, its CRC and its rewrites.
-/

namespace Sys2Proof.Machine

/-- One bit step of the reflected CRC-32 (12 R318). -/
def crcStep (c : Nat) : Nat := if c % 2 = 1 then (c / 2) ^^^ 0xEDB88320 else c / 2

/-- CRC-32 of bytes over a running value (12 R318). -/
def crcGo : List Byte → Nat → Nat
  | [], c => c
  | b :: bs, c => crcGo bs (crcStep (crcStep (crcStep (crcStep (crcStep (crcStep (crcStep (crcStep (c ^^^ b.toNat)))))))))

/-- CRC-32, initial value and final XOR 0xFFFFFFFF (12 R318). -/
def crc32 (bs : List Byte) : Nat := crcGo bs 0xFFFFFFFF ^^^ 0xFFFFFFFF

/-- A record: header, body, zero padding to a multiple of 8 (12 R319). -/
def stRec (type index : Nat) (body : List Byte) : List Byte :=
  let len := (8 + body.length + 7) / 8 * 8
  leBytes 2 type ++ leBytes 2 len ++ leBytes 2 index ++ zeros 2 ++ body ++ zeros (len - 8 - body.length)

/-- POPULATION as the hub finds it (02 R34): Renyr sites in [11:0], foreign sites in [27:16]. -/
def State.population (s : State) : Nat :=
  (List.range 12).foldl (fun m k =>
    let f := (s.site k).fitted
    if f = 1 then setBit m k else if f = 2 then setBit m (16 + k) else m) 0

/-- Pair level of a half (13 R345): major in [15:8], minor in [7:0]; 1.2 until stage 1 names it (log entry 7). -/
def State.pairLevel (s : State) (h : Nat) : Nat := s.fab.levels.get 0x0102 h

/-- PAT_EPOCH: of the running pattern, else the sealed stored epoch (02 R38). -/
def State.patEpoch (s : State) : Nat := match s.pat.running with | some p => p.epoch | none => s.pat.storedEpoch

/-- The records of the table, by the stage reached (12 R319). DESIGN CHOICE: GRADE is 0x43, a module of grade C; R4 leaves the grade to
the order (log entry 7). -/
def State.stRecords (s : State) : List (List Byte) :=
  let n1 := [stRec 1 0 (leBytes 8 Config.serial.toNat ++ leBytes 4 s.population ++ leBytes 1 0x43
      ++ leBytes 1 (bit s.sec.fuses.twinActive) ++ leBytes 1 s.sec.fuses.lcs.code ++ zeros 1 ++ leBytes 4 s.sec.fwRunning.version
      ++ leBytes 2 s.sec.fwRunning.svn ++ zeros 2 ++ leBytes 8 s.patEpoch)]
  let n2 := (List.range 2).map (fun h => stRec 2 h (leBytes 1 h
      ++ leBytes 1 (if s.fab.halfFailed.get false h then 2 else if s.pwr.stage = 0 then 0 else 1)
      ++ leBytes 2 (s.pairLevel h) ++ zeros 4 ++ leBytes 8 (regBase h)))
  let n3 := if s.pwr.stage < 2 then [] else (List.range 12).map (fun k =>
    let t := s.site k
    let cap := t.capPeer.get 0 0
    stRec 3 k (leBytes 1 k ++ leBytes 1 t.kind ++ leBytes 1 (if t.state < 4 then t.state else 0)
      ++ leBytes 1 (bit ((t.mods.get {} 0).rate)) ++ leBytes 2 t.level ++ leBytes 1 (bits (t.capPeer.get 0 1) 59 56)
      ++ leBytes 1 (bit (t.features.testBit 1)) ++ leBytes 2 (bits cap 63 48) ++ leBytes 2 (bits cap 47 32)
      ++ leBytes 2 (bits cap 31 24) ++ zeros 2))
  let n4 := if s.pwr.stage < 2 then [] else (List.range 16).map (fun k =>
    let t := s.stack k
    stRec 4 k (leBytes 1 k ++ leBytes 1 t.state ++ leBytes 1 t.level ++ zeros 1
      ++ leBytes 4 ((s.hbm.retired.filter (fun e => e.1 * 4096 / 0x900000000 == k)).length) ++ leBytes 4 36864))
  let n5 := if s.pwr.stage < 3 then [] else allParts.map (fun n =>
    let p := s.part n
    stRec 5 n (leBytes 1 n ++ leBytes 1 p.state.code ++ leBytes 1 (bit p.slice.vf)
      ++ leBytes 1 (bit p.slice.mirror + 2 * bit p.conf) ++ leBytes 2 (popCount 192 p.slice.cells) ++ leBytes 2 p.slice.clusters
      ++ leBytes 2 p.slice.order.length ++ zeros 2 ++ leBytes 4 (p.slice.order.length * 1152)))
  let n6 := (List.range 17).map (fun f => stRec 6 f (leBytes 1 f
      ++ leBytes 1 (if f = 0 then 1 else bit (s.slice (f - 1)).vf) ++ leBytes 2 (if f = 0 then 2048 else 64)
      ++ leBytes 1 (if f = 0 then 28 else 20) ++ leBytes 1 (if f = 0 then 0 else 36) ++ zeros 2))
  let n7 := ((List.range 12).map (fun k => ((List.range 32).filter (fun b => (s.site k).features.testBit b
      || (s.site k).lost.testBit b)).map (fun b => stRec 7 k (leBytes 1 2 ++ leBytes 1 k ++ leBytes 2 (0x100 + b)
      ++ leBytes 2 (s.site k).level ++ leBytes 2 (bit ((s.site k).lost.testBit b)))))).flatten
  n1 ++ n2 ++ n3 ++ n4 ++ n5 ++ n6 ++ n7

/-- The whole table with a generation (12 R318). -/
def State.structTable (s : State) (gen : Nat) : List Byte :=
  let recs := s.stRecords
  let body := recs.flatten
  let hdr := fun (crc : Nat) => [0x46, 0x4A, 0x53, 0x54] ++ leBytes 2 0x0100 ++ leBytes 2 32 ++ leBytes 4 (32 + body.length)
    ++ leBytes 2 recs.length ++ leBytes 1 s.pwr.stage ++ zeros 1 ++ leBytes 4 gen ++ leBytes 4 crc ++ zeros 8
  hdr (crc32 (hdr 0 ++ body)) ++ body

/-- Rewrite the Structure Table (12 R318). -/
def State.rewriteTable (s : State) : State :=
  { s with pcie := { s.pcie with stGen := s.pcie.stGen + 1, stBytes := s.structTable (s.pcie.stGen + 1) } }

/-- Pn changes STATE (02 R32): its vectors and the Structure Table follow (12 R317, R318). -/
def State.setPartState (s : State) (n : Nat) (st : PState) (status : StatusCode) : State :=
  ((s.updPart n (fun p => { p with state := st, status := status })).stateVectors n).rewriteTable

end Sys2Proof.Machine
end

