-- ==== Sys2Proof/Machine/Part.lean ====
section
/-!
DEFINITION. What a build of partitions waits for and leads to (02 R44, R49, R51): the slice it gives, the key step, and the end of
PHASE 2. The losses of chapters 09-15 end builds too, so these stand before them.
-/

namespace Sys2Proof.Machine

/-- Pn's slice in a pattern. -/
def Pattern.slice (p : Pattern) (n : Nat) : Slice := p.slices.get {} n

/-- The slice that the build of Pn in progress leads to: its own for a partition reset, else the new pattern's (02 R49). -/
def State.buildTarget (s : State) (n : Nat) : Slice :=
  if (s.part n).byReset then (s.part n).oldSlice
  else match s.pat.cand with
    | some c => c.slice n
    | none => s.slice n

/-- What Pn owns, or will own when its build ends. -/
def State.claims (s : State) (n : Nat) (p : Slice → Bool) : Bool :=
  p (s.slice n) || ((s.part n).state == .building && !((s.part n).releasing) && p (s.buildTarget n))

/-- Fresh keys in both slots of Pn; slot 0 is current and slot 1 on standby (10 R253; 02 R49 step 2). -/
def State.freshKeys (s : State) (n : Nat) : State :=
  let g := s.hbm.keyGen
  ({ s with hbm := { s.hbm with keyGen := g + 2 } }).updKeys n (fun _ => { gen0 := some g, gen1 := some (g + 1) })

/-- The key step of Pn may run (02 R49): no partition that gives it resources still drains, and a key can be drawn (15 R394). One
that is released takes no key. -/
def State.keyReady (s : State) (n : Nat) : Bool :=
  let p := s.part n
  p.state == .building && p.step == .keyWait && (p.releasing || s.sec.drbgHealthy)
    && p.awaits.all (fun m => !((s.part m).state == .building && (s.part m).step == .drain))

/-- The key step (02 R49): the partition takes its new resources and fresh keys; one that is released goes on to its flush (R48). -/
def State.keyStep (s : State) (n : Nat) : State :=
  if (s.part n).releasing then s.updPart n (fun p => { p with step := .flush, awaits := [] })
  else
    let t := s.buildTarget n
    (s.updPart n (fun p => { p with slice := t, step := .fill, awaits := [] })).freshKeys n

/-- Every key step that may run runs, in ascending partition number. -/
def State.tryKeys (s : State) : State := forAll allParts (fun n s => if s.keyReady n then s.keyStep n else s) s

/-- DETAIL of a pattern event: the first 16 bytes of the pattern digest (02 R63). -/
def patternDetail (d : BitVec 384) : List Byte := (digestBytes d).take 16

/-- A partition of the apply in progress is still BUILDING (02 R44). -/
def State.applyBuilds (s : State) : Bool := allParts.any (fun n => (s.part n).state == .building && !((s.part n).byReset))

/-- PHASE 2 ends when every selected partition has left BUILDING (02 R44): the pattern runs and PHASE is 3; at a start, which
writes no store slot, the apply is done (R45). A partition whose build failed owns what the pattern gives it (R51). -/
def State.phaseCheck (s : State) : State :=
  match s.pat.cand with
  | none => s
  | some c =>
    if s.pat.phase != 2 || s.applyBuilds then s
    else
      let s := forAll allParts (fun n s => if (s.part n).state == .lost then s.updPart n (fun p => { p with slice := c.slice n }) else s) s
      let pat := { s.pat with running := some c, cand := none, phase := 3 }
      if s.pat.atStart then
        ((({ s with pat := { pat with phase := 4, status := St.ok, atStart := false } }).log 1 255 St.ok 0 (patternDetail c.digest)).raise 16 2).rewriteTable
      else ({ s with pat := pat }).rewriteTable

end Sys2Proof.Machine
end

