-- ==== Sys2Proof/Machine/Measure.lean ====
section
/-!
DEFINITION. What the hallmark measures of a partition (15 R405 blocks 16-21), as its registers show it. It stands before the loss of a
partition, which keeps it (R406).
-/

namespace Sys2Proof.Machine

/-- The digest of an undefined partition's slice: every part of it zero, 353 bytes (02 R48). -/
def zeroSliceDigest : BitVec 384 := Config.sha384 (zeros 353)

/-- PAT_SLICE_DIGEST of Pn (02 R38, R45): its slice of the running pattern; that of an all-zero slice while none runs. -/
def State.sliceDigest (s : State) (n : Nat) : BitVec 384 := match s.pat.running with | some p => (p.slice n).digest | none => zeroSliceDigest

/-- SEC_PART_CONF (15 R418). -/
def State.confView (s : State) (n : Nat) : Nat := bit (s.part n).conf + 2 * bit (s.part n).debugged

/-- HMC_KEY_STATUS (10 R256). -/
def State.keyView (s : State) (n : Nat) : Nat :=
  let k := s.keys n
  field 63 56 k.token + field 55 40 k.rotations + field 17 16 k.other + field 8 8 k.current + k.status.toNat

/-- HMC_KEY_OLD_LINES (10 R256): 0 when no sweep runs. -/
def State.oldLinesView (s : State) (n : Nat) : Nat := if (s.keys n).other = 1 then (s.keys n).oldLines else 0

/-- Sites where Pn owns cells. -/
def State.sitesOf (s : State) (n : Nat) : List Nat := (List.range 12).filter (fun k => bits (s.slice n).cells (k * 16 + 15) (k * 16) != 0)

/-- Committed operator-owned staged registers that concern Pn, in ascending HPA (15 R405 block 20): FAB_INJ_REG of the regulated
masters, HMC_PART_REG and ETH_SHAPE. -/
def settingAddrs (n : Nat) : List Nat :=
  (List.range 2).flatMap (fun h =>
    ((List.range 41).filter (regulated h)).map (fun i => injRegAddr h i n)
      ++ (List.range 8).map (fun k => hmcAddr (h * 8 + k) (0x100 + n * 0x20))
      ++ (List.range 8).map (fun p => regAddr h 8 (0x400 + p * 0x80 + n * 8)))

/-- A measurement block: its index and content (15 R405). -/
def block (i : Nat) (b : List Byte) : List Byte := leBytes 1 i ++ b

/-- Partition blocks 16-21 of Pn as its registers stand (15 R405). -/
def State.liveBlocks (s : State) (n : Nat) : List Byte :=
  let p := s.part n
  block 16 (digestBytes (s.sliceDigest n))
    ++ block 17 (digestBytes p.codeMeas ++ (p.tenantSvns.take 16).flatMap (fun v => leBytes 2 v))
    ++ block 18 (leBytes 24 p.slice.cells ++ (s.sitesOf n).flatMap (fun k => digestBytes (s.site k).idMeas))
    ++ block 19 (leBytes 8 (s.confView n) ++ leBytes 4 (bit p.debugAuth) ++ leBytes 1 (bit (s.sec.debugGrant.testBit n)) ++ leBytes 8 p.raise
        ++ leBytes 1 (bit p.slice.mirror) ++ leBytes 1 (s.twin n).state)
    ++ block 20 (digestBytes (Config.sha384 ((settingAddrs n).flatMap (fun a => leBytes 8 (s.reg a)))) ++ leBytes 4 p.opCommits)
    ++ block 21 (leBytes 8 (s.keyView n) ++ leBytes 8 (s.oldLinesView n) ++ (List.range 16).flatMap (fun g => leBytes 1 ((s.coll n).groups.get {} g).state))

end Sys2Proof.Machine
end

