-- ==== Sys2Proof/Machine/Walk.lean ====
section
/-!
DEFINITION. Page walks (11 R286-R288, R290-R292): a DVA of a context is looked up in the driver's tables in the partition's PPA; a DMA
engine's walk may take a table entry of levels 3-1 from its walk cache.
-/

namespace Sys2Proof.Machine

/-- What a walk gives. -/
inductive Walk where
  /-- A leaf: the DVA extent it maps, where to, and its permissions. -/
  | leaf (base size : Nat) (host : Bool) (addr : Nat) (r w : Bool)
  /-- The walk faults with a REASON of R293 at a level. -/
  | fault (reason level : Nat)
  /-- A table read ended with a status other than OK (11 R285; 17 R451). -/
  | err (status : StatusCode)
  deriving DecidableEq, Repr

/-- A table entry that a walk looked at: its PPA, whether the walk cache gave it, and its word where the walk went on from it. -/
structure TableRead where
  addr : Nat
  hit : Bool := false
  next : Option Nat := none
  deriving DecidableEq, Repr

/-- A walk and the table entries it looked at. -/
structure WalkOut where
  res : Walk
  reads : List TableRead := []
  deriving DecidableEq, Repr

/-- A table entry of 8 bytes and the status of its read: dross is a failed access (17 R451). -/
def State.tableWord (s : State) (n a : Nat) : Nat × StatusCode :=
  let r := s.ppaPeek n a 8
  (ofLe r.1, if r.2.2 != St.ok then r.2.2 else if r.2.1 then St.dross else St.ok)

/-- ADDR of an entry as an address (11 R287). -/
def entryAddr (e : Nat) : Nat := bits e 59 12 * 4096
/-- Reserved bits of an entry are 0, and bits above [39] are 0 where it names a PPA. -/
def entryClean (e : Nat) (leaf : Bool) : Bool :=
  bits e 63 60 == 0 && bits e 11 8 == 0 && !(e.testBit 2) && ((leaf && e.testBit 7) || bits e 59 40 == 0)

/-- The 16 entries of a 64 KiB page agree (11 R287). -/
def State.c64Ok (s : State) (n table idx : Nat) : Bool :=
  let first := idx / 16 * 16
  let es := (List.range 16).map (fun i => (s.tableWord n (table + (first + i) * 8)).1)
  let e0 := nth es 0
  entryAddr e0 % 65536 == 0 && (List.range 16).all (fun i =>
    let e := nth es i
    e.testBit 0 && e.testBit 1 && e.testBit 5 && entryClean e true && bits e 7 7 == bits e0 7 7 && bits e 4 3 == bits e0 4 3
      && entryAddr e == entryAddr e0 + i * 4096)

/-- What a leaf at a level gives for the access: read, write or both needed. -/
def leafRes (dva lvl e : Nat) (c64 rd wr : Bool) : Walk :=
  if e.testBit 6 then .fault 4 lvl
  else if wr && !(e.testBit 4) then .fault 2 lvl
  else if rd && !(e.testBit 3) then .fault 3 lvl
  else
    let size := if c64 then 65536 else 2 ^ (12 + 9 * lvl)
    let addr := if c64 then entryAddr e - (dva / 4096 % 16) * 4096 else entryAddr e
    .leaf (dva / size * size) size (e.testBit 7) addr (e.testBit 3) (e.testBit 4)

/-- What the walk cache of engine e gives for the table entry of context c of Pn at an address (11 R290): until an invalidation the engine uses
the old or the new entry (R291); none for an agent without such a cache. -/
def State.cachedEntry (s : State) (e : Option Nat) (n c a : Nat) : Option Nat :=
  e.bind (fun e => ((s.walkCaches.get [] e).find? (fun x => x.part == n && x.ctx == c && x.addr == a && Config.walkHit s.freeCtr a)).map (·.word))

/-- Walk from the table of a level down (11 R286, R287, R290, R292): the first numeral is the level + 1. -/
def State.walkFrom (s : State) (e : Option Nat) (n c dva : Nat) (rd wr : Bool) : Nat → Nat → WalkOut
  | 0, _ => { res := .fault 5 0 }
  | lvl + 1, table =>
    let idx := (dva / 2 ^ (12 + 9 * lvl)) % 512
    let a := table + idx * 8
    let kept := if lvl = 0 then none else s.cachedEntry e n c a
    let (w, st) := kept.elim (s.tableWord n a) (fun w => (w, St.ok))
    let read : TableRead := { addr := a, hit := kept.isSome }
    if st != St.ok then { res := .err st, reads := [read] }
    else if !(w.testBit 0) then { res := .fault 1 lvl, reads := [read] }
    else
      let leaf := w.testBit 1
      if leaf then
        let c64 := w.testBit 5
        let ok := lvl != 3 && entryClean w true
          && (if c64 then lvl == 0 && s.c64Ok n table idx else entryAddr w % 2 ^ (12 + 9 * lvl) == 0)
        { res := if ok then leafRes dva lvl w c64 rd wr else .fault 5 lvl, reads := [read] }
      else if lvl = 0 || !(entryClean w false) then { res := .fault 5 lvl, reads := [read] }
      else
        let o := s.walkFrom e n c dva rd wr lvl (entryAddr w)
        { o with reads := { read with next := some w } :: o.reads }

/-- Walk a DVA of context c of Pn (11 R288) for engine e, or for an agent without a walk cache: the context table entry, then the tables from
the root. -/
def State.walk (s : State) (e : Option Nat) (n c dva : Nat) (rd wr : Bool) : WalkOut :=
  let a := (s.xlt n).ctxBase + c * 16
  let (w, st) := s.tableWord n a
  if st != St.ok then { res := .err st, reads := [{ addr := a }] }
  else if !(w.testBit 0) || 2 ^ 48 ≤ dva then { res := .fault (if w.testBit 0 then 1 else 6) 3, reads := [{ addr := a }] }
  else
    let o := s.walkFrom e n c dva rd wr 4 (bits w 39 12 * 4096)
    { o with reads := { addr := a } :: o.reads }

/-- A table read reaches its home (10 R251; 11 R290): no regulator is charged. -/
def State.walkRead (s : State) (n a : Nat) : State :=
  match s.ppaToHpa n a with
  | some hpa => if (s.newest (hpa / 64)).fails then s.reportFail (hpa / 64) else s
  | none => s
/-- A walk cache keeps a table entry it has not, or has anew: at most 256 (11 R290). -/
def keepEntry (x : WalkEnt) (l : List WalkEnt) : List WalkEnt :=
  (x :: l.filter (fun y => !(y.part == x.part && y.ctx == x.ctx && y.addr == x.addr))).take 256
/-- The table reads of walks of context c of Pn, and the entries that the engine's walk cache keeps of them (11 R290). -/
def State.noteWalk (s : State) (e : Option Nat) (n c : Nat) (reads : List TableRead) : State :=
  let s := reads.foldl (fun s r => if r.hit then s else s.walkRead n r.addr) s
  match e with
  | none => s
  | some e => { s.tick with walkCaches := s.walkCaches.upd [] e (fun l =>
      reads.foldl (fun l r => r.next.elim l (fun w => keepEntry { part := n, ctx := c, addr := r.addr, word := w } l)) l) }

/-- A DVA as one physical address: host or PPA, or the status that ends the access (FAULT_XLT for a fault). -/
def State.translate (s : State) (n c dva : Nat) (rd wr : Bool) : Except StatusCode (Bool × Nat) :=
  match (s.walk none n c dva rd wr).res with
  | .leaf base _ host addr _ _ => .ok (host, addr + (dva - base))
  | .fault _ _ => .error St.faultXlt
  | .err st => .error st

end Sys2Proof.Machine
end

