-- ==== Sys2Proof/Machine/Loss.lean ====
section
/-!
DEFINITION. What ends work: fences and queue completions (12 R324, R326), task-end records (07 R181), the loss of a context
(12 R330, R331) and of a partition (02 R33), dead sites (13 R350) and agents (09 R233), the alarm classes (15 R413-R415) and
the return to the pithead stage (16 R434).
-/

namespace Sys2Proof.Machine

/-- Count a Note of a source and scope (15 R414). Scope 255 is the module. -/
def State.countNote (s : State) (source scope : Nat) : State :=
  let k := source * 256 + scope
  { s with sec := { s.sec with notes := s.sec.notes.upd 0 k (fun c => satAdd 32 c 1)
                               notesNew := s.sec.notesNew.upd 0 k (fun c => satAdd 32 c 1), seenNote := true } }

/-- Key of fence f of Pn. -/
def fenceKey (n f : Nat) : Nat := n * 4096 + f
/-- Fence f of Pn (12 R326). -/
def State.fence (s : State) (n f : Nat) : Nat := s.fences.get 0 (fenceKey n f)
/-- The largest VALUE a fence takes (12 R326). -/
def fenceMax : Nat := 0x7FFFFFFFFFFFFFFE
/-- A signal (v, e) of a fence word: VALUE takes the maximum, ERROR is set by e (12 R326). -/
def signalWord (w v : Nat) (e : Bool) : Nat :=
  max (w % 2 ^ 63) (min v fenceMax) + (if e || w.testBit 63 then 2 ^ 63 else 0)
/-- Signal a fence, without the WAITs that look at it. -/
def State.signalFence (s : State) (n f v : Nat) (e : Bool) : State :=
  { s with fences := s.fences.upd 0 (fenceKey n f) (fun w => signalWord w v e) }

/-- Bytes of queue entry i at its place in the ring (12 R321): PPA or DVA. -/
def queueAddr (q : Queue) (i : Nat) : Nat := bits q.ring 47 7 * 128 + (i % 2 ^ bits q.ring 59 56) * 128
/-- The queue's ring lies at a DVA, that is, in host memory (12 R321, R322). -/
def queueInHost (q : Queue) : Bool := q.ring.testBit 63

/-- A request of Pn toward the host has an answer other than an error: the link is up and the TDI is not in ERROR (12 R308,
R310). -/
def State.hostOpen (s : State) (n : Nat) : Bool := s.pcie.up && (s.vf n).tdi != 3

/-- Write bytes toward a host address for Pn (12 R304, R308, R310): EP marks dross. -/
def State.hostStore (s : State) (n addr : Nat) (bytes : List Byte) (ep : Bool) : State × StatusCode :=
  if s.hostOpen n then (s.emit (.hostWrite n addr bytes ep ((s.vf n).tdi == 2)), St.ok) else (s, St.busError)

/-- Write bytes into a queue's ring: a PPA write, or a write toward the host at the address the DVA's leaf gives (12 R304, R308,
R321). -/
def State.queueStore (s : State) (n : Nat) (q : Queue) (addr : Nat) (bytes : List Byte) : State × StatusCode :=
  if queueInHost q then
    let w := s.walk none n q.ctx addr false true
    let s := s.noteWalk none n q.ctx w.reads
    match w.res with
    | .leaf base _ true host _ _ => s.hostStore n (host + (addr - base)) bytes false
    | .err st => (s, st)
    | _ => (s, St.faultXlt)
  else s.hubWrite n addr bytes

/-- An entry of queue q of Pn completes (12 R324): COMPLETION, then CTRL with OWN cleared, then the interrupt; its SIGNAL. The
WAITs of the fence are settled by the caller. -/
def State.completeEntry (s : State) (n q : Nat) (e : QEnt) (status : StatusCode) : State × StatusCode :=
  let qu := s.queue n q
  let a := queueAddr qu e.idx
  let ctrl := fld e.bytes 0 4
  let (s, st1) := s.queueStore n qu (a + 0x38) (leBytes 8 status.toNat)
  let (s, st2) := if st1 = St.ok then s.queueStore n qu a (leBytes 4 (ctrl % 2 ^ 31)) else (s, st1)
  let s := s.updQueue n q (fun qu => { qu with entries := qu.entries.filter (fun x => !(x.idx == e.idx)) })
  let s := if st2 = St.ok then s else { s with dues := s.dues ++ [.writeBack n qu.ctx st2] }
  let s := if ctrl.testBit 30 && st2 = St.ok then s.raise n qu.vector else s
  let s := if ctrl.testBit 29 then s.signalFence n (bits ctrl 23 12) (fld e.bytes 8 8 % 2 ^ 63) (status != St.ok)
           else if bits ctrl 7 0 = 3 && status = St.ok then s.signalFence n (bits ctrl 23 12) (fld e.bytes 8 8 % 2 ^ 63) false
           else s
  (s, st2)

/-- The outcome of a WAIT entry on the fences as they stand (12 R324): ERROR is checked first. -/
def State.waitOutcome (s : State) (n : Nat) (e : QEnt) : Option StatusCode :=
  let w := s.fence n (bits (fld e.bytes 0 4) 23 12)
  if w.testBit 63 then some St.aborted
  else if fld e.bytes 8 8 % 2 ^ 63 ≤ w % 2 ^ 63 then some St.ok else none

/-- Re-evaluate the WAITs of Pn after signals (12 R326); fuel bounds the chain of signals. -/
def State.settleWaits (n : Nat) : Nat → State → State
  | 0, s => s
  | fuel + 1, s =>
    match (List.range 128).findSome? (fun q =>
        let qu := s.queue n q
        if qu.state = 3 then
          match qu.entries.getLast? with
          | none => none
          | some e => (s.waitOutcome n e).map (fun st => (q, e, st))
        else none) with
    | none => s
    | some (q, e, st) =>
      let (s, _) := s.completeEntry n q e st
      let s := s.updQueue n q (fun qu =>
        if st = St.ok then { qu with state := if qu.head = qu.tail && qu.entries.isEmpty then 1 else 2 }
        else { qu with state := 4, status := St.aborted })
      State.settleWaits n fuel s

/-- Signal a fence and settle the WAITs that name it (12 R326). -/
def State.signal (s : State) (n f v : Nat) (e : Bool) : State := State.settleWaits n 128 (s.signalFence n f v e)

/-- Complete an entry and settle the fences (12 R324). -/
def State.finishEntry (s : State) (n q : Nat) (e : QEnt) (status : StatusCode) : State × StatusCode :=
  let (s, st) := s.completeEntry n q e status
  (State.settleWaits n 128 s, st)

/-- The 64 bytes of a task-end record (07 R181). -/
def taskRecord (n : Nat) (t : Task) (status : StatusCode) (flags failPos failMask run saves kind seq : Nat) : List Byte :=
  leBytes 4 t.taskId ++ leBytes 1 status.toNat ++ leBytes 1 flags ++ leBytes 1 failPos ++ zeros 1 ++ leBytes 2 (n * 4096 + t.ctx)
    ++ leBytes 2 failMask ++ leBytes 4 (min run 0xFFFFFFFF) ++ leBytes 2 (saves % 65536) ++ zeros 38
    ++ leBytes 8 (kind * 2 ^ 62 + seq % 2 ^ 32)

/-- Write a task-end record and set its event; a record that is not written ends the task with the write's status and sets none (06
R147; log entry 120). A record of KIND 1 completes the queue entry the task came from (07 R181, R182;
12 R324). -/
def State.taskEnd (s : State) (n : Nat) (t : Task) (status : StatusCode) (flags failPos failMask run saves kind : Nat) : State :=
  let s := s.updCtx n t.ctx (fun x => { x with recSeq := x.recSeq + 1 })
  let w := s.hubWrite n t.endAddr (taskRecord n t status flags failPos failMask run saves kind (s.ctx n t.ctx).recSeq)
  let s := w.1
  let s := if t.event && w.2 == St.ok then s.setEvent t.evCore t.evBit else s
  let status := if w.2 = St.ok then status else w.2
  match kind, t.src with
  | 1, .queue q idx =>
    match (s.queue n q).entries.find? (fun e => e.idx == idx) with
    | some e =>
      let s := (s.finishEntry n q e status).1
      s.updQueue n q (fun qu => if qu.state = 2 && qu.entries.isEmpty && qu.head = qu.tail then { qu with state := 1 } else qu)
    | none => s
  | _, _ => s

/-- Positions of a mask, and the lowest; 0xFF where there is none. -/
def lowBit (n mask : Nat) : Nat := (maskList n mask).headD 0xFF

/-- A task ends unrun (07 R182; log entry 26): every cell of its MASK carries the status. -/
def State.taskUnrun (s : State) (n : Nat) (t : Task) (status : StatusCode) : State :=
  s.taskEnd n t status 0 (lowBit 16 t.mask) t.mask 0 0 1

/-- The tasks of a context that wait end unrun (07 R168, R182). -/
def State.dropWaiting (s : State) (n c : Nat) (status : StatusCode) : State :=
  let l := (s.sch n).waiting.filter (fun t => t.ctx == c)
  let s := s.updSch n (fun h => { h with waiting := h.waiting.filter (fun t => !(t.ctx == c)) })
  l.foldl (fun s t => s.taskUnrun n t status) s

/-- The posted entries of a queue that have not been fetched, in ring order. -/
def unfetched (q : Queue) : List Nat :=
  let m := 2 ^ bits q.ring 59 56
  (List.range ((q.tail + m - q.head % m) % m)).map (fun i => (q.head + i) % m)

/-- Complete with a status every entry of a queue but those whose task runs, the posted ones too (12 R331; 02 R33, R49). -/
def State.flushQueueAs (s : State) (n q : Nat) (status : StatusCode) : State :=
  let qu := s.queue n q
  let s := (qu.entries.filter (fun e => !e.running)).foldl (fun s e => (s.completeEntry n q e status).1) s
  let s := (unfetched qu).foldl (fun s i =>
    let bytes := if queueInHost qu then (List.range 128).map (Config.freeByte s.freeCtr) else (s.ppaPeek n (queueAddr qu i) 128).1
    (s.tick.completeEntry n q { idx := i, bytes := bytes } status).1) s
  State.settleWaits n 128 (s.updQueue n q (fun qu => { qu with head := qu.tail, state := if qu.state = 0 then 0 else if qu.entries.isEmpty then 1 else 2 }))

/-- Complete with CONTEXT_LOST the entries of a lost context's queue (12 R331). -/
def State.flushQueue (s : State) (n q : Nat) : State := s.flushQueueAs n q St.contextLost

/-- Begin the abort of a channel (11 R280): issue stops, reads not returned are abandoned; it waits for its writes. -/
def abortChan (c : Chan) : Chan :=
  { c with state := 7, stop := .abort, nDesc := none, segStop := none, needWalk := false, bursts := c.bursts.filter (fun b => b.state != 0) }

/-- Context channels of Pn enabled for context c. -/
def State.chansOf (s : State) (n c : Nat) : List Nat :=
  (s.chans.filter (fun e => e.2.en && e.2.ctx == c && decide (4 ≤ e.1 % 32) && s.ownerChan e.1 == some n)).map (·.1)

/-- Queues of Pn enabled for context c. -/
def State.queuesOf (s : State) (n c : Nat) : List Nat :=
  (s.queues.filter (fun e => e.1 / 128 == n && e.2.en && e.2.ctx == c)).map (·.1 % 128)

/-- The tallies that a context granted become void, and its mailboxes close (03 R85). -/
def State.voidTallies (s : State) (n c : Nat) : State :=
  { s with msgs := Tab.mapVals {} (fun k (m : MsgState) =>
      let own := k % 4096 == c && decide (k / 4096 < 192) && s.ownerCell (k / 4096) == some n
      let m := if own then { m with closed := true } else m
      { m with store := m.store.map (fun t =>
          if decide (t.dest < 192) && t.ctx == c && s.ownerCell t.dest == some n then { t with void := true } else t) }) s.msgs }

/-- The core waits in FJ.SND or FJ.WAIT for a tally of a destination that satisfies p. -/
def waitsFor (p : Nat → Bool) : Option Instr → Bool
  | some (.fjSnd _ _ d) => p (d.toNat % 1024)
  | some (.fjWait _ r1 _) => p (r1.toNat % 1024)
  | _ => false

/-- End the waits of the cores of Pn that satisfy p with a status in rd (06 R151). -/
def State.endCoreWaits (s : State) (n : Nat) (p : Core → Bool) (status : StatusCode) : State :=
  { s with cores := Tab.mapVals {} (fun k c =>
      if s.ownerCore k == some n && p c then { c with waiting := none, rd := BitVec.ofNat 64 status.toNat } else c) s.cores }

/-- A message that waits at cell i's egress with RELEASE for a write that will never be acknowledged never leaves (03 R80). -/
def State.dropUnmet (s : State) (i : Nat) : State :=
  { s with egress := s.egress.filter (fun e => !(e.src == i) || (s.cell i).writesDone e.after) }

/-- Stop a cell at once (07 R178): it is freed with nothing saved and zeroed (12 R332 step 3). The task that it ends there writes the
safeguard words (05 R132). -/
def State.stopCell (s : State) (i : Nat) : State :=
  let s := s.dropUnmet i
  let s := match (s.cell i).gang, s.ownerCell i with
    | some _, some n => s.putGuard n (s.cell i).ctx
    | _, _ => s
  s.updCell i (fun k => { mmaCycles := k.mmaCycles, bankWait := k.bankWait, retired := k.retired, nextXfer := k.nextXfer })

/-- A cell of a lost context that waits in SND for a grant of that context on a matrix cell (03 R85): its destination and mailbox. -/
def sndWait (c : Cell) : Option (Nat × Nat) :=
  match c.waiting with
  | some (.snd _ f) => if (c.reg f.rb.val).toNat % 1024 < 192 then some ((c.reg f.rb.val).toNat % 1024, f.mailbox.val) else none
  | _ => none

/-- Its wait ends with CONTEXT_LOST, counted in the message word, and its task halts there (03 R85), once its
transfers have ended. -/
def State.endSndWait (s : State) (n i : Nat) : State :=
  let c := s.cell i
  match sndWait c with
  | none => s
  | some (dest, b) =>
    let gid := c.gang.getD 0
    let s := s.msgFail n c.ctx dest b St.contextLost
    if c.moversIdle then
      ((s.addCellRun n c.ctx gid).updGang n gid (fun g => { g with ended := g.ended.set none (i % 16) (some St.contextLost) })).stopCell i
    else s.updCell i (fun c => { c with state := 5, halt := some St.contextLost, waiting := none })

/-- The loss of a context (12 R331): its abort begins, its state is LOST, its entries complete, its tallies are void, and what waits for
them ends (03 R85). A context that leaves IDLE so latches its record (07 R169). -/
def State.loseCtx (s : State) (n c : Nat) (status : StatusCode) : State :=
  if (s.ctx n c).state == .lost then s else
  let s := if (s.ctx n c).state == .idle then s.latch n c else s
  let s := s.updCtx n c (fun x => { x with debt := 0, aborting := true, savedChans := [] })
  let s := s.setCtxState n c .lost status
  let s := (s.updVf n (fun v => { v with ctxLost := setBit v.ctxLost c })).raise n 1
  let s := s.voidTallies n c
  let s := s.endCoreWaits n (fun k => k.ctx == c && waitsFor (fun d => decide (d < 192)) k.waiting) St.contextLost
  let s := forAll (s.chansOf n c) (fun i s => s.updChan i (fun ch => if ch.state = 0 || ch.state = 8 then { ch with state := 1, stop := .none, bursts := [], desc := none } else abortChan ch)) s
  let s := forAll (s.cellsOf n c) (fun i s => s.endSndWait n i) s
  let s := forAll (s.cellsOf n c) (fun i s => s.updCell i (fun k => { k with asked := true })) s
  forAll (s.queuesOf n c) (fun q s => s.flushQueue n q) (s.dropWaiting n c St.contextLost)

/-- Contexts of Pn in use: those the table, an enabled queue or an enabled context channel names. -/
def State.ctxsOf (s : State) (n : Nat) : List Nat :=
  let l : List Nat := (s.ctxs.filter (fun e => e.1 / 4096 == n)).map (·.1 % 4096) ++ (s.queues.filter (fun e => e.1 / 128 == n && e.2.en)).map (·.2.ctx)
    ++ (s.chans.filter (fun e => e.2.en && decide (4 ≤ e.1 % 32) && s.ownerChan e.1 == some n)).map (·.2.ctx)
  l.eraseDups

/-- The privileged channels of Pn abort (02 R33, R49; 11 R280). -/
def State.abortPriv (s : State) (n : Nat) : State :=
  { s with chans := Tab.mapVals {} (fun i c =>
      if c.en && decide (i % 32 < 4) && s.ownerChan i == some n then abortChan c else c) s.chans }

/-- The loss of a partition (02 R33): every context it holds is lost, its privileged channels abort, its cells and cores stop; a build in progress has failed,
its keys are destroyed, and the other builds carry on (02 R51); its measurements are kept as they stand (15 R406). DESIGN CHOICE: one that an apply was stopping and releasing ends LOST, with
its slice empty; R51 speaks only of a build that fails (log entry 126). -/
def State.losePart (s : State) (n : Nat) (status : StatusCode) : State :=
  let p := s.part n
  if p.state == .undefined || p.state == .lost then s else
  let s := (forAll (s.ctxsOf n) (fun c s => s.loseCtx n c status) s).abortPriv n
  let s := forAll (maskList 192 p.slice.cells) (fun i s => if (s.cell i).state = 0 then s else s.stopCell i) s
  let s := forAll (maskList 16 p.slice.clusters) (fun c s => forAll (List.range 8) (fun k s =>
    let x := s.core (c * 8 + k)
    if x.inReset then s else s.updCore (c * 8 + k) (fun x => { x with waiting := none, inReset := true })) s) s
  let s := if p.state == .building then s.updKeys n (fun k => { k with gen0 := none, gen1 := none }) else s
  let s := s.updPart n (fun p => { p with
    step := .idle, awaits := [], byReset := false, releasing := false
    slice := if p.state == .building then (if p.byReset then p.oldSlice else {}) else p.slice })
  let s := s.updCode n (fun c => { c with running := 0, images := [], step := 0 })
  let s := if s.pwr.rstPart = some n then { s with pwr := { s.pwr with rstStatus := status, rstPart := none } } else s
  let s := ((s.log 4 n status 0 []).setPartState n .lost status).tryKeys
  (s.updPart n (fun p => { p with lossBlocks := some (s.liveBlocks n) })).phaseCheck

/-- Everything toward the addresses that satisfy p is dropped (03 R84, R469; 08 R211): tallies for them are dead, messages on their way are
discarded and counted, a grant toward them leaves no slot held, and cores that wait for them go on. -/
def State.dropToward (s : State) (p : Nat → Bool) : State :=
  let s := { s with msgs := Tab.mapVals {} (fun _ (m : MsgState) =>
               { m with store := m.store.map (fun (t : Tally) => if p t.dest then { t with dead := true } else t) }) s.msgs }
  let gone := s.flights.filter (fun (f : Flight) => match f with
    | .msg _ _ d _ _ => p d | .grant _ _ d _ _ _ _ => p d | .ret _ _ _ _ _ _ => false)
  let s := { s with flights := s.flights.filter (fun (f : Flight) => match f with
               | .msg _ _ d _ _ => !(p d) | .grant _ _ d _ _ _ _ => !(p d) | .ret _ _ d _ _ _ => !(p d)) }
  let s := gone.foldl (fun (s : State) (f : Flight) => match f with
    | .msg n src d b m => if src < 192 then s.msgFail n (bits m.header 90 79) d b St.siteDead else s
    | .grant _ src _ b n _ c => s.outFalls (addrKey src c) b n
    | .ret _ _ _ _ _ _ => s) s
  forAll allParts (fun n s => s.endCoreWaits n (fun c => waitsFor p c.waiting) St.siteDead) s

/-- Address a is a core of cluster c (01 R17). -/
def inCluster (c a : Nat) : Bool := decide (0x100 ≤ a) && decide (a < 0x180) && (a - 0x100) / 8 == c

/-- A caching agent dies (09 R233): it is isolated, its lines are reclaimed, its loss is recorded on PF0 and on its partition's
VF. The walk has ended when RECLAIM_WALK_DONE says so. -/
def State.killAgent (s : State) (h a : Nat) : State :=
  let part := s.agentPart h a
  let s := s.setIso h (if a < 8 then 16 + a else a - 8) true
  let s := if a < 8 then s.dropToward (inCluster (h * 8 + a)) else s
  let s := { s with coh := { s.coh with dead := s.coh.dead.upd 0 h (fun m => setBit m a)
                                        reclaimAgent := s.coh.reclaimAgent.set 0 h a
                                        reclaimPart := s.coh.reclaimPart.set 0 h (part.getD 0)
                                        reclaimActive := s.coh.reclaimActive.set false h true
                                        recovered := s.coh.recovered.set 0 h 0
                                        drossLines := s.coh.drossLines.set 0 h 0 } }
  let s := s.reclaim h a
  s.rasRecord h 2 8 (part.getD 255) St.dross a 0 6 1 0

/-- Destination address lies on site k (01 R17). -/
def onSite (k d : Nat) : Bool :=
  (decide (d < 192) && d / 16 == k) || (decide (0x200 ≤ d) && decide (d < 0x260) && (d - 0x200) / 8 == k)

/-- Contexts of Pn with work on site k: resident there, or with a gang there that has not ended. -/
def State.ctxsOnSite (s : State) (k n : Nat) : List Nat :=
  (s.ctxsOf n).filter (fun c => (s.res k n).resident == some c || (s.sch n).gangs.any (fun g => g.task.site == k && g.task.ctx == c)
    || (s.cells.any (fun e => e.1 / 16 == k && e.2.state != 0 && e.2.ctx == c && s.ownerCell e.1 == some n)))

/-- A site is declared dead (13 R350): its main rails go off, and each owner has a record of its own. DESIGN CHOICE: the standby rail
stays on, and a SITE_CTRL command that runs ends OK (log entry 97). -/
def State.siteDead (s : State) (k cause : Nat) : State :=
  if (s.site k).state = 2 then s else
  let h := halfOfSite k
  let foreign := (s.site k).kind == 2
  let owners := allParts.filter (fun n => s.claims n (fun x => bits x.cells (k * 16 + 15) (k * 16) != 0))
  let s := s.updSite k (fun t => { t with state := 2, cause := cause, power := if t.power = 2 then 1 else t.power
                                          cmdStatus := if t.cmdStatus = St.pending then St.ok else t.cmdStatus
                                          mods := Tab.mapVals {} (fun _ (m : UMod) => ({ disagree := m.disagree, seq := m.seq } : UMod)) t.mods
                                          step := 0, failures := if t.state = 4 || t.state = 6 then t.failures + 1 else t.failures })
  let s := s.setIso h (k % 6) true
  let s := s.dropToward (onSite k)
  let s := if foreign then s.killAgent h (8 + k % 6) else s
  let s := if owners.isEmpty then s.rasWrite h 3 6 255 St.siteDead k 0 6 1 cause
           else forAll owners (fun n s => s.rasWrite h 3 6 n (if cause = 8 then St.alarmStop else St.siteDead) k 0 6 1 cause) s
  let s := if cause = 8 then forAll owners (fun n s => s.losePart n St.alarmStop) s
           else if foreign then forAll owners (fun n s => s.losePart n St.siteDead) s
           else forAll owners (fun n s => if (s.part n).state == .building then s.losePart n St.siteDead
             else forAll (s.ctxsOnSite k n) (fun c s => s.loseCtx n c St.siteDead) s) s
  let s := forAll ((List.range 16).map (fun p => k * 16 + p)) (fun i s => if (s.cell i).state = 0 then s else s.stopCell i) s
  s.rewriteTable

/-- Partition sources whose default class is Note (03 R83; 15 R412). -/
def noteSource (src : Nat) : Bool := src == 0x100 || (decide (0x102 ≤ src) && decide (src ≤ 0x105)) || (decide (0x110 ≤ src) && decide (src ≤ 0x114))

/-- Bit of SEC_PART_RAISE for a source (15 R418). -/
def raiseBit (src : Nat) : Nat := if src < 0x110 then src - 0x100 else 16 + (src - 0x110)

/-- The class a source has under the fused floor (15 R411-R413), as a code. -/
def floorClass (floor src scope : Nat) : Nat :=
  if src ≤ 6 then 2
  else
    let d := if src = 0x101 then 1 else 0
    let a := if 1 ≤ floor && noteSource src && scope < 16 then 1 else d
    if 2 ≤ floor && (src = 0x101 || src = 0x115 || src = 0x116) then 2 else a

/-- The effective class of a source in a scope (15 R413). -/
def State.effClass (s : State) (src scope : Nat) : AClass :=
  let raises := match s.pat.running with | some p => p.raises | none => []
  let r := (raises.filter (fun e => e.source == src && (e.scope == scope || e.scope == 255))).foldl (fun m e => max m e.cls) 0
  let t := if scope < 16 && src ≥ 0x100 && (s.part scope).raise.testBit (raiseBit src) && src != 0x115 && src != 0x116 then 1 else 0
  AClass.ofCode (max (floorClass s.sec.fuses.floor src scope) (max r t))

/-- DETAIL of an alarm record (15 R467). -/
def alarmDetail (src cls count : Nat) : List Byte := leBytes 2 src ++ leBytes 1 cls ++ zeros 1 ++ leBytes 4 count ++ zeros 8

/-- Zeroise every key held in RAM or key registers (15 R395, R415 step 2). -/
def State.zeroKeys (s : State) : State :=
  { s with
    hbm := { s.hbm with keys := Tab.mapVals {} (fun _ k => { k with gen0 := none, gen1 := none }) s.hbm.keys }
    sec := { s.sec with keys := { s.sec.keys with cdi := false, deviceId := false, alias_ := false, vendorSeal := false
                                                  operSeal := false, pair := false }, sessions := [] }
    colls := Tab.mapVals {} (fun _ c => { c with groups := Tab.mapVals {} (fun _ g => { g with state := 0 }) c.groups }) s.colls }

/-- Drive the adit to a state (14 R378): 0 THROUGH, 1 OPEN. Its two links are dark while it switches. -/
def State.driveAdit (s : State) (dir : Nat) : State :=
  if s.ring.adit = dir then s
  else (({ s with ring := { s.ring with adit := 2, aditTo := dir } }).updRingPort 0 (fun p => { p with link := 0, dark := true })).updRingPort 1
    (fun p => { p with link := 0, dark := true })

/-- Send the down tokens of the mirrored partitions on both ring ports (14 R391; 16 R425 step 2). -/
def State.downTokens (s : State) : State :=
  forAll (allParts.filter (fun n => (s.slice n).mirror && (s.twin n).state != 0)) (fun n s =>
    (s.ringSend 0 0 64 (leBytes 1 n)).ringSend 1 0 64 (leBytes 1 n)) s

/-- Why the module stays at the pithead stage before any attempt at stage 1 (16 R440): SCRAPPED, or a canary still tripped (15
R415). -/
def State.holdFail (s : State) : Nat := if s.sec.fuses.lcs == .scrapped then 6 else if s.sec.canaries.isEmpty then 0 else 5

/-- One record of a request kind is spent (02 R59, R60; 15 R418). SEC_CONF_ONLY has no count of spent records. -/
def Fuses.spend (f : Fuses) (kind : Nat) : Fuses :=
  match kind with
  | 1 => { f with lcsSpent := f.lcsSpent + 1 }
  | 2 => { f with opSpent := f.opSpent + 1 }
  | 3 => { f with opSpent := f.opSpent + 1 }
  | 4 => { f with twinSpent := f.twinSpent + 1 }
  | 5 => { f with twinSpent := f.twinSpent + 1 }
  | 7 => { f with floorSpent := f.floorSpent + 1 }
  | 9 => { f with svnSpent := f.svnSpent + 1 }
  | _ => f

/-- The fuse records being written abort (02 R60): their settings are unchanged, the place is spent. -/
def State.abortJob (s : State) : State :=
  match s.sec.fuseJob with
  | none => s
  | some j => { s with sec := { s.sec with fuses := s.sec.fuses.spend j.kind, fuseJob := none, spentLog := s.sec.spentLog + 1 } }

/-- A SOFT row, the oldest of a repair map, is being made HARD when power fails (10 R260): it stays SOFT and its spare is suspect. -/
def suspectRow : List Repair → List Repair
  | [] => []
  | r :: l => if r.st == .soft then { r with suspect := true } :: l else r :: suspectRow l

/-- An hPPR of stack k, which stage 2's repairs may have begun, is interrupted (10 R260; 02 R60): whether one ran is free. -/
def State.abortHppr (s : State) (k : Nat) : State :=
  if s.pwr.stage = 1 && (s.stack k).repairs.any (fun r => r.st == .soft) && Config.freeBool (s.freeCtr + k) then
    s.updStack k (fun t => { t with repairs := suspectRow t.repairs, hardSpent := t.hardSpent + 1 })
  else s

/-- Every fuse write in progress aborts (02 R60; 15 R409, R415; 16 R425): a request's; the final record of a transition and the hard
repairs of stage 2, of which a free choice says whether one is being written. -/
def State.abortFuse (s : State) : State :=
  let s := s.abortJob
  let fin := s.sec.fuses.pending && s.pwr.stage == 0 && Config.freeBool s.freeCtr
  let s := if fin then { s with sec := { s.sec with fuses := s.sec.fuses.spend 1, spentLog := s.sec.spentLog + 1 } } else s
  let s := if s.sec.fuses.pending then s.tick else s
  let n := fun (s : State) => (List.range 16).foldl (fun a k => a + (s.stack k).hardSpent) 0
  let t := forAll (List.range 16) (fun k s => s.abortHppr k) s
  let t := if s.pwr.stage = 1 then { t with freeCtr := t.freeCtr + 16 } else t
  { t with sec := { t.sec with spentLog := t.sec.spentLog + (n t - n s) } }

/-- The records that an abort spent are logged (02 R60, R64). -/
def State.logSpent (s : State) : State :=
  (List.range s.sec.spentLog).foldl (fun s _ => s.log 0x1A 255 St.aborted 0 []) { s with sec := { s.sec with spentLog := 0 } }

/-- What a module reset clears and keeps (16 R434): flash, fuses, the sealed log, the repair and retirement maps and the
pattern store are kept; every partition is lost with the status; the module is at the pithead stage. A fuse write in progress
aborts (02 R60). -/
def State.wipeCore (s : State) (cause : Nat) (status : StatusCode) : State :=
  let s := s.abortJob
  let live := allParts.filter (fun n => (s.part n).state == .ready || (s.part n).state == .building)
  let s := (s.zeroKeys).driveAdit 0
  let parts := allParts.foldl (fun t n => Tab.set ({} : Part) t n
    (if (s.part n).state == .undefined then {} else { state := .lost, status := if live.contains n then status else (s.part n).status })) []
  ({ pending := s.pending, freeCtr := s.freeCtr, out := s.out
     pat := { slot0 := s.pat.slot0, slot1 := s.pat.slot1, selected := s.pat.selected, storedEpoch := s.pat.storedEpoch, parts := parts }
     hbm := { stackTab := Tab.mapVals {} (fun _ t => { repairs := t.repairs, hard := t.hard, hardSpent := t.hardSpent }) s.hbm.stackTab
              keyGen := s.hbm.keyGen, retired := s.hbm.retired }
     fab := { halfFailed := s.fab.halfFailed, bridgeUp := false }
     coh := {}
     sec := { fuses := s.sec.fuses, keys := { aliasGen := s.sec.keys.aliasGen, pairGen := s.sec.keys.pairGen }
              log := { s.sec.log with readers := [] }, nonce := s.sec.nonce, fwBank := s.sec.fwBank, fwRunning := s.sec.fwRunning
              fwStandby := s.sec.fwStandby, fwStaged := s.sec.fwStaged, fwState := if s.sec.fwStaged.isSome then 3 else 0, canaries := s.sec.canaries
              drbgHealthy := s.sec.drbgHealthy, spentLog := s.sec.spentLog, alarmLow := s.sec.alarmLow
              seenNote := s.sec.seenNote, seenFence := s.sec.seenFence, seenQuench := s.sec.seenQuench
              lastSource := s.sec.lastSource, lastScope := s.sec.lastScope }
     pwr := { feedA := s.pwr.feedA, feedB := s.pwr.feedB, voltA := s.pwr.voltA, voltB := s.pwr.voltB, activeB := s.pwr.activeB
              pwrFail := s.pwr.pwrFail, railsOut := s.pwr.railsOut, boot := s.pwr.boot, cause := cause, fail := s.holdFail
              lcsHold := s.sec.fuses.pending, pithead := s.pwr.pithead, refOk := s.pwr.refOk, resetLow := s.pwr.resetLow
              perstHigh := s.pwr.perstHigh, dieTemp := s.pwr.dieTemp, powered := s.pwr.powered, inReset := true }
     ras := s.ras
     cells := Tab.mapVals {} (fun _ c => { retired := c.retired }) s.cells
     sites := Tab.mapVals {} (fun _ t => { fitted := t.fitted }) s.sites
     ring := { adit := s.ring.adit, aditTo := s.ring.aditTo, position := s.ring.position, size := s.ring.size }
     pcie := { downs := s.pcie.downs, stGen := s.pcie.stGen, stBytes := s.pcie.stBytes } } : State).rewriteTable

/-- A module reset: the down tokens leave (14 R391), each loss is logged (02 R33, R64), and what R434 clears is cleared. -/
def State.wipe (s : State) (cause : Nat) (status : StatusCode) : State :=
  let s := s.downTokens
  let live := allParts.filter (fun n => (s.part n).state == .ready || (s.part n).state == .building)
  (forAll live (fun n s => s.log 4 n status 0 []) s).wipeCore cause status

/-- Every count that clears only at a module reset (17 R446). -/
def State.clearRas (s : State) : State := { s with ras := [] }

/-- A quench (15 R415). -/
def State.quench (s : State) (src scope : Nat) : State :=
  let s := s.abortFuse.logSpent
  let s := s.wipe 3 St.alarmStop
  let s := { s with sec := { s.sec with seenQuench := true, lastSource := src, lastScope := scope, alarmLow := true } }
  (s.log 0x22 scope St.alarmStop 0 (alarmDetail src 2 1)).raise 16 3

/-- A half fails (01 R14): every partition is lost, both halves return to the pithead stage, ALARM_OUT# is held low. DESIGN
CHOICE: R14 names no event type for its entry in the sealed log, which is PARTITION_LOST of module scope with ABORTED (log entry 128). -/
def State.halfFail (s : State) (h : Nat) : State :=
  let s := { s with fab := { s.fab with halfFailed := s.fab.halfFailed.set false h true } }
  let s := s.wipe 4 St.aborted
  let s := { s with sec := { s.sec with alarmLow := true } }
  let s := s.rasRecord h 5 13 255 St.aborted h 0 0 1 0
  s.log 4 255 St.aborted 0 []

/-- A Fence (15 R414): of a partition source, which holds the unit and loses the partition; or of a module source, which closes
the source. MSG_BAD_SOURCE isolates the whole site (03 R83). -/
def State.fenceAlarm (s : State) (src scope : Nat) (unit : Option Held) : State :=
  let s := { s with sec := { s.sec with seenFence := true, lastSource := src, lastScope := scope, alarmPulse := true } }
  let s := s.raise 16 3
  let s := s.log 0x21 scope St.alarmStop 0 (alarmDetail src 1 1)
  match unit with
  | some (.site k) =>
    let s := { s with sec := { s.sec with held := s.sec.held ++ [Held.site k] } }
    s.siteDead k 8
  | u =>
    if scope < 16 then
      let s := { s with sec := { s.sec with held := s.sec.held ++ u.toList } }
      -- a cluster that is held is isolated (08 R208, R211)
      let s := match u with | some (.cluster c) => s.killAgent (c / 8) (c % 8) | _ => s
      s.losePart scope St.alarmStop
    else { s with sec := { s.sec with closed := s.sec.closed ++ [src] } }

/-- An alarm of a source in a scope, raised by a unit: Note, Fence or Quench by its effective class (15 R413, R414). -/
def State.alarm (s : State) (src scope : Nat) (unit : Option Held) : State :=
  match s.effClass src scope with
  | .note => s.countNote src scope
  | .fence => s.fenceAlarm src scope unit
  | .quench => s.quench src scope

/-- Judge what a command has left to be judged (06 R147; 12 R330), oldest first. -/
def State.settleDues : Nat → State → State
  | 0, s => s
  | fuel + 1, s =>
    match s.dues with
    | [] => s
    | .codeWrite n :: l => State.settleDues fuel (({ s with dues := l } : State).alarm 0x111 n none)
    | .writeBack n c st :: l => State.settleDues fuel (({ s with dues := l } : State).loseCtx n c st)

/-- A total meaning whose hub writes are judged at its end. -/
def closing (s : State) : Res' :=
  if s.dues.isEmpty then .next s else .next { State.settleDues 4096 s with dues := [] }

/-- Scope and unit of a register access's alarm (15 R412): the partition's VF or cluster, or the module on the operator path. -/
def pathScope : Path → Nat
  | .vf n => n.val
  | .partAlias n => n.val
  | _ => 255
/-- The unit that a path's alarm holds. -/
def pathUnit : Path → Option Held
  | .vf n => some (.vf n.val)
  | _ => none

/-- What path p presents is dropped: before the pithead stage nothing answers (16 R432); its VF is held by a Fence, or the operator path
is closed (15 R414); the link is down (12 R308), the VF is disabled (01 R28), or its TDI is in ERROR (12 R310). -/
def State.pathShut (s : State) (p : Path) : Bool :=
  !s.pwr.powered || !s.pwr.pithead || match p with
  | .vf n => s.sec.held.contains (.vf n.val) || !s.pcie.up || !((s.slice n.val).vf) || (s.vf n.val).tdi == 3
  | .pf0 => s.sec.closed.contains 0x110 || !s.pcie.up
  | .mctp => s.sec.closed.contains 0x110
  | _ => false

/-- A dropped write counts a Note against REG_SCOPE (15 R412). -/
def State.regScope (s : State) (p : Path) : State := s.alarm 0x110 (pathScope p) (pathUnit p)
/-- A write names something the partition does not own (15 R412 OWNERSHIP). -/
def State.ownership (s : State) (p : Path) : State := s.alarm 0x114 (pathScope p) (pathUnit p)

/-- A write that the owner's path does not bring is dropped and counted; before stage 1 the block does not decode, and nothing is
counted (16 R433). -/
def State.strayWrite (s : State) (p : Path) : State := if s.pwr.stage = 0 then s else s.regScope p

/-- Run f where the path reaches the registers of Pn, else drop the write and count it (01 R27; 06 R142); early marks those of the SEC
and LCS block, which decodes from the pithead stage on (16 R433). -/
def State.onPart (s : State) (p : Path) (n : Nat) (f : State → State) (early : Bool := false) : State :=
  if s.pathShut p then s else if reaches p n then f s else if early then s.regScope p else s.strayWrite p

/-- Run f where the path reaches operator-owned registers, else drop the write and count it (01 R27; 02 R53). -/
def State.onOper (s : State) (p : Path) (f : State → State) : State :=
  if s.pathShut p then s else if isOper p || isFirmware p then f s else s.regScope p

/-- The same of a block that decodes from stage 1 on (16 R433). -/
def State.onOperLate (s : State) (p : Path) (f : State → State) : State := if s.pwr.stage = 0 then s else s.onOper p f

/-- A write of Pn's work to its PPA: FAULT_BOUNDS beyond the size; a protected image refuses it with the same status and a
CODE_WRITE alarm (06 R147); the PPA of a standby partition is written only by the twin stream (14 R388). -/
def State.ppaWrite (s : State) (n ppa : Nat) (bytes : List Byte) (dross : Bool) (unit : Option Held) (p : Via := {}) : State × StatusCode :=
  if !(s.inPpa n ppa bytes.length) then (s, St.faultBounds)
  else if s.protected n ppa bytes.length then (s.alarm 0x111 n unit, St.faultBounds)
  else if (s.twin n).state = 4 then (s, St.denied)
  else s.ppaStore n ppa bytes dross p

end Sys2Proof.Machine
end

