-- ==== Sys2Proof/Machine/Coherence.lean ====
section
/-!
DEFINITION. The commands of coherence (09 R224-R233): requests at a directory, snoops at an agent, answers, retries, the dead
agent. A command whose line has no such request, snoop or answer outstanding changes nothing (log entry 13).
-/

namespace Sys2Proof.Machine

/-- RDS (09 R225). -/
def execRds (h : HalfId) (agent : Fin 15) (line : Nat) (hint : Hint) (tally : Bool) (s : State) : Res' :=
  done (s.homeServe line (.rds h agent line hint tally) (fun s => s.agentRequest h.val agent.val line tally .rds hint))
/-- RDU (09 R225). -/
def execRdu (h : HalfId) (agent : Fin 15) (line : Nat) (hint : Hint) (tally : Bool) (s : State) : Res' :=
  done (s.homeServe line (.rdu h agent line hint tally) (fun s => s.agentRequest h.val agent.val line tally .rdu hint))
/-- UPGRADE (09 R225): from one that holds no copy it is served as RdU. -/
def execUpgrade (h : HalfId) (agent : Fin 15) (line : Nat) (tally : Bool) (s : State) : Res' :=
  done (s.agentRequest h.val agent.val line tally .upgrade .alloc)

/-- WRITE_BACK (09 R228). -/
def execWriteBack (h : HalfId) (agent : Fin 15) (line : Nat) (s : State) : Res' :=
  done (s.writeBack h.val agent.val line)

/-- EVICTION_NOTICE (09 R225). -/
def execEvictionNotice (h : HalfId) (agent : Fin 15) (line : Nat) (s : State) : Res' :=
  done (s.evictNotice h.val agent.val line)

/-- A home access as its command gives it. -/
def homeTxn (kind : TxnKind) (hint : Hint) (mask : Nat) (data : List Byte) (dross : Bool) : Txn :=
  { kind := kind, requester := 79, hint := hint, mask := mask, wdata := bslice data 0 64, wdross := dross }

/-- HOME_READ (09 R226). -/
def execHomeRead (h : HalfId) (master : Fin 64) (line : Nat) (hint : Hint) (tally : Bool) (s : State) : Res' :=
  done (s.homeServe line (.homeRead h master line hint tally) (fun s =>
    s.homeAccess h.val master.val line tally { kind := .read, requester := 79, hint := hint }))
/-- HOME_FULL_WRITE (09 R226): with NOALLOC a line that no cache holds goes to its stack. -/
def execHomeFullWrite (h : HalfId) (master : Fin 64) (line : Nat) (data : List Byte) (dross : Bool) (hint : Hint) (tally : Bool)
    (s : State) : Res' :=
  let f := fun (s : State) => s.homeAccess h.val master.val line tally (homeTxn .write hint 0 data dross)
  done (if hint == .noAlloc then s.homeServe line (.homeFullWrite h master line data dross hint tally) f else f s)
/-- HOME_PARTIAL_WRITE (09 R226): without a cached copy it goes to the write-combining buffer (10 R243). -/
def execHomePartialWrite (h : HalfId) (master : Fin 64) (line : Nat) (mask : BitVec 64) (data : List Byte) (hint : Hint)
    (tally : Bool) (s : State) : Res' :=
  done (s.homeAccess h.val master.val line tally (homeTxn .partialWrite hint mask.toNat data false))

/-- SNPSHARED (09 R224). -/
def execSnpShared (h : HalfId) (agent : Fin 15) (line : Nat) (s : State) : Res' := done (s.snoop .shared h.val agent.val line)
/-- SNPUNIQUE (09 R224). -/
def execSnpUnique (h : HalfId) (agent : Fin 15) (line : Nat) (s : State) : Res' := done (s.snoop .unique h.val agent.val line)
/-- SNPINV (09 R224). -/
def execSnpInv (h : HalfId) (agent : Fin 15) (line : Nat) (s : State) : Res' := done (s.snoop .inv h.val agent.val line)
/-- SNPCUR (09 R224). -/
def execSnpCur (h : HalfId) (agent : Fin 15) (line : Nat) (s : State) : Res' := done (s.snoop .cur h.val agent.val line)

/-- SNOOP_ANSWER (09 R225): the answer reaches the home and advances the transaction. -/
def execSnoopAnswer (h : HalfId) (agent : Fin 15) (line : Nat) (s : State) : Res' :=
  done (s.snoopAnswer h.val agent.val line)

/-- WRITE_BACK_GRANT (09 R228): the agent sends its data, which the home or the proxy writes, and frees its buffer entry. -/
def execWriteBackGrant (h : HalfId) (agent : Fin 15) (line : Nat) (s : State) : Res' :=
  done (match s.wbOf h.val agent.val line with
    | some w => onlyIf (w.phase == 1) (fun s =>
        let n := (s.ownerPch (pchOfLine line)).getD 16
        let s := (s.setWb h.val agent.val line none).putLine h.val line n w.data w.dross .alloc
        let s : State := if homeOf line = h.val then s else
          { s with coh := { s.coh with copies := s.coh.copies.upd {} (proxyKey line) (fun p => { p with st := if p.st == .e then .m else p.st }) } }
        s.closeTxn h.val line) s
    | none => s)

/-- STALE (09 R228): sent after the agent's answer to every snoop of the line; the agent frees its buffer entry. -/
def execStale (h : HalfId) (agent : Fin 15) (line : Nat) (s : State) : Res' :=
  done (match s.wbOf h.val agent.val line with
    | some w =>
      let out := match (s.dirEnt h.val line).txn with | some t => t.waits.testBit agent.val | none => false
      onlyIf (w.phase == 2 && !out) (fun s => s.setWb h.val agent.val line none) s
    | none => s)

/-- Change the first tally of a requester for a line that satisfies p. -/
def State.updTally (s : State) (h r l : Nat) (p : RTally → Bool) (f : RTally → RTally) : State :=
  match s.coh.tallies.findIdx? (fun t => t.half == h && t.requester == r && t.line == l && p t) with
  | some i => { s with coh := { s.coh with tallies := s.coh.tallies.modify i f } }
  | none => s

/-- RETRY (09 R229): the refusal and its tally reach the requester (agents 0-14, then masters from 15 on). -/
def execRetry (h : HalfId) (agent : Fin 79) (line : Nat) (s : State) : Res' :=
  done (s.updTally h.val agent.val line (fun t => !t.delivered) (fun t => { t with delivered := true }))

/-- RETRY_GRANT (09 R229): the grant of a closed transaction reaches the requester, which may reissue with its tally. -/
def execRetryGrant (h : HalfId) (agent : Fin 79) (line : Nat) (s : State) : Res' :=
  done (s.updTally h.val agent.val line (fun t => t.sent && t.delivered) (fun t => { t with granted := true }))

/-- COMPLETION_ACK (09 R230): the requester's acknowledgement closes the transaction. -/
def execCompletionAck (h : HalfId) (agent : Fin 15) (line : Nat) (s : State) : Res' :=
  done (s.complete h.val agent.val line)

/-- RECLAIM_WALK_DONE (09 R233, R238). -/
def execReclaimWalkDone (h : HalfId) (s : State) : Res' :=
  done { s with coh := { s.coh with reclaimActive := s.coh.reclaimActive.set false h.val false } }

end Sys2Proof.Machine
end

