-- ==== Sys2Proof/Machine/DmaDesc.lean ====
section
/-!
DEFINITION. DMA descriptors (11 R267-R271), element order (R269), segments and runs (R289), bursts as they are formed (R272), and
resume records (07 R186).
-/

namespace Sys2Proof.Machine

/-- A descriptor's fields (11 R267, R268). -/
structure Desc where
  own : Bool
  irq : Bool
  ndim : Nat
  swap : Nat
  hint : Nat
  fence : Bool
  evCore : Nat
  evBit : Nat
  ctrl : Nat
  counts : List Nat
  srcDva : Bool
  src : Nat
  dstDva : Bool
  dst : Nat
  /-- The reserved bits of CTRL, SRC and DST. -/
  rsv : Nat
  sstr : List Int
  dstr : List Int
  deriving DecidableEq, Repr

/-- Signed 32-bit number. -/
def int32 (v : Nat) : Int := (BitVec.ofNat 32 v).toInt

/-- Read a descriptor. -/
def descOf (b : List Byte) : Desc :=
  let c := fld b 0 4
  let s := fld b 8 8
  let d := fld b 0x10 8
  let rsvOf := fun (v : Nat) => if v.testBit 63 then bits v 62 48 else bits v 62 40
  { own := c.testBit 31, irq := c.testBit 30, ndim := bits c 29 28 + 1, swap := bits c 27 25, hint := bits c 24 23, fence := c.testBit 22
    evCore := bits c 21 15, evBit := bits c 14 9, ctrl := c
    counts := [fld b 4 4, fld b 0x18 2, fld b 0x1A 2, fld b 0x1C 2]
    srcDva := s.testBit 63, src := s % 2 ^ 63, dstDva := d.testBit 63, dst := d % 2 ^ 63
    rsv := bits c 8 0 + rsvOf s + rsvOf d
    sstr := [int32 (fld b 0x20 4), int32 (fld b 0x24 4), int32 (fld b 0x28 4)]
    dstr := [int32 (fld b 0x2C 4), int32 (fld b 0x30 4), int32 (fld b 0x34 4)] }

/-- Count of a dimension. -/
def Desc.count (d : Desc) (i : Nat) : Nat := nth d.counts i
/-- Bytes the descriptor moves (11 R269). -/
def Desc.total (d : Desc) : Nat := d.count 0 * d.count 1 * d.count 2 * d.count 3
/-- Rows of the descriptor. -/
def Desc.rows (d : Desc) : Nat := d.count 1 * d.count 2 * d.count 3
/-- Indices of element e in element order (11 R269). -/
def Desc.index (d : Desc) (e : Nat) : List Nat :=
  let r := e / d.count 0
  [e % d.count 0, r % d.count 1, r / d.count 1 % d.count 2, r / d.count 1 / d.count 2]
/-- Address of element e over a base and its strides. -/
def Desc.addr (d : Desc) (base : Nat) (strides : List Int) (e : Nat) : Int :=
  let i := d.index e
  (base : Int) + nth i 0 + (nth i 1 : Int) * strides.getD 0 0 + (nth i 2 : Int) * strides.getD 1 0 + (nth i 3 : Int) * strides.getD 2 0
/-- Source address of element e. -/
def Desc.srcAt (d : Desc) (e : Nat) : Int := d.addr d.src d.sstr e
/-- Destination address of element e. -/
def Desc.dstAt (d : Desc) (e : Nat) : Int := d.addr d.dst d.dstr e

/-- Unit of a SWAP code (11 R270). -/
def swapUnit (code : Nat) : Nat :=
  match code with
  | 1 => 2 | 2 => 4 | 3 => 8 | 4 => 4 | 5 => 8 | _ => 1
/-- The order in which a unit's bytes come out (11 R270). -/
def swapOrder (code : Nat) : List Nat :=
  match code with
  | 1 => [1, 0] | 2 => [3, 2, 1, 0] | 3 => [7, 6, 5, 4, 3, 2, 1, 0] | 4 => [2, 3, 0, 1] | 5 => [6, 7, 4, 5, 2, 3, 0, 1] | _ => [0]
/-- Rearrange bytes within units, counted from the first byte. -/
def swapBytes {α : Type} (d : α) (code : Nat) (l : List α) : List α :=
  let u := swapUnit code
  let o := swapOrder code
  (List.range l.length).map (fun i => l.getD (i / u * u + nth o (i % u)) d)

/-- The checks of a descriptor at fetch (11 R271): priv on a privileged channel of Pn, whose cores owns tells. -/
def Desc.ok (d : Desc) (priv : Bool) (owns : Nat → Bool) : Bool :=
  let u := swapUnit d.swap
  let dims := (List.range 3).all (fun i => decide (1 ≤ d.count (i + 1))
    && (decide (i + 1 < d.ndim) || (d.count (i + 1) == 1 && d.sstr.getD i 0 == 0 && d.dstr.getD i 0 == 0)))
  let aligned := d.count 0 % u == 0 && d.src % u == 0 && d.dst % u == 0
    && (List.range 3).all (fun i => d.count (i + 1) == 1 || (d.sstr.getD i 0 % u == 0 && d.dstr.getD i 0 % u == 0))
  d.rsv == 0 && decide (1 ≤ d.count 0) && dims && decide (d.total < 2 ^ 48) && decide (d.swap ≤ 5) && aligned
    && (if priv then !d.srcDva && !d.dstDva && owns d.evCore else d.own && d.evCore == 0 && d.evBit == 0)

/-- HPA of a register of a channel (11 R276). -/
def dmaAddr (i o : Nat) : Nat := regAddr (i / 512) 5 (0x100000 + (i / 32 % 16) * 0x1000 + (i % 32) * 0x80 + o)

/-- A privileged channel (11 R265). -/
def isPriv (i : Nat) : Bool := decide (i % 32 < 4)

/-- Entries of a channel's ring. -/
def Chan.ringLen (c : Chan) : Nat := 2 ^ bits c.ring 59 56
/-- Address of descriptor index in a channel's ring. -/
def Chan.descAt (c : Chan) (idx : Nat) : Nat := bits c.ring 47 6 * 64 + (idx % c.ringLen) * 64
/-- The ring lies at a DVA (11 R278). -/
def Chan.ringDva (c : Chan) : Bool := c.ring.testBit 63

/-- The index that DMA_CH_TAIL names in the ring: indices run modulo its entries (11 R276). -/
def Chan.tailIdx (c : Chan) : Nat := c.tail % c.ringLen

/-- The cursor (11 R283). -/
def Chan.cursor (c : Chan) : List Nat :=
  match c.desc with
  | some b => (descOf b).index c.done
  | none => [0, 0, 0, 0]

/-- The descriptor whose bursts issue now: the one in progress, else the next one (11 R273); whether it is the next, and the
element it stands at. -/
def Chan.front (c : Chan) : Option (Bool × Desc × Nat) :=
  match c.desc with
  | none => none
  | some b =>
    let d := descOf b
    if c.issued < d.total then some (false, d, c.issued)
    else match c.nDesc with
      | some b' => let d' := descOf b'; if d'.fence || d'.total ≤ c.nIssued then none else some (true, d', c.nIssued)
      | none => none

/-- An operand at address a: host or PPA, physical address, bytes it reaches on (11 R272, R289); none where no run holds it. -/
def physOf (dva : Bool) (runs : List Run) (a : Int) : Option (Bool × Nat × Nat) :=
  let v := (a % 2 ^ 64).toNat
  if dva then
    (runs.find? (fun r => decide (r.dva ≤ v) && decide (v < r.dva + r.len))).map (fun r =>
      let p := r.addr + (v - r.dva)
      (r.host, p, min (r.dva + r.len - v) (4096 - p % 4096)))
  else some (false, v, 4096 - v % 4096)

/-- A run list after address a has been reached: the bytes it reaches on, or a stop, or that a 33rd run would be needed. -/
inductive Cover where
  | ok (runs : List Run) (avail : Nat) (reads : List TableRead)
  | full
  | stop (st : SegStop) (reads : List TableRead)
  deriving DecidableEq, Repr

/-- A leaf joins the runs it continues, two of them where it lies between, else it is a new run, the 33rd of which ends the segment (11 R289). -/
def addRun (runs : List Run) (n : Run) : Option (List Run) :=
  let like := fun (r : Run) => r.host == n.host && r.r == n.r && r.w == n.w
  let after := fun (r : Run) => like r && r.dva + r.len == n.dva && r.addr + r.len == n.addr
  let before := fun (r : Run) => like r && n.dva + n.len == r.dva && n.addr + n.len == r.addr
  let ext := (runs.find? before).elim 0 (fun r => r.len)
  if runs.any after then
    some ((runs.map (fun r => if after r then { r with len := r.len + n.len + ext } else r)).filter (fun r => !(before r)))
  else if runs.any before then some (runs.map (fun r => if before r then { r with dva := n.dva, len := r.len + n.len, addr := n.addr } else r))
  else if 32 ≤ runs.length then none
  else some (runs ++ [n])

/-- Reach address a of a DVA operand of context c of Pn on engine e, for reading (w false) or writing. -/
def State.cover (s : State) (e n c : Nat) (dva w : Bool) (runs : List Run) (a : Int) : Cover :=
  if !dva then .ok runs (2 ^ 48) []
  else
    let v := (a % 2 ^ 64).toNat
    match runs.find? (fun r => decide (r.dva ≤ v) && decide (v < r.dva + r.len)) with
    | some r => .ok runs (r.dva + r.len - v) []
    | none =>
      let o := s.walk (some e) n c v (!w) w
      match o.res with
      | .leaf base size host addr r wr =>
        match addRun runs { dva := base, len := size, host := host, addr := addr, r := r, w := wr } with
        | some rs => .ok rs (base + size - v) o.reads
        | none => .full
      | .fault reason level =>
        .stop { fault := true, status := St.faultXlt, addr := v % 2 ^ 48, dir := w, reason := reason, level := level } o.reads
      | .err st => .stop { fault := false, status := st, addr := v % 2 ^ 48, dir := w, reason := 0, level := 0 } o.reads

/-- A segment as it is built (11 R289): the elements it reaches, its run lists, the table entries read, what ends it. -/
structure Seg where
  upTo : Nat
  src : List Run
  dst : List Run
  reads : List TableRead := []
  stop : Option SegStop := none
  deriving DecidableEq, Repr

/-- Build a segment from element e on: to the first element that needs a 33rd run, or faults, or to the descriptor's end. -/
def State.segment (s : State) (e n c : Nat) (d : Desc) : Nat → Seg → Seg
  | 0, g => g
  | fuel + 1, g =>
    if d.total ≤ g.upTo then g else
    match s.cover e n c d.srcDva false g.src (d.srcAt g.upTo) with
    | .full => g
    | .stop st rd => { g with stop := some st, reads := g.reads ++ rd }
    | .ok src a rd =>
      match s.cover e n c d.dstDva true g.dst (d.dstAt g.upTo) with
      | .full => g
      | .stop st rd' => { g with stop := some st, reads := g.reads ++ rd ++ rd' }
      | .ok dst b rd' =>
        let upTo := g.upTo + min (d.count 0 - g.upTo % d.count 0) (min a b)
        s.segment e n c d fuel { upTo := upTo, src := src, dst := dst, reads := g.reads ++ rd ++ rd' }

/-- CTRL of a resume record (07 R186). -/
def resumeCtrl (i : Nat) (c : Chan) (kind : Nat) : Nat :=
  i + kind * 2 ^ 12 + bit c.dir * 2 ^ 14 + bit c.spacePpa * 2 ^ 15 + c.status.toNat * 2 ^ 16 + (c.prio % 8) * 2 ^ 24
    + bit c.resolved * 2 ^ 27

/-- The 64 bytes of a resume record (07 R186). -/
def resumeRecord (n i : Nat) (c : Chan) (kind : Nat) : List Byte :=
  let desc := if c.desc.isSome then c.descAt c.head + (if c.ringDva then 2 ^ 63 else 0) else 0
  leBytes 8 desc ++ (c.cursor.map (leBytes 4)).flatten ++ leBytes 8 c.faultAddr ++ leBytes 4 (resumeCtrl i c kind)
    ++ leBytes 2 (if isPriv i then n * 4096 else n * 4096 + c.ctx) ++ leBytes 2 c.faultId ++ leBytes 8 c.done ++ zeros 12
    ++ leBytes 4 (c.seq % 2 ^ 32)

end Sys2Proof.Machine
end

