-- ==== Sys2Proof/Machine/DmaRun.lean ====
section
/-!
DEFINITION. How a DMA channel runs (11 R272-R275, R282-R285, R292): bursts issue, halts and faults begin, the cursor advances,
descriptors complete, and a preempted context's channels are saved and reloaded (07 R187).
-/

namespace Sys2Proof.Machine

/-- The channel's event or interrupt for the descriptor in progress: a privileged channel pulses its event (11 R275). -/
def State.pulse (s : State) (i : Nat) : State :=
  match (s.chan i).desc with
  | some b => let d := descOf b; s.setEvent d.evCore d.evBit
  | none => s

/-- Bytes of the descriptor in progress. -/
def Chan.total (c : Chan) : Nat := (descOf (c.desc.getD [])).total

/-- Owner of a channel, 0 where it has none (such a channel is never enabled). -/
def State.chanPart (s : State) (i : Nat) : Nat := (s.ownerChan i).getD 0

/-- A channel halts once its bursts are done (11 R285): a later error of an earlier element takes its place. -/
def haltChan (c : Chan) (status : StatusCode) (addr at_ : Nat) (ppa dir : Bool) : Chan :=
  if c.stop == .abort || (c.stop == .halt && decide (c.stopAt ≤ at_)) then c
  else { c with stop := .halt, stopStatus := status, stopAddr := addr, stopPpa := ppa, stopDir := dir, stopAt := at_, needWalk := false
                segStop := none }

/-- Enter HALTED (11 R285): its registers, the bit and vector of a context channel, whose context is lost; the event of a
privileged one. -/
def State.enterHalt (s : State) (i : Nat) : State :=
  let n := s.chanPart i
  let c := s.chan i
  let s := s.updChan i (fun c => { c with
    state := 6, stop := .none, status := c.stopStatus, faultAddr := c.stopAddr, spacePpa := c.stopPpa, dir := c.stopDir
    bursts := [], nDesc := none, nIssued := 0, issued := c.done, ahead := none, srcRuns := [], dstRuns := [], segStop := none, needWalk := false })
  if isPriv i then s.pulse i
  else
    let s := (s.updVf n (fun v => { v with dmaHalt := setBit v.dmaHalt i })).raise n 2
    s.loseCtx n c.ctx c.stopStatus

/-- Write a completion to the ring (11 R274): the status of the write, or the fault of its translation. -/
def State.ringStore (s : State) (i addr : Nat) (bytes : List Byte) : State × Except SegStop StatusCode :=
  let n := s.chanPart i
  let c := s.chan i
  if c.ringDva then
    let w := s.walk (some (i / 32)) n c.ctx addr true true
    let s := s.noteWalk (some (i / 32)) n c.ctx w.reads
    match w.res with
    | .leaf base _ host a _ _ =>
      let p := a + (addr - base)
      if host then let r := s.hostStore n p bytes false; (r.1, .ok r.2)
      else let r := s.ppaWrite n p bytes false (some (.chan i)); (r.1, .ok r.2)
    | .fault reason level => (s, .error { fault := true, status := St.faultXlt, addr := addr, dir := true, reason := reason, level := level })
    | .err st => (s, .ok st)
  else let r := s.ppaWrite n addr bytes false (some (.chan i)); (r.1, .ok r.2)

/-- Complete the descriptor in progress of a context channel with a status (11 R274): COMPLETION, then CTRL with OWN clear, then
the interrupt. A failed write-back halts the channel, a fault of its translation waits (R278). Answers whether it is done. -/
def State.descBack (s : State) (i : Nat) (status : StatusCode) : State × Bool :=
  let c := s.chan i
  match c.desc with
  | none => (s, true)
  | some b =>
    let d := descOf b
    let a := c.descAt c.head
    let halt := fun (s : State) (st : StatusCode) => s.updChan i (fun c => haltChan c st a c.done (!c.ringDva) true)
    let fault := fun (s : State) (f : SegStop) => s.updChan i (fun c =>
      { c with stop := .fault, stopStatus := f.status, stopAddr := f.addr, stopPpa := false, stopDir := true, stopReason := f.reason
               stopLevel := f.level, stopAt := c.done, taken := false, wbWait := true })
    match s.ringStore i (a + 0x38) (leBytes 8 (c.done * 65536 + status.toNat)) with
    | (s, .error f) => (fault s f, false)
    | (s, .ok st) =>
      if st != St.ok then (halt s st, false)
      else match s.ringStore i a (leBytes 4 (d.ctrl % 2 ^ 31)) with
        | (s, .error f) => (fault s f, false)
        | (s, .ok st) =>
          if st != St.ok then (halt s st, false)
          else (if d.irq then s.raise (s.chanPart i) ((s.vf (s.chanPart i)).dmaVec.get 8 i) else s, true)

/-- HEAD advances and the next descriptor, if it has been fetched, is the one in progress (11 R273, R274); a halt that waits for it
stands at its element. -/
def advanceHead (c : Chan) : Chan :=
  { c with stopAt := c.stopAt - (c.total + 1), head := (c.head + 1) % c.ringLen, desc := c.nDesc, nDesc := none, done := 0, issued := c.nIssued, nIssued := 0, dross := false
           bursts := c.bursts.map (fun b => { b with next := false }) }

/-- A descriptor completes with a status (11 R274, R275). Answers whether it is done. -/
def State.completeDesc (s : State) (i : Nat) (status : StatusCode) : State × Bool :=
  if isPriv i then ((s.pulse i).updChan i advanceHead, true)
  else
    let r := s.descBack i status
    if r.2 then (r.1.updChan i advanceHead, true) else (r.1, false)

/-- The state of a channel that runs with nothing in progress (11 R279). -/
def Chan.rest (c : Chan) : Chan :=
  if c.state = 2 && c.desc.isNone && c.head = c.tailIdx then { c with state := 1 } else c

/-- A context is lost where a save or restore access ends with a status other than OK (07 R188). -/
def State.savedAs (s : State) (n c : Nat) (status : StatusCode) : State := if status = St.ok then s else s.loseCtx n c status

/-- Write the header of a context's save area: how many resume records follow (07 R183). -/
def State.saveHeader (s : State) (n c count : Nat) : State × StatusCode :=
  s.hubWrite n (s.ctx n c).saveBase (leBytes 8 count)

/-- Write a channel's resume record into its context's save area and count it; the channel is SAVED (07 R183, R186-R188). -/
def State.saveChan (s : State) (n i kind : Nat) : State :=
  let c := { s.chan i with seq := (s.chan i).seq + 1 }
  let x := s.ctx n c.ctx
  let slot := x.savedChans.length
  let r := s.hubWrite n (x.saveBase + 0x800 + slot * 64) (resumeRecord n i c kind)
  let h := r.1.saveHeader n c.ctx (slot + 1)
  let s := h.1.updCtx n c.ctx (fun x => { x with savedChans := x.savedChans ++ [i] })
  let s := s.updChan i (fun _ => { c with
                                 state := 8, stop := .none, kind := kind, slot := slot, ahead := none, srcRuns := []
                                 dstRuns := [], segStop := none, needWalk := false, issued := c.done, nDesc := none, nIssued := 0 })
  s.savedAs n c.ctx (if r.2 = St.ok then h.2 else r.2)

/-- Rewrite the record of a SAVED channel (07 R187, R188; 11 R296). -/
def State.resave (s : State) (n i : Nat) : State :=
  let c := s.chan i
  let r := s.hubWrite n ((s.ctx n c.ctx).saveBase + 0x800 + c.slot * 64) (resumeRecord n i c c.kind)
  r.1.savedAs n c.ctx r.2

/-- The element that a cursor names (11 R269, R283). -/
def Desc.element (d : Desc) (cur : List Nat) : Nat :=
  nth cur 0 + d.count 0 * (nth cur 1 + d.count 1 * (nth cur 2 + d.count 2 * nth cur 3))

/-- A channel as its resume record gives it (07 R186). -/
def Chan.loaded (c : Chan) (b : List Byte) : Chan :=
  let w := fld b 0x20 4
  let at_ := match c.desc with
    | some d => (descOf d).element [fld b 8 4, fld b 0xC 4, fld b 0x10 4, fld b 0x14 4]
    | none => 0
  { c with done := at_, issued := at_, faultAddr := fld b 0x18 8, kind := bits w 13 12, dir := w.testBit 14, spacePpa := w.testBit 15
           status := BitVec.ofNat 8 (bits w 23 16), prio := bits w 26 24, resolved := w.testBit 27, faultId := fld b 0x26 2 }
/-- KIND of the record of a channel that stands still (07 R186, R187; 11 R284). -/
def Chan.kindNow (c : Chan) : Nat := if c.pause then 0 else if c.state = 5 then 1 else 2

/-- The channels of a context are to be saved once they stand: it is PREEMPTED (07 R187), or a checkpoint of its partition reaches its
boundary and no cell runs it (14 R389). -/
def State.savesChans (s : State) (n c : Nat) : Bool :=
  (s.ctx n c).state == .preempted || ((s.twin n).phase == 1 && (s.ctx n c).state != .active)

/-- A channel that has come to stand is saved where its context asks for it (07 R187). -/
def State.saveIfDue (s : State) (i : Nat) : State :=
  let n := s.chanPart i
  let c := s.chan i
  if !(isPriv i) && c.en && s.savesChans n c.ctx && (c.state = 1 || c.state = 4 || c.state = 5) then s.saveChan n i c.kindNow
  else s

/-- Advance the cursor over acknowledged bursts, complete the descriptors it passes, and enter the state a stop leads to once
nothing is outstanding (11 R274, R283, R285, R292). What a burst of the next descriptor halts waits for the end of the one in
progress, which completes as it would; where the write-back of the one in progress faults, the bursts of the next are waited for and
issue again after it (DESIGN CHOICE, log entry 87). fuel bounds the bursts and descriptors passed. -/
def State.settleChan (i : Nat) : Nat → State → State
  | 0, s => s
  | fuel + 1, s =>
    let c := s.chan i
    match c.bursts.find? (fun b => !b.next && b.start == c.done && b.state == 2) with
    | some b =>
      State.settleChan i fuel (s.updChan i (fun c => { c with
        done := c.done + b.len, dross := c.dross || b.marks.any (fun m => m), bursts := c.bursts.filter (fun x => !(x == b)) }))
    | none =>
      let n := s.chanPart i
      let bad := match c.desc with
        | some b => !((descOf b).ok (isPriv i) (fun k => s.ownerCore k == some n)) && c.done == 0 && !c.wbWait
            && (c.stop == Stop.none || c.stop == Stop.pause || c.stop == Stop.save)
        | none => false
      let above := match c.desc with
        | some b => c.done == (descOf b).total && (c.stop != Stop.halt || decide ((descOf b).total < c.stopAt)) && c.stop != Stop.abort && !c.wbWait
        | none => false
      if bad then
        let r := s.completeDesc i St.denied
        if r.2 then State.settleChan i fuel (r.1.updChan i (fun c => haltChan c St.denied 0 0 false false)) else State.settleChan i fuel r.1
      else if above then
        let r := s.completeDesc i (if c.dross then St.dross else St.ok)
        if r.2 then State.settleChan i fuel (r.1.updChan i Chan.rest) else State.settleChan i fuel r.1
      else if c.stop == Stop.halt && c.bursts.all (fun b => b.state == 2) then s.enterHalt i
      else if c.stop == Stop.fault && c.bursts.all (fun b => b.state == 2) then
        (s.updChan i (fun c => { c with
          state := 5, stop := .none, status := St.faultXlt, faultAddr := c.stopAddr, spacePpa := false, dir := c.stopDir, nDesc := none
          bursts := [], nIssued := 0, issued := c.done, ahead := none, srcRuns := [], dstRuns := [], segStop := none, needWalk := false })).saveIfDue i
      else s.saveIfDue i

/-- Settle a channel. -/
def State.settle (s : State) (i : Nat) : State := State.settleChan i 128 s

/-- Effective priority of a channel (11 R281; 08 R200). -/
def State.chanPrio (s : State) (i : Nat) : Nat :=
  let c := s.chan i
  let lat := s.reg (dmaAddr i 0x48)
  let t := bits lat 19 0
  let lmax := c.lats.foldl max 0
  let b := if t = 0 || 2 * lmax < t then 0 else if 4 * lmax < 3 * t then 1 else if 8 * lmax < 7 * t then 2 else 3
  min (max (bits lat 34 32) c.prio) (c.prio + b)

/-- The least tag that no request uses and no quarantine holds (12 R306). -/
def State.freeTag (s : State) : Option Nat :=
  (List.range 4096).find? (fun t => !(s.pcie.reqs.any (fun r => r.tag == t)) && !(s.pcie.quarantine.contains t))

/-- The requests of a read of host memory: at most Max Read Request Size each, none across a 4 KiB boundary (12 R304). -/
def splitHost (size : Nat) : Nat → Nat → Nat → Nat → List (Nat × Nat × Nat)
  | 0, _, _, _ => []
  | fuel + 1, off, a, len =>
    if len = 0 then []
    else
      let k := min len (min size (4096 - a % 4096))
      (off, a, k) :: splitHost size fuel (off + k) (a + k) (len - k)

/-- Issue the reads of burst k of channel i toward the host (12 R304, R310). -/
def State.hostReads (s : State) (n i k a len : Nat) : State :=
  (splitHost s.pcie.mrrs len 0 a len).foldl (fun s p =>
    match s.freeTag with
    | some t =>
      { s.emit (.hostRead n t p.2.1 p.2.2 ((s.vf n).tdi == 2)) with
        pcie := { s.pcie with reqs := s.pcie.reqs ++ [{ tag := t, user := .burst i k, off := p.1, addr := p.2.1, left := p.2.2 }] } }
    | none => s) s

/-- The address of an operand as DMA_CH_FAULT_ADDR shows it. -/
def nameOf (a : Int) : Nat := (a % 2 ^ 64).toNat

/-- Add an issued burst and move on (11 R272). -/
def issued (c : Chan) (next : Bool) (b : Burst) : Chan :=
  { c with bursts := c.bursts ++ [b], burstCtr := c.burstCtr + 1, issued := if next then c.issued else c.issued + b.len
           nIssued := if next then c.nIssued + b.len else c.nIssued }

/-- A channel may issue: it runs, nothing stops it, it has fewer than 32 bursts outstanding. -/
def Chan.mayIssue (c : Chan) : Bool := c.state == 2 && c.stop == .none && !c.needWalk && decide (c.bursts.length < 32)

/-- A stop at the end of a segment becomes the channel's (11 R292, R285). -/
def takeStop (c : Chan) (g : SegStop) (at_ : Nat) : Chan :=
  if g.fault then { c with stop := .fault, stopStatus := g.status, stopAddr := g.addr, stopPpa := false, stopDir := g.dir, stopReason := g.reason
                           stopLevel := g.level, stopAt := at_, segStop := none, taken := false }
  else haltChan c g.status g.addr at_ false g.dir

/-- Why the next burst of a channel cannot issue: the status, the failing address as its operand names it, its space and its
direction (11 R285). -/
def State.burstBlock (s : State) (n : Nat) (d : Desc) (e : Nat) (sh : Bool) (sa : Nat) (dh : Bool) (da : Nat) :
    Option (StatusCode × Nat × Bool × Bool) :=
  if !sh && s.ppaSize n ≤ sa then some (St.faultBounds, nameOf (d.srcAt e), !d.srcDva, false)
  else if !dh && s.ppaSize n ≤ da then some (St.faultBounds, nameOf (d.dstAt e), !d.dstDva, true)
  else if sh && !(s.hostOpen n) then some (St.busError, nameOf (d.srcAt e), !d.srcDva, false)
  else none

/-- The segment built ahead issues once the one before it has issued (11 R289). -/
def Chan.takeAhead (c : Chan) : Chan :=
  match c.front, c.ahead with
  | some (_, _, e), some a =>
    if c.segEnd ≤ e && c.segStop.isNone then { c with segEnd := a.upTo, srcRuns := a.src, dstRuns := a.dst, segStop := a.stop, ahead := none } else c
  | _, _ => c

/-- Issue a channel's next burst if it can (11 R272, R273, R285): the state after, and whether a burst has issued. What stops the
next descriptor waits until that descriptor is the one in progress. -/
def State.issueBurst (s : State) (i : Nat) : State × Bool :=
  let s := if (s.chan i).ahead.isSome then s.updChan i Chan.takeAhead else s
  let c := s.chan i
  let n := s.chanPart i
  match if c.mayIssue then c.front else none with
  | none => (s, false)
  | some (next, d, e) =>
    if next && !(d.ok (isPriv i) (fun k => s.ownerCore k == some n)) then (s, false)
    else if (d.srcDva || d.dstDva) && c.segEnd ≤ e then
      match c.segStop with
      | some g => if next then (s, false) else ((s.updChan i (fun c => takeStop c g e)).settle i, false)
      | none => (s.updChan i (fun c => { c with needWalk := true }), false)
    else
      match physOf d.srcDva c.srcRuns (d.srcAt e), physOf d.dstDva c.dstRuns (d.dstAt e) with
      | some (sh, sa, sl), some (dh, da, dl) =>
        match s.burstBlock n d e sh sa dh da with
        | some (st, a, ppa, dir) =>
          if next then (s, false) else ((s.updChan i (fun c => haltChan c st a e ppa dir)).settle i, false)
        | none =>
          let seg := if d.srcDva || d.dstDva then c.segEnd - e else 2 ^ 48
          let len := min (d.count 0 - e % d.count 0) (min seg (min sl dl))
          if sh && 1024 < s.pcie.reqs.length + (splitHost s.pcie.mrrs len 0 sa len).length then (s, false)
          else
            let r := s.inject (i / 512) (8 + i / 32 % 16) n len
            if r.2 then
              let b : Burst := { id := c.burstCtr, next := next, start := e, len := len, srcHost := sh, src := sa, dstHost := dh, dst := da
                                 srcDva := d.srcDva, srcName := nameOf (d.srcAt e), dstDva := d.dstDva, dstName := nameOf (d.dstAt e) }
              let s := r.1.updChan i (fun c => issued c next b)
              let s := { s with dmaLast := s.dmaLast.set 0 (i / 32) (i % 32), dmaWait := s.dmaWait.upd [] (i / 32) (fun l => l.filter (fun k => k != i % 32)) }
              (if sh then s.hostReads n i b.id sa len else s, true)
            else (r.1, false)
      | _, _ => (s, false)

/-- The channels of an engine in the order they are asked: by effective priority, then round-robin from the last (11 R273). -/
def State.engineOrder (s : State) (e : Nat) : List Nat :=
  let rr := (List.range 32).map (fun k => e * 32 + (s.dmaLast.get 0 e + 1 + k) % 32)
  ((List.range 8).map (fun p => rr.filter (fun i => s.chanPrio i == 7 - p))).flatten

/-- The first channel of a list that issues. -/
def firstIssue : List Nat → State → State × Bool
  | [], s => (s, false)
  | i :: l, s => let r := s.issueBurst i; if r.2 then r else firstIssue l r.1

/-- The channels of an engine whose next burst is ready, the one that has waited longest first (11 R273). -/
def State.readyChans (s : State) (e : Nat) : List Nat :=
  let ready := (List.range 32).filter (fun k => (s.chan (e * 32 + k)).mayIssue && (s.chan (e * 32 + k)).front.isSome)
  (s.dmaWait.get [] e).filter (fun k => ready.contains k) ++ ready.filter (fun k => !((s.dmaWait.get [] e).contains k))

/-- The order in which an engine asks its channels (11 R273): by priority and round-robin; but a channel that waits longest, and would
not be first, may have waited for 8 us, which a free value says (log entry 87). -/
def State.askOrder (s : State) (e : Nat) : State × List Nat :=
  let l := s.readyChans e
  let s := if s.dmaWait.get [] e == l then s else { s with dmaWait := s.dmaWait.set [] e l }
  let o := s.engineOrder e
  match l, o.find? (fun i => l.contains (i % 32)) with
  | k :: _, some i => if i % 32 == k then (s, o) else (s.tick, if Config.freeBool s.freeCtr then (e * 32 + k) :: o else o)
  | _, _ => (s, o)

/-- An engine issues bursts until none can issue or 256 are outstanding (11 R272, R273). -/
def State.pumpEngine (e : Nat) : Nat → State → State
  | 0, s => s
  | fuel + 1, s =>
    let out := (List.range 32).foldl (fun a k => a + (s.chan (e * 32 + k)).bursts.length) 0
    if 256 ≤ out then s
    else
      let q := s.askOrder e
      let r := firstIssue q.2 q.1
      if r.2 then State.pumpEngine e fuel r.1 else r.1

/-- Settle a channel and let its engine issue. -/
def State.pump (s : State) (i : Nat) : State := State.pumpEngine (i / 32) 256 (s.settle i)

/-- Continue a channel from its cursor with a fresh translation (11 R283). -/
def Chan.again (c : Chan) : Chan :=
  let c := { c with
    state := 2, stop := .none, status := St.ok, faultAddr := 0, spacePpa := false, dir := false, faultId := 0xFFFF, resolved := false
    taken := false, wbWait := false, bursts := [], nDesc := none, nIssued := 0, issued := c.done, segEnd := 0, ahead := none, srcRuns := [], dstRuns := [], segStop := none
    needWalk := false }
  c.rest

/-- Channels that a preemption or a restore moves: those enabled for context c of Pn (11 R266). -/
def State.ctxChans (s : State) (n c : Nat) : List Nat := s.chansOf n c

/-- A context becomes PREEMPTED: its save area counts no record yet, and its channels pause, drain and are saved (07 R183, R187). -/
def State.preemptChans (s : State) (n c : Nat) : State :=
  let h := s.saveHeader n c 0
  let s := h.1.savedAs n c h.2
  forAll (s.ctxChans n c) (fun i s =>
    let k := s.chan i
    if (s.ctx n c).state == CtxSt.lost then s
    else if k.state = 1 || k.state = 4 || k.state = 5 then s.saveChan n i k.kindNow
    else if (k.state = 2 || k.state = 3) && k.stop != .fault && k.stop != .halt then
      if k.bursts.isEmpty then s.saveChan n i (if k.pause then 0 else 2)
      else s.updChan i (fun k => { k with state := 3, stop := .save })
    else s) s

/-- Reload one channel's record (07 R187; 11 R296). -/
def State.reloadRec (s : State) (i : Nat) : State :=
  let c := s.chan i
  if c.state = 3 && c.stop == Stop.save then s.updChan i (fun c => { c with state := if c.pause then 3 else 2, stop := if c.pause then .pause else .none })
  else if c.state = 8 then
    if c.kind = 0 then s.updChan i (fun c => { c with state := if c.faultId != 0xFFFF then 5 else if c.desc.isSome then 4 else 1 })
    else if c.kind = 2 || c.resolved then (s.updChan i Chan.again).pump i
    else if c.stop == Stop.halt then
      (s.updChan i (fun c => { haltChan { c with state := 2, stop := .none } c.status c.faultAddr c.done false c.dir with faultId := 0xFFFF })).settle i
    else s.updChan i (fun c => { c with state := 5 })
  else s

/-- Read a SAVED channel's record back from the save area and go on as it says; a read that fails, or gives dross, loses the context
(07 R187, R188; 17 R451). -/
def State.reloadChan (s : State) (n i : Nat) : State :=
  let c := s.chan i
  if c.state != 8 then s.reloadRec i
  else
    let r := s.ppaRead n ((s.ctx n c.ctx).saveBase + 0x800 + c.slot * 64) 64
    let st := if r.2.2.2 = St.ok && r.2.2.1 then St.dross else r.2.2.2
    if st = St.ok then (r.1.updChan i (fun c => c.loaded r.2.1)).reloadRec i else r.1.savedAs n c.ctx st

/-- The first gang of a context is restored: every record is reloaded (07 R187). -/
def State.reloadChans (s : State) (n c : Nat) : State :=
  let l := s.ctxChans n c
  let s := (s.updCtx n c (fun x => { x with savedChans := [] }))
  forAll l (fun i s => s.reloadChan n i) s

end Sys2Proof.Machine
end

