-- ==== Sys2Proof/Machine/Dma.lean ====
section
/-!
DEFINITION. The commands of the DMA channels (11 R265-R285, R289, R290).
-/

namespace Sys2Proof.Machine

/-- A partition-owned register of DMA channel i is reached on path p: the owner's alias, or for a context channel its VF too
(11 R265, R276). -/
def State.chanReached (s : State) (p : Path) (i : Nat) : Bool :=
  match s.ownerChan i with
  | none => isFirmware p
  | some n => match p with
    | .vf _ => reaches p n && !(isPriv i)
    | _ => reaches p n

/-- Run f where the path reaches the channel, else the write is dropped and counted (11 R265; 15 R412). -/
def State.onChan (s : State) (p : Path) (i : Nat) (f : State → State) : State :=
  if s.pathShut p then s else if s.chanReached p i then f s else s.strayWrite p

/-- Channels enabled for context c of Pn (11 R266). -/
def State.enabledFor (s : State) (n c : Nat) : Nat := (s.chansOf n c).length

/-- Forget a channel's fault registration (11 R277, R280; 12 R332): a record left with no waiter closes. -/
def State.unregister (s : State) (i : Nat) : State :=
  let n := s.chanPart i
  let slot := (s.chan i).faultId % 64
  let s := s.updXlt n (fun x => { x with
    waitRec := x.waitRec.filter (fun k => k != i)
    recs := if (s.chan i).faultId = 0xFFFF then x.recs else x.recs.upd none slot (fun r => match r with
      | none => none
      | some r =>
        let chans := r.chans.filter (fun k => k != i)
        if chans.isEmpty then none
        else some { r with chans := chans, waiters := if chans.any (fun k => k / 32 == i / 32) then r.waiters else clearBit r.waiters (i / 32) }) })
  let s := s.updXlt n (fun x => { x with unwritten := x.unwritten.filter (fun k => (x.recs.get none k).isSome) })
  s.updChan i (fun c => { c with faultId := 0xFFFF, resolved := false })

/-- Set EN (11 R265, R266, R277, R278): HEAD takes TAIL, the state is IDLE. A channel with no owner, or whose ring is not allowed,
keeps EN 0; one that would be the 33rd of its context sets LIMIT and changes nothing else. -/
def State.chanEnable (s : State) (n i prio v : Nat) : State :=
  let c := s.chan i
  let l := bits c.ring 59 56
  let ctx := bits v 55 44
  if l < 4 || (isPriv i && c.ringDva) || (s.ownerChan i).isNone then s.updChan i (fun c => { c with ctx := ctx, prio := prio, pause := v.testBit 2 })
  else if !(isPriv i) && decide (32 ≤ s.enabledFor n ctx) then
    s.updChan i (fun c => { c with limit := true })
  else s.updChan i (fun c => { c with
    en := true, ctx := ctx, prio := prio, pause := v.testBit 2, head := c.tailIdx, state := 1, status := St.ok, limit := false
    desc := none, nDesc := none, done := 0, issued := 0, nIssued := 0, bursts := [], stop := .none, needWalk := false, segStop := none
    ahead := none, srcRuns := [], dstRuns := [], segEnd := 0, faultAddr := 0, wbWait := false, dross := false })

/-- Clear EN in IDLE or HALTED (11 R277): the cursor and any fault registration go. -/
def State.chanDisable (s : State) (i prio v : Nat) : State :=
  let c := s.chan i
  if c.state = 1 || c.state = 6 then
    (s.unregister i).updChan i (fun c => { c with
      en := false, state := 0, status := St.ok, prio := prio, pause := v.testBit 2, desc := none, done := 0, issued := 0
      bursts := [], faultAddr := 0, spacePpa := false, dir := false, wbWait := false, dross := false })
  else s

/-- Set PAUSE while EN is set (11 R284). -/
def State.chanPause (s : State) (i : Nat) : State :=
  s.updChan i (fun c =>
    if c.state = 2 then { c with pause := true, state := 3, stop := if c.stop == Stop.none then .pause else c.stop }
    else { c with pause := true })

/-- Clear PAUSE while EN is set (11 R283, R284). -/
def State.chanUnpause (s : State) (i : Nat) : State :=
  let c := s.chan i
  let s := s.updChan i (fun c => { c with pause := false })
  if c.state = 3 && c.stop == Stop.save then s
  else if c.state = 3 then (s.updChan i (fun c => { c with state := 2, stop := if c.stop == Stop.pause then .none else c.stop })).pump i
  else if c.state = 4 || (c.state = 5 && c.resolved) then (s.updChan i Chan.again).pump i
  else if c.state = 1 && c.head != c.tailIdx then (s.updChan i (fun c => { c with state := 2 })).pump i
  else s

/-- A write of DMA_CH_CTRL (11 R277, R284; 02 R52): one that changes a context channel's CONTEXT while EN is 1 is ignored; PRIO is at most the partition's static priority. -/
def State.writeChanCtrl (s : State) (i v : Nat) : State :=
  let n := s.chanPart i
  let c := s.chan i
  let prio := min (bits v 10 8) (s.partPrio n)
  if c.en then
    if !(isPriv i) && bits v 55 44 != c.ctx then s
    else if !(v.testBit 0) then s.chanDisable i prio v
    else
      let s := s.updChan i (fun c => { c with prio := prio })
      if v.testBit 2 && !c.pause then s.chanPause i else if !(v.testBit 2) && c.pause then s.chanUnpause i else s
  else if v.testBit 0 then s.chanEnable n i prio v
  else s.updChan i (fun c => { c with ctx := bits v 55 44, prio := prio, pause := v.testBit 2 })

/-- DMA_CH_ENABLE (11 R277): a write of DMA_CH_CTRL that sets EN. -/
def execDmaChEnable (p : Path) (ch : ChanId) (value : Word64) (s : State) : Res' :=
  closing (s.onChan p ch.val (fun s => s.writeChanCtrl ch.val (setBit value.toNat 0)))

/-- DMA_CH_DISABLE (11 R277): a write that clears EN. -/
def execDmaChDisable (p : Path) (ch : ChanId) (value : Word64) (s : State) : Res' :=
  closing (s.onChan p ch.val (fun s => s.writeChanCtrl ch.val (clearBit value.toNat 0)))

/-- DMA_CH_PAUSE (11 R284): a write that sets PAUSE. -/
def execDmaChPause (p : Path) (ch : ChanId) (value : Word64) (s : State) : Res' :=
  closing (s.onChan p ch.val (fun s => s.writeChanCtrl ch.val (setBit value.toNat 2)))

/-- DMA_CH_UNPAUSE (11 R284): a write that clears PAUSE. -/
def execDmaChUnpause (p : Path) (ch : ChanId) (value : Word64) (s : State) : Res' :=
  closing (s.onChan p ch.val (fun s => s.writeChanCtrl ch.val (clearBit value.toNat 2)))

/-- DMA_PAUSE_DRAINED (11 R284; 07 R187): a pausing channel with nothing outstanding is PAUSED, or saved for its context. -/
def execDmaPauseDrained (ch : ChanId) (s : State) : Res' :=
  let i := ch.val
  let c := s.chan i
  closing (onlyIf (c.state == 3 && c.bursts.isEmpty && (c.stop == Stop.pause || c.stop == Stop.save)) (fun s =>
    if c.stop == Stop.save then s.saveChan (s.chanPart i) i (if c.pause then 0 else 2)
    else (s.updChan i (fun c => { c with state := 4, stop := .none, status := St.ok, nDesc := none, nIssued := 0, issued := c.done, ahead := none, srcRuns := []
                                         dstRuns := [], segStop := none, needWalk := false })).saveIfDue i) s)

/-- A write of DMA_CH_TAIL (11 R273, R276). -/
def State.writeChanTail (s : State) (i v : Nat) : State :=
  let s := s.updChan i (fun c =>
    let c := { c with tail := v % 65536 }
    if c.en && c.state = 1 && !c.pause && c.head != c.tailIdx then { c with state := 2 } else c)
  s.saveIfDue i

/-- DMA_DOORBELL (11 R273). -/
def execDmaDoorbell (p : Path) (ch : ChanId) (value : BitVec 32) (s : State) : Res' :=
  closing (s.onChan p ch.val (fun s => s.writeChanTail ch.val value.toNat))

/-- Bytes of a descriptor, or why they cannot be had (11 R278, R285; 17 R451): host is what the host returns for a ring there. -/
def State.fetchDesc (s : State) (i a : Nat) (host : List Byte) : State × Except SegStop (List Byte) :=
  let n := s.chanPart i
  let c := s.chan i
  let fail := fun (st : StatusCode) => Except.error { fault := false, status := st, addr := a, dir := false, reason := 0, level := 0 : SegStop }
  let ppa := fun (s : State) (q : Nat) =>
    let r := s.ppaRead n q 64
    (r.1, if r.2.2.2 != St.ok then fail r.2.2.2 else if r.2.2.1 then fail St.dross else Except.ok r.2.1)
  if c.ringDva then
    let w := s.walk (some (i / 32)) n c.ctx a true true
    let s := s.noteWalk (some (i / 32)) n c.ctx w.reads
    match w.res with
    | .leaf _ _ true _ _ _ => (s, if s.hostOpen n then .ok (bslice host 0 64) else fail St.busError)
    | .leaf base _ false q _ _ => ppa s (q + (a - base))
    | .fault reason level => (s, .error { fault := true, status := St.faultXlt, addr := a, dir := false, reason := reason, level := level })
    | .err st => (s, fail st)
  else ppa s a

/-- A descriptor in progress begins: whether its operands need walks (11 R289). -/
def startDesc (c : Chan) (b : List Byte) : Chan :=
  let d := descOf b
  { c with desc := some b, done := 0, issued := 0, segEnd := 0, ahead := none, srcRuns := [], dstRuns := [], segStop := none
           needWalk := d.srcDva || d.dstDva, dross := false }

/-- DESCRIPTOR_FETCH (11 R266, R271, R273, R278): the descriptor at HEAD, or, once the last burst of the one in progress has
issued, the one after it. Nothing of a partition that is not READY is fetched (02 R32, R49). -/
def execDescriptorFetch (ch : ChanId) (host : List Byte) (s : State) : Res' :=
  let i := ch.val
  let c := s.chan i
  let n := s.chanPart i
  let ready := c.en && c.state == 2 && c.stop == Stop.none && !c.pause
  closing (match c.desc with
    | none => onlyIf (ready && c.head != c.tailIdx && (s.ready n || (!(isPriv i) && s.ctxLost n c.ctx))) (fun s =>
        if !(isPriv i) && s.ctxLost n c.ctx then (s.updChan i (fun c => haltChan c St.contextLost 0 0 false false)).settle i
        else match s.fetchDesc i (c.descAt c.head) host with
          | (s, .error g) =>
            if g.fault then (s.updChan i (fun c => takeStop c g 0)).settle i
            else (s.updChan i (fun c => haltChan c g.status g.addr 0 (!c.ringDva) false)).settle i
          | (s, .ok b) => (s.updChan i (fun c => startDesc c b)).pump i) s
    | some b => onlyIf (ready && decide ((descOf b).total ≤ c.issued) && c.nDesc.isNone && (c.head + 1) % c.ringLen != c.tailIdx
          && s.ready n && (isPriv i || !(s.ctxLost n c.ctx))) (fun s =>
        match s.fetchDesc i (c.descAt (c.head + 1)) host with
        | (s, .error _) => s
        | (s, .ok b) =>
          let d := descOf b
          (s.updChan i (fun c => { c with nDesc := some b, nIssued := 0, segEnd := 0, ahead := none, srcRuns := [], dstRuns := [], segStop := none
                                          needWalk := (d.srcDva || d.dstDva) && !d.fence })).pump i) s)

/-- The descriptor a burst belongs to. -/
def Chan.descOfBurst (c : Chan) (b : Burst) : Desc := descOf ((if b.next then c.nDesc else c.desc).getD [])

/-- Dross of each byte of a PPA range: that of its line (17 R451). -/
def State.ppaMarks (s : State) (n ppa len : Nat) : List Bool :=
  ((pieces (len / 64 + 2) ppa len).map (fun p =>
    List.replicate p.2 (s.newest ((s.ppaToHpa n p.1).getD 0 / 64)).dross)).flatten

/-- A burst fails with a status on one side from its byte off on (11 R285): the channel halts at its first element. One of the next
descriptor stands beyond the end of the one in progress; while the write-back of that one waits for a fault, it only goes, and issues
again after it (log entry 87). -/
def State.burstFail (s : State) (i : Nat) (b : Burst) (write : Bool) (status : StatusCode) (off : Nat) : State :=
  let c := s.chan i
  let at_ := if b.next then c.total + 1 + b.start else b.start
  let name := (if write then b.dstName else b.srcName) + off
  let ppa := if write then !b.dstDva else !b.srcDva
  let c' := if c.state = 7 || (b.next && c.wbWait) then c else haltChan c status name at_ ppa write
  let c' := { c' with bursts := c'.bursts.filter (fun x => !(x.id == b.id)) }
  (s.updChan i (fun _ => c')).pump i

/-- Replace a burst by its number. -/
def setBurst (c : Chan) (b : Burst) : Chan := { c with bursts := c.bursts.map (fun x => if x.id == b.id then b else x) }

/-- The read of a burst gives data: it is rearranged, and its write is issued (11 R270, R272). -/
def State.burstData (s : State) (i : Nat) (b : Burst) (data : List Byte) (marks : List Bool) : State :=
  let code := ((s.chan i).descOfBurst b).swap
  (s.updChan i (fun c => setBurst c { b with state := 1, data := swapBytes 0 code data, marks := swapBytes false code marks, parts := [] }))

/-- BURST_READ_RETURN (11 R272, R285): the k-th outstanding burst's source is read at its home, or has come from the host whole. -/
def execBurstReadReturn (ch : ChanId) (k : Nat) (s : State) : Res' :=
  let i := ch.val
  let n := s.chanPart i
  closing (match (s.chan i).bursts[k]? with
    | none => s
    | some b =>
      onlyIf (b.state == 0) (fun s =>
        if b.srcHost then
          let got := (b.parts.map (fun p => p.2)).flatten
          onlyIf (got.length == b.len) (fun s => s.burstData i b got (List.replicate b.len false)) s
        else
          let via := s.dmaVia i n ((s.chan i).descOfBurst b).hint
          s.onLines n b.src b.len via (fun s =>
            let m := s.ppaMarks n b.src b.len
            let r := s.ppaRead n b.src b.len via
            if r.2.2.2 = St.ok then r.1.burstData i b r.2.1 m else r.1.burstFail i b false r.2.2.2 0)) s)

/-- Rows of a descriptor other than a burst's that reach into its destination (11 R269). -/
def Desc.rowsOver (d : Desc) (b : Burst) : List Nat :=
  (List.range d.rows).filter (fun r =>
    let a := d.dstAt (r * d.count 0)
    let lo := d.dstAt b.start
    r != b.start / d.count 0 && decide (a < lo + b.len) && decide (lo < a + d.count 0))

/-- Byte x of a burst's destination has been written by another element of the descriptor (11 R269). -/
def Chan.twice (c : Chan) (d : Desc) (b : Burst) (rows : List Nat) (x : Nat) : Bool :=
  let a := d.dstAt b.start + x
  rows.any (fun r =>
    let o := a - d.dstAt (r * d.count 0)
    let e := r * d.count 0 + o.toNat
    decide (0 ≤ o) && decide (o < d.count 0) && ((!b.next && decide (e < c.done))
      || c.bursts.any (fun y => y.next == b.next && y.state == 2 && decide (y.start ≤ e) && decide (e < y.start + y.len))))

/-- Write the data of a burst to PPA: a byte that two elements name keeps either (11 R269, a free value); lines that come from
dross are written as dross (17 R451). -/
def State.burstPpa (s : State) (n i : Nat) (b : Burst) : State × StatusCode :=
  let c := s.chan i
  let d := c.descOfBurst b
  let rows := d.rowsOver b
  let f := s.freeCtr
  let keep := if rows.isEmpty then List.replicate b.len false
    else (List.range b.len).map (fun x => c.twice d b rows x && Config.freeBool (f + x))
  let s := if rows.isEmpty then s else { s with freeCtr := f + b.len }
  if s.protected n b.dst b.len then (s.alarm 0x111 n (some (.chan i)), St.faultBounds)
  else
    let old := if rows.isEmpty then [] else (s.ppaPeek n b.dst b.len).1
    let oldM := if rows.isEmpty then [] else s.ppaMarks n b.dst b.len
    let pick := (List.range b.len).map (fun x =>
      if keep.getD x false then (old.getD x 0, oldM.getD x false) else (b.data.getD x 0, b.marks.getD x false))
    (pieces (b.len / 64 + 2) b.dst b.len).foldl (fun (acc : State × StatusCode) p =>
      let part := (pick.drop (p.1 - b.dst)).take p.2
      let r := acc.1.ppaStore n p.1 (part.map (fun q => q.1)) (part.any (fun q => q.2)) (s.dmaVia i n d.hint)
      (r.1, if acc.2 = St.ok then r.2 else acc.2)) (s, St.ok)

/-- Write the data of a burst toward the host (12 R304; 17 R451). -/
def State.burstHost (s : State) (n : Nat) (b : Burst) : State × StatusCode :=
  (splitHost s.pcie.mps b.len 0 b.dst b.len).foldl (fun (acc : State × StatusCode) p =>
    let r := acc.1.hostStore n p.2.1 ((b.data.drop p.1).take p.2.2) (((b.marks.drop p.1).take p.2.2).any (fun m => m))
    (r.1, if acc.2 = St.ok then r.2 else acc.2)) (s, St.ok)

/-- A burst's latency enters Lmax, and a missed guarantee is counted (08 R200; 11 R282). -/
def State.noteLatency (s : State) (i lat : Nat) : State :=
  let t := bits (s.reg (dmaAddr i 0x48)) 19 0
  let s := s.updChan i (fun c => { c with lats := (c.lats ++ [lat]).drop (c.lats.length - 15)
                                          missed := if t != 0 && decide (t < lat) then satAdd 32 c.missed 1 else c.missed })
  if t != 0 && t < lat then s.raise (s.chanPart i) 3 else s

/-- BURST_ACK (11 R272, R274, R283, R285): the k-th outstanding burst's write is acknowledged at its home, latency in 10 ns. -/
def execBurstAck (ch : ChanId) (k latency : Nat) (s : State) : Res' :=
  let i := ch.val
  let n := s.chanPart i
  closing (match (s.chan i).bursts[k]? with
    | none => s
    | some b =>
      onlyIf (b.state == 1) (fun s =>
        let f := fun (s : State) =>
          let r := if b.dstHost then s.burstHost n b else s.burstPpa n i b
          if r.2 = St.ok then ((r.1.noteLatency i latency).updChan i (fun c => setBurst c { b with state := 2, data := [] })).pump i
          else r.1.burstFail i b true r.2 0
        if b.dstHost then f s else s.onLines n b.dst b.len (s.dmaVia i n ((s.chan i).descOfBurst b).hint) f) s)

/-- BURST_ERROR (11 R285): the k-th outstanding burst ends with an error response on a side, which answers all of it. A write refused by a protected image
raises its alarm (06 R147). -/
def execBurstError (ch : ChanId) (k : Nat) (side : BurstSide) (status : StatusCode) (s : State) : Res' :=
  let i := ch.val
  let n := s.chanPart i
  closing (match (s.chan i).bursts[k]? with
    | none => s
    | some b =>
      match side with
      | .read => onlyIf (b.state == 0) (fun s => s.burstFail i b false status 0) s
      | .write => onlyIf (b.state == 1) (fun s =>
          let s := if !b.dstHost && s.protected n b.dst b.len then s.alarm 0x111 n (some (.chan i)) else s
          s.burstFail i b true status 0) s)

/-- Outcome of a DMA command (11 R279, R280). -/
def State.chanCmd (s : State) (i token : Nat) (status : StatusCode) : State :=
  s.updChan i (fun c => { c with cmdToken := token, cmdStatus := status })

/-- RESUME (11 R280, R283). -/
def State.cmdResume (s : State) (i token : Nat) : State :=
  let c := s.chan i
  if c.state = 6 && (isPriv i || !(s.ctxLost (s.chanPart i) c.ctx)) then
    (((s.unregister i).chanCmd i token St.ok).updChan i Chan.again).pump i
  else s.chanCmd i token St.denied

/-- ABORT (11 R280): in any state but DISABLED and SAVED, one that aborts already included. -/
def State.cmdAbort (s : State) (i token : Nat) : State :=
  let c := s.chan i
  if c.state = 0 || c.state = 8 then s.chanCmd i token St.denied
  else (s.chanCmd i token St.pending).updChan i abortChan

/-- SAVE (11 R280): the resume record goes to DMA_CH_RECORD. -/
def State.cmdSave (s : State) (i token : Nat) : State :=
  let n := s.chanPart i
  let c := s.chan i
  if c.state = 4 || c.state = 5 || c.state = 6 then
    let c := { c with seq := c.seq + 1 }
    let r := s.hubWrite n (bits c.record 39 6 * 64) (resumeRecord n i c (if c.state = 4 then 0 else 1))
    if r.2 = St.ok then (r.1.updChan i (fun k => { k with seq := c.seq })).chanCmd i token St.ok
    else r.1.chanCmd i token r.2
  else s.chanCmd i token St.denied

/-- A write of DMA_CH_CMD (11 R280). -/
def State.writeChanCmd (s : State) (i v : Nat) : State :=
  let token := bits v 63 56
  match bits v 2 0 with
  | 1 => s.cmdResume i token
  | 2 => s.cmdAbort i token
  | 3 => s.cmdSave i token
  | _ => s.chanCmd i token St.denied

/-- DMA_RESUME (11 R280). -/
def execDmaResume (p : Path) (ch : ChanId) (value : Word64) (s : State) : Res' :=
  closing (s.onChan p ch.val (fun s => s.cmdResume ch.val (bits value.toNat 63 56)))

/-- DMA_ABORT (11 R280). -/
def execDmaAbort (p : Path) (ch : ChanId) (value : Word64) (s : State) : Res' :=
  closing (s.onChan p ch.val (fun s => s.cmdAbort ch.val (bits value.toNat 63 56)))

/-- DMA_SAVE (11 R280; 07 R186). -/
def execDmaSave (p : Path) (ch : ChanId) (value : Word64) (s : State) : Res' :=
  closing (s.onChan p ch.val (fun s => s.cmdSave ch.val (bits value.toNat 63 56)))

/-- The abort of a channel ends (11 R280): the descriptor in progress completes with ABORTED, HEAD takes TAIL, the channel is
IDLE, and is saved if its context is PREEMPTED (07 R187). -/
def State.abortDone (s : State) (i : Nat) : State :=
  let c := s.chan i
  let s := if c.desc.isNone then s else if isPriv i then s.pulse i else (s.descBack i St.aborted).1
  let s := s.unregister i
  State.saveIfDue (i := i) <| s.updChan i (fun c => { c with
    state := 1, status := St.aborted, head := c.tailIdx, desc := none, nDesc := none, done := 0, issued := 0, nIssued := 0, bursts := []
    stop := .none, segStop := none, needWalk := false, ahead := none, srcRuns := [], dstRuns := [], wbWait := false, dross := false, faultAddr := 0
    spacePpa := false, dir := false, cmdStatus := if c.cmdStatus == St.pending then St.ok else c.cmdStatus })

/-- DMA_ABORT_DONE (11 R280): every write already issued is acknowledged. -/
def execDmaAbortDone (ch : ChanId) (s : State) : Res' :=
  let c := s.chan ch.val
  closing (onlyIf (c.state == 7 && c.bursts.all (fun b => b.state == 2)) (fun s => s.abortDone ch.val) s)

/-- The segment after the one that issues may be built (11 R289): none stands ready, and the descriptor goes on beyond it. -/
def Chan.mayLookAhead (c : Chan) (d : Desc) : Bool :=
  (d.srcDva || d.dstDva) && c.ahead.isNone && c.segStop.isNone && c.segEnd != 0 && decide (c.segEnd < d.total)

/-- WALK_DONE (11 R289, R290, R292): the walks of a channel's next segment end. While the bursts of one segment issue, the one after it
is built. -/
def execWalkDone (ch : ChanId) (s : State) : Res' :=
  let i := ch.val
  let n := s.chanPart i
  let c := s.chan i
  closing (onlyIf (c.state == 2 || c.state == 3) (fun s =>
    match c.front with
    | none => s.updChan i (fun c => { c with needWalk := false })
    | some (_, d, e) =>
      if !c.needWalk then
        onlyIf (c.mayLookAhead d) (fun s =>
          let g := s.segment (i / 32) n c.ctx d (d.total + 1) { upTo := c.segEnd, src := [], dst := [] }
          (s.noteWalk (some (i / 32)) n c.ctx g.reads).updChan i (fun c => { c with ahead := some { upTo := g.upTo, src := g.src, dst := g.dst, stop := g.stop } })) s
      else
      let g := s.segment (i / 32) n c.ctx d (d.total + 1) { upTo := e, src := [], dst := [] }
      let s := s.noteWalk (some (i / 32)) n c.ctx g.reads
      (s.updChan i (fun c => { c with needWalk := false, segEnd := g.upTo, srcRuns := g.src, dstRuns := g.dst, segStop := g.stop })).pump i) s)

end Sys2Proof.Machine
end

