-- ==== Sys2Proof/Machine/Image.lean ====
section
/-!
DEFINITION. Tile program images (04 R110, R111), the save area and cell slots of a context (07 R183, R184), and how message state
(R177) and cells (R184, R185) are written to a slot and read back.
-/

namespace Sys2Proof.Machine

/-- Instruction word i of an image (04 R111). -/
def codeWord (image : List Byte) (i : Nat) : Nat := fld image (64 + 8 * i) 8
/-- Opcode of a word (04 R102). -/
def opcodeOf (w : Nat) : Nat := bits w 63 56

/-- A live-range table (04 R110): the tiles live, and the ranges as (first line, lines). -/
structure Lrt where
  mask : Nat
  ranges : List (Nat × Nat)
  deriving DecidableEq, Repr

/-- COUNT of the table at an index. -/
def lrtCount (image : List Byte) (lrt : Nat) : Nat := bits (fld image (lrt * 8) 8) 59 53
/-- Entry k of the table at an index. -/
def lrtEntry (image : List Byte) (lrt k : Nat) : Nat := fld image (lrt * 8 + 8 + 8 * k) 8
/-- The table at an index of an image. -/
def lrtOf (image : List Byte) (lrt : Nat) : Lrt :=
  { mask := bits (fld image (lrt * 8) 8) 63 60
    ranges := (List.range (lrtCount image lrt)).map (fun k => (bits (lrtEntry image lrt k) 39 23, bits (lrtEntry image lrt k) 22 6)) }

/-- Ranges ascend, do not overlap and lie in the scratchpad (04 R110). -/
def rangesOk : Nat → List (Nat × Nat) → Bool
  | _, [] => true
  | at_, (s, n) :: l => decide (at_ ≤ s) && decide (1 ≤ n) && decide (s + n ≤ 98304) && rangesOk (s + n) l

/-- The table at an index meets R110 within IMAGE_LEN. -/
def lrtOk (image : List Byte) (lrt len : Nat) : Bool :=
  decide (lrt * 8 + 8 ≤ len) && bits (fld image (lrt * 8) 8) 52 0 == 0 && decide (lrtCount image lrt ≤ 64)
    && decide (lrt * 8 + 8 + 8 * lrtCount image lrt ≤ len)
    && (List.range (lrtCount image lrt)).all (fun k => bits (lrtEntry image lrt k) 63 40 == 0 && bits (lrtEntry image lrt k) 5 0 == 0)
    && rangesOk 0 (lrtOf image lrt).ranges

/-- Bytes a save at the table moves as live state (07 R184). -/
def Lrt.live (t : Lrt) : Nat := popCount 4 t.mask * 65536 + t.ranges.foldl (fun a r => a + r.2 * 64) 0

/-- The header of an image meets R111. -/
def headerOk (h : List Byte) : Bool :=
  let code := fld h 2 2
  fld h 0 2 == 1 && decide (1 ≤ code) && decide (code ≤ 8192) && decide (fld h 4 4 ≤ 524288) && decide (64 + 8 * code ≤ fld h 4 4)
    && decide (fld h 8 2 < code) && (h.drop 10).all (fun b => b == 0)

/-- The indices of live-range tables that an image's YLDs name. -/
def yldTables (image : List Byte) : List Nat :=
  ((List.range (fld image 2 2)).map (codeWord image)).filterMap (fun w => if opcodeOf w = 0x3C then some (bits w 55 40) else none)

/-- The dispatcher accepts an image (04 R111; 07 R184): its header, its tables, and its largest live state in a slot. -/
def imageOk (image : List Byte) (slotLog2 : Nat) : Bool :=
  headerOk (image.take 64)
    && (yldTables image).all (fun t => lrtOk image t (fld image 4 4) && decide ((lrtOf image t).live + 65536 ≤ 2 ^ slotLog2))

/-- Read an image (04 R111): its header, then IMAGE_LEN bytes where the header is one. A dross image is not run (17 R451). -/
def State.readImage (s : State) (n ppa : Nat) : State × Except StatusCode (List Byte) :=
  let h := s.ppaRead n ppa 64
  if h.2.2.2 != St.ok then (h.1, .error h.2.2.2)
  else if h.2.2.1 then (h.1, .error St.dross)
  else if !(headerOk h.2.1) then (h.1, .error St.denied)
  else
    let r := h.1.ppaRead n ppa (fld h.2.1 4 4)
    if r.2.2.2 != St.ok then (r.1, .error r.2.2.2) else if r.2.2.1 then (r.1, .error St.dross) else (r.1, .ok r.2.1)

/-- The wait limit of TWAIT in us (07 R169). -/
def twaitOf (v : Nat) : Nat := if v = 0 then 10000 else max 100 (min v 1000000)

/-- Ordinal of a cell among those Pn owns (07 R183). -/
def State.ordinal (s : State) (n cell : Nat) : Nat := ((maskList 192 (s.slice n).cells).findIdx (fun i => i == cell))
/-- PPA of a cell's slot in a context's save area (07 R183). -/
def State.slotAddr (s : State) (n c cell : Nat) : Nat :=
  let x := s.ctx n c
  x.saveBase + 0x1000 + s.ordinal n cell * 2 ^ x.slotLog2

/-- Fresh free bytes for a part of a slot whose layout the spec does not give (log entry 40). -/
def freeBytes (k n : Nat) : List Byte := (List.range n).map (Config.freeByte k)

/-- The 80 bytes of a mailbox entry: header then payload (07 R184). -/
def Msg.bytes (m : Msg) : List Byte := leBytes 16 m.header ++ bslice m.payload 0 64
/-- A message from the 80 bytes of an entry. -/
def msgOf (b : List Byte) : Msg := { header := fld b 0 16, payload := bslice b 16 64 }

/-- Pieces (offset, bytes) that message state writes into a slot: mailbox state and tally store, then the entries held (07 R177,
R184). -/
def msgPieces (m : MsgState) (k : Nat) : List (Nat × List Byte) :=
  (0x200, freeBytes k 512) ::
    ((List.range 16).map (fun b => ((List.range ((m.boxes.get {} b).held.length)).map (fun j =>
      (0x400 + (b * 32 + j) * 80, ((m.boxes.get {} b).held.getD j { header := 0, payload := [] }).bytes))))).flatten

/-- Write pieces into a slot: the state and the first status other than OK. -/
def State.slotStore (s : State) (n base : Nat) (l : List (Nat × List Byte)) (via : Via := {}) : State × StatusCode :=
  l.foldl (fun (acc : State × StatusCode) p =>
    let r := acc.1.hubWrite n (base + p.1) p.2 via
    (r.1, if acc.2 = St.ok then r.2 else acc.2)) (s, St.ok)

/-- Write a context's message state on a cell to its slot (07 R177). -/
def State.saveMsgs (s : State) (n c cell : Nat) : State × StatusCode :=
  if (s.ctx n c).latched then s.tick.slotStore n (s.slotAddr n c cell) (msgPieces (s.msgSt (msgKey cell c)) s.freeCtr) (s.moverWrites (cell / 16) n) else (s, St.ok)

/-- Read a context's message state on a cell back from its slot (07 R177): the entries held are what the slot holds. -/
def State.loadMsgs (s : State) (n c cell : Nat) : State × StatusCode :=
  if (s.ctx n c).latched then
    let base := s.slotAddr n c cell
    let addr := fun (b j : Nat) => base + 0x400 + (b * 32 + j) * 80
    let box := fun (b : Nat) => (s.msgSt (msgKey cell c)).boxes.get {} b
    let l := ((List.range 16).map (fun b => (List.range (box b).held.length).map (addr b))).flatten
    let st := l.foldl (fun (st : StatusCode) a => if st = St.ok then (s.ppaPeek n a 80).2.2 else st) (s.ppaPeek n (base + 0x200) 512).2.2
    let s := l.foldl (fun (s : State) a => s.ppaReport n a 80 (s.moverReads (cell / 16) n)) s
    if st = St.ok then
      (s.updMsg (msgKey cell c) (fun m => { m with boxes := Tab.mapVals {} (fun b (x : Mailbox) =>
        { x with held := (List.range x.held.length).map (fun j => msgOf (s.ppaPeek n (addr b j) 80).1) }) m.boxes }), St.ok)
    else (s, st)
  else (s, St.ok)

/-- A message that arrives for a context that is not resident is written into its image too (03 R86; 07 R184): its entry and the
mailbox state, whose layout is free (log entry 40). -/
def State.imageEntry (s : State) (n c cell b j : Nat) (m : Msg) : State :=
  if (s.ctx n c).latched then
    (s.tick.slotStore n (s.slotAddr n c cell) [(0x300, freeBytes s.freeCtr 256), (0x400 + (b * 32 + j) * 80, m.bytes)] (s.moverWrites (cell / 16) n)).1
  else s

/-- A grant that arrives for such a context is written into the tally store of its image (03 R86; 07 R184). -/
def State.imageTally (s : State) (n c cell : Nat) : State :=
  if (s.ctx n c).latched then (s.tick.slotStore n (s.slotAddr n c cell) [(0x200, freeBytes s.freeCtr 256)] (s.moverWrites (cell / 16) n)).1 else s

/-- n bits from position a as bytes, least significant first. -/
def bitBytes (f : Nat → Bool) (a n : Nat) : List Byte :=
  (List.range n).map (fun i => BitVec.ofNat 8 ((List.range 8).foldl (fun v k => v + bit (f (8 * (a + i) + k)) * 2 ^ k) 0))

/-- Bytes of tile t of a cell, row-major, 4 bytes an element. -/
def Cell.tileBytes (c : Cell) (t : Nat) : List Byte :=
  ((Tab.getList 0 c.tiles (tileKey t 0 0) 16384).map (fun w => leBytes 4 w.toNat)).flatten

/-- A line is in a live range. -/
def Lrt.hasLine (t : Lrt) (l : Nat) : Bool := t.ranges.any (fun r => decide (r.1 ≤ l) && decide (l < r.1 + r.2))

/-- Pieces that a cell's task state writes into its slot (07 R184; log entry 40). -/
def cellPieces (c : Cell) (t : Lrt) (k : Nat) : List (Nat × List Byte) :=
  let line := fun l => t.hasLine l && c.lineDross.get false l
  [(0, freeBytes k 64), (0x40, ((List.range 32).map (fun r => leBytes 4 (c.reg r).toNat)).flatten), (0xC0, freeBytes (k + 1) 64)
  , (0x100, freeBytes (k + 2) 256)]
    ++ t.ranges.map (fun r => (0xA400 + r.1 / 8, bitBytes line (r.1 / 8) ((r.1 + r.2 - 1) / 8 + 1 - r.1 / 8)))
    ++ (maskList 4 t.mask).map (fun j => (0xD400 + j * 2048, bitBytes (fun i => c.tileDross.get false (j * 16384 + i)) 0 2048))
    ++ [(0x10000, ((maskList 4 t.mask).map c.tileBytes).flatten ++ (t.ranges.map (fun r => c.bytes (r.1 * 64) (r.2 * 64))).flatten)]

/-- Key of a cell's saved state of a context. -/
def savedKey (n c cell : Nat) : Nat := (n * 4096 + c) * 192 + cell

/-- Save a cell at its YLD (07 R184): its slot, and what of it the spec lays out no bytes for. -/
def State.saveCell (s : State) (n i : Nat) : State × StatusCode :=
  let c := s.cell i
  let lrt := c.yld.getD 0
  let t := lrtOf c.image lrt
  let k := s.freeCtr
  let m := s.msgSt (msgKey i c.ctx)
  let r := ({ s with freeCtr := k + 4 }).slotStore n (s.slotAddr n c.ctx i) (cellPieces c t k ++ msgPieces m (k + 3)) (s.moverWrites (i / 16) n)
  let v : Saved := { pc := c.pc, lrt := lrt, tileMask := t.mask, tileInt := c.tileInt.keep (fun j => t.mask.testBit j), loops := c.loops
                     gang := c.gang.getD 0, present := true }
  ({ r.1 with saved := r.1.saved.set {} (savedKey n c.ctx i) v }, r.2)

/-- A cell that has ended its task or been saved is free: what lies in its scratchpad and tiles stays (04 R108; 07 R175). -/
def Cell.freed (c : Cell) : Cell :=
  { scratch := c.scratch, lineDross := c.lineDross, tiles := c.tiles, tileDross := c.tileDross, tileInt := c.tileInt
    mmaCycles := c.mmaCycles, bankWait := c.bankWait, retired := c.retired, nextXfer := c.nextXfer }

/-- The words of a byte string, 4 bytes each. -/
def words32 (b : List Byte) (n : Nat) : List Word32 := (List.range n).map (fun i => BitVec.ofNat 32 (fld b (4 * i) 4))

/-- The cell that a slot's bytes restore (04 R108; 07 R184, R185): dead lines and tiles are 0. -/
def restored (c : Cell) (v : Saved) (t : Lrt) (image : List Byte) (rd : Nat → Nat → List Byte)
    (dr : Nat → Nat → Bool) : Cell :=
  let base := { c.freed with scratch := [], lineDross := [], tiles := [], tileDross := [], tileInt := v.tileInt }
  let tiles := maskList 4 t.mask
  let b := (List.zip (List.range 4) tiles).foldl (fun (b : Cell) q =>
    { b with tiles := Tab.setList 0 b.tiles (tileKey q.2 0 0) (words32 (rd (0x10000 + q.1 * 65536) 65536) 16384)
             tileDross := Tab.setList false b.tileDross (tileKey q.2 0 0)
               ((List.range 16384).map (fun i => (fld (rd (0xD400 + q.2 * 2048) 2048) (i / 8) 1).testBit (i % 8)
                 || dr (0x10000 + q.1 * 65536 + i * 4) 4)) }) base
  let live := t.ranges.foldl (fun (a : Cell × Nat) r =>
    ({ a.1 with scratch := Tab.setList 0 a.1.scratch (r.1 * 64) (rd a.2 (r.2 * 64))
                lineDross := Tab.setList false a.1.lineDross r.1
                  ((List.range r.2).map (fun i => (fld (rd (0xA400 + (r.1 + i) / 8) 1) 0 1).testBit ((r.1 + i) % 8)
                    || dr (a.2 + i * 64) 64)) }, a.2 + r.2 * 64))
    (b, 0x10000 + tiles.length * 65536)
  { live.1 with
    sregs := Tab.set 0 (Tab.setList 0 [] 0 (words32 (rd 0x40 128) 32)) 0 0
    loops := v.loops, pc := v.pc, image := image, codeLen := fld image 2 2, ctx := c.ctx, gang := c.gang, state := 1 }

/-- The bytes a restore reads: offset and length of each piece (07 R184). -/
def restoreReads (t : Lrt) : List (Nat × Nat) :=
  [(0, 0x400)] ++ t.ranges.map (fun r => (0xA400 + r.1 / 8, (r.1 + r.2 - 1) / 8 + 1 - r.1 / 8))
    ++ (maskList 4 t.mask).map (fun j => (0xD400 + j * 2048, 2048)) ++ [(0x10000, t.live)]

end Sys2Proof.Machine
end

