-- ==== Sys2Proof/Machine/Xlt.lean ====
section
/-!
DEFINITION. Translation faults and invalidations: the fault table and ring of a partition (11 R293-R296) and the XLT commands
(R298-R301).
-/

namespace Sys2Proof.Machine

/-- Entries of a partition's fault ring; 0 where LOG2N is out of range (11 R299). -/
def fqLen (x : Xlt) : Nat := let l := bits x.fqRing 63 60; if 4 ≤ l && l ≤ 12 then 2 ^ l else 0

/-- The 32 bytes of a fault record (11 R293): seq counts the records, pass the passes of the ring. -/
def faultBytes (n slot seq pass : Nat) (r : FaultRec) : List Byte :=
  leBytes 2 (n * 64 + slot) ++ leBytes 2 (n * 4096 + r.ctx) ++ leBytes 1 r.reason ++ leBytes 1 r.access ++ leBytes 1 r.level
    ++ zeros 1 ++ leBytes 8 r.dva ++ leBytes 4 r.waiters ++ zeros 4
    ++ leBytes 8 ((if pass % 2 = 0 then 2 ^ 63 else 0) + seq % 2 ^ 32)

/-- Write the open records that the ring has room for, in the order they opened, and raise the fault interrupt of each (11
R293). -/
def State.writeFaults (n : Nat) : Nat → State → State
  | 0, s => s
  | fuel + 1, s =>
    let x := s.xlt n
    let len := fqLen x
    match x.unwritten with
    | [] => s
    | slot :: rest =>
      if len = 0 || x.fqHead + len ≤ x.fqCount then s
      else match x.recs.get none slot with
        | none => State.writeFaults n fuel (s.updXlt n (fun x => { x with unwritten := rest }))
        | some r =>
          let base := bits x.fqRing 39 5 * 32
          let w := s.hubWrite n (base + (x.fqCount % len) * 32) (faultBytes n slot (x.seq + 1) (x.fqCount / len) r)
          let s := w.1
          if w.2 != St.ok then
            -- a record that cannot be written: what waits on it ends with that status (06 R147; log entry 120)
            State.writeFaults n fuel { s.updXlt n (fun x => { x with unwritten := rest }) with
              pageReady := s.pageReady ++ [{ id := n * 64 + slot, status := w.2, engines := r.waiters, chans := r.chans, forced := some w.2 }] }
          else
          let s := s.updXlt n (fun x => { x with
            unwritten := rest, fqCount := x.fqCount + 1, seq := x.seq + 1
            recs := x.recs.upd none slot (fun r => r.map (fun r => { r with written := true })) })
          State.writeFaults n fuel (s.raise n 0)

/-- The record in a slot is open: it has not had its page-ready event (11 R294). -/
def State.recOpen (s : State) (n slot : Nat) : Option FaultRec :=
  if s.pageReady.any (fun r => r.id == n * 64 + slot) then none else (s.xlt n).recs.get none slot

/-- The access bit of a fault (11 R293). -/
def accessBit (write : Bool) : Nat := if write then 2 else 1

/-- The XLT block takes a channel's fault (11 R294): it joins the open record of its key, opens a record, or waits for one. -/
def State.takeFault (s : State) (i : Nat) : State :=
  let n := s.chanPart i
  let c := s.chan i
  let (addr, dir) := if c.state = 5 then (c.faultAddr, c.dir) else (c.stopAddr, c.stopDir)
  let acc := accessBit dir
  match (List.range 64).find? (fun k => match s.recOpen n k with
      | some r => r.ctx == c.ctx && r.block == addr / 65536
      | none => false) with
  | some k =>
    (s.updXlt n (fun x => { x with recs := x.recs.upd none k (fun r => r.map (fun r =>
      { r with waiters := setBit r.waiters (i / 32), access := r.access ||| acc, chans := r.chans ++ [i] })) })).updChan i
      (fun c => { c with faultId := n * 64 + k, taken := true })
  | none =>
    match (List.range 64).find? (fun k => ((s.xlt n).recs.get none k).isNone) with
    | some k =>
      let r : FaultRec := { ctx := c.ctx, block := addr / 65536, dva := addr, reason := c.stopReason, level := c.stopLevel, access := acc
                            waiters := setBit 0 (i / 32), chans := [i] }
      let s := s.updXlt n (fun x => { x with recs := x.recs.set none k (some r), unwritten := x.unwritten ++ [k] })
      State.writeFaults n 64 (s.updChan i (fun c => { c with faultId := n * 64 + k, taken := true }))
    | none =>
      (s.updXlt n (fun x => { x with fqFull := satAdd 32 x.fqFull 1, waitRec := x.waitRec ++ [i] })).updChan i
        (fun c => { c with faultId := 0xFFFF, taken := true })

/-- A channel has a fault that the XLT block has not taken. -/
def Chan.untaken (c : Chan) : Bool := !c.taken && (c.stop == Stop.fault || c.state == 5)

/-- FAULT_TAKEN (11 R292-R294). -/
def execFaultTaken (ch : ChanId) (s : State) : Res' :=
  closing (onlyIf (s.chan ch.val).untaken (fun s => s.takeFault ch.val) s)

/-- Channels that wait for a record take one, in the order they faulted, while slots are free (11 R293). -/
def State.giveRecords (n : Nat) : Nat → State → State
  | 0, s => s
  | fuel + 1, s =>
    match (s.xlt n).waitRec with
    | [] => s
    | i :: rest =>
      if (List.range 64).all (fun k => ((s.xlt n).recs.get none k).isSome) then s
      else State.giveRecords n fuel ((s.updXlt n (fun x => { x with waitRec := rest })).takeFault i)

/-- The driver advances XLT_FQ_HEAD (11 R293, R299). -/
def State.writeFqHead (s : State) (n v : Nat) : State :=
  let s := s.updXlt n (fun x =>
    let len := fqLen x
    if len = 0 then x else { x with fqHead := min x.fqCount (x.fqHead + (v % 4096 % len + len - x.fqHead % len) % len) })
  State.writeFaults n 64 s

/-- FQ_HEAD_WRITE (11 R293). -/
def execFqHeadWrite (p : Path) (n : PartId) (value : BitVec 32) (s : State) : Res' :=
  closing (s.onPart p n.val (fun s => s.writeFqHead n.val value.toNat))

/-- A record's page-ready events go to the engines that wait (11 R295); a record with no waiter closes at once. -/
def State.closeRecord (s : State) (n slot : Nat) (status : StatusCode) : State :=
  match s.recOpen n slot with
  | none => s
  | some r =>
    let s := s.updXlt n (fun x => { x with unwritten := x.unwritten.filter (fun k => k != slot) })
    if r.waiters = 0 then State.giveRecords n 64 (s.updXlt n (fun x => { x with recs := x.recs.set none slot none }))
    else { s with pageReady := s.pageReady ++ [{ id := n * 64 + slot, status := status, engines := r.waiters, chans := r.chans }] }

/-- A write of XLT_FAULT_RESOLVE (11 R295, R301): a record that is not open, or not Pn's, is an OWNERSHIP Note. -/
def State.writeResolve (s : State) (p : Path) (n v : Nat) : State :=
  let id := bits v 15 0
  if id / 64 = n && (s.recOpen n (id % 64)).isSome then s.closeRecord n (id % 64) (BitVec.ofNat 8 (bits v 23 16))
  else s.alarm 0x114 n (pathUnit p)

/-- XLT_FAULT_RESOLVE (11 R295). -/
def execXltFaultResolve (p : Path) (n : PartId) (value : Word64) (s : State) : Res' :=
  closing (s.onPart p n.val (fun s => s.writeResolve p n.val value.toNat))

/-- A page-ready event reaches a waiting channel (11 R284, R295, R296). forced is the status with which
the waiters of a record left open for 1 s, or of one that could not be written, halt. -/
def State.tellChan (s : State) (n i : Nat) (status : StatusCode) (forced : Option StatusCode) : State :=
  let c := s.chan i
  if status = St.ok then
    if c.state = 8 then (s.updChan i (fun c => { c with resolved := true })).resave n i
    else if c.pause then s.updChan i (fun c => { c with resolved := true })
    else if c.state = 5 then (s.updChan i Chan.again).pump i
    else if c.stop == Stop.fault then
      (s.updChan i (fun c => { c with stop := .none, taken := false, faultId := 0xFFFF, segEnd := 0, ahead := none, srcRuns := [], dstRuns := [], segStop := none
                                      wbWait := false, needWalk := false })).pump i
    else s
  else
    let st := forced.getD St.faultXlt
    if c.state = 8 then (s.updChan i (fun c => { c with status := forced.getD status, stop := .halt })).resave n i
    else if c.state = 5 || c.stop == Stop.fault then
      let a := if c.state = 5 then c.faultAddr else c.stopAddr
      let d := if c.state = 5 then c.dir else c.stopDir
      (s.updChan i (fun c => { haltChan { c with stop := .none } st a c.done false d with faultId := 0xFFFF })).settle i
    else s

/-- PAGE_READY (11 R295): the event of a record reaches engine e; once every engine is told, the slot is free. -/
def execPageReady (e : EngineId) (id : Fin 1024) (s : State) : Res' :=
  let n := id.val / 64
  closing (match s.pageReady.find? (fun r => r.id == id.val) with
    | none => s
    | some r =>
      onlyIf (r.engines.testBit e.val) (fun s =>
        let s := forAll (r.chans.filter (fun i => i / 32 == e.val && (s.chan i).faultId == id.val)) (fun i s => s.tellChan n i r.status r.forced) s
        let left := clearBit r.engines e.val
        if left = 0 then
          let s := { s with pageReady := s.pageReady.filter (fun x => x.id != id.val) }
          State.giveRecords n 64 (s.updXlt n (fun x => { x with recs := x.recs.set none (id.val % 64) none }))
        else { s with pageReady := s.pageReady.map (fun x => if x.id == id.val then { x with engines := left } else x) }) s)

/-- FAULT_RECORD_TIMEOUT (11 R295): a record open for 1 s closes with TIMEOUT. -/
def execFaultRecordTimeout (id : Fin 1024) (s : State) : Res' :=
  let n := id.val / 64
  done (onlyIf (s.recOpen n (id.val % 64)).isSome (fun s =>
    let s := s.closeRecord n (id.val % 64) St.timeout
    { s with pageReady := s.pageReady.map (fun x => if x.id == id.val then { x with forced := some St.timeout } else x) }) s)

/-- An address lies in the range that an invalidation names: PAGES 0 is the whole context (11 R298). -/
def inRange (x : Xlt) (a len : Nat) : Bool :=
  x.invPages == 0 || (decide (a < x.invAddr + x.invPages * 4096) && decide (x.invAddr < a + len))

/-- Purge the run lists of a channel that overlap the range; it re-translates from there, and a walk in progress restarts (11
R298 step 1). -/
def purgeRuns (x : Xlt) (c : Chan) : Chan :=
  let hit := fun (r : Run) => inRange x r.dva r.len
  let c := if c.ahead.any (fun a => a.src.any hit || a.dst.any hit) then { c with ahead := none } else c
  if c.srcRuns.any hit || c.dstRuns.any hit then
    { c with ahead := none, srcRuns := [], dstRuns := [], segEnd := 0, segStop := none }
  else { c with segStop := if c.needWalk then none else c.segStop }

/-- Channels of Pn on engine e that work for the context of the invalidation. -/
def State.invChans (s : State) (n e : Nat) : List Nat :=
  (s.chansOf n (s.xlt n).invCtx).filter (fun i => i / 32 == e && (s.chan i).state != 8)

/-- The engine has nothing left in flight from the range (11 R298 step 2). -/
def State.engineQuiet (s : State) (n e : Nat) : Bool :=
  (s.invChans n e).all (fun i => (s.chan i).bursts.all (fun b =>
    b.state == 2 || !((b.srcDva && b.state == 0 && inRange (s.xlt n) b.srcName b.len) || (b.dstDva && inRange (s.xlt n) b.dstName b.len))))

/-- Set an engine's bit; the invalidation is OK when all 32 are set (11 R298, R300). -/
def ackInv (x : Xlt) (e : Nat) : Xlt :=
  let m := setBit x.invMask e
  { x with invMask := m, invStatus := if m = 2 ^ 32 - 1 then St.ok else x.invStatus }

/-- Engine e acknowledges the invalidation of Pn: its walk cache holds no entry of the context (11 R298). -/
def State.engineAcks (s : State) (n e : Nat) : State :=
  { s with walkCaches := s.walkCaches.upd [] e (fun l => l.filter (fun x => !(x.part == n && x.ctx == (s.xlt n).invCtx))) }.updXlt n (fun x => ackInv x e)

/-- A write of XLT_INV_CMD (11 R298-R300): while one is PENDING it is dropped and counted. An engine with no channel at work
for the context acknowledges at once. -/
def State.writeInv (s : State) (p : Path) (n v : Nat) : State :=
  let x := s.xlt n
  if x.invStatus == St.pending then s.alarm 0x114 n (pathUnit p)
  else
    let c := bits v 43 32
    let entry := s.tableWord n (x.ctxBase + c * 16)
    let bad := bits v 55 44 != 0 || !(entry.1.testBit 0) || entry.2 != St.ok
    let s := s.updXlt n (fun x => { x with invToken := bits v 63 56, invCtx := c, invPages := bits v 31 0, invMask := 0
                                           invStatus := if bad then St.denied else St.pending })
    if bad then s
    else forAll (List.range 32) (fun e s =>
      let l := s.invChans n e
      if l.isEmpty then s.engineAcks n e
      else forAll l (fun i s => s.updChan i (purgeRuns (s.xlt n))) s) s

/-- XLT_INV_CMD (11 R298). -/
def execXltInvCmd (p : Path) (n : PartId) (value : Word64) (s : State) : Res' :=
  closing (s.onPart p n.val (fun s => s.writeInv p n.val value.toNat))

/-- INV_ENGINE_ACK (11 R298): the engine has purged and drained the range. -/
def execInvEngineAck (n : PartId) (e : EngineId) (s : State) : Res' :=
  closing (onlyIf ((s.xlt n.val).invStatus == St.pending && !((s.xlt n.val).invMask.testBit e.val) && s.engineQuiet n.val e.val) (fun s =>
    let s := forAll (s.invChans n.val e.val) (fun i s => s.updChan i (purgeRuns (s.xlt n.val))) s
    s.engineAcks n.val e.val) s)

end Sys2Proof.Machine
end

