-- ==== Sys2Proof/Machine/Sched.lean ====
section
/-!
DEFINITION. Scheduling and preemption (07): tasks and their records, residency and slices, saves and restores, the commands of the
SCH block, the abort of a context (12 R332).
-/

namespace Sys2Proof.Machine

/-- Cells of Pn on site k that run, save or restore context c. -/
def State.siteCells (s : State) (n c k : Nat) : List Nat := (s.cellsOf n c).filter (fun i => i / 16 == k)

/-- Context c has a task for site k: one that waits, or a gang that has not ended (07 R176). -/
def State.hasWork (s : State) (n c k : Nat) : Bool :=
  (s.sch n).waiting.any (fun t => t.ctx == c && t.site == k) || (s.sch n).gangs.any (fun g => g.task.ctx == c && g.task.site == k)

/-- Sites where context c of Pn is resident. -/
def State.residentOn (s : State) (n c : Nat) : List Nat := (List.range 12).filter (fun k => (s.res k n).resident == some c)

/-- The state that a context's tasks and residency give it (07 R170): with no task it is IDLE, resident or not (log entry 20). -/
def State.ctxStateNow (s : State) (n c : Nat) : CtxSt :=
  let x := s.ctx n c
  let gangs := (s.sch n).gangs.any (fun g => g.task.ctx == c)
  if x.state == .lost then .lost
  else if x.state == .held then .held
  else if !gangs && !((s.sch n).waiting.any (fun t => t.ctx == c)) then .idle
  else if !(s.residentOn n c).isEmpty then .active
  else if gangs then .preempted else .ready

/-- Show a context's state as it now is (07 R170): its record is latched as it leaves IDLE (R169), and its channels are saved as it
becomes PREEMPTED (R187). -/
def State.reState (s : State) (n c : Nat) : State :=
  let old := (s.ctx n c).state
  let st := s.ctxStateNow n c
  if st = old then s
  else
    let s := if old == .idle then s.latch n c else s
    let s := s.setCtxState n c st St.ok
    if st = .preempted then s.preemptChans n c else s

/-- Positions of a gang whose status was not OK, ascending (07 R181). -/
def Gang.fails (g : Gang) : List Nat :=
  (maskList 16 g.task.mask).filter (fun p => match g.ended.get none p with | some st => st != St.ok | none => false)
/-- STATUS of a gang: the first that is not OK (07 R181). -/
def Gang.status (g : Gang) : StatusCode :=
  match g.fails with
  | [] => St.ok
  | p :: _ => (g.ended.get none p).getD St.ok

/-- Write the record of KIND 1 of a gang (07 R181, R182), with the safeguard words (05 R132): it carries an excursion that is pending
(05 R135). -/
def State.gangRecord (s : State) (n : Nat) (g : Gang) : State :=
  let c := g.task.ctx
  let exc := (s.ctx n c).guard.pending
  let s := (s.updCtx n c (fun x => { x with guard := { x.guard with pending := false } })).putGuard n c
  s.taskEnd n g.task g.status (bit exc) (g.fails.headD 0xFF) (g.fails.foldl setBit 0) g.runUs g.saves 1

/-- Cells that still hold work of a gang. -/
def State.gangCells (s : State) (n gid : Nat) : List Nat :=
  (s.cells.filter (fun e => e.2.gang == some gid && s.ownerCell e.1 == some n)).map (·.1)

/-- Drop a gang, with what is saved of it. -/
def State.dropGang (s : State) (n gid : Nat) : State :=
  match s.gangOf n gid with
  | none => s
  | some g =>
    let s := forAll ((maskList 16 g.task.mask).map (fun p => g.task.site * 16 + p)) (fun i s =>
      { s with saved := s.saved.set {} (savedKey n g.task.ctx i) {} }) s
    s.updSch n (fun h => { h with gangs := h.gangs.filter (fun x => !(x.id == gid)) })

/-- Ask a cell to take its next cheap point (07 R176, R182; 12 R332). -/
def State.askCell (s : State) (i : Nat) : State := s.updCell i (fun c => { c with asked := true })

/-- Lose a context for the status of a failed access of its save area (07 R188). -/
def State.saveFailed (s : State) (n c : Nat) (status : StatusCode) : State := s.loseCtx n c status

/-- Bytes that the save of cell i moves (07 R184). -/
def State.saveBytes (s : State) (i : Nat) : Nat :=
  (lrtOf (s.cell i).image ((s.cell i).yld.getD 0)).live + 1024 + 80 * ((s.msgSt (msgKey i (s.cell i).ctx)).boxes.foldl (fun a b => a + b.2.held.length) 0)
/-- Bytes that the message state of context c moves at a switch on site k (07 R177). -/
def State.moveBytes (s : State) (k n c : Nat) : Nat :=
  ((List.range 16).filter (fun p => s.ownerCell (k * 16 + p) == some n)).foldl (fun a p =>
    a + 512 + 80 * ((s.msgSt (msgKey (k * 16 + p) c)).boxes.foldl (fun a b => a + b.2.held.length) 0)) 0
/-- Save and restore traffic of a site passes its injection regulator (08 R201, R202): it is charged as one request, or waits for a window
start (log entry 121). -/
def State.siteMove (s : State) (k n bytes : Nat) (f : State → State) : State :=
  let g := s.inject (halfOfSite k) (k % 6) n bytes
  if g.2 then f g.1 else g.1

/-- A context stops being resident on a site (07 R177): each cell of the partition there writes its message state. -/
def State.leaveSite (s : State) (k n c : Nat) : State :=
  let r := ((List.range 16).map (fun p => k * 16 + p)).foldl (fun (acc : State × StatusCode) i =>
    if acc.1.ownerCell i == some n then
      let r := acc.1.saveMsgs n c i
      (r.1, if acc.2 = St.ok then r.2 else acc.2)
    else acc) (s, St.ok)
  let s := r.1.updRes k n (fun x => { x with resident := none })
  let s := if r.2 = St.ok then s else s.saveFailed n c r.2
  s.reState n c

/-- The saved gangs of a context that is resident on a site begin to restore, in the order they were saved (07 R176 step 3). -/
def State.restoreGangs (s : State) (k n c : Nat) : State :=
  ((s.sch n).gangs.filter (fun g => g.saved && g.task.ctx == c && g.task.site == k)).foldl (fun (s : State) g =>
    forAll ((maskList 16 g.task.mask).map (fun p => k * 16 + p)) (fun i s =>
      if (s.saved.get {} (savedKey n c i)).present && (s.saved.get {} (savedKey n c i)).gang == g.id then
        s.updCell i (fun x => { x.freed with state := 4, ctx := c, gang := some g.id })
      else s) (s.updGang n g.id (fun g => { g with saved := false }))) s

/-- A context becomes resident on a site (07 R176 step 3, R177): its message state is read back, its saved gangs begin to
restore. -/
def State.enterSite (s : State) (k n c : Nat) : State :=
  let s := s.updRes k n (fun x => { x with resident := some c, incoming := none, switching := false })
  let r := ((List.range 16).map (fun p => k * 16 + p)).foldl (fun (acc : State × StatusCode) i =>
    if acc.1.ownerCell i == some n then
      let r := acc.1.loadMsgs n c i
      (r.1, if acc.2 = St.ok then r.2 else acc.2)
    else acc) (s, St.ok)
  let s := if r.2 = St.ok then r.1 else r.1.saveFailed n c r.2
  (s.restoreGangs k n c).reState n c

/-- What follows when a cell leaves a gang (07 R182): a gang with no cell left and nothing saved has ended; one whose cells are
all saved is saved, and an excursion trap taken holds its context. -/
def State.afterCell (s : State) (n k gid : Nat) : State :=
  match s.gangOf n gid with
  | none => s
  | some g =>
    let c := g.task.ctx
    if !(s.gangCells n gid).isEmpty || (s.ctx n c).aborting then s
    else
      let saved := (maskList 16 g.task.mask).any (fun p =>
        let v := s.saved.get {} (savedKey n c (k * 16 + p))
        v.present && v.gang == gid)
      if g.stopping then (s.dropGang n gid).reState n c
      else if !saved then ((s.gangRecord n g).dropGang n gid).reState n c
      else
        let s := s.updSch n (fun h => { h with gangs := h.gangs.filter (fun x => !(x.id == gid)) ++
          [{ g with saved := true, saves := g.saves + 1, excursion := false }] })
        let s := (s.updCtx n c (fun x => { x with saves := x.saves + 1 })).putStatus n c
        if g.excursion then
          -- the report clears PENDING (05 R135)
          let s := (s.updCtx n c (fun x => { x with guard := { x.guard with pending := false } })).putGuard n c
          let s := s.setCtxState n c .held St.ok
          let s := s.taskEnd n g.task St.pending 1 0xFF 0 g.runUs (g.saves + 1) 2
          -- the rest of the context leaves its sites too (07 R182; 05 R135)
          let s := forAll (s.cellsOf n c) (fun i s => s.askCell i) s
          forAll (s.residentOn n c) (fun k s => s.updRes k n (fun x => { x with switching := true })) s
        else s

/-- A cell ends its task with a status (07 R182): a cell that halts on a status other than OK ends its gang, whose record is
written; the other cells stop at their next cheap point (log entry 25). -/
def State.endCell (s : State) (n i : Nat) (status : StatusCode) (halts : Bool) : State :=
  let c := s.cell i
  let gid := c.gang.getD 0
  let s := ((s.dropUnmet i).putGuard n c.ctx).addCellRun n c.ctx gid
  let s := s.updGang n gid (fun g => { g with ended := g.ended.set none (i % 16) (some status) })
  let s := s.updCell i (fun c => if (s.ctx n c.ctx).aborting then { mmaCycles := c.mmaCycles, bankWait := c.bankWait, retired := c.retired, nextXfer := c.nextXfer } else c.freed)
  let s := match s.gangOf n gid with
    | some g =>
      if halts && !g.stopping && !(s.ctx n c.ctx).aborting then
        let s := (s.gangRecord n g).updGang n gid (fun g => { g with stopping := true })
        forAll (s.gangCells n gid) (fun j s => s.askCell j) s
      else s
    | none => s
  s.afterCell n (i / 16) gid

/-- Why a task cannot start (07 R168, R169; 04 R111; 17 R451, R452), or its image. -/
def State.dispatchCheck (s : State) (n : Nat) (t : Task) : State × Except StatusCode (List Byte) :=
  let x := s.ctx n t.ctx
  if (maskList 16 t.mask).any (fun p => (s.cell (t.site * 16 + p)).retired) then (s, .error St.denied)
  else if !x.latched then (s, .error (if x.latchFail = St.ok then St.denied else x.latchFail))
  else
    let r := s.readImage n t.image
    match r.2 with
    | .error st => (r.1, .error st)
    | .ok image => (r.1, if imageOk image x.slotLog2 then .ok image else .error St.denied)

/-- Read TWAIT and the safeguard word at a dispatch or restore (07 R169; 05 R131): EXC_THR and EXC_TRAP, or a failed read. -/
def State.readWords (s : State) (n c : Nat) : State × Except StatusCode (Nat × Bool) :=
  match s.readRecord n c with
  | (s, .error st) => (s, .error st)
  | (s, .ok b) => (s.updCtx n c (fun x => { x with twait := twaitOf (fld b 0x20 4) }), .ok (bits (fld b 0x38 8) 15 8, (fld b 0x38 8).testBit 0))

/-- The registers a gang's cell starts with (07 R175). -/
def startRegs (pos : Nat) (args : List Nat) : Tab Word32 :=
  Tab.setList 0 (Tab.set 0 [] 1 (BitVec.ofNat 32 pos)) 2 (args.map (BitVec.ofNat 32))

/-- Start a gang on its cells (07 R175). -/
def State.startGang (s : State) (n : Nat) (t : Task) (image : List Byte) (thr : Nat) (trap : Bool) : State :=
  let gid := (s.sch n).nextGang
  let s := s.updSch n (fun h => { h with gangs := h.gangs ++ [{ id := gid, task := t }], nextGang := gid + 1 })
  let s := s.updCtx n t.ctx (fun x => { x with guard := { x.guard with task := false } })
  let s := match t.src with
    | .queue q idx => s.updQueue n q (fun qu => { qu with entries := qu.entries.map (fun e => if e.idx = idx then { e with running := true } else e) })
    | .core _ => s
  forAll (maskList 16 t.mask) (fun p s => s.updCell (t.site * 16 + p) (fun c =>
    { c.freed with state := 1, pc := fld image 8 2, ctx := t.ctx, sregs := startRegs p t.args, image := image, codeLen := fld image 2 2
                   gang := some gid, excThr := thr, excTrap := trap })) s

/-- Take a task off the tasks that wait. -/
def State.takeTask (s : State) (n : Nat) (t : Task) : State := s.updSch n (fun h => { h with waiting := h.waiting.erase t })

/-- Start the first waiting task of the resident context on a site, if its cells are free (07 R175). -/
def State.dispatch (s : State) (k n c : Nat) : State :=
  match (s.sch n).waiting.find? (fun t => t.ctx == c && t.site == k) with
  | none => s
  | some t =>
    if (maskList 16 t.mask).any (fun p => (s.cell (k * 16 + p)).state != 0 || s.cellTested (k * 16 + p)) then s
    else
      let fail := fun (s : State) (st : StatusCode) => ((s.takeTask n t).taskUnrun n t st).reState n c
      match s.dispatchCheck n t with
      | (s, .error st) => fail s st
      | (s, .ok image) =>
        match s.readWords n c with
        | (s, .error st) => fail s st
        | (s, .ok (thr, trap)) => ((s.takeTask n t).startGang n t image thr trap).reState n c

/-- A context may take a turn on a site (07 R176). -/
def State.qualifies (s : State) (k n c : Nat) : Bool :=
  let st := (s.ctx n c).state
  (st == .ready || st == .active || st == .preempted) && s.hasWork n c k

/-- SLICE and DEBT_CEIL of Pn (07 R172). -/
def schSliceAddr (n : Nat) : Nat := regAddr 0 14 (0x100008 + n * 0x100)
/-- SLICE in us. -/
def State.sliceUs (s : State) (n : Nat) : Nat := bits (s.reg (schSliceAddr n)) 16 0
/-- DEBT_CEIL in us. -/
def State.debtCeil (s : State) (n : Nat) : Nat := bits (s.reg (schSliceAddr n)) 47 32

/-- A resident context begins a slice: what is saved of it there restores (07 R176), and its DEBT shortens the slice (R179). -/
def State.startSlice (s : State) (k n c : Nat) : State :=
  let s := if (s.res k n).resident == some c && (s.ctx n c).state == CtxSt.active then s.restoreGangs k n c else s
  let d := (s.ctx n c).debt
  let used := if s.sliceUs n = 0 then d else d % s.sliceUs n
  ((s.updCtx n c (fun x => { x with debt := 0 })).updRes k n (fun r => { r with shortened := used })).putStatus n c

/-- The next entry of the adopted list that takes a turn (07 R176, R179): entries whose debt reaches SLICE give up theirs. Answers
the context and the slices it holds after the first. -/
def State.nextTurn (k n : Nat) : Nat → State → State × Option (Nat × Nat)
  | 0, s => (s, none)
  | fuel + 1, s =>
    let r := s.res k n
    match r.list with
    | [] => (s, none)
    | _ =>
      let order := (List.range r.list.length).map (fun i => (r.pos + i) % r.list.length)
      match order.find? (fun i => s.qualifies k n (r.list.getD i (0, 0)).1) with
      | none => (s, none)
      | some i =>
        let e := r.list.getD i (0, 0)
        let s := s.updRes k n (fun r => { r with pos := (i + 1) % r.list.length })
        let d := (s.ctx n e.1).debt
        if s.sliceUs n != 0 && s.sliceUs n ≤ d then
          State.nextTurn k n fuel ((s.updCtx n e.1 (fun x => { x with debt := d - s.sliceUs n })).putStatus n e.1)
        else (s, some (e.1, e.2 - 1))

/-- A site adopts a newer run list (07 R173). -/
def State.adoptList (s : State) (k n : Nat) : State :=
  if (s.res k n).gen = (s.sch n).listGen then s
  else s.updRes k n (fun r => { r with list := (s.sch n).list, gen := (s.sch n).listGen, pos := 0, left := 0 })

/-- A slice ends on a site (07 R176, R179): the context that holds the next slice, and the switch to it. -/
def State.sliceEnd (s : State) (k n : Nat) : State :=
  let s := s.adoptList k n
  let r := s.res k n
  let held := r.resident.isSome && decide (0 < r.left) && s.qualifies k n (r.resident.getD 0)
  -- a debt of a slice or more gives up the slice that the context still holds (R179)
  let gives := held && s.sliceUs n != 0 && decide (s.sliceUs n ≤ (s.ctx n (r.resident.getD 0)).debt)
  if held && !gives then (s.updRes k n (fun r => { r with left := r.left - 1 })).startSlice k n (r.resident.getD 0)
  else
    let s := if gives then
      (s.updCtx n (r.resident.getD 0) (fun x => { x with debt := x.debt - s.sliceUs n })).putStatus n (r.resident.getD 0) else s
    let t := State.nextTurn k n (16 * r.list.length) s
    match t.2, r.resident with
    | none, none => t.1
    | none, some c => (t.1.updRes k n (fun r => { r with left := 0 })).startSlice k n c
    | some (d, w), none => ((t.1.updRes k n (fun r => { r with left := w })).enterSite k n d).startSlice k n d
    | some (d, w), some c =>
      if d = c then (t.1.updRes k n (fun r => { r with left := w })).startSlice k n c
      else
        let s := t.1.updRes k n (fun r => { r with left := w, incoming := some d, switching := true })
        forAll (s.siteCells n c k) (fun i s => s.askCell i) s

/-- The first task of Pn that waits for a dead site ends unrun with SITE_DEAD (log entry 22). -/
def State.deadTask (s : State) (k n : Nat) : State :=
  match (s.sch n).waiting.find? (fun t => t.site == k) with
  | some t => ((s.takeTask n t).taskUnrun n t St.siteDead).reState n t.ctx
  | none => s

/-- GANG_START (07 R175): on a site where no context is resident the first entry that qualifies becomes so (log entry 21); the
resident context's first waiting task starts when its cells are free, after its saved gangs. -/
def execGangStart (site : SiteId) (n : PartId) (s : State) : Res' :=
  let k := site.val
  let r := s.res k n.val
  closing (onlyIf (s.ready n.val && !r.switching && (s.twin n.val).phase != 1) (fun s =>
    if (s.site k).state = 2 then s.deadTask k n.val else
    let s := if r.resident.isNone then s.sliceEnd k n.val else s
    match (s.res k n.val).resident with
    | none => s
    | some c => if (s.siteCells n.val c k).any (fun i => (s.cell i).state == 4) then s else s.dispatch k n.val c) s)

/-- SLICE_END (07 R176, R179). -/
def execSliceEnd (site : SiteId) (n : PartId) (s : State) : Res' :=
  closing (onlyIf (s.ready n.val && !(s.res site.val n.val).switching && (s.twin n.val).phase != 1) (fun s => s.sliceEnd site.val n.val) s)

/-- An overrun is added to a context's debt; what lies above the ceiling is waived (07 R179, R180). -/
def addDebt (x : Ctx) (us ceil : Nat) : Ctx :=
  let d := x.debt + us
  if ceil < d then { x with debt := ceil, waived := satAdd 32 x.waived (d - ceil) } else { x with debt := d }

/-- CONTEXT_RESIDENT (07 R176 step 3, R177, R179): every cell of the outgoing context on the site is free. overrun is the time in us
from the slice end to the last cheap point. -/
def execContextResident (site : SiteId) (n : PartId) (overrun : Nat) (s : State) : Res' :=
  let k := site.val
  let r := s.res k n.val
  closing (onlyIf (r.switching && (match r.resident with | some c => (s.siteCells n.val c k).isEmpty | none => true)) (fun s =>
    let bytes := (match r.resident with | some c => s.moveBytes k n.val c | none => 0) + (match r.incoming with | some d => s.moveBytes k n.val d | none => 0)
    s.siteMove k n.val bytes (fun s =>
    let s := match r.resident with
      | some c =>
        let s := if (s.ctx n.val c).state == CtxSt.lost then s
          else (s.updCtx n.val c (fun x => addDebt x overrun (s.debtCeil n.val))).putStatus n.val c
        s.leaveSite k n.val c
      | none => s
    match r.incoming with
    | some d =>
      if s.qualifies k n.val d then (s.enterSite k n.val d).startSlice k n.val d
      else s.updRes k n.val (fun r => { r with incoming := none, switching := false })
    | none => s.updRes k n.val (fun r => { r with switching := false }))) s)

/-- CELL_SAVE_DONE (04 R108; 07 R177, R184, R188): a cell at its cheap point is saved and free. A cell of a lost context or of a gang
that has ended saves nothing. -/
def execCellSaveDone (cell : CellId) (s : State) : Res' :=
  let i := cell.val
  let c := s.cell i
  let n := (s.ownerCell i).getD 0
  closing (onlyIf (c.state == 3 && c.moversIdle && (s.ownerCell i).isSome) (fun s =>
    let gid := c.gang.getD 0
    let ends := match s.gangOf n gid with | some g => g.stopping | none => true
    if (s.ctx n c.ctx).aborting then s.endCell n i St.aborted false
    else if ends then ((s.addCellRun n c.ctx gid).updCell i Cell.freed).afterCell n (i / 16) gid
    else s.siteMove (i / 16) n (s.saveBytes i) (fun s =>
      let r := (s.putGuard n c.ctx).saveCell n i
      if r.2 = St.ok then ((r.1.addCellRun n c.ctx gid).updCell i Cell.freed).afterCell n (i / 16) gid
      else (r.1.saveFailed n c.ctx r.2).endCell n i r.2 false)) s)

/-- CELL_RESTORE_DONE (04 R108; 07 R184, R185, R187, R188): a cell's saved state is read back, and its instruction store from the
image; with the context's first gang its DMA records are reloaded. -/
def execCellRestoreDone (cell : CellId) (s : State) : Res' :=
  let i := cell.val
  let c := s.cell i
  let n := (s.ownerCell i).getD 0
  closing (onlyIf (c.state == 4 && (s.ownerCell i).isSome) (fun s =>
    let v := s.saved.get {} (savedKey n c.ctx i)
    let fail := fun (s : State) (st : StatusCode) => (s.saveFailed n c.ctx st).endCell n i st false
    if (s.ctx n c.ctx).aborting then s.endCell n i St.aborted false
    else match s.gangOf n v.gang with
    | none => s.updCell i Cell.freed
    | some g =>
      match s.readImage n g.task.image with
      | (s, .error st) => fail s st
      | (s, .ok image) =>
        match s.readWords n c.ctx with
        | (s, .error st) => fail s st
        | (s, .ok (thr, trap)) =>
          let base := s.slotAddr n c.ctx i
          let t := lrtOf image v.lrt
          let reads := restoreReads t
          let st := reads.foldl (fun (st : StatusCode) p => if st = St.ok then (s.ppaPeek n (base + p.1) p.2).2.2 else st) St.ok
          if st != St.ok then fail s st
          else s.siteMove (i / 16) n (t.live + 1024 + 64 + 8 * fld image 2 2) (fun s =>
            let s' := reads.foldl (fun (s : State) p => s.ppaReport n (base + p.1) p.2 (s.moverReads (i / 16) n)) s
            let c' := restored c v t image (fun o l => (s.ppaPeek n (base + o) l).1) (fun o l => (s.ppaPeek n (base + o) l).2.1)
            let s := s'.updCell i (fun _ => { c' with excThr := thr, excTrap := trap })
            let s := { s with saved := s.saved.set {} (savedKey n c.ctx i) {} }
            s.reloadChans n c.ctx)) s)

/-- Record the tile fault of the instruction at a cell's PC (04 R101). -/
def State.faultAt (s : State) (n i op detail aux : Nat) (status : StatusCode) : State :=
  s.recordFault n (s.cell i).ctx (faultWord ((s.cell i).pc % 8192) op detail aux status)

/-- A cell's stretch is stopped (07 R178): every cell of the context stops at once, its channels drain, it is lost with TIMEOUT. -/
def State.overrunCell (s : State) (i : Nat) : State :=
  let c := s.cell i
  let n := (s.ownerCell i).getD 0
  if (c.state == 1 || c.state == 2) && c.gang.isSome && (s.ownerCell i).isSome && !(s.ctx n c.ctx).aborting then
    let s := s.faultAt n i (opcodeOf (codeWord c.image c.pc)) 0 0 St.timeout
    -- the record of the gang shows TIMEOUT: every cell of it that runs stops with it
    let gid := c.gang.getD 0
    let s := forAll (s.gangCells n gid) (fun j s =>
      s.updGang n gid (fun g => { g with ended := g.ended.set none (j % 16) (some St.timeout) })) s
    let s := s.loseCtx n c.ctx St.timeout
    forAll (s.cellsOf n c.ctx) (fun j s => s.stopCell j) s
  else s

/-- STRETCH_TIMEOUT (07 R178): a stretch passes twice its SPAN. -/
def execStretchTimeout (cell : CellId) (s : State) : Res' := closing (s.overrunCell cell.val)

/-- SAVE_RESTORE_FAILURE (07 R188): an access of a cell's save or restore ends with a status other than OK. -/
def execSaveRestoreFailure (cell : CellId) (status : StatusCode) (s : State) : Res' :=
  let i := cell.val
  let c := s.cell i
  let n := (s.ownerCell i).getD 0
  closing (onlyIf ((c.state == 3 || c.state == 4) && (s.ownerCell i).isSome && status != St.ok) (fun s =>
    (s.saveFailed n c.ctx status).endCell n i status false) s)

/-- The entries of a run list (07 R173): context and WEIGHT, 0 read as 1; COUNT above 256 copies 256 (log entry 24). -/
def State.runlistOf (s : State) (n v : Nat) : State × List (Nat × Nat) :=
  let count := min (bits v 55 47) 256
  let r := s.ppaRead n (bits v 39 6 * 64) (2 * count)
  (r.1, if r.2.2.2 != St.ok then [] else (List.range count).map (fun i =>
    let e := fld r.2.1 (2 * i) 2
    (bits e 11 0, max 1 (bits e 15 12))))

/-- A write of SCH_RUNLIST (07 R173). -/
def State.writeRunlist (s : State) (n v : Nat) : State :=
  let r := s.runlistOf n v
  r.1.updSch n (fun h => { h with runlist := field 55 47 (bits v 55 47) + field 39 6 (bits v 39 6), list := r.2, listGen := h.listGen + 1 })

/-- RUNLIST_WRITE (07 R173). -/
def execRunlistWrite (p : Path) (n : PartId) (value : Word64) (s : State) : Res' :=
  closing (s.onPart p n.val (fun s => s.writeRunlist n.val value.toNat))

/-- Outcome of a command on a context (07 R174). -/
def State.ctxCmd (s : State) (n token : Nat) (status : StatusCode) : State :=
  s.updSch n (fun h => { h with cmdToken := token, cmdStatus := status })

/-- RESUME (07 R174). -/
def State.resumeCtx (s : State) (n c token : Nat) : State :=
  if (s.ctx n c).state == .held && (s.part n).state != PState.lost then
    let s := s.ctxCmd n token St.ok
    let s := s.setCtxState n c .preempted St.ok
    (s.preemptChans n c).reState n c
  else s.ctxCmd n token St.denied

/-- LOSE (07 R174). -/
def State.loseCmd (s : State) (n c token : Nat) : State :=
  if s.ctxLost n c then s.ctxCmd n token St.denied
  else (s.ctxCmd n token St.ok).loseCtx n c St.aborted

/-- Empty the message state of a context on Pn's cells, the slots included (07 R174, R177). -/
def State.emptyMsgs (s : State) (n c : Nat) : State :=
  { s with msgs := s.msgs.keep (fun k => !(k % 4096 == c && decide (k / 4096 < 192) && s.ownerCell (k / 4096) == some n)) }

/-- RESET (07 R174): the status block is zeroed, mailboxes and tally store are emptied, the state is IDLE. -/
def State.resetCtx (s : State) (n c token : Nat) : State :=
  let x := s.ctx n c
  if x.aborting then s.ctxCmd n token St.busy
  else if x.state == .idle || x.state == .lost then
    -- an IDLE context's status block lies where its record says now (R169)
    let s := if x.state == .idle then s.latch n c else s
    let x := s.ctx n c
    let s := if x.latched then (s.hubWrite n x.statusBase (zeros 256)).1 else s
    let s := s.emptyMsgs n c
    (s.updCtx n c (fun _ => { latched := x.latched, slotLog2 := x.slotLog2, saveBase := x.saveBase, saveLen := x.saveLen
                              statusBase := x.statusBase })).ctxCmd n token St.ok
  else s.ctxCmd n token St.denied

/-- A write of SCH_CTX_CMD (07 R174). -/
def State.writeCtxCmd (s : State) (n v : Nat) : State :=
  let token := bits v 63 56
  let c := bits v 27 16
  match bits v 1 0 with
  | 1 => s.resumeCtx n c token
  | 2 => s.loseCmd n c token
  | 3 => s.resetCtx n c token
  | _ => s.ctxCmd n token St.denied

/-- SCH_RESUME (07 R174). -/
def execSchResume (p : Path) (n : PartId) (value : Word64) (s : State) : Res' :=
  closing (s.onPart p n.val (fun s => s.resumeCtx n.val (bits value.toNat 27 16) (bits value.toNat 63 56)))

/-- SCH_LOSE (07 R174). -/
def execSchLose (p : Path) (n : PartId) (value : Word64) (s : State) : Res' :=
  closing (s.onPart p n.val (fun s => s.loseCmd n.val (bits value.toNat 27 16) (bits value.toNat 63 56)))

/-- SCH_RESET (07 R174). -/
def execSchReset (p : Path) (n : PartId) (value : Word64) (s : State) : Res' :=
  closing (s.onPart p n.val (fun s => s.resetCtx n.val (bits value.toNat 27 16) (bits value.toNat 63 56)))

/-- CONTEXT_ABORT_DONE (12 R331, R332): no cell of the context runs and its channels stand: the records of its gangs are written,
their entries complete, CHIP_VF_CTX_DONE and vector 1 report it. -/
def State.abortEnds (s : State) (n c : Nat) : State :=
  let s := ((s.sch n).gangs.filter (fun g => g.task.ctx == c)).foldl (fun (s : State) g =>
    let g' := { g with ended := (maskList 16 g.task.mask).foldl (fun (t : Tab (Option StatusCode)) p =>
      if (t.get none p).isNone then t.set none p (some St.aborted) else t) g.ended }
    (if g.stopping then s else s.gangRecord n g').dropGang n g.id) s
  let s := { s with saved := s.saved.keep (fun k => !(k / 192 == n * 4096 + c)) }
  let s := forAll (s.residentOn n c) (fun k s =>
    if (s.res k n).switching then s else s.updRes k n (fun r => { r with resident := none })) s
  let s := s.updCtx n c (fun x => { x with aborting := false, savedChans := [] })
  (s.updVf n (fun v => { v with ctxDone := setBit v.ctxDone c })).raise n 1

/-- CONTEXT_ABORT_DONE (12 R332). -/
def execContextAbortDone (n : PartId) (c : CtxId) (s : State) : Res' :=
  closing (onlyIf ((s.ctx n.val c.val).aborting && (s.cellsOf n.val c.val).isEmpty
      && (s.chansOf n.val c.val).all (fun i => (s.chan i).state == 1 || (s.chan i).state == 6)) (fun s => s.abortEnds n.val c.val) s)

/-- ABORT_BOUND_STOP (12 R332 step 3): the cells of the context that still run at the NP limit stop at once. -/
def execAbortBoundStop (n : PartId) (c : CtxId) (s : State) : Res' :=
  closing (onlyIf (s.ctx n.val c.val).aborting (fun s => forAll (s.cellsOf n.val c.val) (fun i s => s.stopCell i) s) s)

/-- A task from its 64-byte descriptor (07 R167). -/
def taskOf (c : Nat) (b : List Byte) (src : TaskSrc) : Task :=
  { ctx := c, mask := fld b 2 2, site := fld b 4 1, event := (fld b 5 1).testBit 0, evCore := fld b 6 1, evBit := fld b 7 1
    image := fld b 8 8, span := fld b 0x10 4, taskId := fld b 0x14 4, endAddr := fld b 0x18 8
    args := (List.range 6).map (fun i => fld b (0x20 + 4 * i) 4), src := src }

/-- The descriptor is refused with DENIED (07 R168; log entries 22 and 23). -/
def State.taskDenied (s : State) (n : Nat) (b : List Byte) (t : Task) : Bool :=
  bits (fld b 5 1) 7 1 != 0 || fld b 0x38 8 != 0 || decide (11 < t.site) || t.mask == 0 || t.image % 64 != 0 || t.endAddr % 64 != 0
    || (maskList 16 t.mask).any (fun p => s.ownerCell (t.site * 16 + p) != some n)
    || (s.site t.site).kind != 1
    || t.span == 0 || decide ((s.slice n).npLimit < t.span)
    || (t.event && (s.ownerCore t.evCore != some n || decide (63 < t.evBit)))

/-- Submit a task descriptor (07 R166, R168): the state, and the refusal or OK. -/
def State.submitTask (s : State) (n c : Nat) (b : List Byte) (src : TaskSrc) : State × StatusCode :=
  let t := taskOf c b src
  if s.taskDenied n b t then (s, St.denied)
  else if 1024 ≤ ((s.sch n).waiting.filter (fun x => halfOfSite x.site == halfOfSite t.site)).length then (s, St.busy)
  else if (s.part n).state == .building then (s.taskUnrun n t St.aborted, St.ok)
  else if s.ctxLost n c then (s.taskUnrun n t St.contextLost, St.ok)
  else ((s.updSch n (fun h => { h with waiting := h.waiting ++ [t] })).reState n c, St.ok)

end Sys2Proof.Machine
end

