-- ==== Sys2Proof/Machine/Message.lean ====
section
/-!
DEFINITION. Messages and tallies (03): mailboxes, tally stores, what the ingress checks (R82, R469), and what arrives (R84-R86).
-/

namespace Sys2Proof.Machine

/-- The chiplet of a site is foreign. -/
def State.foreign (s : State) (k : Nat) : Bool := (s.site k).kind == 2

/-- Owner of a cell address; none for a reserved one, a port not advertised, and a matrix cell on a site with no Renyr chiplet
(01 R17, R18). -/
def State.addrOwner (s : State) (a : Nat) : Option Nat :=
  if a < 192 then (if (s.site (a / 16)).kind = 1 then s.ownerCell a else none)
  else if 0x100 ≤ a ∧ a < 0x180 then s.ownerCore (a - 0x100)
  else if 0x200 ≤ a ∧ a < 0x260 then
    let k := (a - 0x200) / 8
    if s.foreign k && decide ((a - 0x200) % 8 < bits ((s.site k).capPeer.get 0 1) 59 56) then s.ownerCell (k * 16) else none
  else none

/-- Site of a cell address, if it lies on one. -/
def siteOf (a : Nat) : Option Nat := if a < 192 then some (a / 16) else if 0x200 ≤ a ∧ a < 0x260 then some ((a - 0x200) / 8) else none
/-- The address lies on a site isolated as dead (03 R84), or on an isolated cluster (08 R211). -/
def State.onDead (s : State) (a : Nat) : Bool :=
  match siteOf a with
  | some k => (s.site k).state == 2
  | none => decide (0x100 ≤ a) && decide (a < 0x180) && s.isolated ((a - 0x100) / 64) (16 + (a - 0x100) / 8 % 8)

/-- HELD + OUT of a mailbox (03 R77). -/
def Mailbox.used (b : Mailbox) : Nat := b.held.length + b.out

/-- The entry of a tally store for a destination and mailbox (03 R78). -/
def MsgState.entry (m : MsgState) (dest box : Nat) : Option Tally := m.store.find? (fun t => t.dest == dest && t.mailbox == box)
/-- Tallies held for a destination and mailbox. -/
def MsgState.tallies (m : MsgState) (dest box : Nat) : Nat := match m.entry dest box with | some t => t.count | none => 0

/-- Add n tallies to the entry for their destination and mailbox, or a free one (03 R78); none when there is neither. -/
def MsgState.addTallies (m : MsgState) (t : Tally) : Option MsgState :=
  if (m.entry t.dest t.mailbox).isSome then
    some { m with store := m.store.map (fun x => if x.dest = t.dest ∧ x.mailbox = t.mailbox then
      { x with count := x.count + t.count, urgent := t.urgent, ctx := t.ctx, dead := x.dead || t.dead, void := x.void || t.void } else x) }
  else if m.store.length < 16 then some { m with store := m.store ++ [t] } else none

/-- Take n tallies from an entry, or what it holds: an entry at 0 is freed (03 R78). -/
def MsgState.takeTallies (m : MsgState) (dest box n : Nat) : MsgState :=
  { m with store := m.store.filterMap (fun x => if x.dest = dest ∧ x.mailbox = box then
      (if x.count ≤ n then none else some { x with count := x.count - n }) else some x) }

/-- What is released toward the fabric. -/
def State.release (s : State) (e : Egress) : State := { s with egress := s.egress ++ [e] }

/-- Grant n tallies on a mailbox of an address to a sender (03 R78): BUSY without room, OK for 0. -/
def State.grantFrom (s : State) (part src c dest b n : Nat) : State × StatusCode :=
  let key := addrKey src c
  let x := (s.msgSt key).box b
  if n = 0 then (s, St.ok)
  else if 32 < x.used + n then (s, St.busy)
  else
    ((s.updMsg key (fun m => m.updBox b (fun x => { x with out := x.out + n }))).release
      { src := src, ctx := c, flight := .grant part src dest b n x.urgent c }, St.ok)

/-- Return n unused tallies of an address for a destination and mailbox (03 R78). -/
def State.returnFrom (s : State) (part src c dest b n : Nat) : State :=
  let key := addrKey src c
  match (s.msgSt key).entry dest b with
  | none => s
  | some t =>
    let k := min n t.count
    if k = 0 then s
    else (s.updMsg key (fun m => m.takeTallies dest b k)).release { src := src, ctx := c, flight := .ret part src dest b k t.ctx }

/-- Take a message off a mailbox that holds one (03 R78): a STANDING mailbox grants a tally at once. -/
def State.takeMsg (s : State) (part a c b : Nat) : State × Option Msg :=
  let key := addrKey a c
  match ((s.msgSt key).box b).held with
  | [] => (s, none)
  | m :: rest =>
    let x := (s.msgSt key).box b
    let s := s.updMsg key (fun m => m.updBox b (fun x => { x with held := rest }))
    -- a core's credit goes to the context whose message it took (log entry 116)
    (if x.standing then (s.grantFrom part a (if a < 192 then c else bits m.header 90 79) x.sender b 1).1 else s, some m)

/-- Configure a mailbox (04 R103; 06 R149). -/
def State.configBox (s : State) (key b sender : Nat) (standing urgent : Bool) : State :=
  s.updMsg key (fun m => m.updBox b (fun x => { x with standing := standing, urgent := urgent, sender := sender }))

/-- The header a cell or core sends (03 R75): URGENT is the tally's class. -/
def headerOf (dest src b len : Nat) (urgent dross : Bool) (ctx tag : Nat) : Nat :=
  field 127 118 dest + field 117 108 src + field 107 104 b + field 103 97 len + bit urgent * 2 ^ 96 + bit dross * 2 ^ 95
    + field 90 79 ctx + field 63 0 tag

/-- The fields the hub writes into a header, reserved bits delivered as 0 (03 R75, R82). -/
def hubHeader (h part ctx : Nat) (urgent : Bool) : Nat :=
  setBits (setBits (setBits (setBits h 94 91 part) 90 79 ctx) 96 96 (bit urgent)) 78 64 0

/-- A message with the payload bytes at and beyond LENGTH 0 (03 R75). -/
def clipMsg (h : Nat) (payload : List Byte) : Msg :=
  { header := h, payload := (payload.take (min (bits h 103 97) 64)) ++ zeros (64 - min (bits h 103 97) 64) }

/-- The unit of an address: its cell or its cluster, whose ingress a Fence holds. -/
def unitOf (a : Nat) : Option Held :=
  if a < 192 then some (.cell a) else if 0x100 ≤ a ∧ a < 0x180 then some (.cluster ((a - 0x100) / 8))
  else if 0x200 ≤ a ∧ a < 0x260 then some (.cell ((a - 0x200) / 8 * 16)) else none

/-- A unit is held at its ingress by a Fence (15 R414), or is an isolated cluster, whose flits the fabric drops (08 R211). -/
def State.heldUnit (s : State) (u : Option Held) : Bool :=
  match u with
  | some h => s.sec.held.contains h || (match h with | .cluster c => s.isolated (c / 8) (16 + c % 8) | _ => false)
  | none => false

/-- The ingress holds the source (03 R82 check 1). -/
def State.holdsSource (s : State) (at_ : Ingress) (src : Nat) : Bool :=
  match at_ with
  | .site k => (decide (src < 192) && src / 16 == k.val && (s.site k.val).kind == 1)
      || (decide (0x200 ≤ src) && decide (src < 0x260) && (src - 0x200) / 8 == k.val
          && s.foreign k.val && decide ((src - 0x200) % 8 < bits ((s.site k.val).capPeer.get 0 1) 59 56))
  | .cluster c => decide (0x100 ≤ src) && decide (src < 0x180) && (src - 0x100) / 8 == c.val
  | .mesh _ => true

/-- The unit that MSG_BAD_SOURCE isolates (03 R83): the site, or the cluster. -/
def badUnit : Ingress → Option Held
  | .site k => some (.site k.val)
  | .mesh k => some (.site k.val)
  | .cluster c => some (.cluster c.val)
/-- Its scope: the partition of a cluster; a site's Fence takes every partition that owns cells there. -/
def State.badScope (s : State) : Ingress → Nat
  | .cluster c => (s.ownerCluster c.val).getD 255
  | .site k => (s.ownerCell (k.val * 16)).getD 255
  | .mesh k => (s.ownerCell (k.val * 16)).getD 255

/-- What is presented names a source that its place does not hold (03 R82 check 1); the mesh filter does not ask. -/
def State.badAt (s : State) (at_ : Ingress) (src : Nat) : Bool := match at_ with | .mesh _ => false | _ => !(s.holdsSource at_ src)

/-- Raise MSG_BAD_SOURCE (03 R82, R83). -/
def State.badSource (s : State) (at_ : Ingress) : State := s.alarm 0x101 (s.badScope at_) (badUnit at_)

/-- The ingress that judges what an address on its own chiplet, or elsewhere, sends (03 R82). -/
def ingressOf (src dest : Nat) : Option Ingress :=
  if h : src < 192 then
    let k : SiteId := ⟨src / 16, by omega⟩
    some (if dest < 192 ∧ dest / 16 = src / 16 then .mesh k else .site k)
  else if h : 0x100 ≤ src ∧ src < 0x180 then some (.cluster ⟨(src - 0x100) / 8, by omega⟩)
  else if h : 0x200 ≤ src ∧ src < 0x260 then some (.site ⟨(src - 0x200) / 8, by omega⟩)
  else none

/-- Checks 2 to 5 of a message (03 R82): the alarm of the first that fails. queued: its tally has been taken already. -/
def State.msgCheck (s : State) (h : Nat) (ep : Bool) : Option Nat :=
  let src := bits h 117 108
  let dest := bits h 127 118
  match s.addrOwner src with
  | none => some 0x100
  | some n =>
    if !(s.ready n) then some 0x100
    else if 64 < bits h 103 97 || bits h 78 64 != 0 then some 0x102
    else if s.addrOwner dest != some n then some 0x100
    else if ep && (s.msgSt (addrKey src 0)).tallies dest (bits h 107 104) = 0 then some 0x103
    else none

/-- A message is discarded on its way to a lost context or a dead site (03 R84, R85): a matrix cell's context counts it. -/
def State.discarded (s : State) (p src dest b : Nat) (m : Msg) (status : StatusCode) : State :=
  if src < 192 then s.msgFail p (bits m.header 90 79) dest b status else s

/-- A message is judged at an ingress (03 R82): dropped with its alarm, or forwarded. ctx and urgent are what the hub writes. -/
def State.judgeMsg (s : State) (at_ : Ingress) (m : Msg) (ctx : Nat) (urgent : Bool) : State :=
  let h := m.header
  let src := bits h 117 108
  let dest := bits h 127 118
  let ep := decide (0x200 ≤ src)
  if s.badAt at_ src then s.badSource at_
  else if s.heldUnit (unitOf src) then s
  else match s.msgCheck h ep with
    | some a => s.alarm a ((s.addrOwner src).getD 255) (unitOf src)
    | none =>
      let n := (s.addrOwner src).getD 0
      let urgent := if ep then (match (s.msgSt (addrKey src 0)).entry dest (bits h 107 104) with | some t => t.urgent | none => false) else urgent
      let s := if ep then s.updMsg (addrKey src 0) (fun x => x.takeTallies dest (bits h 107 104) 1) else s
      let dross := ep && !((s.site ((src - 0x200) / 8)).features.testBit 3)
      let h' := hubHeader (if dross then setBits h 95 95 1 else h) n ctx urgent
      let m := clipMsg h' m.payload
      if s.onDead dest then s.discarded n src dest (bits h 107 104) m St.siteDead
      else { s with flights := s.flights ++ [.msg n src dest (bits h 107 104) m] }

/-- A grant is judged (03 R469): dropped with MSG_OUT_OF_PARTITION, discarded toward a dead site, or forwarded. -/
def State.judgeGrant (s : State) (src ctx dest b n : Nat) (urgent : Bool) : State :=
  match s.addrOwner src with
  | none => s.alarm 0x100 255 none
  | some p =>
    if s.heldUnit (unitOf src) then s
    else if s.onDead dest && s.addrOwner dest == some p then s.outFalls (addrKey src ctx) b n
    else if s.addrOwner dest != some p then (s.outFalls (addrKey src ctx) b n).alarm 0x100 p (unitOf src)
    else { s with flights := s.flights ++ [.grant p src dest b n urgent ctx] }

/-- A return is judged (03 R469). -/
def State.judgeRet (s : State) (src dest b n ctx : Nat) : State :=
  match s.addrOwner src with
  | none => s.alarm 0x100 255 none
  | some p =>
    if s.heldUnit (unitOf src) then s
    else if s.addrOwner dest != some p then s.alarm 0x100 p (unitOf src)
    else if s.onDead dest then s
    else { s with flights := s.flights ++ [.ret p src dest b n ctx] }

/-- Sender, receiver and mailbox of what travels: the pair that keeps its order (03 R80). kind tells messages apart. -/
def Flight.pair : Flight → Nat × Nat × Nat × Nat
  | .msg _ a b x _ => (0, a, b, x)
  | .grant _ a b x _ _ _ => (1, a, b, x)
  | .ret _ a b x _ _ => (2, a, b, x)

/-- The end of a message route that an address lies on: its site, or 12 + its cluster (13 R337). -/
def routeEnd (a : Nat) : Option Nat :=
  match siteOf a with
  | some k => some k
  | none => if 0x100 ≤ a ∧ a < 0x180 then some (12 + (a - 0x100) / 8) else none

/-- A module of the route between two ends is in a retrain: new messages wait for it (13 R337). -/
def State.routeBusy (s : State) (a b : Nat) : Bool :=
  match routeEnd a, routeEnd b with
  | some x, some y =>
    let r := s.fab.routes.get 0 (x * 32 + y)
    x != y && r != 0 && ((decide (x < 12) && ((s.site x).mods.get {} ((r - 1) / 4)).busy)
      || (decide (y < 12) && ((s.site y).mods.get {} ((r - 1) % 4)).busy))
  | _, _ => false

/-- The k-th waiting egress may leave: it is the first of its pair, its RELEASE is met (03 R80), and its route is there. -/
def State.mayLeave (s : State) (k : Nat) (e : Egress) : Bool :=
  !(s.routeBusy e.flight.pair.2.1 e.flight.pair.2.2.1) && !((s.egress.take k).any (fun x => x.flight.pair == e.flight.pair)) && (decide (192 ≤ e.src) || (s.cell e.src).writesDone e.after)

/-- The context the hub writes for a sender (03 R76): the one the SCH block records as resident on the matrix cell, a service core's
fjctx. DESIGN CHOICE: R76 names no context for a foreign endpoint's message, and it is 0; the same where the record shows none
(log entry 116). -/
def State.senderCtx (s : State) (src : Nat) : Nat :=
  if src < 192 then ((s.ownerCell src).bind (fun n => (s.res (src / 16) n).resident)).getD (s.cell src).ctx else if 0x100 ≤ src ∧ src < 0x180 then (s.core (src - 0x100)).ctx else 0

/-- An urgent flit that took more than 50 cycles through the hub is reported (08 R210). -/
def State.noteMiss (s : State) (h b : Nat) : State :=
  let st := regAddr h 2 0x1000
  let cnt := regAddr h 2 0x1010
  let s := s.setReg st (setBit (s.reg st) b)
  let v := s.reg cnt
  let s := s.setReg cnt (setBits v (16 * b + 15) (16 * b) (satAdd 16 (bits v (16 * b + 15) (16 * b)) 1))
  if (s.reg (regAddr h 2 0x1008)).testBit b then (s.raise 16 1).rasRecord h 1 3 255 St.timeout b 0 0 1 0 else s

/-- A context's mailboxes accept nothing (03 R85). -/
def State.closedTo (s : State) (p a c : Nat) : Bool := decide (a < 192) && ((s.msgSt (addrKey a c)).closed || s.ctxLost p c)

/-- A message arrives (03 R77, R85, R86; 06 R151): into its mailbox, the image too where its context is not resident, to a foreign
chiplet (as a request-class message if that has no URGENT, 13 R340), or discarded. -/
def State.arriveMsg (s : State) (p src dest b : Nat) (m : Msg) : State :=
  let c := bits m.header 90 79
  let key := addrKey dest c
  if s.onDead dest then s.discarded p src dest b m St.siteDead
  else if s.closedTo p dest c then s.discarded p src dest b m St.contextLost
  else if 0x200 ≤ dest then
    let urgent := (s.site ((dest - 0x200) / 8)).features.testBit 4 && m.header.testBit 96
    s.emit (.toChiplet dest (.msg p src dest b { m with header := setBits m.header 96 96 (bit urgent) }))
  else
    let j := ((s.msgSt key).box b).held.length
    let s := s.updMsg key (fun x => x.updBox b (fun x => { x with held := (x.held ++ [m]).take 32, out := x.out - 1 }))
    if dest < 192 ∧ (s.res (dest / 16) p).resident != some c then s.imageEntry p c dest b j m else s

/-- A grant arrives at a sender's tally store (03 R78, R85): a full store sends it back. -/
def State.arriveGrant (s : State) (p src dest b n : Nat) (urgent : Bool) (ctx : Nat) : State :=
  let key := addrKey dest ctx
  -- a grant of a core that has been stopped since: its mailboxes were emptied (06 R146)
  let stopped := decide (0x100 ≤ src) && decide (src < 0x180) && decide (((s.msgSt (addrKey src 0)).box b).out < n)
  let void := s.closedTo p src ctx || stopped
  match (s.msgSt key).addTallies { dest := src, mailbox := b, urgent := urgent, count := n, dead := s.onDead src, void := void, ctx := ctx } with
  | some m =>
    let s := { s with msgs := s.msgs.set {} key m }
    let s := if dest < 192 ∧ (s.res (dest / 16) p).resident != some ctx then s.imageTally p ctx dest else s
    if 0x200 ≤ dest then s.emit (.toChiplet dest (.grant p src dest b n urgent ctx)) else s
  | none => { s with flights := s.flights ++ [.ret p dest src b n ctx] }

/-- A return arrives: OUT of its mailbox falls (03 R78). -/
def State.arriveRet (s : State) (p src dest b n ctx : Nat) : State :=
  if 0x200 ≤ dest then s.emit (.toChiplet dest (.ret p src dest b n ctx)) else s.outFalls (addrKey dest ctx) b n

/-- Take the k-th of what travels, if it is a thing of its kind and the first of its pair (03 R80). -/
def State.takeFlight (s : State) (k : Nat) (kind : Nat) : Option (State × Flight) :=
  match s.flights[k]? with
  | none => none
  | some f =>
    if f.pair.1 = kind ∧ !((s.flights.take k).any (fun x => x.pair == f.pair)) then some ({ s with flights := s.flights.eraseIdx k }, f) else none

end Sys2Proof.Machine
end

