-- ==== Sys2Proof/Machine/Tile.lean ====
section
/-!
DEFINITION. What the MMA and vector instructions compute (04 R89-R105; 05 R115-R138): each is a function of the cell and its
context's safeguard counters that gives both, or a fault DETAIL with its AUX field.
-/

namespace Sys2Proof.Machine

/-- The outcome of a computing instruction. -/
inductive TileOut where
  | ok (c : Cell) (g : Guard)
  | fault (detail aux : Nat)
  deriving DecidableEq, Repr

/-- A block as the array reads it: its values, the scales of its halves, raw levels. none of scale is NaN. -/
structure Blk where
  vals : List Fp
  scale : Option (Dy × Dy)
  raw : List Int
  deriving DecidableEq, Repr

/-- A row of A or a column of B: its blocks by panel, and whether any line read for it is dross (05 R136). -/
structure Line where
  blks : List Blk
  dross : Bool
  deriving DecidableEq, Repr

/-- Read row or column i of an operand (04 R92-R94). -/
def Cell.line (c : Cell) (f sm base sbase k i : Nat) (side : Option Nat) : Line :=
  { blks := (List.range k).map (fun p =>
      let codes := c.codes base f p i
      let r := side.map (fun b => sideRec (c.word (sideAddr b p i) 4))
      { vals := blockVals f codes r, scale := c.blockScale sm sbase p i, raw := codes.map (rawLevel f) })
    dross := (List.range k).any (fun p => c.rangeDross (blockAddr base f p i) (blockBytes f)
      || c.rangeDross (scaleAddr sm sbase p i) (scaleBytes sm)
      || (match side with | some b => c.rangeDross (sideAddr b p i) 4 | none => false))
      || (sm == 2 && c.rangeDross sbase 4) }

/-- A block of an operand is malformed (04 R94). -/
def Cell.blockBad (c : Cell) (f base p i : Nat) (side : Option Nat) : Bool :=
  if f = 11 then
    let codes := c.codes base f p i
    match side with
    | some b => !(sideOk codes (sideRec (c.word (sideAddr b p i) 4)))
    | none => !(escapes codes).isEmpty
  else false

/-- The first malformed block (04 R95): panel, row or column, and 1 for A. -/
def Cell.firstBad (c : Cell) (fa fb ra rb m n k : Nat) (side : Option Nat) : Option (Nat × Nat × Nat) :=
  (List.range k).findSome? (fun p =>
    match (List.range m).find? (fun i => c.blockBad fa ra p i none) with
    | some i => some (p, i, 1)
    | none => ((List.range n).find? (fun i => c.blockBad fb rb p i side)).map (fun i => (p, i, 0)))

/-- A block sum cut toward zero to 50 bits below 2^l, and its sticky bit with the sum's sign: 0 where nothing is lost (05 R120; log
entry 60). -/
def window (d : Dy) (l : Int) : Dy × Int :=
  let u := l - 50
  if u ≤ d.e then (d, 0)
  else
    let sh := pow2 (u - d.e)
    let q := d.m.natAbs / sh
    let lost := d.m.natAbs % sh != 0
    if d.m < 0 then ({ m := -(q : Int), e := u }, if lost then -1 else 0) else ({ m := q, e := u }, if lost then 1 else 0)

/-- Exponent of the leading bit of a product, for one that is not 0. -/
def Dy.log2 (d : Dy) : Int := (d.m.natAbs.log2 : Int) + d.e

/-- Largest leading exponent of a list of products; none when all are 0. -/
def topExp (l : List Dy) : Option Int :=
  l.foldl (fun (m : Option Int) (d : Dy) => if d.m = 0 then m else match m with
    | none => some d.log2
    | some x => some (max x d.log2)) none

/-- The products of a block, the halves' scales laid on (05 R117, R120); none when it gives NaN (R121). -/
def blockProducts (a b : Blk) : Option (List Dy) :=
  match a.scale, b.scale with
  | some sa, some sb =>
    if a.vals.all Fp.isFin && b.vals.all Fp.isFin then
      let ps := List.zipWith (fun x y => x.dy.mul y.dy) a.vals b.vals
      some ((ps.take 16).map (fun d => d.mul (sa.1.mul sb.1)) ++ (ps.drop 16).map (fun d => d.mul (sa.2.mul sb.2)))
    else none
  | _, _ => none

/-- v of one block and its sticky bit (05 R120): none is NaN. wide holds when an operand is BF16 or FP16; p is the product of the
tile scales. -/
def blockSum (wide : Bool) (p : Fp) (a b : Blk) : Option (Dy × Int) :=
  match p, blockProducts a b with
  | .fin _ _ _, some ds =>
    let v := Dy.sum ds
    let v := if wide then (match topExp ds with | some l => window v l | none => (v, 0)) else (v, 0)
    some (v.1.mul p.dy, v.2 * p.dy.m.sign)
  | _, _ => none

/-- A sum whose sticky bit st stands for less than any bit it keeps and so decides only the rounding (05 R120). -/
def Dy.stick (d : Dy) (st : Int) : Dy := if st = 0 || d.m = 0 then d else { m := d.m * 2 ^ 64 + st, e := d.e - 64 }

/-- One block is added to an accumulator element: c = rne32(c + v), and whether it saturated (05 R120, R121). A sum of 0 is +0, that of
an accumulator of -0 and a block of 0 too, as in IEEE 754. -/
def accumulate (acc : Word32 × Bool) (v : Option (Dy × Int)) : Word32 × Bool :=
  match f32 acc.1, v with
  | .nan, _ => (nan32, acc.2)
  | _, none => (nan32, acc.2)
  | .inf _, some _ => acc
  | .fin x m e, some d =>
    let r := rne32 ((((Fp.fin x m e).dy.add d.1).stick d.2).fp false); (r.1, acc.2 || r.2)

/-- An INT32 sum limited to the range, and whether it was limited (05 R122). -/
def satInt (v : Int) : Word32 × Bool :=
  if v < -2147483648 then (0x80000000, true)
  else if 2147483647 < v then (0x7FFFFFFF, true) else (BitVec.ofInt 32 v, false)

/-- One block is added to an INT32 element. -/
def accumulateInt (acc : Word32 × Bool) (a b : Blk) : Word32 × Bool :=
  let r := satInt (acc.1.toInt + (List.zipWith (· * ·) a.raw b.raw).foldl (· + ·) 0)
  (r.1, acc.2 || r.2)

/-- What an instruction writes into a tile, and what it counts. -/
structure TileAcc where
  tiles : Tab Word32
  marks : Tab Bool
  sat : Nat := 0
  nan : Nat := 0
  dross : Nat := 0
  deriving DecidableEq, Repr

/-- Write the elements of a region of tile t: f gives each element's new word, whether it saturated, and its dross mark. The
tile takes TYPE int (04 R96; 05 R132, R136, R138). -/
def Cell.writeTile (c : Cell) (g : Guard) (t m n : Nat) (int : Bool) (f : Nat → Nat → Word32 × Bool × Bool) : TileOut :=
  let old := c.isInt t
  let a := (List.range (m * n)).foldl (fun (a : TileAcc) i =>
    let row := i / n
    let col := i % n
    let r := f row col
    let k := tileKey t row col
    let fresh := !int && isNan32 r.1 && (old || !(isNan32 (c.elem t row col)))
    { tiles := a.tiles.set 0 k r.1, marks := a.marks.set false k r.2.2, sat := a.sat + bit r.2.1, nan := a.nan + bit fresh
      dross := a.dross + bit r.2.2 : TileAcc })
    { tiles := c.tiles, marks := c.tileDross }
  .ok { c with tiles := a.tiles, tileDross := a.marks, tileInt := c.tileInt.set false t int }
    (((g.addSat a.sat t).addNan a.nan).addDross a.dross)

/-- Every address is 64-byte aligned, then every range lies in the scratchpad (04 R101, R104): else the DETAIL. -/
def spanFault (l : List (Nat × Nat)) : Option Nat :=
  if l.any (fun x => x.1 % 64 != 0) then some 3
  else if l.any (fun x => decide (scratchBytes < x.1 + x.2)) then some 2 else none

/-- Tile scale of an operand as a value; mode 2 reads it, the others have 1. -/
def Cell.tileScale (c : Cell) (sm base : Nat) : Fp := if sm = 2 then f32 (BitVec.ofNat 32 (c.word base 4)) else .fin false 1 0

/-- MMA (04 R89-R96; 05 R115-R122). -/
def mmaRun (c : Cell) (g : Guard) (f : MmaF) : TileOut :=
  let fa := f.fa.toNat
  let fb := f.fb.toNat
  let sa := f.sa.toNat
  let sb := f.sb.toNat
  let m := 32 * (f.ms.val + 1)
  let n := 32 * (f.ns.val + 1)
  let k := f.kb.val + 1
  let ra := (c.reg f.ra.val).toNat
  let rb := (c.reg f.rb.val).toNat
  let rs := (c.reg f.rs.val).toNat
  let rt := (c.reg f.rt.val).toNat
  let rx := (c.reg f.rx.val).toNat
  let int := intPair fa fb
  if !(fmtDefined fa) || !(fmtDefined fb) then .fault 1 0
  else if f.esc && (fb != 11 || int) then .fault 7 0
  else if int && (sa != 0 || sb != 0) then .fault 7 0
  else if !int && (!(scaleAllowed fa sa) || !(scaleAllowed fb sb)) then .fault 7 0
  else match spanFault ([(ra, operandLen fa k m), (rb, operandLen fb k n)] ++ (if sa = 0 then [] else [(rs, scaleLen sa k m)])
      ++ (if sb = 0 then [] else [(rt, scaleLen sb k n)]) ++ (if f.esc then [(rx, (k - 1) * 512 + n * 4)] else [])) with
  | some d => .fault d 0
  | none =>
    if !f.z && c.isInt f.dt.val != int then .fault 4 0
    else match c.firstBad fa fb ra rb m n k (if f.esc then some rx else none) with
    | some (p, i, x) => .fault 6 (field 26 16 p + field 15 9 i + x * 256)
    | none =>
      let a := (List.range m).map (fun i => c.line fa sa ra rs k i none)
      let b := (List.range n).map (fun i => c.line fb sb rb rt k i (if f.esc then some rx else none))
      let p := f32 (rne32 ((c.tileScale sa rs).mul (c.tileScale sb rt))).1
      let wide := decide (fa ≤ 1) || decide (fb ≤ 1)
      let empty : Line := { blks := [], dross := false }
      c.writeTile g f.dt.val m n int (fun row col =>
        let x := a.getD row empty
        let y := b.getD col empty
        let start := (if f.z then (0 : Word32) else c.elem f.dt.val row col, false)
        let r := if int then (List.zip x.blks y.blks).foldl (fun acc q => accumulateInt acc q.1 q.2) start
          else (List.zip x.blks y.blks).foldl (fun acc q => accumulate acc (blockSum wide p q.1 q.2)) start
        (r.1, r.2, x.dross || y.dross || (!f.z && c.elemDross f.dt.val row col)))

/-- MCLK cycles in which the array performs the k-steps of an MMA (04 R89, R97, R113). -/
def mmaCyclesOf (f : MmaF) : Nat :=
  let k := 32 * (f.kb.val + 1)
  let w := max (fmtBits f.fa.toNat) (fmtBits f.fb.toNat)
  if w = 2 then k / 2 else if w ≤ 6 then k else if w = 8 then 2 * k else 4 * k

/-- ZAC (04 R96, R103). -/
def zacRun (c : Cell) (g : Guard) (td : Nat) (int : Bool) : TileOut :=
  let keep := fun (k : Nat) => !(k / 16384 == td)
  .ok { c with tiles := c.tiles.keep keep, tileDross := c.tileDross.keep keep, tileInt := c.tileInt.set false td int } g

/-- Bytes of an element of LDA or STA form F. -/
def ldaBytes (f : Nat) : Nat := if f ≤ 1 then 4 else 2
/-- LDA (04 R96, R103, R104; 05 R136). -/
def ldaRun (c : Cell) (g : Guard) (td f ra : Nat) : TileOut :=
  let a := (c.reg ra).toNat
  let b := ldaBytes f
  match spanFault [(a, 16384 * b)] with
  | some d => .fault d 0
  | none => c.writeTile g td 128 128 (f == 1) (fun row col =>
      let at_ := a + (row * 128 + col) * b
      let w := c.word at_ b
      (if f ≤ 1 then BitVec.ofNat 32 w else (rne32 ((if f = 2 then bf16 else fp16).decode w)).1, false, c.rangeDross at_ b))

/-- STA (04 R103, R104; 05 R123, R133, R136). -/
def staRun (c : Cell) (g : Guard) (ts f ra : Nat) : TileOut :=
  let a := (c.reg ra).toNat
  let b := ldaBytes f
  match spanFault [(a, 16384 * b)] with
  | some d => .fault d 0
  | none =>
    if c.isInt ts != (f == 1) then .fault 4 0
    else
      let enc := fun (w : Word32) => if f ≤ 1 then (w.toNat, false) else (if f = 2 then bf16 else fp16).encode (f32 w)
      let per := 64 / b
      -- line by line: its bytes, its clipped elements, whether any element is dross
      let r := (List.range (16384 / per)).foldl (fun (x : Cell × Nat) l =>
        let es := (List.range per).map (fun i => l * per + i)
        let cs := es.map (fun i => enc (c.elem ts (i / 128) (i % 128)))
        let d := es.any (fun i => c.elemDross ts (i / 128) (i % 128))
        (x.1.write (a + l * 64) ((cs.map (fun e => leBytes b e.1)).flatten) d, x.2 + (cs.filter (fun e => e.2)).length)) (c, 0)
      .ok r.1 (g.addClip r.2)

/-- A vector entry of 128 FP32 at a base (04 R103). -/
def Cell.vec (c : Cell) (a i : Nat) : Fp := f32 (BitVec.ofNat 32 (c.word (a + 4 * i) 4))

/-- EADD, EMUL and EMAX on one pair of elements (05 R123). -/
def eaddEl (int : Bool) (x y : Word32) : Word32 × Bool := if int then satInt (x.toInt + y.toInt) else rne32 (Fp.add (f32 x) (f32 y))
/-- EMUL. -/
def emulEl (x y : Word32) : Word32 × Bool := rne32 (Fp.mul (f32 x) (f32 y))
/-- EMAX. -/
def emaxEl (int : Bool) (x y : Word32) : Word32 × Bool :=
  if int then (if x.toInt < y.toInt then y else x, false) else ((rne32 (Fp.max (f32 x) (f32 y))).1, false)

/-- EADD (04 R104; 05 R123, R136). -/
def eaddRun (c : Cell) (g : Guard) (td ts : Nat) : TileOut :=
  if c.isInt td != c.isInt ts then .fault 4 0
  else c.writeTile g td 128 128 (c.isInt td) (fun r k =>
    let v := eaddEl (c.isInt td) (c.elem td r k) (c.elem ts r k)
    (v.1, v.2, c.elemDross td r k || c.elemDross ts r k))
/-- EMUL. -/
def emulRun (c : Cell) (g : Guard) (td ts : Nat) : TileOut :=
  if c.isInt td || c.isInt ts then .fault 4 0
  else c.writeTile g td 128 128 false (fun r k =>
    let v := emulEl (c.elem td r k) (c.elem ts r k)
    (v.1, v.2, c.elemDross td r k || c.elemDross ts r k))
/-- EMAX. -/
def emaxRun (c : Cell) (g : Guard) (td ts : Nat) : TileOut :=
  if c.isInt td != c.isInt ts then .fault 4 0
  else c.writeTile g td 128 128 (c.isInt td) (fun r k =>
    let v := emaxEl (c.isInt td) (c.elem td r k) (c.elem ts r k)
    (v.1, v.2, c.elemDross td r k || c.elemDross ts r k))
/-- ECPY: bits, TYPE and dross (04 R103; 05 R136, R466). -/
def ecpyRun (c : Cell) (g : Guard) (td ts : Nat) : TileOut :=
  c.writeTile g td 128 128 (c.isInt ts) (fun r k => (c.elem ts r k, false, c.elemDross ts r k))

/-- ESCL and EBIAS: a vector indexed by row or column (04 R103; 05 R123, R136). -/
def vecRun (c : Cell) (g : Guard) (td ra : Nat) (axis : Bool) (op : Fp → Fp → Fp) : TileOut :=
  let a := (c.reg ra).toNat
  match spanFault [(a, 512)] with
  | some d => .fault d 0
  | none =>
    if c.isInt td then .fault 4 0
    else c.writeTile g td 128 128 false (fun r k =>
      let j := if axis then k else r
      let v := rne32 (op (f32 (c.elem td r k)) (c.vec a j))
      (v.1, v.2, c.elemDross td r k || c.rangeDross (a + 4 * j) 4))

/-- The segment of EACT for x (04 R105): the largest j in 1-31 with bj <= x, else 0. -/
def actIndex (bp : List Fp) (x : Fp) : Nat :=
  (List.range 32).foldl (fun j i => if i != 0 && Fp.le (bp.getD i .nan) x then i else j) 0
/-- EACT (04 R105; 05 R123, R136). -/
def eactRun (c : Cell) (g : Guard) (td ra : Nat) : TileOut :=
  let a := (c.reg ra).toNat
  match spanFault [(a, 384)] with
  | some d => .fault d 0
  | none =>
    if c.isInt td then .fault 4 0
    else
      let bp := (List.range 32).map (c.vec a)
      let tab := c.rangeDross a 384
      c.writeTile g td 128 128 false (fun r k =>
        let x := f32 (c.elem td r k)
        let j := actIndex bp x
        let v := if x == .nan then (nan32, false) else rne32 (((c.vec (a + 128) j).mul x).add (c.vec (a + 256) j))
        (v.1, v.2, c.elemDross td r k || tab))

/-- One level of the tree of EROW (05 R123): neighbours are added in pairs and rounded. Each value carries whether it saturated. -/
def treeLevel : List (Word32 × Bool) → List (Word32 × Bool)
  | x :: y :: l => let r := rne32 (Fp.add (f32 x.1) (f32 y.1)); (r.1, r.2 || x.2 || y.2) :: treeLevel l
  | l => l
/-- The sum of 128 values in seven levels. -/
def treeSum (l : List (Word32 × Bool)) : Word32 × Bool :=
  (treeLevel (treeLevel (treeLevel (treeLevel (treeLevel (treeLevel (treeLevel l))))))).headD (0, false)
/-- The reduction of a row or column (04 R103; 05 R123), and whether it saturated. -/
def reduce (fn : Nat) (l : List Word32) : Word32 × Bool :=
  match fn with
  | 0 => treeSum (l.map (fun x => (x, false)))
  | 1 => rne32 ((l.map f32).foldl (fun (m : Option Fp) x => some (match m with | none => x | some y => Fp.max y x)) none |>.getD .nan)
  | _ => treeSum (l.map (fun x => rne32 (Fp.mul (f32 x) (f32 x))))
/-- EROW (04 R103, R104; 05 R123, R136). Each result that saturates counts once (05 R132); FIRST_TILE is the tile reduced (log entry 118). -/
def erowRun (c : Cell) (g : Guard) (ts ra : Nat) (axis : Bool) (fn : Nat) : TileOut :=
  let a := (c.reg ra).toNat
  if fn = 3 then .fault 1 0
  else match spanFault [(a, 512)] with
  | some d => .fault d 0
  | none =>
    if c.isInt ts then .fault 4 0
    else
      let at_ := fun (i j : Nat) => if axis then (j, i) else (i, j)
      let res := (List.range 128).map (fun i => reduce fn ((List.range 128).map (fun j => c.elem ts (at_ i j).1 (at_ i j).2)))
      let mark := (List.range 128).map (fun i => (List.range 128).any (fun j => c.elemDross ts (at_ i j).1 (at_ i j).2))
      let c' := (List.range 8).foldl (fun (x : Cell) l =>
        x.write (a + 64 * l) (((res.drop (16 * l)).take 16).map (fun w => leBytes 4 w.1.toNat)).flatten
          (((mark.drop (16 * l)).take 16).any (fun b => b))) c
      .ok c' (g.addSat (res.filter (fun w => w.2)).length ts)

/-- FP32 to INT32, nearest even, saturating; a NaN becomes 0; both count (05 R123). -/
def toInt32 (x : Fp) : Word32 × Bool :=
  match x with
  | .nan => (0, true)
  | .inf neg => (if neg then 0x80000000 else 0x7FFFFFFF, true)
  | .fin neg m e => let q : Int := roundAt .even m 1 e 0; satInt (if neg then -q else q)
/-- ECVT (04 R103; 05 R123, R136). -/
def ecvtRun (c : Cell) (g : Guard) (td ra : Nat) (axis dir : Bool) : TileOut :=
  if dir then
    if c.isInt td then .fault 4 0
    else c.writeTile g td 128 128 true (fun r k =>
      let v := toInt32 (f32 (c.elem td r k))
      (v.1, v.2, c.elemDross td r k))
  else
    let a := (c.reg ra).toNat
    match spanFault [(a, 512)] with
    | some d => .fault d 0
    | none =>
      if !(c.isInt td) then .fault 4 0
      else c.writeTile g td 128 128 false (fun r k =>
        let j := if axis then k else r
        let v := rne32 ((fpInt (c.elem td r k).toInt).mul (c.vec a j))
        (v.1, v.2, c.elemDross td r k || c.rangeDross (a + 4 * j) 4))

end Sys2Proof.Machine
end

