-- ==== Sys2Proof/Machine/Quant.lean ====
section
/-!
DEFINITION. QNT and QNTS (05 R124-R127, R133-R136; 04 R103, R104): scales, codes, clipping, the excursion monitor.
-/

namespace Sys2Proof.Machine

/-- Emax of a QNT target (05 R116) as m * 2^e. -/
def emaxOf (f : Nat) : Nat × Int :=
  if f ≤ 6 then (match (fmtOf f).decode (fmtOf f).maxCode with | .fin _ m e => (m, e) | _ => (0, 0))
  else if f = 7 then (127, -6) else if f = 8 then (127, 0) else (7, 0)

/-- Code of the largest magnitude of a QNT target with a sign; integers are symmetric (05 R116). -/
def maxOf (f : Nat) (neg : Bool) : Nat :=
  if f ≤ 6 then (fmtOf f).signed neg (fmtOf f).maxCode
  else
    let b := fmtBits f
    let k : Nat := if f = 9 then 7 else 127
    if neg then 2 ^ b - k else k

/-- Code nearest to a magnitude n * 2^e / d with a sign, and whether it clipped (05 R126). -/
def quantMag (f : Nat) (r : Rnd) (neg : Bool) (n d : Nat) (e : Int) : Nat × Bool :=
  if f ≤ 6 then
    let c := (fmtOf f).round r n d e
    if (fmtOf f).maxCode < c then (maxOf f neg, true) else ((fmtOf f).signed neg c, false)
  else
    let q := roundAt r n d e (if f = 7 then -6 else 0)
    let k : Nat := if f = 9 then 7 else 127
    if k < q then (maxOf f neg, true) else (if neg && q != 0 then 2 ^ fmtBits f - q else q, false)

/-- The scale of an element as QNT and QNTS use it: a NaN scale, or X as a signed dyadic number. -/
inductive Xs where
  | nan
  | val (d : Dy)
  deriving DecidableEq, Repr

/-- The code of an element under a scale, and whether it clipped (05 R126, R127). mx: the block is written as zeros. -/
def quantEl (f : Nat) (r : Rnd) (x : Fp) (s : Xs) (mx : Bool) : Nat × Bool :=
  if mx then (0, false) else
  match x, s with
  | .nan, _ => if f ≤ 3 then ((fmtOf f).nan.getD 0, false) else (0, true)
  | _, .nan => (0, false)
  | .inf neg, .val d => (maxOf f (neg != decide (d.m < 0)), true)
  | .fin neg m e, .val d =>
    if m = 0 then (0, false)
    else if d.m = 0 then (maxOf f neg, true)
    else quantMag f r (neg != decide (d.m < 0)) m d.m.natAbs (e - d.e)

/-- Largest magnitude among the values of a list that p takes. -/
def amaxOf (l : List Fp) : Nat × Int :=
  l.foldl (fun m x => match x with | .fin _ a e => magMax m (a, e) | _ => m) (0, 0)

/-- The E8M0 code that QNT writes for a block (05 R124). -/
def e8m0For (f : Nat) (l : List Fp) : Nat :=
  if l.any (· == .nan) then 255
  else if l.any (fun x => !x.isFin) then 254
  else
    let a := amaxOf l
    let t := emaxOf f
    if a.1 = 0 then 0
    else
      let k := floorLog2 a.1 t.1 (a.2 - t.2)
      -- ceiling of log2: one more unless the quotient is the power of two itself
      let up := if a.1 * pow2 (a.2 - t.2 - k) = t.1 * pow2 (t.2 + k - a.2) then k else k + 1
      if 127 < up then 254 else if up < -127 then 0 else (up + 127).toNat

/-- The tile scale that QNT writes (05 R125). -/
def tileScaleFor (f : Nat) (l : List Fp) : Nat :=
  let a := amaxOf l
  let t := emaxOf f
  if a.1 = 0 then 0x3F800000 else binary32.round .up a.1 (448 * t.1) (a.2 - t.2)

/-- The sub-scale that QNT writes for a half-block under tile scale t (05 R125). -/
def subScaleFor (f : Nat) (t : Nat) (l : List Fp) : Nat :=
  let a := amaxOf l
  if a.1 = 0 then (if l.any (fun x => !x.isFin && x != .nan) then 0x7E else 0)
  else
    let k := emaxOf f
    match binary32.decode t with
    | .fin _ tm te => e4m3.round .up a.1 (tm * k.1) (a.2 - te - k.2)
    | _ => 0

/-- Scale X of half h of a block from its scale bytes and the tile scale (05 R117, R127). -/
def xsOf (sm : Nat) (t : Nat) (b : List Byte) (h : Nat) : Xs :=
  match sm with
  | 1 => (match e8m0 (fld b 0 1) with | some d => .val d | none => .nan)
  | 2 => (match subScale (fld b h 1), binary32.decode t with
    | some d, .fin neg m e => .val (d.mul (Fp.fin neg m e).dy)
    | _, _ => .nan)
  | _ => .val { m := 1, e := 0 }

/-- One rounded term of the monitor's sums (05 R134). -/
def sq32 (x : Fp) : Fp := f32 (rne32 (x.mul x)).1

/-- The excursion code of a block from its finite elements and their decoded codes (05 R134); none when it gets no code. -/
def excCode (pairs : List (Fp × Fp)) : Option Nat :=
  let sum := fun (l : List Fp) => l.foldl (fun (a : Fp) x => f32 (rne32 (a.add x)).1) (.fin false 0 0)
  let e := sum (pairs.map (fun p => sq32 (f32 (rne32 (p.2.add p.1.neg)).1)))
  let s := sum (pairs.map (fun p => sq32 p.1))
  match e, s with
  | .fin _ em ee, .fin _ m se =>
    if m = 0 then none
    else if em = 0 then some 255
    else some (min 255 (floorLog2 (m ^ 4) (em ^ 4) (4 * (se - ee))).toNat)
  | _, _ => none

/-- What QNT writes, block by block. -/
structure QntAcc where
  cell : Cell
  guard : Guard
  deriving DecidableEq, Repr

/-- The fields QNT and QNTS share, registers already read. given is RC of QNTS. -/
structure QntArgs where
  ts : Nat
  f : Nat
  sm : Nat
  axis : Bool
  rnd : Nat
  ra : Nat
  rb : Nat
  given : Option Nat
  deriving DecidableEq, Repr

/-- Position of element i of block j in panel p (04 R104). -/
def qntAt (axis : Bool) (p j i : Nat) : Nat × Nat := if axis then (32 * p + i, j) else (j, 32 * p + i)

/-- One block of QNT as it comes out: its codes, scale bytes, clipped elements, excursion code and dross. -/
structure QBlk where
  codes : List Nat
  scale : List Byte
  clipped : Nat
  code : Option Nat
  dross : Bool
  deriving DecidableEq, Repr

/-- Quantize a block (05 R124-R127, R134). t is the tile scale. -/
def qntBlock (c : Cell) (a : QntArgs) (t p j : Nat) : QBlk :=
  let at_ := (List.range 32).map (qntAt a.axis p j)
  let xs := at_.map (fun q => c.val a.ts q.1 q.2)
  let r : Rnd := if a.rnd = 0 then .even else .zero
  let scale := match a.sm, a.given with
    | 0, _ => []
    | 1, none => leBytes 1 (e8m0For a.f xs)
    | 1, some g => c.bytes (scaleAddr 1 g p j) 1
    | _, none => leBytes 1 (subScaleFor a.f t (xs.take 16)) ++ leBytes 1 (subScaleFor a.f t (xs.drop 16))
    | _, some g => c.bytes (scaleAddr 2 g p j) 2
  let x0 := xsOf a.sm t scale 0
  let x1 := xsOf a.sm t scale 1
  let mx := decide (4 ≤ a.f) && decide (a.f ≤ 7) && xs.any (· == .nan)
  let qs := (List.range 32).map (fun i => quantEl a.f r (xs.getD i .nan) (if i < 16 then x0 else x1) mx)
  let dec := (List.range 32).map (fun i =>
    let d := (elemVal a.f (nth (qs.map (·.1)) i)).getD .nan
    let x := if i < 16 then x0 else x1
    (xs.getD i .nan, match x with | .val s => d.mul (s.fp false) | .nan => .nan))
  let noCode := mx || x0 == .nan || x1 == .nan
  { codes := qs.map (·.1)
    scale := scale
    clipped := (qs.filter (·.2)).length
    code := if noCode then none else excCode (dec.filter (fun q => q.1.isFin))
    dross := at_.any (fun q => c.elemDross a.ts q.1 q.2)
      || (match a.given with | some g => a.sm != 0 && c.rangeDross (scaleAddr a.sm g p j / 64 * 64) 64 | none => false) }

/-- The 32 codes of a block as bytes (05 R115). -/
def packCodes (f : Nat) (codes : List Nat) : List Byte :=
  leBytes (blockBytes f) ((List.zip (List.range 32) codes).foldl (fun v q => v + q.2 * 2 ^ (fmtBits f * q.1)) 0)

/-- Write data a 64-byte line at a time, with the mark of each line (05 R136, R137). -/
def Cell.writeLines (c : Cell) (a : Nat) (data : List Byte) (mark : Nat → Bool) : Cell :=
  (List.range ((data.length + 63) / 64)).foldl (fun c l => c.write (a + 64 * l) ((data.drop (64 * l)).take 64) (mark l)) c

/-- QNT and QNTS (04 R103, R104; 05 R124-R136). thr and trap are the safeguard word's fields, pc the instruction's index. -/
def qntRun (c : Cell) (g : Guard) (a : QntArgs) (thr pc : Nat) (trap : Bool) : TileOut :=
  let bb := blockBytes a.f
  let given := if a.sm = 0 then none else a.given
  if !(fmtDefined a.f) || 2 ≤ a.rnd then .fault 1 0
  else if !(isTarget a.f) || !(scaleAllowed a.f a.sm) then .fault 7 0
  else match spanFault ([(a.ra, 512 * bb)] ++ (if a.sm = 0 then [] else [(a.rb, scaleLen a.sm 4 128)])
      ++ (match given with | some r => [(r, scaleLen a.sm 4 128)] | none => [])) with
  | some d => .fault d 0
  | none =>
    let all := (List.range 16384).map (fun i => c.val a.ts (i / 128) (i % 128))
    let t := if a.sm = 2 then (match given with | some r => c.word r 4 | none => tileScaleFor a.f (all.filter Fp.isFin)) else 0
    let blks := (List.range 512).map (fun i => qntBlock c { a with given := given } t (i / 128) (i % 128))
    let g := blks.foldl (fun (g : Guard) b =>
      let g := g.addClipBlock b.clipped
      match b.code with | some k => g.addCode k thr pc trap | none => g) g
    let data := (blks.map (fun b => packCodes a.f b.codes)).flatten
    -- a data line is marked when a block with bytes in it is dross: blocks that share the line, by byte position
    let markData := fun (l : Nat) => (List.range 512).any (fun i =>
      decide (i * bb < 64 * l + 64) && decide (64 * l < i * bb + bb) && (blks.getD i { codes := [], scale := [], clipped := 0, code := none, dross := false }).dross)
    let per := if a.sm = 2 then 32 else 64
    let markScale := fun (l : Nat) => ((blks.drop (per * l)).take per).any (fun b => b.dross)
    let c1 := c.writeLines a.ra data markData
    let scales := (blks.map (fun b => b.scale)).flatten
    let c2 := match a.sm with
      | 0 => c1
      | 1 => c1.writeLines a.rb scales markScale
      | _ =>
        let head := match given with | some r => c.bytes r 64 | none => leBytes 4 t ++ zeros 60
        let dr := (c.tileDross.any (fun e => e.1 / 16384 == a.ts)) || (match given with | some r => c.rangeDross r 64 | none => false)
        (c1.write a.rb head dr).writeLines (a.rb + 64) scales markScale
    .ok c2 g

end Sys2Proof.Machine
end

