-- ==== Sys2Proof/Machine/Cell.lean ====
section
/-!
DEFINITION. How a matrix cell runs (04 R100-R107): issue and conflicts, the next PC and loops, faults and halts, the mover.
-/

namespace Sys2Proof.Machine

/-- Partition of a cell, 0 where it has none (such a cell never runs). -/
def State.cellPart (s : State) (i : Nat) : Nat := (s.ownerCell i).getD 0

/-- A tile instruction may issue on a cell: it runs a gang and waits for nothing (04 R100). -/
def State.mayIssue (s : State) (i : Nat) : Bool :=
  let c := s.cell i
  c.state == 1 && c.waiting.isNone && c.gang.isSome && (s.ownerCell i).isSome

/-- Two ranges (address, length) share a byte. -/
def overlaps (a b : Nat × Nat) : Bool := decide (a.1 < b.1 + b.2) && decide (b.1 < a.1 + a.2) && a.2 != 0 && b.2 != 0

/-- Mover accesses that have not returned, by queue and in order: queue, transfer, access. -/
def Cell.outstanding (c : Cell) : List (Nat × Transfer × Access) :=
  (c.movers.map (fun q => (q.2.map (fun t => (t.accesses.filter (fun a => !a.done)).map (fun a => (q.1, t, a)))).flatten)).flatten

/-- Ranges of the scratchpad that an instruction reads and writes. -/
structure Foot where
  reads : List (Nat × Nat) := []
  writes : List (Nat × Nat) := []
  deriving DecidableEq, Repr

/-- Mover transfers that have an access to return. -/
def Cell.inFlight (c : Cell) : List Transfer :=
  (c.movers.map (fun q => q.2.filter (fun t => t.accesses.any (fun a => !a.done)))).flatten

/-- An instruction conflicts with a mover transfer in flight (04 R100): its ranges are in use until every access has returned. -/
def Cell.conflicts (c : Cell) (f : Foot) : Bool :=
  c.inFlight.any (fun t => t.accesses.any (fun a =>
    let r := (a.spad, a.len)
    f.writes.any (overlaps r) || (!t.write && f.reads.any (overlaps r))))

/-- The instruction waits (04 R100, R114): state 2 on a tally, message, barrier or queue. -/
def State.holdInstr (s : State) (i : Nat) (ins : Instr) (state : Nat) : State :=
  s.updCell i (fun c => { c with waiting := some ins, state := state })

/-- Issue an instruction on a cell: it waits while it conflicts with a transfer in flight. -/
def State.issueTile (s : State) (i : Nat) (ins : Instr) (f : Cell → Foot) (r : State) : State :=
  if s.mayIssue i then (if (s.cell i).conflicts (f (s.cell i)) then s.holdInstr i ins 1 else r) else s

/-- The loops after the PC comes to t in program order (04 R103): a pass that ends begins the next, or leaves the loop. -/
def nextPc : List Loop → Nat → Nat × List Loop
  | [], t => (t, [])
  | l :: ls, t =>
    if t = l.last then (if 0 < l.left then (l.first, { l with left := l.left - 1 } :: ls) else nextPc ls t) else (t, l :: ls)

/-- A branch out of a loop body ends that loop and every loop inside it (04 R104). -/
def leaveLoops : List Loop → Nat → List Loop
  | [], _ => []
  | l :: ls, t => if l.first ≤ t ∧ t < l.last ∧ leaveLoops ls t = ls then l :: ls else leaveLoops ls t

/-- A task ends on a cell with a status once its transfers have ended (05 R139): HALT 0x00 after dross went out ends with DROSS. -/
def State.endTask (s : State) (n i : Nat) (status : StatusCode) : State :=
  let dross := match s.gangOf n ((s.cell i).gang.getD 0) with | some g => g.dross | none => false
  s.endCell n i (if status == St.ok && dross then St.dross else status) (status != St.ok)

/-- A cell halts at its instruction (04 R95, R107; 03 R79): no instruction issues after it, and earlier transfers end. -/
def State.haltCell (s : State) (n i : Nat) (status : StatusCode) : State :=
  if (s.cell i).moversIdle then s.endTask n i status
  else s.updCell i (fun c => { c with state := 5, halt := some status, waiting := none, bar := none })

/-- A tile instruction faults (04 R101). -/
def State.faultCell (s : State) (n i op detail aux : Nat) (status : StatusCode) : State :=
  (s.faultAt n i op detail aux status).haltCell n i status

/-- The PC takes a value: beyond CODE_LEN is a fault with DETAIL 0x09 (04 R101). DESIGN CHOICE: its OP is free, and its PC field is
the index reached, modulo 8192 (log entry 30). -/
def State.arrivePc (s : State) (n i pc : Nat) (loops : List Loop) : State :=
  let s := s.updCell i (fun c => { c with pc := pc, loops := loops })
  if (s.cell i).codeLen ≤ pc then s.tick.faultCell n i ((Config.freeValue s.freeCtr).toNat % 256) 9 0 St.denied else s

/-- Go on to the next instruction. -/
def State.advance (s : State) (n i : Nat) : State :=
  let c := s.cell i
  let r := nextPc c.loops (c.pc + 1)
  s.arrivePc n i r.1 r.2

/-- Branch by an offset (04 R103). -/
def State.branch (s : State) (n i : Nat) (off : Word32) : State :=
  let c := s.cell i
  let t := (c.pc : Int) + off.toInt
  -- an index below 0 lies beyond every CODE_LEN
  let t := if t < 0 then 2 ^ 13 + (t % 2 ^ 13).toNat else t.toNat
  s.arrivePc n i t (leaveLoops c.loops t)

/-- Set a context's safeguard counters. -/
def State.setGuard (s : State) (n c : Nat) (g : Guard) : State := s.updCtx n c (fun x => { x with guard := g })
/-- The safeguard counters that a cell's instructions count in. -/
def State.guardOf (s : State) (i : Nat) : Guard := (s.ctx (s.cellPart i) (s.cell i).ctx).guard

/-- A computing instruction ends: its results and counts, or its fault. -/
def State.compute (s : State) (i op : Nat) (o : TileOut) : State :=
  let n := s.cellPart i
  match o with
  | .ok c g => ((s.updCell i (fun _ => c)).setGuard n c.ctx g).advance n i
  | .fault d aux => s.faultCell n i op d aux (faultStatus d)

/-- A scalar instruction writes a register and goes on. -/
def State.scalar (s : State) (i rd : Nat) (v : Word32) : State :=
  if s.mayIssue i then (s.updCell i (fun c => c.setReg rd v)).advance (s.cellPart i) i else s

/-- HPA of a window register of a cell (03 R72): o is 0 BASE, 8 LIMIT, 0x10 PERM. -/
def winAddr (cell w o : Nat) : Nat :=
  regAddr (halfOfSite (cell / 16)) 7 (0x100000 + (cell / 16 % 6) * 0x10000 + (cell % 16) * 0x400 + w * 0x20 + o)
/-- BASE, LIMIT and PERM of a window. -/
def State.window (s : State) (cell w : Nat) : Nat × Nat × Nat := (s.reg (winAddr cell w 0), s.reg (winAddr cell w 8), s.reg (winAddr cell w 16))

/-- The alarm of a window access that fails its check (03 R70, R71), none where it is allowed. -/
def State.winCheck (s : State) (cell w : Nat) (write : Bool) (off len : Nat) : Option Nat :=
  let (base, limit, perm) := s.window cell w
  let ok := if write then perm.testBit 1 else perm.testBit 0
  if perm = 0 then some 0x105
  else if limit < base + off + len then some 0x104
  else if !ok then some 0x105 else none

/-- Accesses of a row: split at 4 KiB window boundaries (03 R70). -/
def rowAccesses : Nat → Nat → Nat → Nat → List (Nat × Nat × Nat)
  | 0, _, _, _ => []
  | fuel + 1, off, spad, len =>
    if len = 0 then []
    else
      let k := min len (4096 - off % 4096)
      (off, spad, k) :: rowAccesses fuel (off + k) (spad + k) (len - k)

/-- Accesses of a transfer in order: window offset, scratchpad address, length (04 R103, R106). DESIGN CHOICE: the offset of a row
does not wrap at 32 bits, which R103 leaves open (log entry 31). -/
def moveAccesses (off spad len rows step : Nat) : List (Nat × Nat × Nat) :=
  ((List.range rows).map (fun r => rowAccesses (len / 64 + 2) (off + r * step) (spad + r * len) len)).flatten

/-- AUX of a mover failure (04 R101). -/
def moverAux (q off : Nat) : Nat := q * 2 ^ 25 + bits off 31 12 * 2 ^ 5

/-- Drop from a queue the transfers at its front that have ended (04 R106). -/
def settleQueue : List Transfer → List Transfer
  | [] => []
  | t :: ts => if t.accesses.all (fun a => a.done) then settleQueue ts else t :: ts

/-- Change the transfers of a queue. -/
def Cell.updQ (c : Cell) (q : Nat) (f : List Transfer → List Transfer) : Cell := { c with movers := c.movers.upd [] q f }

/-- A mover access of a cell has failed with a status (04 R107; 03 R71): the transfer issues nothing more, the context is lost. -/
def State.moverFail (s : State) (n i q tid pc op off : Nat) (status : StatusCode) : State :=
  let c := s.cell i
  let s := s.recordFault n c.ctx (faultWord (pc % 8192) op 8 (moverAux q off) status)
  -- what waits with RELEASE for a write of the transfer never leaves (03 R80)
  let s := if (c.movers.get [] q).any (fun t => t.id == tid && t.write) then
    { s with egress := s.egress.filter (fun e => !(e.src == i) || decide (e.after ≤ tid)) } else s
  let s := s.updCell i (fun c => c.updQ q (fun l => settleQueue (l.filter (fun t => t.id != tid))))
  let s := s.loseCtx n c.ctx status
  s.haltCell n i status

/-- Issue the accesses of a transfer in order (03 R70; 08 R202): those that the site's regulator does not hold have left. -/
def State.issueAccesses (s : State) (n i base : Nat) (l : List (Nat × Nat × Nat)) : State × List Access :=
  l.foldl (fun (acc : State × List Access) a =>
    let stuck := acc.2.any (fun x => x.held)
    let r := if stuck then (acc.1.injHold (halfOfSite (i / 16)) (i / 16 % 6) n, false)
      else acc.1.inject (halfOfSite (i / 16)) (i / 16 % 6) n a.2.2
    (r.1, acc.2 ++ [{ off := a.1, ppa := base + a.1, spad := a.2.1, len := a.2.2, held := !r.2 }])) (s, [])

/-- Fields of a mover instruction, read from its registers. -/
structure MoveArgs where
  write : Bool
  op : Nat
  win : Nat
  spad : Nat
  off : Nat
  len : Nat
  rows : Nat
  step : Nat
  q : Nat
  deriving DecidableEq, Repr

/-- The DETAIL of a mover instruction that its fields make a fault (04 R101, R106). The step counts where it gives an offset, with more
than one row. DESIGN CHOICE: a length or a row count out of its range, or a length that is no multiple of 64, has DETAIL 0x01, which
the spec leaves open (log entry 31). -/
def MoveArgs.fault (a : MoveArgs) : Option Nat :=
  if a.len % 64 != 0 || a.len < 64 || 4194304 < a.len || a.rows < 1 || 4096 < a.rows then some 1
  else if a.spad % 64 != 0 || a.off % 64 != 0 || (decide (1 < a.rows) && a.step % 64 != 0) then some 3
  else if scratchBytes < a.spad + a.len * a.rows then some 2 else none

/-- MOVR, MOVW, MOVR2 and MOVW2 (04 R103, R106; 03 R70, R71). -/
def State.move (s : State) (i : Nat) (ins : Instr) (a : MoveArgs) : State :=
  let n := s.cellPart i
  match a.fault with
  | some d => s.faultCell n i a.op d 0 (faultStatus d)
  | none =>
    let c := s.cell i
    if 8 ≤ (c.movers.get [] a.q).length then s.holdInstr i ins 2
    else
      let all := moveAccesses a.off a.spad a.len a.rows a.step
      let good := all.takeWhile (fun x => (s.winCheck i a.win a.write x.1 x.2.2).isNone)
      let r := s.issueAccesses n i (s.window i a.win).1 good
      let t : Transfer := { id := c.nextXfer, write := a.write, pc := c.pc, op := a.op, accesses := r.2 }
      let s := r.1.updCell i (fun c => { c.updQ a.q (fun l => l ++ [t]) with nextXfer := c.nextXfer + 1 })
      match all[good.length]? with
      | some x =>
        let s := match s.winCheck i a.win a.write x.1 x.2.2 with | some src => s.alarm src n (some (.cell i)) | none => s
        -- the accesses before it run on; the cell halts when they have returned
        let s := s.recordFault n c.ctx (faultWord (c.pc % 8192) a.op 8 (moverAux a.q x.1) St.faultBounds)
        (s.loseCtx n c.ctx St.faultBounds).haltCell n i St.faultBounds
      | none => s.advance n i

/-- The bytes of a mover read reach the scratchpad line by line (04 R99, R106). -/
def Cell.fill (c : Cell) (a : Access) (data : List Byte) (marks : List Bool) : Cell :=
  (List.range (a.len / 64)).foldl (fun c l =>
    c.write (a.spad + 64 * l) (bslice data (64 * l) 64) (((marks.drop (64 * l)).take 64).any (fun b => b))) c

/-- A mover write is performed at its home line by line (05 R136): the state, the status, and the dross lines written. -/
def State.moverStore (s : State) (n i : Nat) (a : Access) : State × StatusCode × Nat :=
  let c := s.cell i
  (List.range (a.len / 64)).foldl (fun (acc : State × StatusCode × Nat) l =>
    if acc.2.1 = St.ok then
      let d := c.rangeDross (a.spad + 64 * l) 64
      let r := acc.1.ppaWrite n (a.ppa + 64 * l) (c.bytes (a.spad + 64 * l) 64) d (some (.cell i)) (acc.1.moverWrites (i / 16) n)
      (r.1, r.2, acc.2.2 + bit (d && r.2 == St.ok))
    else acc) (s, St.ok, 0)

/-- Mark an access as returned. -/
def doneAccess (tid spad : Nat) (l : List Transfer) : List Transfer :=
  settleQueue (l.map (fun t => if t.id = tid then { t with accesses := t.accesses.map (fun a => if a.spad = spad then { a with done := true } else a) } else t))

/-- Dross lines that a cell wrote out are counted (05 R138, R139). -/
def State.linesOut (s : State) (n i k : Nat) : State :=
  if k = 0 then s
  else
    let c := (s.cell i).ctx
    (s.setGuard n c ((s.ctx n c).guard.addLinesOut k)).updGang n ((s.cell i).gang.getD 0) (fun g => { g with dross := true })

/-- A mover access returns (04 R106, R107): its effect and its status. -/
def State.moverAccess (s : State) (n i : Nat) (t : Transfer) (a : Access) (err : Option StatusCode) : State × StatusCode :=
  match err.filter (fun st => st != St.ok) with
  | some st => (s, st)
  | none =>
    if t.write then
      let r := s.moverStore n i a
      (r.1.linesOut n i r.2.2, r.2.1)
    else
      let m := s.ppaMarks n a.ppa a.len
      let r := s.ppaRead n a.ppa a.len (s.moverReads (i / 16) n)
      if r.2.2.2 = St.ok then (r.1.updCell i (fun c => c.fill a r.2.1 m), St.ok) else (r.1, r.2.2.2)

end Sys2Proof.Machine
end

