-- ==== Sys2Proof/Machine/Cells.lean ====
section
/-!
DEFINITION. The commands of the matrix cells (04 R103): each tile instruction as it issues on a cell, mover accesses that return,
and the tally wait limit (03 R79). Each meaning stands on a function of the same instruction that a cell retries while it waits.
-/

namespace Sys2Proof.Machine

/-- No range. -/
def noFoot (_ : Cell) : Foot := {}

/-- NOP. -/
def State.doNop (s : State) (i : Nat) : State := if s.mayIssue i then s.advance (s.cellPart i) i else s
/-- NOP (04 R103). -/
def execNop (cell : CellId) (s : State) : Res' := closing (s.doNop cell.val)

/-- Ranges an MMA reads (04 R92-R94). -/
def mmaFoot (f : MmaF) (c : Cell) : Foot :=
  let m := 32 * (f.ms.val + 1)
  let n := 32 * (f.ns.val + 1)
  let k := f.kb.val + 1
  { reads := [((c.reg f.ra.val).toNat, operandLen f.fa.toNat k m), ((c.reg f.rb.val).toNat, operandLen f.fb.toNat k n)
             , ((c.reg f.rs.val).toNat, scaleLen f.sa.toNat k m), ((c.reg f.rt.val).toNat, scaleLen f.sb.toNat k n)
             , ((c.reg f.rx.val).toNat, if f.esc then (k - 1) * 512 + n * 4 else 0)] }
/-- MMA. -/
def State.doMma (s : State) (i : Nat) (f : MmaF) (ins : Instr) : State :=
  s.issueTile i ins (mmaFoot f) (
    let o := mmaRun (s.cell i) (s.guardOf i) f
    let o := match o with
      | .ok c g => .ok { c with mmaCycles := satAdd 64 c.mmaCycles (mmaCyclesOf f)
                                bankWait := satAdd 64 c.bankWait (Config.freeValue s.freeCtr).toNat } g
      | x => x
    s.tick.compute i 1 o)
/-- MMA (04 R89-R95, R103; 05 R115-R122). The cycles for which the array waits on operands (R98, R113) depend on bank timing that no
command carries: how many are counted is a free value (log entry 117). -/
def execMma (cell : CellId) (f : MmaF) (s : State) : Res' := closing (s.doMma cell.val f (.mma cell f))

/-- ZAC. -/
def State.doZac (s : State) (i td : Nat) (int : Bool) : State :=
  if s.mayIssue i then s.compute i 8 (zacRun (s.cell i) (s.guardOf i) td int) else s
/-- ZAC (04 R96, R103). -/
def execZac (cell : CellId) (td : Fin 4) (int32 : Bool) (s : State) : Res' := closing (s.doZac cell.val td.val int32)

/-- LDA. -/
def State.doLda (s : State) (i td f ra : Nat) (ins : Instr) : State :=
  s.issueTile i ins (fun c => { reads := [((c.reg ra).toNat, 16384 * ldaBytes f)] })
    (s.compute i 9 (ldaRun (s.cell i) (s.guardOf i) td f ra))
/-- LDA (04 R103, R104). -/
def execLda (cell : CellId) (td f : Fin 4) (ra : Fin 32) (s : State) : Res' :=
  closing (s.doLda cell.val td.val f.val ra.val (.lda cell td f ra))

/-- STA. -/
def State.doSta (s : State) (i ts f ra : Nat) (ins : Instr) : State :=
  s.issueTile i ins (fun c => { writes := [((c.reg ra).toNat, 16384 * ldaBytes f)] })
    (s.compute i 0x0A (staRun (s.cell i) (s.guardOf i) ts f ra))
/-- STA (04 R103, R104). -/
def execSta (cell : CellId) (ts f : Fin 4) (ra : Fin 32) (s : State) : Res' :=
  closing (s.doSta cell.val ts.val f.val ra.val (.sta cell ts f ra))

/-- Arguments of QNT and QNTS with the registers read. -/
def qntArgs (c : Cell) (f : QntF) (rc : Option Nat) : QntArgs :=
  { ts := f.ts.val, f := f.fmt.toNat, sm := f.sm.toNat, axis := f.axis, rnd := f.rnd.toNat, ra := (c.reg f.ra.val).toNat
    rb := (c.reg f.rb.val).toNat, given := rc.map (fun r => (c.reg r).toNat) }
/-- Ranges of QNT and QNTS. -/
def qntFoot (f : QntF) (rc : Option Nat) (c : Cell) : Foot :=
  let a := qntArgs c f rc
  { writes := [(a.ra, 512 * blockBytes a.f), (a.rb, scaleLen a.sm 4 128)]
    reads := match a.given with | some g => [(g, scaleLen a.sm 4 128)] | none => [] }
/-- QNT and QNTS on a cell. -/
def State.doQuant (s : State) (i op : Nat) (f : QntF) (rc : Option Nat) (ins : Instr) : State :=
  let c := s.cell i
  s.issueTile i ins (qntFoot f rc) (s.compute i op (qntRun c (s.guardOf i) (qntArgs c f rc) c.excThr c.pc c.excTrap))
/-- QNT (04 R103, R104; 05 R124-R136). -/
def execQnt (cell : CellId) (f : QntF) (s : State) : Res' := closing (s.doQuant cell.val 0x10 f none (.qnt cell f))
/-- QNTS (04 R103, R104; 05 R127). -/
def execQnts (cell : CellId) (f : QntF) (rc : Fin 32) (s : State) : Res' :=
  closing (s.doQuant cell.val 0x11 f (some rc.val) (.qnts cell f rc))

/-- An ELT instruction on two tiles. -/
def State.doElt (s : State) (i op : Nat) (run : Cell → Guard → TileOut) : State :=
  if s.mayIssue i then s.compute i op (run (s.cell i) (s.guardOf i)) else s
/-- EADD (04 R103; 05 R123). -/
def execEadd (cell : CellId) (td ts : Fin 4) (s : State) : Res' := closing (s.doElt cell.val 0x18 (fun c g => eaddRun c g td.val ts.val))
/-- EMUL. -/
def execEmul (cell : CellId) (td ts : Fin 4) (s : State) : Res' := closing (s.doElt cell.val 0x19 (fun c g => emulRun c g td.val ts.val))
/-- EMAX. -/
def execEmax (cell : CellId) (td ts : Fin 4) (s : State) : Res' := closing (s.doElt cell.val 0x1A (fun c g => emaxRun c g td.val ts.val))
/-- ECPY. -/
def execEcpy (cell : CellId) (td ts : Fin 4) (s : State) : Res' := closing (s.doElt cell.val 0x1B (fun c g => ecpyRun c g td.val ts.val))

/-- An ELT instruction that reads len bytes at a register's address. -/
def State.doVec (s : State) (i op ra len : Nat) (run : Cell → Guard → TileOut) (ins : Instr) : State :=
  s.issueTile i ins (fun c => { reads := [((c.reg ra).toNat, len)] }) (s.compute i op (run (s.cell i) (s.guardOf i)))
/-- ESCL (04 R103; 05 R123). -/
def State.doEscl (s : State) (i td ra : Nat) (axis : Bool) (ins : Instr) : State :=
  s.doVec i 0x1C ra 512 (fun c g => vecRun c g td ra axis Fp.mul) ins
/-- ESCL. -/
def execEscl (cell : CellId) (td : Fin 4) (ra : Fin 32) (axis : Bool) (s : State) : Res' :=
  closing (s.doEscl cell.val td.val ra.val axis (.escl cell td ra axis))
/-- EBIAS (04 R103; 05 R123). -/
def State.doEbias (s : State) (i td ra : Nat) (axis : Bool) (ins : Instr) : State :=
  s.doVec i 0x1D ra 512 (fun c g => vecRun c g td ra axis Fp.add) ins
/-- EBIAS. -/
def execEbias (cell : CellId) (td : Fin 4) (ra : Fin 32) (axis : Bool) (s : State) : Res' :=
  closing (s.doEbias cell.val td.val ra.val axis (.ebias cell td ra axis))
/-- EACT (04 R105). -/
def State.doEact (s : State) (i td ra : Nat) (ins : Instr) : State := s.doVec i 0x1E ra 384 (fun c g => eactRun c g td ra) ins
/-- EACT. -/
def execEact (cell : CellId) (td : Fin 4) (ra : Fin 32) (s : State) : Res' := closing (s.doEact cell.val td.val ra.val (.eact cell td ra))
/-- EROW (04 R103; 05 R123). -/
def State.doErow (s : State) (i ts ra : Nat) (axis : Bool) (fn : Nat) (ins : Instr) : State :=
  s.issueTile i ins (fun c => { writes := [((c.reg ra).toNat, 512)] }) (s.compute i 0x1F (erowRun (s.cell i) (s.guardOf i) ts ra axis fn))
/-- EROW. -/
def execErow (cell : CellId) (ts : Fin 4) (ra : Fin 32) (axis : Bool) (fn : BitVec 2) (s : State) : Res' :=
  closing (s.doErow cell.val ts.val ra.val axis fn.toNat (.erow cell ts ra axis fn))
/-- ECVT (04 R103; 05 R123). -/
def State.doEcvt (s : State) (i td ra : Nat) (axis dir : Bool) (ins : Instr) : State :=
  s.doVec i 0x20 ra (if dir then 0 else 512) (fun c g => ecvtRun c g td ra axis dir) ins
/-- ECVT. -/
def execEcvt (cell : CellId) (td : Fin 4) (ra : Fin 32) (axis dir : Bool) (s : State) : Res' :=
  closing (s.doEcvt cell.val td.val ra.val axis dir (.ecvt cell td ra axis dir))

/-- Low 10 bits of a register as a cell address (01 R17; log entry 32). -/
def Cell.addr (c : Cell) (r : Nat) : Nat := (c.reg r).toNat % 1024

/-- A send that fails ends with a status (03 R79, R84, R85): counted in the message word, and the task halts. -/
def State.sendFails (s : State) (n i dest b : Nat) (status : StatusCode) : State :=
  (s.msgFail n (s.cell i).ctx dest b status).haltCell n i status

/-- SND (03 R75-R80; 04 R103, R104; 05 R136). -/
def State.doSnd (s : State) (i : Nat) (f : SndF) (ins : Instr) : State :=
  let c := s.cell i
  let n := s.cellPart i
  let a := (c.reg f.ra.val).toNat
  let len := f.length.val
  s.issueTile i ins (fun _ => { reads := [(a, len)] }) (
    if len != 0 && decide (scratchBytes < a + len) then
      -- the message failed too (03 R81)
      (s.msgFail n c.ctx (c.addr f.rb.val) f.mailbox.val St.faultBounds).faultCell n i 0x28 2 0 St.faultBounds
    else
      let dest := c.addr f.rb.val
      let b := f.mailbox.val
      let key := msgKey i c.ctx
      match (s.msgSt key).entry dest b with
      | some t =>
        if t.dead then s.sendFails n i dest b St.siteDead
        else if t.void then s.sendFails n i dest b St.contextLost
        else
          let d := c.rangeDross a len
          let m : Msg := { header := headerOf dest i b len t.urgent d c.ctx (c.reg f.rc.val).toNat
                           payload := bslice (c.bytes a (min len 64)) 0 64 }
          let s := s.updMsg key (fun m => m.takeTallies dest b 1)
          let s := s.release { src := i, ctx := c.ctx, flight := .msg n i dest b m, after := if f.release then c.nextXfer else 0 }
          let s := if d then (s.setGuard n c.ctx (s.guardOf i).addMsg).updGang n (c.gang.getD 0) (fun g => { g with dross := true }) else s
          s.advance n i
      | none => if s.onDead dest then s.sendFails n i dest b St.siteDead else s.holdInstr i ins 2)
/-- SND. -/
def execSnd (cell : CellId) (f : SndF) (s : State) : Res' := closing (s.doSnd cell.val f (.snd cell f))

/-- RCV (03 R77, R78; 04 R103; 05 R136). -/
def State.doRcv (s : State) (i ra b : Nat) (nb : Bool) (rd : Nat) (ins : Instr) : State :=
  let c := s.cell i
  let n := s.cellPart i
  let a := (c.reg ra).toNat
  s.issueTile i ins (fun _ => { writes := [(a, 80)] }) (
    if scratchBytes < a + 80 then s.faultCell n i 0x29 2 0 St.faultBounds
    else match s.takeMsg n i c.ctx b with
    | (s, some m) =>
      let s := s.updCell i (fun c => c.write a m.bytes (m.header.testBit 95))
      (if nb then s.updCell i (fun c => c.setReg rd 1) else s).advance n i
    | (s, none) => if nb then (s.updCell i (fun c => c.setReg rd 0)).advance n i else s.holdInstr i ins 2)
/-- RCV. -/
def execRcv (cell : CellId) (ra : Fin 32) (mailbox : Fin 16) (nb : Bool) (rd : Fin 32) (s : State) : Res' :=
  closing (s.doRcv cell.val ra.val mailbox.val nb rd.val (.rcv cell ra mailbox nb rd))

/-- GRANT (03 R78; 04 R103): a refused grant changes nothing. -/
def State.doGrant (s : State) (i rb b k : Nat) : State :=
  let n := s.cellPart i
  if s.mayIssue i then ((s.grantFrom n i (s.cell i).ctx ((s.cell i).addr rb) b k).1).advance n i else s
/-- GRANT. -/
def execGrant (cell : CellId) (rb : Fin 32) (mailbox : Fin 16) (n : Fin 64) (s : State) : Res' :=
  closing (s.doGrant cell.val rb.val mailbox.val n.val)

/-- RTN (03 R78; 04 R103). -/
def State.doRtn (s : State) (i rb b k : Nat) : State :=
  let n := s.cellPart i
  if s.mayIssue i then (s.returnFrom n i (s.cell i).ctx ((s.cell i).addr rb) b k).advance n i else s
/-- RTN. -/
def execRtn (cell : CellId) (rb : Fin 32) (mailbox : Fin 16) (n : Fin 64) (s : State) : Res' :=
  closing (s.doRtn cell.val rb.val mailbox.val n.val)

/-- MBCFG (03 R77; 04 R103). -/
def State.doMbcfg (s : State) (i rb b : Nat) (standing urgent : Bool) : State :=
  if s.mayIssue i then
    (s.configBox (msgKey i (s.cell i).ctx) b ((s.cell i).addr rb) standing urgent).advance (s.cellPart i) i
  else s
/-- MBCFG. -/
def execMbcfg (cell : CellId) (rb : Fin 32) (mailbox : Fin 16) (standing urgent : Bool) (s : State) : Res' :=
  closing (s.doMbcfg cell.val rb.val mailbox.val standing urgent)

/-- The registers of a mover instruction; a one-row form has RD 1 and RE 0. -/
def moveArgs (c : Cell) (write : Bool) (op : Nat) (f : MovF) (rows step : Nat) : MoveArgs :=
  { write := write, op := op, win := f.win.val, spad := (c.reg f.ra.val).toNat, off := (c.reg f.rb.val).toNat, len := (c.reg f.rc.val).toNat
    rows := rows, step := step, q := f.qid.val }
/-- Ranges of a mover instruction: what a fault leaves out is none. -/
def moveFoot (a : MoveArgs) (_ : Cell) : Foot :=
  if a.fault.isSome then {} else if a.write then { reads := [(a.spad, a.len * a.rows)] } else { writes := [(a.spad, a.len * a.rows)] }
/-- A mover instruction issues. -/
def State.doMove (s : State) (i : Nat) (a : MoveArgs) (ins : Instr) : State := s.issueTile i ins (moveFoot a) (s.move i ins a)
/-- MOVR. -/
def State.doMovr (s : State) (i : Nat) (f : MovF) (ins : Instr) : State := s.doMove i (moveArgs (s.cell i) false 0x30 f 1 0) ins
/-- MOVR (04 R103, R106). -/
def execMovr (cell : CellId) (f : MovF) (s : State) : Res' := closing (s.doMovr cell.val f (.movr cell f))
/-- MOVW. -/
def State.doMovw (s : State) (i : Nat) (f : MovF) (ins : Instr) : State := s.doMove i (moveArgs (s.cell i) true 0x31 f 1 0) ins
/-- MOVW (04 R103, R106). -/
def execMovw (cell : CellId) (f : MovF) (s : State) : Res' := closing (s.doMovw cell.val f (.movw cell f))
/-- MOVR2. -/
def State.doMovr2 (s : State) (i : Nat) (f : MovF) (rd re : Nat) (ins : Instr) : State :=
  s.doMove i (moveArgs (s.cell i) false 0x32 f ((s.cell i).reg rd).toNat ((s.cell i).reg re).toNat) ins
/-- MOVR2 (04 R103, R106). -/
def execMovr2 (cell : CellId) (f : MovF) (rd re : Fin 32) (s : State) : Res' :=
  closing (s.doMovr2 cell.val f rd.val re.val (.movr2 cell f rd re))
/-- MOVW2. -/
def State.doMovw2 (s : State) (i : Nat) (f : MovF) (rd re : Nat) (ins : Instr) : State :=
  s.doMove i (moveArgs (s.cell i) true 0x33 f ((s.cell i).reg rd).toNat ((s.cell i).reg re).toNat) ins
/-- MOVW2 (04 R103, R106). -/
def execMovw2 (cell : CellId) (f : MovF) (rd re : Fin 32) (s : State) : Res' :=
  closing (s.doMovw2 cell.val f rd.val re.val (.movw2 cell f rd re))

/-- MWAIT (04 R103, R106). -/
def State.doMwait (s : State) (i q k ra : Nat) (ins : Instr) : State :=
  let c := s.cell i
  if s.mayIssue i then
    if (c.movers.get [] q).length ≤ k + (c.reg ra).toNat then s.advance (s.cellPart i) i else s.holdInstr i ins 2
  else s
/-- MWAIT. -/
def execMwait (cell : CellId) (qid : Fin 4) (n : Fin 64) (ra : Fin 32) (s : State) : Res' :=
  closing (s.doMwait cell.val qid.val n.val ra.val (.mwait cell qid n ra))

/-- WAIT (04 R103). -/
def State.doWait (s : State) (i rb b k : Nat) (ins : Instr) : State :=
  let c := s.cell i
  if s.mayIssue i then
    if k ≤ (s.msgSt (msgKey i c.ctx)).tallies (c.addr rb) b then s.advance (s.cellPart i) i else s.holdInstr i ins 2
  else s
/-- WAIT. -/
def execWait (cell : CellId) (rb : Fin 32) (mailbox : Fin 16) (n : Fin 64) (s : State) : Res' :=
  closing (s.doWait cell.val rb.val mailbox.val n.val (.wait cell rb mailbox n))

/-- A cell has executed BAR with a BID and MASK in a context of a partition (04 R103). -/
def State.atBar (s : State) (n c mask bid i : Nat) : Bool :=
  (s.cell i).bar == some (mask, bid) && (s.cell i).ctx == c && s.ownerCell i == some n
/-- BAR (04 R103): the last cell of MASK to come releases every cell that waits at it. -/
def State.doBar (s : State) (i mask bid : Nat) (ins : Instr) : State :=
  if s.mayIssue i then
    let n := s.cellPart i
    let c := (s.cell i).ctx
    let k := i / 16
    let s := (s.updCell i (fun x => { x with bar := some (mask, bid) })).holdInstr i ins 2
    if (maskList 16 mask).all (fun p => s.atBar n c mask bid (k * 16 + p)) then
      let l := ((List.range 16).map (fun p => k * 16 + p)).filter (s.atBar n c mask bid)
      forAll l (fun j s => (s.updCell j (fun x => { x with bar := none, waiting := none, state := 1 })).advance n j) s
    else s
  else s
/-- BAR. -/
def execBar (cell : CellId) (mask : BitVec 16) (bid : Fin 16) (s : State) : Res' :=
  closing (s.doBar cell.val mask.toNat bid.val (.bar cell mask bid))

/-- The mover writes that a FENCE on a cell waits for: each cell of its context, and the number below which its writes count. -/
def State.fenceSet (s : State) (i : Nat) : List (Nat × Nat) :=
  (s.cell i).fence.getD ((s.cellsOf (s.cellPart i) (s.cell i).ctx).map (fun j => (j, (s.cell j).nextXfer)))
/-- FENCE (04 R103): every earlier mover write of the context, on whichever of its cells. -/
def State.doFence (s : State) (i : Nat) (ins : Instr) : State :=
  if s.mayIssue i then
    let l := s.fenceSet i
    if l.all (fun x => (s.cell x.1).writesDone x.2) then (s.updCell i (fun c => { c with fence := none })).advance (s.cellPart i) i
    else (s.updCell i (fun c => { c with fence := some l })).holdInstr i ins 2
  else s
/-- FENCE. -/
def execFence (cell : CellId) (s : State) : Res' := closing (s.doFence cell.val (.fence cell))

/-- YLD (04 R108; 05 R132, R135): taken when the cell is asked or an excursion trap is pending; the save begins. -/
def State.doYld (s : State) (i lrt : Nat) : State :=
  if s.mayIssue i then
    let n := s.cellPart i
    let c := s.cell i
    let trap := (s.guardOf i).pending
    if c.asked || trap then
      let s := s.putGuard n c.ctx
      let r := nextPc c.loops (c.pc + 1)
      if c.codeLen ≤ r.1 then s.arrivePc n i r.1 r.2
      else
        let s := s.updCell i (fun c => { c with pc := r.1, loops := r.2, state := 3, yld := some lrt })
        if trap && !((s.sch n).gangs.any (fun g => g.task.ctx == c.ctx && g.excursion)) then
          -- the trap saves the gang: its other cells are asked. Its report clears PENDING (05 R135)
          let gid := c.gang.getD 0
          let s := s.updGang n gid (fun g => { g with excursion := true })
          forAll (s.gangCells n gid) (fun j s => s.askCell j) s
        else s
    else s.advance n i
  else s
/-- YLD. -/
def execYld (cell : CellId) (lrt : BitVec 16) (s : State) : Res' := closing (s.doYld cell.val lrt.toNat)

/-- LI (04 R103). -/
def execLi (cell : CellId) (rd : Fin 32) (imm : Word32) (s : State) : Res' := closing (s.scalar cell.val rd.val imm)
/-- ADDI. -/
def execAddi (cell : CellId) (rd ra : Fin 32) (imm : Word32) (s : State) : Res' :=
  closing (s.scalar cell.val rd.val ((s.cell cell.val).reg ra.val + imm))
/-- ANDI. -/
def execAndi (cell : CellId) (rd ra : Fin 32) (imm : Word32) (s : State) : Res' :=
  closing (s.scalar cell.val rd.val ((s.cell cell.val).reg ra.val &&& imm))
/-- ADD. -/
def execAdd (cell : CellId) (rd ra rb : Fin 32) (s : State) : Res' :=
  closing (s.scalar cell.val rd.val ((s.cell cell.val).reg ra.val + (s.cell cell.val).reg rb.val))
/-- SUB. -/
def execSub (cell : CellId) (rd ra rb : Fin 32) (s : State) : Res' :=
  closing (s.scalar cell.val rd.val ((s.cell cell.val).reg ra.val - (s.cell cell.val).reg rb.val))
/-- MUL: the low 32 bits. -/
def execMul (cell : CellId) (rd ra rb : Fin 32) (s : State) : Res' :=
  closing (s.scalar cell.val rd.val ((s.cell cell.val).reg ra.val * (s.cell cell.val).reg rb.val))
/-- SHLI. -/
def execShli (cell : CellId) (rd ra sh : Fin 32) (s : State) : Res' :=
  closing (s.scalar cell.val rd.val ((s.cell cell.val).reg ra.val <<< sh.val))
/-- SHRI: logical. -/
def execShri (cell : CellId) (rd ra sh : Fin 32) (s : State) : Res' :=
  closing (s.scalar cell.val rd.val ((s.cell cell.val).reg ra.val >>> sh.val))

/-- LOOP (04 R103, R104): RA passes of the next END instructions; RA or END 0 runs no body. -/
def State.doLoop (s : State) (i ra len : Nat) : State :=
  if s.mayIssue i then
    let n := s.cellPart i
    let c := s.cell i
    let k := (c.reg ra).toNat
    if k = 0 ∨ len = 0 then
      let r := nextPc c.loops (c.pc + 1 + len)
      s.arrivePc n i r.1 r.2
    else if 4 ≤ c.loops.length then s.faultCell n i 0x48 5 0 St.denied
    else s.arrivePc n i (c.pc + 1) ({ first := c.pc + 1, last := c.pc + 1 + len, left := k - 1 } :: c.loops)
  else s
/-- LOOP. -/
def execLoop (cell : CellId) (ra : Fin 32) (end_ : BitVec 16) (s : State) : Res' := closing (s.doLoop cell.val ra.val end_.toNat)

/-- BR (04 R103). -/
def execBr (cell : CellId) (off : Word32) (s : State) : Res' :=
  closing (onlyIf (s.mayIssue cell.val) (fun s => s.branch (s.cellPart cell.val) cell.val off) s)

/-- The condition COND of BRC (04 R103). -/
def branchTaken (cond : Nat) (a b : Word32) : Bool :=
  match cond with
  | 0 => a == b
  | 1 => a != b
  | 2 => a.slt b
  | 3 => !(a.slt b)
  | 4 => a.ult b
  | _ => !(a.ult b)
/-- BRC (04 R103): COND 6 and 7 are a fault with DETAIL 0x01. -/
def execBrc (cell : CellId) (ra rb : Fin 32) (cond : BitVec 3) (off : Word32) (s : State) : Res' :=
  let i := cell.val
  let c := s.cell i
  closing (onlyIf (s.mayIssue i) (fun s =>
    if 6 ≤ cond.toNat then s.faultCell (s.cellPart i) i 0x4A 1 0 St.denied
    else if branchTaken cond.toNat (c.reg ra.val) (c.reg rb.val) then s.branch (s.cellPart i) i off
    else s.advance (s.cellPart i) i) s)

/-- HALT (04 R103; 05 R139; 07 R182). -/
def execHalt (cell : CellId) (status : StatusCode) (s : State) : Res' :=
  closing (onlyIf (s.mayIssue cell.val) (fun s => s.haltCell (s.cellPart cell.val) cell.val status) s)

/-- RESERVED_OPCODE (04 R101, R102): an opcode not in the table, or a reserved bit set. A word that is an instruction is no such event
(log entry 13). -/
def execReservedOpcode (cell : CellId) (word : Word64) (s : State) : Res' :=
  closing (onlyIf (s.mayIssue cell.val && (tileInstr cell word.toNat).isNone) (fun s =>
    s.faultCell (s.cellPart cell.val) cell.val (opcodeOf word.toNat) 1 0 St.denied) s)

/-- Run the instruction of a cell that waits. -/
def State.rerun (s : State) (i : Nat) (ins : Instr) : State :=
  match ins with
  | .mma _ f => s.doMma i f ins
  | .lda _ td f ra => s.doLda i td.val f.val ra.val ins
  | .sta _ ts f ra => s.doSta i ts.val f.val ra.val ins
  | .qnt _ f => s.doQuant i 0x10 f none ins
  | .qnts _ f rc => s.doQuant i 0x11 f (some rc.val) ins
  | .escl _ td ra axis => s.doEscl i td.val ra.val axis ins
  | .ebias _ td ra axis => s.doEbias i td.val ra.val axis ins
  | .eact _ td ra => s.doEact i td.val ra.val ins
  | .erow _ ts ra axis fn => s.doErow i ts.val ra.val axis fn.toNat ins
  | .ecvt _ td ra axis dir => s.doEcvt i td.val ra.val axis dir ins
  | .snd _ f => s.doSnd i f ins
  | .rcv _ ra b nb rd => s.doRcv i ra.val b.val nb rd.val ins
  | .movr _ f => s.doMovr i f ins
  | .movw _ f => s.doMovw i f ins
  | .movr2 _ f rd re => s.doMovr2 i f rd.val re.val ins
  | .movw2 _ f rd re => s.doMovw2 i f rd.val re.val ins
  | .mwait _ q k ra => s.doMwait i q.val k.val ra.val ins
  | .wait _ rb b k => s.doWait i rb.val b.val k.val ins
  | .fence _ => s.doFence i ins
  | _ => s

/-- Try the instruction of a cell that waits again; a BAR waits for the others. -/
def State.retryCell (s : State) (i : Nat) : State :=
  let c := s.cell i
  match c.waiting with
  | some ins =>
    if c.bar.isSome || c.state = 5 then s
    else (s.updCell i (fun c => { c with waiting := none, state := 1 })).rerun i ins
  | none => s

/-- The cells of a context that wait at a FENCE try it again. -/
def State.wakeFences (s : State) (n c : Nat) : State :=
  forAll ((s.cellsOf n c).filter (fun j => (s.cell j).fence.isSome)) (fun j s => s.retryCell j) s

/-- What follows when a cell's transfers move on: a halted cell whose transfers have ended leaves its task. -/
def State.afterAccess (s : State) (n i : Nat) : State :=
  let c := s.cell i
  let s := s.wakeFences n c.ctx
  match c.halt with
  | some st => if c.state = 5 && c.moversIdle then s.endTask n i st else s
  | none => s.retryCell i

/-- The mover access k of a cell returns: k counts the accesses outstanding, by queue and in order; err is a failure from the
fabric (04 R106, R107). -/
def State.accessReturn (s : State) (i k : Nat) (err : Option StatusCode) : State :=
  let c := s.cell i
  match c.outstanding[k]? with
  | none => s
  | some (q, t, a) =>
    if a.held || (s.ownerCell i).isNone then s
    else
      let n := s.cellPart i
      let via := if t.write then s.moverWrites (i / 16) n else s.moverReads (i / 16) n
      let f := fun (s : State) =>
        match s.moverAccess n i t a err with
        | (s, st) =>
          if st = St.ok then (s.updCell i (fun c => c.updQ q (doneAccess t.id a.spad))).afterAccess n i
          else s.moverFail n i q t.id t.pc t.op a.off st
      if (err.filter (fun st => st != St.ok)).isSome then f s else s.onLines n a.ppa a.len via f

/-- MOVER_ACCESS_RETURN (04 R106, R107). -/
def execMoverAccessReturn (cell : CellId) (k : Nat) (err : Option StatusCode) (s : State) : Res' := closing (s.accessReturn cell.val k err)

/-- Destination and mailbox that a waiting instruction reports when its wait limit expires (03 R79, R81; log entry 33). -/
def waitTarget (i : Nat) (c : Cell) : Option Instr → Option (Nat × Nat)
  | some (.snd _ f) => some (c.addr f.rb.val, f.mailbox.val)
  | some (.wait _ rb b _) => some (c.addr rb.val, b.val)
  | some (.rcv _ _ b _ _) => some (i, b.val)
  | some (.bar _ _ _) => some (i, 0)
  | _ => none

/-- TALLY_WAIT_TIMEOUT (03 R79; 04 R104): the wait of SND, RCV, WAIT or BAR ends with TIMEOUT and the task halts. -/
def execTallyWaitTimeout (cell : CellId) (s : State) : Res' :=
  let i := cell.val
  let c := s.cell i
  closing (match waitTarget i c c.waiting with
    | some (dest, b) =>
      onlyIf (c.state == 2 && (s.ownerCell i).isSome) (fun s =>
        (s.updCell i (fun c => { c with waiting := none, bar := none, state := 1 })).sendFails (s.cellPart i) i dest b St.timeout) s
    | none => s)

end Sys2Proof.Machine
end

