-- ==== Sys2Proof/Machine/Hart.lean ====
section
/-!
DEFINITION. A service core as a RISC-V hart (06 R140, R142, R143, R148): its privilege mode, the exceptions and interrupts it takes, the
Sv39 and Sv48 translation of its addresses through page tables in the partition's PPA, and its reads and writes there. The layouts are
those of the RISC-V privileged specification 1.12 that R140 names (log entry 119).
-/

namespace Sys2Proof.Machine

/-- A core runs loaded code and waits in no instruction. -/
def State.coreRuns (s : State) (k : Nat) : Bool := !(s.core k).inReset && (s.core k).waiting.isNone && (s.ownerCore k).isSome
/-- Partition of a core, 0 where it has none (such a core never runs). -/
def State.corePart (s : State) (k : Nat) : Nat := (s.ownerCore k).getD 0
/-- Cell address of a core (01 R17). -/
def coreAddr (k : Nat) : Nat := 0x100 + k

/-- What a trap does to a core: the interrupted mode and interrupt enable are kept in mstatus, interrupts are off, the core runs in M-mode
(log entry 119). The saved pc is that of the instruction, an address that no command carries: a free value. -/
def Core.trap (c : Core) (epc : Word64) (cause : Nat) : Core :=
  { c with cause := cause, epc := epc, priv := 3, excs := c.excs + 1, waiting := none, again := c.waiting
           mstatus := setBits (setBits (setBits c.mstatus 12 11 c.priv) 7 7 (bits c.mstatus 3 3)) 3 3 0 }

/-- A core takes an exception (06 R143, R149): dross says whether it read a dross line (17 R451). -/
def State.coreFault (s : State) (k cause tval : Nat) (dross : Bool) : State :=
  s.tick.updCore k (fun c =>
    { c.trap (Config.freeValue s.freeCtr) cause with
      tval := tval, errDross := if cause = 1 || cause = 5 || cause = 7 then dross else c.errDross })

/-- The kinds of access that translation tells apart. -/
inductive VaKind where
  | load | store | fetch
  deriving DecidableEq, Repr

/-- Cause of an access fault (06 R143). -/
def VaKind.accessFault : VaKind → Nat
  | .fetch => 1 | .load => 5 | .store => 7
/-- Cause of a page fault. -/
def VaKind.pageFault : VaKind → Nat
  | .fetch => 12 | .load => 13 | .store => 15

/-- Levels of the page table of satp's MODE: 3 for Sv39, 4 for Sv48, none with translation off. M-mode is never translated. -/
def Core.levels (c : Core) : Nat := if c.priv = 3 then 0 else match bits c.satp 63 60 with | 8 => 3 | 9 => 4 | _ => 0

/-- A leaf permits an access: R, W, X with MXR, U with SUM, and A and D set. -/
def Core.leafOk (c : Core) (a : VaKind) (pte : Nat) : Bool :=
  (match a with
   | .load => pte.testBit 1 || (c.mstatus.testBit 19 && pte.testBit 3)
   | .store => pte.testBit 2 && pte.testBit 7
   | .fetch => pte.testBit 3)
  && pte.testBit 6 && (if c.priv = 0 then pte.testBit 4 else !(pte.testBit 4) || (c.mstatus.testBit 18 && a != .fetch))

/-- Walk a page table in Pn's PPA from the level below l: the physical address, or the cause of the fault. -/
def State.vaWalk (s : State) (n : Nat) (c : Core) (a : VaKind) (va : Nat) : Nat → Nat → Except Nat Nat
  | 0, _ => .error a.pageFault
  | l + 1, base =>
    let at_ := base + bits va (20 + 9 * l) (12 + 9 * l) * 8
    let r := s.ppaPeek n at_ 8
    let pte := ofLe r.1
    if !(s.inPpa n at_ 8) || r.2.2 != St.ok || r.2.1 then .error a.accessFault
    else if !(pte.testBit 0) || (pte.testBit 2 && !(pte.testBit 1)) || bits pte 63 54 != 0 then .error a.pageFault
    else if !(pte.testBit 1) && !(pte.testBit 3) then s.vaWalk n c a va l (bits pte 53 10 * 4096)
    else if !(c.leafOk a pte) || bits pte 53 10 % 2 ^ (9 * l) != 0 then .error a.pageFault
    else .ok (bits pte 53 10 * 4096 + va % 2 ^ (12 + 9 * l))

/-- The core physical address of a core's address (06 R142): itself with translation off. -/
def State.corePa (s : State) (k : Nat) (a : VaKind) (va : Nat) : Except Nat Nat :=
  let c := s.core k
  let top := 11 + 9 * c.levels
  if c.levels = 0 then .ok va
  else if bits va 63 top != 0 && bits va 63 top != 2 ^ (64 - top) - 1 then .error a.pageFault
  else s.vaWalk (s.corePart k) c a va c.levels (bits c.satp 43 0 * 4096)

/-- The physical pieces of an access, page by page, or the cause and the address of the fault. -/
def State.corePieces (s : State) (k : Nat) (a : VaKind) (va len : Nat) : Except (Nat × Nat) (List (Nat × Nat)) :=
  if (s.core k).levels = 0 then .ok [(va, len)]
  else (rowAccesses (len / 4096 + 2) va 0 len).foldr (fun x l =>
    match s.corePa k a x.1, l with
    | .error e, _ => .error (e, x.1)
    | .ok _, .error e => .error e
    | .ok pa, .ok l => .ok ((pa, x.2.2) :: l)) (.ok [])

/-- Why a core's read or write faults: the cause, the address, and whether it read a dross line. -/
structure CoreErr where
  cause : Nat
  addr : Nat
  dross : Bool := false
  deriving DecidableEq, Repr

/-- A core takes the fault of an access. -/
def State.coreErr (s : State) (k : Nat) (e : CoreErr) : State := s.coreFault k e.cause e.addr e.dross

/-- A core reads its partition's PPA at one physical piece (06 R142, R143; 17 R451). -/
def State.readPiece (s : State) (k pa len : Nat) : State × Except Bool (List Byte) :=
  let r := s.ppaRead (s.corePart k) pa len { cluster := some (k / 8) }
  (r.1, if r.2.2.2 != St.ok then .error false else if r.2.2.1 then .error true else .ok r.2.1)

/-- A core writes one physical piece of its partition's PPA (06 R143, R147). -/
def State.writePiece (s : State) (k pa : Nat) (data : List Byte) : State × StatusCode :=
  s.ppaWrite (s.corePart k) pa data false (some (.cluster (k / 8))) { cluster := some (k / 8) }

/-- A read of pieces in order: their bytes, or the error of the first that gives none. -/
def readPieces (rd : State → Nat × Nat → State × Except Bool (List Byte)) (s : State) (l : List (Nat × Nat)) : State × Except Bool (List Byte) :=
  l.foldl (fun (acc : State × Except Bool (List Byte)) p =>
    match acc.2 with
    | .error _ => acc
    | .ok b => let r := rd acc.1 p; (r.1, match r.2 with | .error d => .error d | .ok x => .ok (b ++ x))) (s, .ok [])

/-- Data cut into pieces. -/
def cutData : List (Nat × Nat) → List Byte → List (Nat × List Byte)
  | [], _ => []
  | p :: l, data => (p.1, data.take p.2) :: cutData l (data.drop p.2)

/-- A write of pieces: a piece that is refused ends it with nothing written, and answers false. -/
def writePieces (wr : State → Nat × List Byte → State × StatusCode) (s : State) (l : List (Nat × List Byte)) : State × Bool :=
  match l.find? (fun p => (wr s p).2 != St.ok) with
  | some p => ((wr s p).1, false)
  | none => (l.foldl (fun (s : State) p => (wr s p).1) s, true)

/-- A core reads its partition's PPA at an address of its own (06 R142, R143, R149). -/
def State.coreRead (s : State) (k va len : Nat) : State × Except CoreErr (List Byte) :=
  match s.corePieces k .load va len with
  | .error e => (s, .error { cause := e.1, addr := e.2 })
  | .ok l =>
    let r := readPieces (fun s p => s.readPiece k p.1 p.2) s l
    (r.1, match r.2 with | .error d => .error { cause := 5, addr := va, dross := d } | .ok b => .ok b)

/-- A core writes its partition's PPA at an address of its own: a fault ends it with nothing written (06 R149). -/
def State.coreWrite (s : State) (k va : Nat) (data : List Byte) : State × Option CoreErr :=
  match s.corePieces k .store va data.length with
  | .error e => (s, some { cause := e.1, addr := e.2 })
  | .ok l =>
    let r := writePieces (fun s p => s.writePiece k p.1 p.2) s (cutData l data)
    (r.1, if r.2 then none else some { cause := 7, addr := va })

/-- An Xfjm instruction runs on a core (06 R149): in U-mode with UEN 0 it raises an illegal-instruction exception, whose mtval is the
instruction, a word that the command does not carry: a free value. -/
def State.xfjm (s : State) (k : Nat) (f : State → State) : State :=
  if s.coreRuns k then
    (if (s.core k).priv = 0 && !(s.core k).uen then s.tick.coreFault k 2 (Config.freeValue s.freeCtr).toNat false else f s)
  else s

/-- An instruction reaches an Xfjm CSR on a core (06 R148): not from U-mode. -/
def State.xfjmCsr (s : State) (k : Nat) (f : State → State) : State :=
  if s.coreRuns k then
    (if (s.core k).priv = 0 then s.tick.coreFault k 2 (Config.freeValue s.freeCtr).toNat false else f s)
  else s

/-- An instruction word is an Xfjm instruction that R149 does not permit on a core: a funct7 other than 0, a funct3 not listed, an rs2
other than x0 where it must be, or U-mode while UEN is 0. -/
def Core.xfjmIllegal (c : Core) (w : Nat) : Bool :=
  let f3 := bits w 14 12
  (bits w 6 0 == 0x0B && (bits w 31 25 != 0 || (c.priv == 0 && !c.uen)))
    || (bits w 6 0 == 0x2B && (bits w 31 25 != 0 || decide (2 < f3) || ((f3 == 0 || f3 == 2) && bits w 24 20 != 0) || (c.priv == 0 && !c.uen)))

end Sys2Proof.Machine
end

