-- ==== Sys2Proof/Machine/Cores.lean ====
section
/-!
DEFINITION. The service cores (06): the Xfjm instructions (R148-R152), code loads (R144-R147), and waiting cells and cores that
something new may release.
-/

namespace Sys2Proof.Machine

/-- Every cell that waits tries its instruction again. -/
def State.wakeCells (s : State) : State :=
  forAll ((s.cells.filter (fun e => e.2.waiting.isSome)).map (·.1)) (fun i s => s.retryCell i) s

/-- An instruction returns a value in rd. -/
def State.coreRd (s : State) (k v : Nat) : State := s.updCore k (fun c => { c with rd := BitVec.ofNat 64 v, waiting := none })
/-- A core waits in an instruction. -/
def State.coreHold (s : State) (k : Nat) (ins : Instr) : State := s.updCore k (fun c => { c with waiting := some ins })

/-- FJ.SND and FJ.SNDNB (06 R149-R151). -/
def State.coreSnd (s : State) (k : Nat) (addr desc : Nat) (nb : Bool) (ins : Instr) : State :=
  let n := s.corePart k
  let dest := bits desc 9 0
  let b := bits desc 13 10
  let len := bits desc 20 14
  let key := addrKey (coreAddr k) 0
  if 64 < len || bits desc 31 22 != 0 then s.coreRd k St.denied.toNat
  else if addr % 64 != 0 then s.coreFault k 4 addr false
  else match s.coreRead k addr len with
  | (s, .error e) => s.coreErr k e
  | (s, .ok payload) =>
    match (s.msgSt key).entry dest b with
    | some t =>
      if t.dead then s.coreRd k St.siteDead.toNat
      else if t.void then s.coreRd k St.contextLost.toNat
      else
        let m : Msg := { header := headerOf dest (coreAddr k) b len t.urgent false (s.core k).ctx (bits desc 63 32), payload := bslice payload 0 64 }
        let s := s.updMsg key (fun m => m.takeTallies dest b 1)
        (s.release { src := coreAddr k, ctx := (s.core k).ctx, flight := .msg n (coreAddr k) dest b m }).coreRd k St.ok.toNat
    | none =>
      if s.onDead dest then s.coreRd k St.siteDead.toNat
      else if nb then s.coreRd k St.busy.toNat else s.coreHold k ins

/-- FJ_SND (06 R149-R151). -/
def execFjSnd (core : CoreId) (addr desc : Word64) (s : State) : Res' :=
  closing (s.xfjm core.val (fun s => s.coreSnd core.val addr.toNat desc.toNat false (.fjSnd core addr desc)))
/-- FJ_SNDNB: BUSY with no tally in hand. -/
def execFjSndnb (core : CoreId) (addr desc : Word64) (s : State) : Res' :=
  closing (s.xfjm core.val (fun s => s.coreSnd core.val addr.toNat desc.toNat true (.fjSndnb core addr desc)))

/-- FJ.RCV and FJ.RCVNB (06 R149): the message goes to rs1 to rs1 + 79. -/
def State.coreRcv (s : State) (k addr rs2 : Nat) (nb : Bool) (ins : Instr) : State :=
  let n := s.corePart k
  let b := bits rs2 3 0
  if addr % 16 != 0 then s.coreFault k 6 addr false
  else match ((s.msgSt (addrKey (coreAddr k) 0)).box b).held with
  | m :: _ =>
    match s.coreWrite k addr m.bytes with
    | (s, some e) => s.coreErr k e
    | (s, none) => ((s.takeMsg n (coreAddr k) 0 b).1).coreRd k St.ok.toNat
  | [] => if nb then s.coreRd k St.pending.toNat else s.coreHold k ins

/-- FJ_RCV (06 R149, R151). -/
def execFjRcv (core : CoreId) (addr rs2 : Word64) (s : State) : Res' :=
  closing (s.xfjm core.val (fun s => s.coreRcv core.val addr.toNat rs2.toNat false (.fjRcv core addr rs2)))
/-- FJ_RCVNB: PENDING with no message held. -/
def execFjRcvnb (core : CoreId) (addr rs2 : Word64) (s : State) : Res' :=
  closing (s.xfjm core.val (fun s => s.coreRcv core.val addr.toNat rs2.toNat true (.fjRcvnb core addr rs2)))

/-- FJ_GRANT (03 R78; 06 R149): on a matrix cell the tallies join the store of context fjctx (log entry 116). -/
def execFjGrant (core : CoreId) (rs1 rs2 : Word64) (s : State) : Res' :=
  let k := core.val
  closing (s.xfjm k (fun s =>
    let r := s.grantFrom (s.corePart k) (coreAddr k) (s.core k).ctx (bits rs1.toNat 9 0) (bits rs2.toNat 3 0) (bits rs2.toNat 9 4)
    r.1.coreRd k r.2.toNat))

/-- FJ_RTN (03 R78; 06 R149). -/
def execFjRtn (core : CoreId) (rs1 rs2 : Word64) (s : State) : Res' :=
  let k := core.val
  closing (s.xfjm k (fun s =>
    (s.returnFrom (s.corePart k) (coreAddr k) 0 (bits rs1.toNat 9 0) (bits rs2.toNat 3 0) (bits rs2.toNat 9 4)).coreRd k St.ok.toNat))

/-- FJ_MBCFG (03 R77; 06 R149). -/
def execFjMbcfg (core : CoreId) (rs1 rs2 : Word64) (s : State) : Res' :=
  let k := core.val
  closing (s.xfjm k (fun s =>
    (s.configBox (addrKey (coreAddr k) 0) (bits rs2.toNat 3 0) (bits rs1.toNat 9 0) (rs2.toNat.testBit 4) (rs2.toNat.testBit 5)).coreRd k
      St.ok.toNat))

/-- FJ.WAIT (06 R149, R151): on a dead entry or a dead site it returns SITE_DEAD, on void tallies CONTEXT_LOST (03 R84, R85). -/
def State.coreWait (s : State) (k rs1 rs2 : Nat) (ins : Instr) : State :=
  let m := s.msgSt (addrKey (coreAddr k) 0)
  let e := m.entry (bits rs1 9 0) (bits rs2 3 0)
  if (match e with | some t => t.dead | none => s.onDead (bits rs1 9 0)) then s.coreRd k St.siteDead.toNat
  else if (match e with | some t => t.void | none => false) then s.coreRd k St.contextLost.toNat
  else if bits rs2 9 4 ≤ m.tallies (bits rs1 9 0) (bits rs2 3 0) then s.coreRd k St.ok.toNat else s.coreHold k ins
/-- FJ_WAIT (06 R149, R151). -/
def execFjWait (core : CoreId) (rs1 rs2 : Word64) (s : State) : Res' :=
  closing (s.xfjm core.val (fun s => s.coreWait core.val rs1.toNat rs2.toNat (.fjWait core rs1 rs2)))

/-- FJ_TASK (06 R149; 07 R166-R168; 14 R388; 17 R451): a descriptor that is dross is not run. -/
def execFjTask (core : CoreId) (addr : Word64) (s : State) : Res' :=
  let k := core.val
  closing (s.xfjm k (fun s =>
    if (s.twin (s.corePart k)).state = 4 then s.coreRd k St.denied.toNat else
    match s.coreRead k addr.toNat 64 with
    | (s, .error e) => if e.dross then s.coreRd k St.dross.toNat else s.coreErr k e
    | (s, .ok b) =>
      let r := s.submitTask (s.corePart k) ((s.core k).ctx) b (.core k)
      r.1.coreRd k r.2.toNat))

/-- FJ_EVWAIT (06 R149, R151): rs1 0 returns 0 at once. -/
def execFjEvwait (core : CoreId) (rs1 : Word64) (s : State) : Res' :=
  let k := core.val
  closing (s.xfjm k (fun s =>
    if rs1 = 0 then s.coreRd k 0
    else s.updCore k (fun c => ({ c with waiting := some (.fjEvwait core rs1) } : Core).settleEvents)))

/-- The instruction of a core that waits runs again. -/
def State.retryCore (s : State) (k : Nat) : State :=
  if (s.core k).inReset then s
  else match (s.core k).waiting with
  | some (.fjSnd _ a d) => s.coreSnd k a.toNat d.toNat false (.fjSnd (Fin.ofNat 128 k) a d)
  | some (.fjRcv _ a b) => s.coreRcv k a.toNat b.toNat false (.fjRcv (Fin.ofNat 128 k) a b)
  | some (.fjWait _ a b) => s.coreWait k a.toNat b.toNat (.fjWait (Fin.ofNat 128 k) a b)
  | _ => s

/-- FJ_WAIT_TIMEOUT (06 R151): FJ.SND, FJ.RCV or FJ.WAIT returns TIMEOUT with nothing sent or taken. -/
def execFjWaitTimeout (core : CoreId) (s : State) : Res' :=
  let k := core.val
  closing (match (s.core k).waiting with
    | some (.fjSnd _ _ _) => s.coreRd k St.timeout.toNat
    | some (.fjRcv _ _ _) => s.coreRd k St.timeout.toNat
    | some (.fjWait _ _ _) => s.coreRd k St.timeout.toNat
    | _ => s)

/-- ILLEGAL_INSTRUCTION (06 R149): cause 2, the instruction in mtval or stval. Any other word is no such event (log entry 13). -/
def execIllegalInstruction (core : CoreId) (word : BitVec 32) (s : State) : Res' :=
  closing (onlyIf (s.coreRuns core.val && (s.core core.val).xfjmIllegal word.toNat) (fun s => s.coreFault core.val 2 word.toNat false) s)

/-- The cause of the interrupt that a core takes (06 R142, R148): a pending enabled event is local interrupt 16; MSIP raises the software
interrupt, and an MTIME that has reached MTIMECMP the timer interrupt. -/
def State.intCause (s : State) (k : Nat) : Nat :=
  let c := s.core k
  let word := fun (o n : Nat) => ofLe (Tab.getList 0 s.aclint (k / 8 * 65536 + o) n)
  if c.evt &&& c.evtie != 0 then 2 ^ 63 + 16
  else if (word (4 * (k % 8)) 4).testBit 0 then 2 ^ 63 + 3
  else if word (0x4000 + 8 * (k % 8)) 8 ≤ word 0xBFF8 8 then 2 ^ 63 + 7
  else c.cause

/-- CORE_INTERRUPT (06 R148, R151): a waiting instruction ends with nothing done, and the saved pc points at it. -/
def execCoreInterrupt (core : CoreId) (s : State) : Res' :=
  let k := core.val
  closing (onlyIf (!(s.core k).inReset) (fun s => s.tick.updCore k (fun c => c.trap (Config.freeValue s.freeCtr) (s.intCause k))) s)

/-- FJEVT_CLEAR (06 R148). -/
def execFjevtClear (core : CoreId) (mask : Word64) (s : State) : Res' :=
  closing (s.xfjmCsr core.val (fun s => s.updCore core.val (fun c => { c with evt := c.evt - (c.evt &&& mask.toNat) })))

/-- XFJM_CSR_WRITE (06 R148): a write of fjevt clears bits and sets none; fjerr ignores writes. -/
def execXfjmCsrWrite (core : CoreId) (csr : Csr) (value : Word64) (s : State) : Res' :=
  let v := value.toNat
  closing (s.xfjmCsr core.val (fun s => s.updCore core.val (fun c =>
    match csr with
    | .fjctx => { c with ctx := bits v 11 0 }
    | .fjtwait => { c with twait := max 100 (min v 1000000) }
    | .fjevt => { c with evt := c.evt &&& v }
    | .fjevtie => { c with evtie := v }
    | .fjctl => { c with uen := v.testBit 0 }
    | .fjerr => c)))

/-- Put the outcome of a code load (06 R145). -/
def State.codeStatus (s : State) (n token : Nat) (st : StatusCode) : State := s.updCode n (fun c => { c with token := token, status := st })

/-- A write of SEC_CODE_LOAD (06 R145, R146): a load waits for no activation of firmware (15 R401) and is not for a standby
partition (14 R388). -/
def State.writeCode (s : State) (n v : Nat) : State :=
  let token := bits v 63 56
  let clusters := bits v 55 40
  let stop := v.testBit 0
  let p := s.part n
  if (maskList 16 clusters).any (fun c => !(p.slice.clusters.testBit c)) || !(s.ready n)
      || (!stop && ((s.sec.fuses.confOnly && !p.conf) || (s.twin n).state = 4)) then s.codeStatus n token St.denied
  else if (s.code n).step != 0 || !s.logRoom || (!stop && s.sec.fwState = 4) then s.codeStatus n token St.busy
  else s.updCode n (fun c => { c with token := token, job := token, status := St.pending, step := 1, stop := stop, clusters := clusters, image := bits v 39 12 * 4096 })

/-- CODE_LOAD (06 R145, R146): a write of SEC_CODE_LOAD with STOP 0. -/
def execCodeLoad (p : Path) (n : PartId) (value : Word64) (s : State) : Res' :=
  closing (s.onPart p n.val (fun s => s.writeCode n.val (clearBit value.toNat 0)))
/-- CODE_STOP (06 R145, R146): a write of SEC_CODE_LOAD with STOP 1. -/
def execCodeStop (p : Path) (n : PartId) (value : Word64) (s : State) : Res' :=
  closing (s.onPart p n.val (fun s => s.writeCode n.val (setBit value.toNat 0)))

/-- Core addresses of a set of clusters. -/
def clusterCores (clusters : Nat) : List Nat := (maskList 16 clusters).flatMap (fun c => (List.range 8).map (fun k => c * 8 + k))

/-- The address is a core of a set of clusters. -/
def inClusters (clusters a : Nat) : Bool := decide (0x100 ≤ a) && decide (a < 0x180) && clusters.testBit ((a - 0x100) / 8)

/-- An agent writes a dirty line back and gives it up (06 R146 step 2; 09 R225); a line with an open transaction goes with that. -/
def State.flushLine (s : State) (h a l : Nat) : State :=
  let c := s.copyOf h a l
  let e := s.dirEnt h l
  if !(moesiDirty c.st) || e.txn.isSome then s
  else
    let s := s.setCopy h a l {}
    let s := if e.owner = a then s.setDir h l { e with st := if e.st == .o && e.sharers != 0 then .s else .i, owner := 15 } else s
    let s := s.putLine h l ((s.ownerPch (pchOfLine l)).getD 16) c.data c.dross .alloc
    let s := if homeOf l = h then s else
      { s with coh := { s.coh with copies := s.coh.copies.upd {} (proxyKey l) (fun p => { p with st := if p.st == .e then .m else p.st }) } }
    s.sendGrants h l e.part

/-- The dirty lines of a set of clusters are written back (06 R146 step 2). -/
def State.flushClusters (s : State) (clusters : Nat) : State :=
  forAll (maskList 16 clusters) (fun c s => forAll (s.linesOfAgent (c / 8) (c % 8)) (fun l s => s.flushLine (c / 8) (c % 8) l) s) s

/-- A load or stop ends: SEC_CODE_STATUS shows its own TOKEN and outcome, whatever was refused meanwhile (06 R145). -/
def State.codeEnds (s : State) (n : Nat) (st : StatusCode) : State :=
  s.updCode n (fun c => { c with step := 0, token := c.job, status := st })

/-- Clusters stop (06 R146 step 2): cores in reset, dirty lines written back, mailboxes emptied, granted tallies void, held tallies returned. -/
def State.stopClusters (s : State) (n clusters : Nat) : State :=
  let cores := clusterCores clusters
  let s := forAll cores (fun k s => s.updCore k (fun c => { c with inReset := true, waiting := none })) s
  let s := s.flushClusters clusters
  -- held tallies are returned
  let s := forAll cores (fun k s =>
    ((s.msgSt (addrKey (coreAddr k) 0)).store).foldl (fun (s : State) t =>
      s.release { src := coreAddr k, ctx := 0, flight := .ret n (coreAddr k) t.dest t.mailbox t.count t.ctx }) s) s
  let s := forAll cores (fun k s => { s with msgs := s.msgs.set {} (addrKey (coreAddr k) 0) {} }) s
  -- tallies they granted are void, and sends that wait for them end (03 R85)
  let s := { s with msgs := Tab.mapVals {} (fun _ (m : MsgState) =>
    { m with store := m.store.map (fun (t : Tally) => if inClusters clusters t.dest then { t with void := true } else t) }) s.msgs }
  let s := s.endCoreWaits n (fun c => waitsFor (inClusters clusters) c.waiting) St.contextLost
  let s := forAll ((s.cells.filter (fun e => match e.2.waiting with
    | some (.snd _ f) => inClusters clusters (e.2.addr f.rb.val)
    | _ => false)).map (·.1)) (fun i s =>
      match (s.cell i).waiting with
      | some (.snd _ f) =>
        (s.updCell i (fun c => { c with waiting := none, state := 1 })).sendFails (s.cellPart i) i ((s.cell i).addr f.rb.val) f.mailbox.val
          St.contextLost
      | _ => s) s
  s.updCode n (fun c => { c with running := (maskList 16 clusters).foldl clearBit c.running
                                 images := (c.images.map (fun i => { i with clusters := (maskList 16 clusters).foldl clearBit i.clusters })).filter
                                   (fun i => i.clusters != 0) })

/-- CLUSTERS_STOPPED (06 R146 step 2). -/
def execClustersStopped (n : PartId) (s : State) : Res' :=
  let c := s.code n.val
  closing (onlyIf (c.step == 1) (fun s =>
    let s := s.stopClusters n.val c.clusters
    if c.stop then s.codeEnds n.val St.ok else s.updCode n.val (fun c => { c with step := 2 })) s)

/-- The header of a service-code image (06 R144). -/
def codeHeaderOk (h : List Byte) : Bool :=
  let len := fld h 8 4
  bslice h 0 4 == [0x46, 0x4A, 0x53, 0x56] && fld h 4 2 == 0x0100 && fld h 6 2 == 256 && decide (len ≤ 67108864) && decide (352 ≤ len)
    && fld h 0xC 4 % 4 == 0 && decide (fld h 0xC 4 < len - 96) && (bslice h 0x12 46).all (fun b => b == 0)
    && (bslice h 0xA0 96).all (fun b => b == 0)

/-- The signature of an image is valid for a tenant (06 R144). -/
def codeSigned (tenant : BitVec 384) (image : List Byte) : Bool :=
  let len := fld image 8 4
  Config.sha384 (bslice image 0x40 96) == tenant
    && Config.ecdsaVerify (bslice image 0x40 96) (Config.sha384 (image.take (len - 96))) (bslice image (len - 96) 96)

/-- The check of an image ends (06 R146 steps 3 to 5). -/
def State.codeChecked (s : State) (n : Nat) : State :=
  let c := s.code n
  let fail := fun (s : State) (st : StatusCode) => s.codeEnds n st
  let h := s.ppaPeek n c.image 256
  let len := fld h.1 8 4
  if !(s.inPpa n c.image 256) then fail s St.faultBounds
  else if h.2.2 != St.ok || h.2.1 || !(codeHeaderOk h.1) then fail s St.denied
  else if !(s.inPpa n c.image len) then fail s St.faultBounds
  else
    let s := s.ppaReport n c.image len
    let r := s.ppaPeek n c.image len
    if r.2.2 != St.ok || r.2.1 || !(codeSigned (s.slice n).tenant r.1) then fail s St.denied
    else
      let m := Config.sha384 (digestBytes (s.part n).codeMeas ++ digestBytes (Config.sha384 r.1) ++ leBytes 2 c.clusters)
      let s := s.updPart n (fun p => { p with codeMeas := m, tenantSvns := p.tenantSvns ++ [fld r.1 0x10 2] })
      let s := s.log 0x53 n St.ok 3 []
      let s := (s.codeEnds n St.ok).updCode n (fun c => { c with running := c.running ||| c.clusters,
                                                                  images := c.images ++ [{ base := c.image, len := len, clusters := c.clusters }] })
      forAll (clusterCores c.clusters) (fun k s => s.updCore k (fun x => { inReset := false, pc := c.image + fld r.1 0xC 4, excs := x.excs })) s

/-- CODE_IMAGE_CHECKED (06 R146). -/
def execCodeImageChecked (n : PartId) (s : State) : Res' := closing (onlyIf ((s.code n.val).step == 2) (fun s => s.codeChecked n.val) s)

/-- MESSAGE_INGRESS (03 R82, R469): what waits at an egress, or is presented whole, is judged. -/
def execMessageIngress (m : Presented) (s : State) : Res' :=
  closing (match m with
    | .queued k =>
      match s.egress[k]? with
      | none => s
      | some e =>
        onlyIf (s.mayLeave k e) (fun s =>
          let s := { s with egress := s.egress.eraseIdx k }
          match e.flight with
          | .msg _ src dest _ m =>
            match ingressOf src dest with
            | some at_ => (s.judgeMsg at_ m e.ctx (m.header.testBit 96)).wakeCells
            | none => s
          | .grant _ src dest b n urgent ctx => s.judgeGrant src ctx dest b n urgent
          | .ret _ src dest b n ctx => s.judgeRet src dest b n ctx) s
    | .message at_ header payload =>
      let src := bits header.toNat 117 108
      (s.judgeMsg at_ { header := header.toNat, payload := bslice payload 0 64 } (s.senderCtx src)
        (match (s.msgSt (addrKey src (s.senderCtx src))).entry (bits header.toNat 127 118) (bits header.toNat 107 104) with
          | some t => t.urgent
          | none => false)).wakeCells
    | .grant at_ src dest b n urgent =>
      if !(s.badAt at_ src.val) then s.judgeGrant src.val (s.senderCtx src.val) dest.val b.val n.val urgent
      else (s.badSource at_).wakeCells
    | .ret at_ src dest b n =>
      if !(s.badAt at_ src.val) then
        let c := s.senderCtx src.val
        let held := (s.msgSt (addrKey src.val c)).entry dest.val b.val
        -- a foreign endpoint's store is the hub's own (03 R78)
        if 0x200 ≤ src.val then
          let k := min n.val ((held.map (fun t => t.count)).getD 0)
          if k = 0 then s
          else (s.updMsg (addrKey src.val c) (fun m => m.takeTallies dest.val b.val k)).judgeRet src.val dest.val b.val k ((held.map (fun t => t.ctx)).getD 0)
        else s.judgeRet src.val dest.val b.val n.val ((held.map (fun t => t.ctx)).getD c)
      else (s.badSource at_).wakeCells)

/-- The cell or core at an address tries its waiting instruction again. -/
def State.wake (s : State) (a : Nat) : State :=
  if a < 192 then s.retryCell a else if 0x100 ≤ a ∧ a < 0x180 then s.retryCore (a - 0x100) else s

/-- Half of a cell address. -/
def halfOfAddr (a : Nat) : Nat := match siteOf a with | some k => halfOfSite k | none => halfOfCore (a - 0x100)

/-- MESSAGE_ARRIVAL (03 R76, R77, R84-R86; 08 R210): the k-th of what travels is a message and arrives, cycles FCLK cycles after its
ingress. -/
def execMessageArrival (k cycles : Nat) (s : State) : Res' :=
  closing (match s.takeFlight k 0 with
    | some (s, .msg p src dest b m) =>
      let s := if m.header.testBit 96 && decide (50 < cycles) && routeEnd src != routeEnd dest then s.noteMiss (halfOfAddr dest) 0 else s
      (s.arriveMsg p src dest b m).wake dest
    | _ => s)

/-- GRANT_ARRIVAL (03 R78, R85, R86): the k-th of what travels is a grant and arrives. -/
def execGrantArrival (k : Nat) (s : State) : Res' :=
  closing (match s.takeFlight k 1 with
    | some (s, .grant p src dest b n urgent ctx) => (s.arriveGrant p src dest b n urgent ctx).wake dest
    | _ => s)

/-- TALLY_RETURN_ARRIVAL (03 R78): the k-th of what travels is a return and arrives. -/
def execTallyReturnArrival (k : Nat) (s : State) : Res' :=
  closing (match s.takeFlight k 2 with
    | some (s, .ret p src dest b n ctx) => s.arriveRet p src dest b n ctx
    | _ => s)

end Sys2Proof.Machine
end

