-- ==== Sys2Proof/Machine/Fabric.lean ====
section
/-!
DEFINITION. The commands of the hub fabric (08) that act on no request of another chapter: responses nobody waits for, link
retry and lane repair, a chiplet that does not sink its data; and the agents that do not answer a snoop (09 R233).
-/

namespace Sys2Proof.Machine

/-- HPA of FAB_LINK_STATUS of router r of half h (08 R205). -/
def linkAddr (h r : Nat) : Nat := regAddr h 2 (0x200 + r * 8)
/-- RAS INDEX of a fabric link (17 R443). -/
def linkIndex (r port : Nat) : Nat := r * 256 + port
/-- Set the code of a router port (08 R207). -/
def State.setPort (s : State) (h r port code : Nat) : State :=
  s.setReg (linkAddr h r) (setBits (s.reg (linkAddr h r)) (4 * port + 3) (4 * port) code)
/-- Code of a router port. -/
def State.portCode (s : State) (h r port : Nat) : Nat := bits (s.reg (linkAddr h r)) (4 * port + 3) (4 * port)

/-- What is attached to local port p (4-6) of router r of half h (08 R191): none where nothing is; else the bit of FAB_ISOLATED of an agent
that may be isolated (R208). Half 1 mirrors half 0. -/
def portAgent (h r p : Nat) : Option (Option Nat) :=
  let x := if h = 0 then r % 8 else 7 - r % 8
  let y := r / 8
  let site := fun (k : Nat) => some (some (if h = 0 then k else 5 - k))
  if p = 4 then
    if y ≤ 1 then site (x / 2)
    else if y ≤ 5 then some (some (8 + x / 2 + 4 * ((y - 2) / 2)))
    else if 6 ≤ x then site 4
    else if 4 ≤ x then site 5
    else if x ≤ 1 then some (some (if y = 6 then 40 else 41))
    else if x = 2 && y == 6 && h != 0 then none else some none
  else if p = 5 then some none
  else if y = 2 then some (some (16 + x))
  else if y = 3 ∨ y = 4 then some (some (24 + x + 8 * (y - 3)))
  else if y = 5 && (x == 0 || x == 2 || x == 3) then some none else none

/-- FAB_LINK_STATUS as it reads (08 R207, R211): a local port with nothing attached shows 4, one whose agent is isolated 5. -/
def State.linkView (s : State) (h r : Nat) : Nat :=
  [4, 5, 6].foldl (fun v p => match portAgent h r p with
    | none => setBits v (4 * p + 3) (4 * p) 4
    | some (some b) => if s.isolated h b then setBits v (4 * p + 3) (4 * p) 5 else v
    | some none => v) (s.reg (linkAddr h r))

/-- UNEXPECTED_RESPONSE (08 R212): a response that nobody waits for is dropped and counted. -/
def execUnexpectedResponse (h : HalfId) (s : State) : Res' :=
  done (s.strayResponse h.val)

/-- LINK_RETRY (08 R207, R213; 17 R441): counted in RETRIES, a corrected error of the link; a port that retry does not mend
enters lane repair by the assay. -/
def execLinkRetry (h : HalfId) (router : Fin 64) (port : Fin 7) (repair : Bool) (s : State) : Res' :=
  let a := linkAddr h.val router.val
  let s := s.setReg a (setBits (s.reg a) 63 48 (satAdd 16 (bits (s.reg a) 63 48) 1))
  let s := s.corrected h.val 3 1
  done (if repair then
      (s.setPort h.val router.val port.val 2).queueAssay h.val
        { str := 3, index := linkIndex router.val port.val, scope := 255, addr := 0, detail := 0 }
    else s)

/-- The lane repair of a port ends (08 R213; 17 R449): the link carries flits again, or it is down and its half has failed. -/
def State.laneRepaired (s : State) (h r port : Nat) (ok : Bool) : State :=
  let drop := fun (l : List Assay) => l.filter (fun e => !(e.str == 3 && e.index == linkIndex r port))
  let s := s.updRas h (fun x => { x with queue := drop x.queue, testing := drop x.testing })
  if ok then (s.setPort h r port 0).rasRecord h 1 3 255 St.ok (linkIndex r port) 0 4 1 0
  else (s.setPort h r port 3).halfFail h

/-- LANE_REPAIR_DONE (08 R213). -/
def execLaneRepairDone (h : HalfId) (router : Fin 64) (port : Fin 7) (ok : Bool) (s : State) : Res' :=
  closing (onlyIf (s.portCode h.val router.val port.val == 2) (fun s => s.laneRepaired h.val router.val port.val ok) s)

/-- At least one module of site k is up: the limits of its chiplet count only then (13 R347). -/
def State.siteHears (s : State) (k : Nat) : Bool :=
  (List.range 4).any (fun u => ((s.site k).mods.get {} u).width != 0 && !((s.site k).mods.get {} u).busy)

/-- SINK_TIMEOUT (08 R196; 13 R347, R350 CAUSE 0x06): a foreign chiplet leaves its data in the ingress buffer for 10 us. -/
def execSinkTimeout (site : SiteId) (s : State) : Res' :=
  closing (onlyIf ((s.site site.val).kind == 2 && ((s.site site.val).state == 1 || (s.site site.val).state == 5) && s.siteHears site.val) (fun s => (s.siteDead site.val 6).wakeCells) s)

/-- SNOOP_TIMEOUT (09 R233): a cluster that does not answer is isolated and its lines are reclaimed, a chiplet's site is dead
(13 R347, R350 CAUSE 0x07), the proxy's silence is the failure of its half. -/
def execSnoopTimeout (h : HalfId) (agent : Fin 15) (line : Nat) (s : State) : Res' :=
  closing (match (s.dirEnt h.val line).txn with
    | some t => onlyIf (t.waits.testBit agent.val) (fun s =>
        if agent.val = 14 then s.halfFail (1 - h.val)
        else if agent.val < 8 then s.killAgent h.val agent.val
        else onlyIf (s.siteHears ((agent.val - 8) + 6 * h.val)) (fun s => (s.siteDead ((agent.val - 8) + 6 * h.val) 7).wakeCells) s) s
    | none => s)

end Sys2Proof.Machine
end

