-- ==== Sys2Proof/Machine/Coll.lean ====
section
/-!
DEFINITION. What the collectives of the ring (14 R381-R387) share: groups, descriptors, records, abort tokens, and their end when a
stack goes offline.
-/

namespace Sys2Proof.Machine

/-- Group g of Pn. -/
def State.group (s : State) (n g : Nat) : Group := (s.coll n).groups.get {} g
/-- Change group g of Pn. -/
def State.updGroup (s : State) (n g : Nat) (f : Group → Group) : State :=
  s.updColl n (fun c => { c with groups := c.groups.upd {} g f })

/-- A collective descriptor (14 R382). -/
structure CollDesc where
  op : Nat
  fmt : Nat
  group : Nat
  flags : Nat
  evCore : Nat
  evBit : Nat
  rsv : Nat
  count : Nat
  src : Nat
  dst : Nat
  srcScale : Nat
  dstScale : Nat
  endAddr : Nat
  tag : Nat
  deriving DecidableEq, Repr

/-- The descriptor that 64 bytes spell. -/
def collDesc (b : List Byte) : CollDesc :=
  { op := fld b 0 1, fmt := fld b 1 1, group := fld b 2 1, flags := fld b 3 1, evCore := fld b 4 1, evBit := fld b 5 1, rsv := fld b 6 2
    count := fld b 8 8, src := fld b 0x10 8, dst := fld b 0x18 8, srcScale := fld b 0x20 8, dstScale := fld b 0x28 8
    endAddr := fld b 0x30 8, tag := fld b 0x38 8 }

/-- The 32 bytes of a collective's record (14 R384). -/
def collRecord (d : CollDesc) (status : StatusCode) (step firstPos us seq : Nat) : List Byte :=
  leBytes 8 d.tag ++ leBytes 1 status.toNat ++ leBytes 1 step ++ leBytes 1 firstPos ++ zeros 1 ++ leBytes 4 us ++ zeros 8
    ++ leBytes 8 (2 ^ 63 + seq % 2 ^ 32)

/-- Write a collective's record and set its event (14 R384; 06 R152): a record that is not written sets none (06 R147; log entry 120). -/
def State.putRecord (s : State) (n : Nat) (d : CollDesc) (status : StatusCode) (step firstPos us : Nat) : State :=
  let s := s.updColl n (fun c => { c with recSeq := c.recSeq + 1 })
  let w := s.hubWrite n d.endAddr (collRecord d status step firstPos us (s.coll n).recSeq)
  let s := w.1
  if w.2 == St.ok && d.flags.testBit 0 && s.ownerCore d.evCore == some n then s.setEvent d.evCore (d.evBit % 64) else s

/-- Send an abort token of a group's collective in both directions (14 R386). -/
def State.abortTokens (s : State) (n g seq : Nat) : State :=
  let tok := leBytes 1 n ++ leBytes 1 g ++ leBytes 4 seq ++ leBytes 1 s.ring.position
  (s.ringSend 0 0 64 tok).ringSend 1 0 64 tok

/-- The steps both directions of a collective have reached. -/
def Coll.step (c : Coll) : Nat := min c.foreGot c.aftGot

/-- The collective in progress of a group ends (14 R384). -/
def State.endColl (s : State) (n g : Nat) (status : StatusCode) (firstPos us : Nat) : State :=
  match (s.group n g).running with
  | none => s
  | some c => (s.putRecord n (collDesc c.desc) status c.step firstPos us).updGroup n g (fun x => { x with running := none })

/-- It ends here with an abort token (14 R384-R387): this module's position sent the abort. -/
def State.failColl (s : State) (n g : Nat) (status : StatusCode) (us : Nat) : State :=
  match (s.group n g).running with
  | none => s
  | some c => (s.endColl n g status s.ring.position us).abortTokens n g c.seq

/-- Entries of Pn's descriptor ring; 0 where LOG2N is not 4-12 (14 R380). -/
def CollPart.len (c : CollPart) : Nat := let l := bits c.ring 59 56; if 4 ≤ l && l ≤ 12 then 2 ^ l else 0
/-- PPA of entry i of Pn's descriptor ring. -/
def CollPart.entry (c : CollPart) (i : Nat) : Nat := bits c.ring 39 6 * 64 + i * 64

/-- The descriptors of Pn that are posted and not begun. -/
def State.collPosted (s : State) (n : Nat) : List (List Byte) :=
  let c := s.coll n
  if c.len = 0 then [] else
  (List.range ((c.tail + c.len - c.head % c.len) % c.len)).map (fun i => (s.ppaPeek n (c.entry ((c.head + i) % c.len)) 64).1)

/-- Microseconds that no command tells (14 R384): a free value. -/
def State.freeUs (s : State) : Nat := (Config.freeValue s.freeCtr).toNat % 2 ^ 32

/-- Every collective of Pn, in flight and posted, ends with a status and an abort token (14 R387; 02 R49 step 1). -/
def State.collsEnd (s : State) (n : Nat) (status : StatusCode) (posted : List (List Byte)) : State :=
  let s := forAll (List.range 16) (fun g s => (s.tick.failColl n g status s.freeUs)) s
  let s := posted.foldl (fun s b =>
    let d := collDesc b
    let seq := (s.group n d.group).seq
    if 16 ≤ d.group then s.tick.putRecord n d status 0 0xFF s.freeUs
    else ((s.tick.putRecord n d status 0 s.ring.position s.freeUs).updGroup n d.group (fun x => { x with seq := seq + 1 })).abortTokens
      n d.group seq) s
  s.updColl n (fun c => { c with head := if c.len = 0 then c.head else c.tail % c.len })

end Sys2Proof.Machine
end

