-- ==== Sys2Proof/Machine/Hbm.lean ====
section
/-!
DEFINITION. The commands of the HBM controllers (10): requests at a controller, the write-combining buffer, zero-fill, stack
temperature, key rotation and the sweep.
-/

namespace Sys2Proof.Machine

/-- Serve a read at the controller (10 R243, R251, R257, R259, R262): its answer goes to the home, master 255. -/
def State.hmcReadNow (l : Nat) (s : State) : State :=
  let r := s.hbmPeek l
  let s := if s.lineOffline l || s.lineCleared l then s else s.charge l
  let s := if r.fails then s.reportFail l else s
  s.emit (.homeData 255 l r.status r.data r.dross)

/-- Serve a full-line write at the controller (10 R243, R259). -/
def State.hmcWriteNow (l : Nat) (data : List Byte) (dross : Bool) (s : State) : State :=
  let st := if s.lineOffline l then St.stackOffline else St.ok
  (s.hbmWrite l data dross).emit (.homeData 255 l st [] false)

/-- Serve a partial write at the controller (10 R243, R259). -/
def State.hmcPartialNow (l mask : Nat) (data : List Byte) (s : State) : State :=
  let st := if s.lineOffline l then St.stackOffline else St.ok
  (s.hbmPartial l mask data false).emit (.homeData 255 l st [] false)

/-- HMC_READ (10 R251): a read reaches a stack's controller. -/
def execHmcRead (line : Nat) (s : State) : Res' := done (s.hmcServe line (.hmcRead line) (State.hmcReadNow line))

/-- HMC_FULL_WRITE (10 R243). -/
def execHmcFullWrite (line : Nat) (data : List Byte) (dross : Bool) (s : State) : Res' :=
  done (s.hmcServe line (.hmcFullWrite line data dross) (State.hmcWriteNow line data dross))

/-- HMC_PARTIAL_WRITE (10 R243). -/
def execHmcPartialWrite (line : Nat) (mask : BitVec 64) (data : List Byte) (s : State) : Res' :=
  done (s.hmcServe line (.hmcPartialWrite line mask data) (State.hmcPartialNow line mask.toNat data))

/-- Serve a request that the regulator had held (10 R247). -/
def State.hmcHeldNow (c : Instr) (s : State) : State :=
  match c with
  | .hmcRead l => s.hmcReadNow l
  | .hmcFullWrite l d x => s.hmcWriteNow l d x
  | .hmcPartialWrite l m d => s.hmcPartialNow l m.toNat d
  | .rds h a l hint tally => s.agentRequest h.val a.val l tally .rds hint
  | .rdu h a l hint tally => s.agentRequest h.val a.val l tally .rdu hint
  | .homeRead h m l hint tally => s.homeAccess h.val m.val l tally { kind := .read, requester := 79, hint := hint }
  | .homeFullWrite h m l d x hint tally => s.homeAccess h.val m.val l tally (homeTxn .write hint 0 d x)
  | _ => s

/-- Release the held requests of a stack regulator, oldest first, while its account is open (10 R247; 08 R202). -/
def State.releaseStack (s : State) (k n : Nat) : State :=
  let key := k * 16 + n
  let mine := s.hbm.held.filter (fun e => e.1 == key)
  let s := { s with hbm := { s.hbm with held := s.hbm.held.filter (fun e => !(e.1 == key)) } }
  mine.foldl (fun s e =>
    if s.stkOpen k n then s.hmcHeldNow e.2
    else { s.stkHold k n with hbm := { (s.stkHold k n).hbm with held := s.hbm.held ++ [e] } }) s

/-- The region's cleared bit is set (10 R257). -/
def State.regionCleared (s : State) (pch r : Nat) : Bool := (s.pch pch).clearedAll && !((s.pch pch).zeroed.get false r)

/-- Line number of the first line of region r of a pseudo-channel. -/
def regionLine (pch r : Nat) : Nat := pch * pchLines + r * 1024

/-- Write zeros under the current slot to the lines of a region not written since the build, and clear its bit (10 R257). -/
def State.zeroRegion (s : State) (pch r : Nat) : State :=
  let base := regionLine pch r
  let w := (s.pch pch).written
  let inReg := fun (l : Nat) => decide (base ≤ l) && decide (l < base + 1024)
  let unwritten := (List.range 1024).filter (fun i => !(w.get false (base + i)))
  let cur := match s.ownerPch pch with | some n => (s.keys n).current | none => 0
  let s := { s with mem := s.mem.filter (fun e => !(inReg (e.1 / 64)) || w.get false (e.1 / 64))
                    lines := unwritten.foldl (fun t i => Tab.set {} t (base + i) { epoch := cur }) s.lines }
  s.updPch pch (fun p => { p with zeroed := p.zeroed.set false r true, written := p.written.keep (fun l => !(inReg l)) })

/-- Every region of the pseudo-channel has been zeroed: no cleared bit is left. -/
def State.passEnd (s : State) (pch : Nat) : State :=
  if 18432 ≤ (s.pch pch).zeroed.length then s.updPch pch (fun p => { p with clearedAll := false, zeroed := [], written := [] }) else s

/-- The first number from k on that a rising table does not list. -/
def firstGap : Tab Bool → Nat → Nat
  | [], k => k
  | (j, _) :: t, k => if j = k then firstGap t (k + 1) else k

/-- REGION_ZEROED (10 R257): the lines of a region that has been written to are zeroed and its bit clears. -/
def execRegionZeroed (pch : PchId) (region : Nat) (s : State) : Res' :=
  done (onlyIf (s.regionCleared pch.val region && decide (region < 18432) && !(s.lineOffline (regionLine pch.val region)))
    (fun s => (s.zeroRegion pch.val region).passEnd pch.val) s)

/-- ZERO_FILL_PASS_STEP (10 R257): the background pass zeroes the lowest region still cleared. -/
def execZeroFillPassStep (pch : PchId) (s : State) : Res' :=
  done (onlyIf ((s.pch pch.val).clearedAll && !(s.lineOffline (pch.val * pchLines)))
    (fun s => (s.zeroRegion pch.val (firstGap (s.pch pch.val).zeroed 0)).passEnd pch.val) s)

/-- WCB_AGE_TIMEOUT (10 R243, R244): the oldest entry is written by RMW. -/
def execWcbAgeTimeout (pch : PchId) (s : State) : Res' :=
  done (match (s.pch pch.val).wcb with
    | [] => s
    | e :: _ => s.rmw e)

/-- Threshold of level k, in degrees C (10 R258). -/
def levelTemp : Nat → Nat
  | 0 => 0 | 1 => 85 | 2 => 95 | 3 => 100 | _ => 105

/-- Level of a temperature that rises (10 R258). -/
def riseLevel (t : Nat) : Nat := if 105 ≤ t then 4 else if 100 ≤ t then 3 else if 95 ≤ t then 2 else if 85 ≤ t then 1 else 0

/-- Level that a falling temperature leaves (10 R258): each level is left 2 degrees below its threshold. -/
def fallLevel (t : Nat) : Nat → Nat
  | 0 => 0
  | k + 1 => if t + 2 ≤ levelTemp (k + 1) then fallLevel t k else k + 1

/-- Level after a sample; level 4 stays (10 R258). -/
def nextLevel (level t : Nat) : Nat := if level = 4 then 4 else max (riseLevel t) (fallLevel t level)

/-- Partitions that own a pseudo-channel of stack k. -/
def State.stackOwners (s : State) (k : Nat) : List Nat :=
  allParts.filter (fun n => s.claims n (fun x => bits x.pchs (k * 32 + 31) (k * 32) != 0))

/-- A RAS record on PF0 and on the VF of every partition that owns part of the stack (10 R258, R259; 17 R443 code 7). -/
def State.stackRecord (s : State) (k cls : Nat) (status : StatusCode) (action : Nat) : State :=
  let h := halfOfStack k
  let d := (s.stack k).level
  match s.stackOwners k with
  | [] => s.rasWrite h cls 7 255 status k 0 action 1 d
  | l => forAll l (fun n s => s.rasWrite h cls 7 n status k 0 action 1 d) s

/-- A stack goes offline (10 R259): its owners' collectives are aborted (14 R387). -/
def State.stackOffline (s : State) (k : Nat) : State :=
  let owners := s.stackOwners k
  let posted := owners.map (fun n => (n, s.collPosted n))
  let mine := s.hbm.held.filter (fun e => e.1 / 16 == k)
  let s := s.updStack k (fun t => { t with state := 4, level := 4 })
  let s := s.setIso (halfOfStack k) (8 + k % 8) true
  let s := { s with hbm := { s.hbm with held := s.hbm.held.filter (fun e => !(e.1 / 16 == k))
                                        pchs := Tab.mapVals {} (fun i p => if i / 32 = k then
                                          { p with wcb := [], clearedAll := false, zeroed := [], written := [] } else p) s.hbm.pchs }
                    mem := s.mem.filter (fun e => !(stackOfLine (e.1 / 64) == k))
                    lines := s.lines.keep (fun l => !(stackOfLine l == k)) }
  let s := mine.foldl (fun s e => s.hmcHeldNow e.2) s
  let s := posted.foldl (fun s q => s.collsEnd q.1 St.stackOffline q.2) s
  let s := s.stackRecord k 4 St.stackOffline 6
  forAll owners (fun n s => s.losePart n St.stackOffline) s

/-- STACK_TEMP_SAMPLE (10 R258, R259). -/
def execStackTempSample (stack : StackId) (temp : Nat) (s : State) : Res' :=
  let k := stack.val
  let old := (s.stack k).level
  let new := nextLevel old temp
  let s := s.updStack k (fun t => { t with temp := min temp 255, level := new })
  closing (if new = 4 && old != 4 then s.stackOffline k
    else if old < new && 2 ≤ new then s.stackRecord k 1 St.ok 0 else s)

/-- STACK_ONLINE (10 R259, R263): HMC_STACK_CTRL with OP 1 on an offline stack that has been below 85 degrees for 1 s. -/
def execStackOnline (p : Path) (stack : StackId) (value : BitVec 32) (cool : Bool) (s : State) : Res' :=
  let k := stack.val
  closing (s.onOperLate p (fun s =>
    onlyIf (bits value.toNat 1 0 == 1 && (s.stack k).state == 4 && cool && decide ((s.stack k).temp < 85))
      (fun s => s.updStack k (fun t => { t with state := 1 })) s))

/-- STACK_ONLINE_DONE (10 R259): the stack comes online with no partition's data; one that has reached level 4 again stays offline. -/
def execStackOnlineDone (stack : StackId) (s : State) : Res' :=
  let k := stack.val
  closing (onlyIf ((s.stack k).state == 1 && s.isolated (halfOfStack k) (8 + k % 8)) (fun s =>
    if riseLevel (s.stack k).temp = 4 then s.updStack k (fun t => { t with state := 4 })
    else (s.updStack k (fun t => { t with state := 2, level := riseLevel t.temp })).setIso (halfOfStack k) (8 + k % 8) false)
    s)

/-- Fresh keys in the other slot, which becomes current; the former current slot becomes PREVIOUS (10 R254 step 2). -/
def State.installRotate (s : State) (n : Nat) : State :=
  let g := s.hbm.keyGen
  let s := { s with hbm := { s.hbm with keyGen := g + 1 } }
  let s := s.updKeys n (fun k => { k with
    gen0 := if k.current = 0 then k.gen0 else some g
    gen1 := if k.current = 0 then some g else k.gen1
    current := 1 - k.current
    other := 1
    rotations := satAdd 16 k.rotations 1
    status := St.ok
    oldLines := (s.slice n).order.length * pchLines })
  let s := forAll (s.slice n).order (fun i s => s.updPch i (fun p => { p with sweep := 0 })) s
  s.log 0x40 n St.ok 3 []

/-- A write of HMC_KEY_CMD (10 R254, R256; 15 R394, R401). -/
def State.writeKeyCmd (s : State) (n v : Nat) : State :=
  let s := s.updKeys n (fun k => { k with token := bits v 63 56 })
  if bits v 1 0 != 1 || !(s.ready n) then s.updKeys n (fun k => { k with status := St.denied })
  else if (s.keys n).other = 1 || !s.logRoom || (s.keys n).status == St.pending || s.sec.fwState = 4 then
    s.updKeys n (fun k => { k with status := St.busy })
  else if s.sec.drbgHealthy then s.installRotate n
  else
    let s := s.updKeys n (fun k => { k with status := St.pending })
    { s with sec := { s.sec with keyWaits := s.sec.keyWaits ++ [.rotate n] } }

/-- ROTATE (10 R254): HMC_KEY_CMD through the partition alias, which alias windows of the VF show too (12 R316). -/
def execRotate (p : Path) (n : PartId) (value : Word64) (s : State) : Res' :=
  closing (if s.pathShut p || s.pwr.stage = 0 then s else if p == .partAlias n || p == .vf n then s.writeKeyCmd n.val value.toNat else s.regScope p)

/-- The previous slot's keys are destroyed (10 R254 step 4). -/
def State.endSweep (s : State) (n : Nat) : State :=
  let s := s.updKeys n (fun k => { k with gen0 := if k.current = 0 then k.gen0 else none
                                          gen1 := if k.current = 0 then none else k.gen1
                                          other := 2 })
  s.log 0x41 n St.ok 0 []

/-- One sweep step over a line (10 R254 step 3). -/
def State.sweepLine (s : State) (n l : Nat) : State :=
  if s.isRetired l || s.lineCleared l then s
  else if s.lineFails l then (s.reportFail l).storeLine l (zeros 64) true
  else if (s.lineMeta l).epoch = (s.keys n).current then s
  else s.storeLine l (s.memLine l) (s.lineMeta l).dross

/-- KEY_SWEEP_STEP (10 R254): pseudo-channel pch sweeps its next line. -/
def execKeySweepStep (n : PartId) (pch : PchId) (s : State) : Res' :=
  let i := (s.pch pch.val).sweep
  let l := pch.val * pchLines + i
  done (onlyIf ((s.keys n.val).other == 1 && s.ready n.val && (s.slice n.val).pchs.testBit pch.val && decide (i < pchLines)
      && !(s.lineOffline l)) (fun s =>
    let s := s.sweepLine n.val l
    let s := s.updPch pch.val (fun p => { p with sweep := i + 1 })
    let s := s.updKeys n.val (fun k => { k with oldLines := k.oldLines - 1 })
    if (s.keys n.val).oldLines = 0 then s.endSweep n.val else s) s)

/-- Retire the granule of a row (10 R240, R261, R262): it holds no data any more, and neither does a cache for it. -/
def State.retireRow (s : State) (h : Nat) (e : Assay) : State :=
  let pch := e.index % 1024
  let g := (pch * pchBytes + bits e.index 15 14 * 0x18000000 + bits e.index 31 16 * 16384 + bits e.index 11 10 * 4096) / 4096
  let s := s.updPch pch (fun p => { p with retiredCnt := satAdd 16 p.retiredCnt 1 })
  let s := { s with hbm := { s.hbm with retired := s.hbm.retired.set false g true }
                    mem := s.mem.filter (fun c => c.1 / 4096 != g), lines := s.lines.keep (fun l => l / 64 != g) }
  let s := forAll (List.range 64) (fun i s => if s.anyCopy (g * 64 + i) then
    (s.dropCopies (g * 64 + i)).setSlc (homeOf (g * 64 + i)) (g * 64 + i) none else s) s
  s.rasWrite h 2 1 e.scope St.dross e.index e.addr 5 1 e.detail

/-- The first spare of a bank that is good and holds no other row (10 R261): the banks have two (R263). -/
def freeSpare (l : List Repair) (sid pc bank row bad : Nat) : Option Nat :=
  let others := l.filter (fun r => r.sid == sid && r.pc == pc && r.bank == bank && r.row != row)
  (List.range 2).find? (fun i => !(bad.testBit i) && others.all (fun r => !(r.bad.testBit i) && (r.st == .retired || r.spare != i)))

end Sys2Proof.Machine
end

