-- ==== Sys2Proof/Machine/Pool.lean ====
section
/-!
DEFINITION. The pool unit (06 R158-R165).
-/

namespace Sys2Proof.Machine

/-- Pool p of Pn. -/
def State.pool (s : State) (n p : Nat) : Pool := s.pools.get {} (n * 4 + p)
/-- Change pool p of Pn. -/
def State.updPool (s : State) (n p : Nat) (f : Pool → Pool) : State := { s with pools := s.pools.upd {} (n * 4 + p) f }
/-- Slot k of a pool. -/
def Pool.slot (p : Pool) (k : Nat) : Slot := p.slots.get {} k
/-- Change a slot. -/
def Pool.updSlot (p : Pool) (k : Nat) (f : Slot → Slot) : Pool := { p with slots := p.slots.upd {} k f }

/-- Page i is free: no slot holds it and it is not deferred (06 R159). -/
def Pool.isFree (p : Pool) (i : Nat) : Bool := !(p.deferPages.contains i) && !(p.slots.any (fun e => e.2.pages.contains i))
/-- The free pages of a pool. -/
def Pool.freePages (p : Pool) : List Nat := (List.range p.total).filter p.isFree

/-- A free page of the pool: which one is free (log entry 35). -/
def State.pickPage (s : State) (p : Pool) : State × Nat :=
  let l := p.freePages
  (s.tick, l.getD ((Config.freeValue s.freeCtr).toNat % (max 1 l.length)) 0)

/-- Give one page to a slot: its list word is written first; FAULT_BOUNDS if that write is refused (06 R147, R159). -/
def State.givePage (s : State) (n p k : Nat) : State × Nat × StatusCode :=
  let q := s.pool n p
  let r := s.pickPage q
  let w := r.1.hubWrite n ((q.slot k).list + 4 * (q.slot k).pages.length) (leBytes 4 r.2)
  if w.2 = St.ok then
    (w.1.updPool n p (fun q => { q.updSlot k (fun x => { x with pages := x.pages ++ [r.2] }) with free := q.free - 1 }), r.2, St.ok)
  else (w.1, r.2, w.2)

/-- Give m pages to a slot. -/
def State.givePages (n p k : Nat) : Nat → State → State × StatusCode
  | 0, s => (s, St.ok)
  | m + 1, s =>
    let r := s.givePage n p k
    if r.2.2 = St.ok then State.givePages n p k m r.1 else (r.1, r.2.2)

/-- Result of a pool operation as rd shows it (06 R161). -/
def poolRd (status : StatusCode) (value value2 : Nat) : Nat := field 63 32 value + field 31 16 value2 + status.toNat

/-- Joins admitted in arrival order at STEP_BEGIN (06 R163 rules 3 and 4): how many, and the status of the list writes. -/
def State.letIn (n p : Nat) : Nat → Nat → State → State × Nat × StatusCode
  | 0, k, s => (s, k, St.ok)
  | fuel + 1, k, s =>
    let q := s.pool n p
    match q.queue with
    | [] => (s, k, St.ok)
    | j :: rest =>
      let need := (q.slot j).need
      if q.free < need + q.reserve + 1 then (s, k, St.ok)
      else
        let r := State.givePages n p j need s
        let s := r.1.updPool n p (fun q => { q.updSlot j (fun x => { x with state := 2, status := St.ok }) with
          queue := rest, reserve := q.reserve + 1, running := q.running + 1 })
        if r.2 = St.ok then State.letIn n p fuel (k + 1) s else (s, k + 1, r.2)

/-- STEP_BEGIN (06 R163). -/
def State.stepBegin (s : State) (n p : Nat) : State × Nat :=
  let q := s.pool n p
  if q.isOpen then (s, poolRd St.busy 0 0)
  else
    let free := q.free + q.deferPages.length
    let reserve := q.running + q.extra
    let s := s.updPool n p (fun q => { q with free := free, deferPages := [] })
    if free < reserve then
      -- no step is open: RESERVE reads 0, and what is queued has seen a STEP_BEGIN (R160)
      (s.updPool n p (fun q => q.queue.foldl (fun q j => q.updSlot j (fun x => { x with status := St.noMemory })) q),
       poolRd St.noMemory (reserve - free) q.queue.length)
    else
      let s := s.updPool n p (fun q => { q with isOpen := true, step := satAdd 32 q.step 1, reserve := reserve })
      let r := State.letIn n p 1024 0 s
      let left := (r.1.pool n p).queue
      let s := r.1.updPool n p (fun q => left.foldl (fun q j => q.updSlot j (fun x => { x with status := St.noMemory })) q)
      (s, poolRd r.2.2 r.2.1 left.length)

/-- STEP_END (06 R162). -/
def State.stepEnd (s : State) (n p : Nat) : State × Nat :=
  let q := s.pool n p
  if !q.isOpen then (s, poolRd St.denied 0 0)
  else
    let leaving := q.slots.filter (fun e => e.2.state == 3)
    let pages := (leaving.map (fun e => e.2.pages)).flatten
    (s.updPool n p (fun q => { q with
      deferPages := q.deferPages ++ pages, reserve := 0, isOpen := false
      slots := Tab.mapVals {} (fun _ x => if x.state = 3 then {} else { x with grew := false }) q.slots }),
     poolRd St.ok pages.length leaving.length)

/-- ALLOC with JOIN 1 (06 R162). -/
def State.poolJoin (s : State) (n p k rs2 : Nat) : State × Nat :=
  let q := s.pool n p
  let need := bits rs2 51 40
  let list := bits rs2 39 0
  if (q.slot k).state != 0 || need = 0 then (s, poolRd St.denied 0 0)
  else if s.ppaSize n < list + 16384 then (s, poolRd St.faultBounds 0 0)
  else if 1024 ≤ q.queue.length then (s, poolRd St.busy 0 0)
  else
    (s.updPool n p (fun q => { q.updSlot k (fun _ => { state := 1, need := need, list := list, status := St.pending }) with queue := q.queue ++ [k] }),
     poolRd St.pending q.queue.length 0)

/-- ALLOC with JOIN 0 (06 R162, R163 rules 5 and 7). -/
def State.poolGrow (s : State) (n p k : Nat) : State × Nat :=
  let q := s.pool n p
  let x := q.slot k
  if x.grew then (s, poolRd St.noMemory 0 0)
  else if !q.isOpen || x.state != 2 || 4095 ≤ x.pages.length then (s, poolRd St.denied 0 0)
  else
    let r := s.givePage n p k
    if r.2.2 = St.ok then
      (r.1.updPool n p (fun q => { q.updSlot k (fun x => { x with grew := true }) with reserve := q.reserve - 1 }),
       poolRd St.ok r.2.1 (x.pages.length + 1))
    else (r.1, poolRd r.2.2 0 0)

/-- FREE (06 R162). -/
def State.poolFree (s : State) (n p k : Nat) : State × Nat :=
  let q := s.pool n p
  let x := q.slot k
  if x.state = 1 then
    (s.updPool n p (fun q => { q.updSlot k (fun _ => {}) with queue := q.queue.filter (fun j => j != k) }), poolRd St.ok x.pages.length 0)
  else if x.state = 2 then
    if q.isOpen then
      (s.updPool n p (fun q => { q.updSlot k (fun x => { x with state := 3 }) with
        reserve := if x.grew then q.reserve else q.reserve - 1, running := q.running - 1 }), poolRd St.ok x.pages.length 0)
    else
      (s.updPool n p (fun q => { q.updSlot k (fun _ => {}) with deferPages := q.deferPages ++ x.pages, running := q.running - 1 }),
       poolRd St.ok x.pages.length 0)
  else (s, poolRd St.denied 0 0)

/-- RESERVE_SET (06 R162). -/
def State.reserveSet (s : State) (n p extra : Nat) : State × Nat :=
  if (s.pool n p).isOpen then (s, poolRd St.busy 0 0)
  else (s.updPool n p (fun q => { q with extra := extra }), poolRd St.ok extra 0)

/-- The operation that rs1 and rs2 of FJ.POOL name on pool p of Pn (06 R161): none where OP is reserved or a reserved bit is set. JOIN is
a bit of ALLOC alone. -/
def State.poolFn (s : State) (n p rs1 rs2 : Nat) : Option (State × Nat) :=
  let slot := bits rs1 28 16
  let ok := bits rs1 63 29 == 0 && bits rs1 15 11 == 0 && bits rs1 7 5 == 0 && bits rs1 3 2 == 0
  let plain := ok && !(rs1.testBit 4) && rs2 == 0
  match bits rs1 10 8 with
  | 0 =>
    if rs1.testBit 4 then (if ok && bits rs2 63 52 == 0 && bits rs2 1 0 == 0 then some (s.poolJoin n p slot rs2) else none)
    else if plain then some (s.poolGrow n p slot) else none
  | 1 => if plain then some (s.poolFree n p slot) else none
  | 2 => if plain then some (s.stepBegin n p) else none
  | 3 => if plain then some (s.stepEnd n p) else none
  | 4 => if ok && !(rs1.testBit 4) && bits rs2 63 16 == 0 then some (s.reserveSet n p (bits rs2 15 0)) else none
  | _ => none

/-- FJ.POOL on a core (06 R149, R161): DENIED with no effect for a reserved OP, a reserved bit or a pool with TOTAL 0. -/
def State.fjPool (s : State) (k : Nat) (rs1 rs2 : Word64) : State :=
  s.xfjm k (fun s =>
    let n := s.corePart k
    let p := bits rs1.toNat 1 0
    match s.poolFn n p rs1.toNat rs2.toNat with
    | some r => if (s.pool n p).total = 0 then s.coreRd k St.denied.toNat else r.1.coreRd k r.2
    | none => s.coreRd k St.denied.toNat)

/-- ALLOC_JOIN (06 R161, R162): FJ.POOL with OP 0 and JOIN 1. Each of these commands carries rs1 and rs2, and runs the operation that
they name. -/
def execAllocJoin (core : CoreId) (rs1 rs2 : Word64) (s : State) : Res' := closing (s.fjPool core.val rs1 rs2)
/-- ALLOC_GROWTH (06 R162, R163): OP 0 and JOIN 0. -/
def execAllocGrowth (core : CoreId) (rs1 rs2 : Word64) (s : State) : Res' := closing (s.fjPool core.val rs1 rs2)
/-- FREE (06 R162): OP 1. -/
def execFree (core : CoreId) (rs1 rs2 : Word64) (s : State) : Res' := closing (s.fjPool core.val rs1 rs2)
/-- STEP_BEGIN (06 R162, R163): OP 2. -/
def execStepBegin (core : CoreId) (rs1 rs2 : Word64) (s : State) : Res' := closing (s.fjPool core.val rs1 rs2)
/-- STEP_END (06 R162): OP 3. -/
def execStepEnd (core : CoreId) (rs1 rs2 : Word64) (s : State) : Res' := closing (s.fjPool core.val rs1 rs2)
/-- RESERVE_SET (06 R162): OP 4. -/
def execReserveSet (core : CoreId) (rs1 rs2 : Word64) (s : State) : Res' := closing (s.fjPool core.val rs1 rs2)

end Sys2Proof.Machine
end

