-- ==== Sys2Proof/Machine/Eth.lean ====
section
/-!
DEFINITION. Ethernet ports, receive queues and datagrams (06 R153-R157; 14 R361-R367).
-/

namespace Sys2Proof.Machine

/-- Port p. -/
def State.port (s : State) (p : Nat) : Port := s.net.ports.get {} p
/-- Change port p. -/
def State.updPort (s : State) (p : Nat) (f : Port → Port) : State := { s with net := { s.net with ports := s.net.ports.upd {} p f } }
/-- Receive queue q. -/
def State.rxq (s : State) (q : Nat) : RxQ := s.rxqs.get {} q
/-- Change receive queue q. -/
def State.updRxq (s : State) (q : Nat) (f : RxQ → RxQ) : State := { s with rxqs := s.rxqs.upd {} q f }
/-- The Ethernet state of Pn. -/
def State.eth (s : State) (n : Nat) : EthPart := s.net.parts.get {} n
/-- Change the Ethernet state of Pn. -/
def State.updEth (s : State) (n : Nat) (f : EthPart → EthPart) : State :=
  { s with net := { s.net with parts := s.net.parts.upd {} n f } }

/-- The arrangement in force (14 R361, R363). -/
def State.arrangement (s : State) : Nat := match s.inForce with | some p => p.arrangement | none => 0
/-- Ports, lanes of a port and native rate in Gb/s of an arrangement (14 R361). -/
def portCount (a : Nat) : Nat := if a = 0 then 4 else if a = 1 then 8 else 16
/-- Lanes of a port. -/
def portLanes (a : Nat) : Nat := 16 / portCount a
/-- Native rate of a port, Gb/s. -/
def nativeGb (a : Nat) : Nat := 6400 / portCount a
/-- Half of a port and its index among the half's ports. -/
def State.portPlace (s : State) (p : Nat) : Nat × Nat :=
  let k := portCount s.arrangement / 2
  (p / k % 2, p % k)
/-- HPA of the register of port p and partition n in ETH_SHAPE (14 R374). -/
def State.shapeAddr (s : State) (p n : Nat) : Nat :=
  let h := s.portPlace p
  regAddr h.1 8 (0x400 + h.2 * 0x80 + n * 8)
/-- The port's ETH_PORTS entry (14 R363). -/
def State.portEntry (s : State) (p : Nat) : List Byte := match s.inForce with | some x => (x.ports.get {} p).raw | none => []
/-- Its MODE: 0 unused, 1 dedicated, 2 shared. -/
def State.portMode (s : State) (p : Nat) : Nat := if p < portCount s.arrangement then fld (s.portEntry p) 0 1 else 0
/-- Pn owns or shares the port. -/
def State.hasPort (s : State) (n p : Nat) : Bool :=
  (s.portMode p == 1 && fld (s.portEntry p) 1 1 == n) || (s.portMode p == 2 && (fld (s.portEntry p) 2 2).testBit n)

/-- A frame or packet is dropped because it matches no partition or QP (14 R364, R368). -/
def State.portDrop (s : State) (p : Nat) : State := s.updPort p (fun t => { t with drop := satAdd 64 t.drop 1 })
/-- A frame is dropped because its queue takes none (06 R157). -/
def State.rxDrop (s : State) (q : Nat) : State := s.updRxq q (fun r => { r with drop := satAdd 64 r.drop 1 })

/-- Entries of a ring register (06 R154), 0 where LOG2N is not 6-15. -/
def ringOf (desc : Nat) : Nat := let l := bits desc 63 60; if 6 ≤ l && l ≤ 15 then 2 ^ l else 0
/-- PPA of entry i of a ring. -/
def ringAt (desc i size : Nat) : Nat := bits desc 39 6 * 64 + (i % ringOf desc) * size

/-- Entries between an unwrapped index and a register's index. -/
def ahead (n reg idx : Nat) : Nat := if n = 0 then 0 else (reg % n + n - idx % n) % n

/-- The queue takes a frame: EN, a posted descriptor, and room in the completion ring (06 R154, R157). -/
def RxQ.room (r : RxQ) : Bool :=
  r.ctrl.testBit 0 && ahead (ringOf r.desc) r.tail r.dIdx != 0 && decide (r.cIdx - r.cFree < ringOf r.cq)

/-- A completion entry (06 R155). -/
def complBytes (ring idx : Nat) (trunc : Bool) (status : StatusCode) (len user didx w2 w3 : Nat) : List Byte :=
  leBytes 8 ((if (idx / ring) % 2 = 0 then 2 ^ 63 else 0) + (if trunc then 2 ^ 62 else 0) + field 55 48 status.toNat + field 47 0 len)
    ++ leBytes 8 (field 63 32 user + field 31 0 didx) ++ leBytes 8 w2 ++ leBytes 8 w3

/-- Does one more unsignalled completion reach COUNT (06 R156). -/
def reachesCount (ctrl unsignalled : Nat) : Bool := decide (max 1 (bits ctrl 31 24) ≤ unsignalled)
/-- Set the event a CTRL register binds (06 R152, R154). -/
def State.queueEvent (s : State) (ctrl : Nat) : State := s.setEvent (bits ctrl 23 17) (bits ctrl 16 11)

/-- A receive queue writes a completion and counts it (06 R155, R156): one that is not written is not signalled (06 R147; log entry
120). -/
def State.rxComplete (s : State) (n q : Nat) (trunc : Bool) (status : StatusCode) (len user didx w2 w3 : Nat) : State :=
  let r := s.rxq q
  let w := s.ppaWrite n (ringAt r.cq r.cIdx 32) (complBytes (ringOf r.cq) r.cIdx trunc status len user didx w2 w3) false none
  let s := w.1
  let seen := r.unsignalled + bit (w.2 == St.ok)
  let fire := w.2 == St.ok && reachesCount r.ctrl seen
  let s := s.updRxq q (fun r => { r with cIdx := r.cIdx + 1, unsignalled := if fire then 0 else seen })
  if fire then s.queueEvent r.ctrl else s

/-- A receive takes a descriptor of the queue (06 R155): its bytes are written to the buffer, unless it only signals (an RDMA
WRITE with immediate), and its completion follows. A buffer beyond the PPA or in a protected image is not written. -/
def State.rxTake (s : State) (n q kind qpn hash imm : Nat) (bytes : List Byte) (toBuf : Bool) : State :=
  let r := s.rxq q
  let d := s.ppaRead n (ringAt r.desc r.dIdx 16) 16
  let s := d.1
  let buf := fld d.2.1 0 8 % 2 ^ 40
  let len := fld d.2.1 8 4
  let trunc := toBuf && decide (len < bytes.length)
  let w :=
    if !toBuf then (s, St.ok)
    else if !(s.inPpa n buf len) || d.2.2.2 != St.ok then (s, St.faultBounds)
    else s.ppaWrite n buf (bytes.take len) false none (s.netVia (q / 2048) n)
  let s := w.1.updRxq q (fun r => { r with dIdx := r.dIdx + 1 })
  s.rxComplete n q trunc w.2 bytes.length (fld d.2.1 12 4) (r.dIdx % ringOf r.desc) (field 63 32 hash + field 31 24 kind + field 23 0 qpn) imm

/-- Bytes of a priority in a port's receive buffer. -/
def Port.occupancy (t : Port) (prio : Nat) : Nat := (t.held.filter (fun x => x.prio == prio)).foldl (fun a x => a + x.len) 0
/-- All bytes in a port's receive buffer. -/
def Port.filled (t : Port) : Nat := t.held.foldl (fun a x => a + x.len) 0
/-- Occupancy at which a port with that many lanes pauses a priority (14 R366). -/
def pauseAt (lanes : Nat) : Nat := lanes * (4 * 1048576 - 262144)

/-- Pause or resume a priority as its occupancy asks (14 R366). -/
def State.pauseCheck (s : State) (p prio : Nat) : State :=
  let t := s.port p
  let l := portLanes s.arrangement
  let o := t.occupancy prio
  if !(t.txPaused.testBit prio) && decide (pauseAt l ≤ o) then
    (s.updPort p (fun t => { t with txPaused := setBit t.txPaused prio, pauseTx := satAdd 16 t.pauseTx 1 })).emit (.pause p prio true)
  else if t.txPaused.testBit prio && decide (o + l * 131072 ≤ pauseAt l) then
    (s.updPort p (fun t => { t with txPaused := clearBit t.txPaused prio })).emit (.pause p prio false)
  else s

/-- A priority is lossless on a port: set in LOSSLESS, on a dedicated port (14 R366, R374). -/
def State.losslessAt (s : State) (p prio : Nat) : Bool := s.portMode p == 1 && (s.port p).lossless.testBit prio

/-- A frame that its queue does not take waits in the port's buffer or is dropped (06 R157; 14 R366). -/
def State.rxWait (s : State) (p n q prio len : Nat) (cmd : Instr) : State :=
  let t := s.port p
  if s.losslessAt p prio && decide (t.filled + len ≤ portLanes s.arrangement * 4 * 1048576) then
    (s.updPort p (fun t => { t with held := t.held ++ [{ part := n, q := q, prio := prio, len := len, cmd := cmd }] })).pauseCheck p prio
  else s.rxDrop q

/-- Frames for queue q already wait at port p. -/
def State.rxBehind (s : State) (p q : Nat) : Bool := (s.port p).held.any (fun x => x.q == q)

/-- The quota of a sharer in a shared port's buffer (14 R366). -/
def State.sharerQuota (s : State) (p n : Nat) : Nat :=
  portLanes s.arrangement * 4 * 1048576 * bits (s.reg (s.shapeAddr p n)) 15 0 / nativeGb s.arrangement

/-- The hash a datagram's queue is chosen by (14 R367). -/
def State.flowHash (s : State) (n : Nat) (f : Frame) : Nat :=
  (Config.toeplitz (Tab.getList 0 (s.eth n).hashKey 0 40) f.flow).toNat

/-- The queue of a datagram: FIRST + (h mod 2^LOG2) of ETH_DGRAM (14 R367). -/
def State.dgramQueue (s : State) (n : Nat) (f : Frame) : Nat :=
  bits (s.eth n).dgram 11 0 + s.flowHash n f % 2 ^ bits (s.eth n).dgram 15 12

/-- A datagram for Pn (06 R155, R157; 14 R366, R367). A queue that is not Pn's takes nothing. -/
def State.datagram (s : State) (p n : Nat) (f : Frame) : State :=
  let q := s.dgramQueue n f
  if s.ownerEthQ q != some n then s.portDrop p
  else if s.portMode p == 2 && decide (s.sharerQuota p n < f.bytes.length) then s.rxDrop q
  else if (s.rxq q).room && !(s.rxBehind p q) then s.rxTake n q 0 0 (s.flowHash n f) 0 f.bytes true
  else s.rxWait p n q f.prio.val f.bytes.length (.frameReceived (Fin.ofNat 16 p) f)

/-- QP number of QP k of Pn (14 R368). -/
def qpNum (n k : Nat) : Nat := 0x10000 + n * 0x400 + k

/-- A frame steered to Pn: a RoCEv2 packet goes to its QP, whose own commands say what it does; any other frame is a datagram
(14 R367, R368). A partition that is not READY takes none (02 R32). -/
def State.steer (s : State) (p n : Nat) (f : Frame) : State :=
  if !(s.ready n) then s.portDrop p else
  match f.qpn with
  | some k => if decide (qpNum n 0 ≤ k) && decide (k < qpNum (n + 1) 0) then s else s.portDrop p
  | none => s.datagram p n f

/-- ETH_PART_MAC of a port and partition. -/
def State.partMac (s : State) (p n : Nat) : Nat := s.net.mac.get 0 (p * 16 + n)

/-- The partitions that a received frame belongs to (14 R364). -/
def State.frameParts (s : State) (p : Nat) (f : Frame) : List Nat :=
  if s.portMode p = 1 then [fld (s.portEntry p) 1 1]
  else if s.portMode p = 2 then
    (maskList 16 (fld (s.portEntry p) 2 2)).filter (fun n =>
      let m := s.partMac p n
      if f.group then m.testBit 49 else m.testBit 48 && m % 2 ^ 48 == f.dmac)
  else []

/-- FRAME_RECEIVED (14 R362, R364, R367): a port that is up takes a frame of 64 to 9,216 bytes. -/
def execFrameReceived (port : PortId) (f : Frame) (s : State) : Res' :=
  let p := port.val
  closing (onlyIf ((s.port p).state == 2 && decide (64 ≤ f.bytes.length) && decide (f.bytes.length ≤ 9216)) (fun s =>
    match s.frameParts p f with
    | [] => s.portDrop p
    | l => forAll l (fun n s => s.steer p n f) s) s)

/-- RXQ_EVENT_TIMER (06 R156): TIME has passed since the oldest unsignalled completion. -/
def execRxqEventTimer (q : EthQId) (s : State) : Res' :=
  let r := s.rxq q.val
  closing (onlyIf (r.unsignalled != 0 && bits r.ctrl 47 32 != 0) (fun s =>
    (s.updRxq q.val (fun r => { r with unsignalled := 0 })).queueEvent r.ctrl) s)

/-- Run f where path p reaches Ethernet queue q, else drop the write and count it (06 R153; 15 R412). -/
def State.onEthQ (s : State) (p : Path) (q : Nat) (f : Nat → State → State) : State :=
  if s.pathShut p then s else
  match s.ownerEthQ q with
  | none => s.strayWrite p
  | some n => if reaches p n then f n s else s.strayWrite p

/-- A CTRL value may set EN: both rings have a LOG2N of 6-15 (06 R154). -/
def canEnable (desc cq : Nat) : Bool := ringOf desc != 0 && ringOf cq != 0

/-- The fields of CTRL that may change only while EN is 0: CORE and EVBIT (06 R154). -/
def boundFields (ctrl : Nat) : Nat := bits ctrl 23 11

/-- What a write v of a CTRL register with the value c makes of it: ignored (none), or the new value, its reserved
bits 0 (06 R154; 00 R9; 02 R52). -/
def ctrlWrite (c v : Nat) (rings : Bool) : Option Nat :=
  let v := keepBits v 47 11 + keepBits v 0 0
  if c.testBit 0 && boundFields c != boundFields v then none
  else if v.testBit 0 && !rings then some (clearBit v 0)
  else some v

/-- A write of ETH_RXQ_CTRL (06 R154). -/
def State.writeRxqCtrl (s : State) (p : Path) (n q v : Nat) : State :=
  let r := s.rxq q
  if v.testBit 0 && s.ownerCore (bits v 23 17) != some n then s.ownership p
  else match ctrlWrite r.ctrl v (canEnable r.desc r.cq) with
    | none => s
    | some v => s.updRxq q (fun r =>
        if v.testBit 0 && !(r.ctrl.testBit 0) then
          { r with ctrl := v, dIdx := r.tail % ringOf r.desc, cIdx := r.cqHead % ringOf r.cq, cFree := r.cqHead % ringOf r.cq, unsignalled := 0 }
        else { r with ctrl := v })

/-- RXQ_ENABLE (06 R154): a write of ETH_RXQ_CTRL that sets EN. -/
def execRxqEnable (p : Path) (q : EthQId) (value : Word64) (s : State) : Res' :=
  closing (s.onEthQ p q.val (fun n s => s.writeRxqCtrl p n q.val (setBit value.toNat 0)))

/-- RXQ_DISABLE (06 R154): a write that clears EN. -/
def execRxqDisable (p : Path) (q : EthQId) (value : Word64) (s : State) : Res' :=
  closing (s.onEthQ p q.val (fun n s => s.writeRxqCtrl p n q.val (clearBit value.toNat 0)))

/-- The index register of a completion ring is written: completions before it are released (06 R153, R157). -/
def releaseTo (ring v cFree cIdx : Nat) : Nat := min cIdx (cFree + ahead ring v cFree)

/-- A transmit queue, and its change. -/
def State.txq (s : State) (q : Nat) : TxQ := s.net.txqs.get {} q
/-- Change transmit queue q. -/
def State.updTxq (s : State) (q : Nat) (f : TxQ → TxQ) : State := { s with net := { s.net with txqs := s.net.txqs.upd {} q f } }

end Sys2Proof.Machine
end

