-- ==== Sys2Proof/Machine/Roce.lean ====
section
/-!
DEFINITION. RoCEv2 (14 R368-R373): the responder and the requester, transmit queues (R371), queue pair commands (R374) and the
ports' own events (R362, R366).
-/

namespace Sys2Proof.Machine

/-- QP k of Pn. -/
def State.qp (s : State) (n k : Nat) : Qp := (s.eth n).qps.get {} k
/-- Change QP k of Pn. -/
def State.updQp (s : State) (n k : Nat) (f : Qp → Qp) : State := s.updEth n (fun e => { e with qps := e.qps.upd {} k f })

/-- Bytes of the path MTU (14 R369). -/
def Qp.mtu (x : Qp) : Nat := 1024 * 2 ^ x.pmtu
/-- Packets of a message of len bytes. -/
def Qp.packets (x : Qp) (len : Nat) : Nat := max 1 ((len + x.mtu - 1) / x.mtu)
/-- A PSN, 24 bits. -/
def psnOf (v : Nat) : Nat := v % 2 ^ 24
/-- a is at or before b in the PSN circle. -/
def psnLe (a b : Nat) : Bool := decide (psnOf (b + 2 ^ 24 - psnOf a) < 2 ^ 23)

/-- A region-table entry that serves a request (14 R370): the range, in the PPA, and the permission at bit perm. -/
def State.regionOk (s : State) (n : Nat) (rkey : Nat) (addr len perm : Nat) : Bool :=
  let a := bits (s.eth n).mrBase 39 13 * 8192 + (rkey % 256) * 32
  let r := s.ppaPeek n a 32
  let base := fld r.1 0 8 % 2 ^ 40
  let f := fld r.1 16 8
  r.2.2 == St.ok && !r.2.1 && f.testBit 63 && bits f 31 8 == bits rkey 31 8 && f.testBit perm && decide (base ≤ addr)
    && decide (addr + len ≤ base + fld r.1 8 8) && s.inPpa n addr len

/-- The entry is read anew for each request (14 R370): what that read reports. -/
def State.noteRegion (s : State) (n rkey : Nat) : State :=
  s.ppaReport n (bits (s.eth n).mrBase 39 13 * 8192 + (rkey % 256) * 32) 32

/-- Answer an RC request. kind: 0 ACK, 1 NAK remote access error, 2 NAK sequence, 3 READ response (State.out). -/
def State.roceAnswer (s : State) (n k kind psn : Nat) (data : List Byte) : State := s.emit (.roce n k kind (psnOf psn) data)

/-- A packet marked CE: a CNP, at most one for the QP in 50 µs (14 R372). -/
def State.ceMark (s : State) (n k : Nat) (ce : Bool) : State :=
  if !ce then s
  else if (s.qp n k).cnpSent && !(Config.freeBool s.freeCtr) then s.tick
  else (s.tick.updQp n k (fun x => { x with cnpSent := true })).emit (.roce n k 4 0 [])

/-- A failing RDMA request (14 R370). -/
def State.refuseRdma (s : State) (n k psn : Nat) : State :=
  (s.updEth n (fun e => { e with rerr := satAdd 64 e.rerr 1 })).roceAnswer n k 1 psn []

/-- A request of len bytes has been served: the expected PSN moves past it, and an RC QP acknowledges (14 R371). -/
def State.served (s : State) (n k psn len : Nat) (ack : Bool) : State :=
  let x := s.qp n k
  if x.ud then s else
  let s := s.updQp n k (fun x => { x with rqPsn := psnOf (psn + x.packets len) })
  if ack then s.roceAnswer n k 0 (psn + x.packets len - 1) [] else s

/-- Serve a SEND whose turn has come, the queue having room (14 R368). -/
def State.serveSend (s : State) (n k psn : Nat) (data : List Byte) (imm : Option (BitVec 32)) : State :=
  let x := s.qp n k
  let s := s.rxTake n x.rxq (if imm.isSome then 2 else 1) (qpNum n k) 0 ((imm.map BitVec.toNat).getD 0) data true
  s.served n k psn data.length true

/-- The half of a QP's port. -/
def State.qpHalf (s : State) (n k : Nat) : Nat := (s.qp n k).port / (max 1 (portCount s.arrangement / 2))

/-- Serve an RDMA WRITE whose turn has come (14 R370; 06 R147): with an immediate it takes a descriptor of the queue. -/
def State.serveWrite (s : State) (n k psn rkey addr : Nat) (data : List Byte) (imm : Option (BitVec 32)) : State :=
  let s := s.noteRegion n rkey
  if !(s.regionOk n rkey addr data.length 1) then s.refuseRdma n k psn
  else
    let w := s.ppaWrite n addr data false none (s.netVia (s.qpHalf n k) n)
    if w.2 != St.ok then w.1.roceAnswer n k 1 psn []
    else
      let s := match imm with
        | some v => w.1.rxTake n (s.qp n k).rxq 3 (qpNum n k) 0 v.toNat data false
        | none => w.1
      s.served n k psn data.length true

/-- The injection regulator of the Ethernet transmit path that carries what QP k of Pn sends (08 R201): that of its port's half. -/
def State.qpInject (s : State) (n k bytes : Nat) : State × Bool := s.inject (s.qpHalf n k) 25 n bytes

/-- Serve an RDMA READ whose turn has come (14 R370): from a dross buffer nothing is sent (17 R451). While the injection regulator is
closed (08 R202) it is not served, and its requester sends it again (log entry 52). One served again moves no expected PSN. -/
def State.serveRead (s : State) (n k psn rkey addr len : Nat) (again : Bool) : State :=
  let s := s.noteRegion n rkey
  if !(s.regionOk n rkey addr len 0) then s.refuseRdma n k psn
  else
    let g := s.qpInject n k len
    let r := g.1.ppaRead n addr len
    if !g.2 then g.1
    else if r.2.2.2 != St.ok then r.1.roceAnswer n k 1 psn []
    else if r.2.2.1 then r.1
    else (if again then r.1 else r.1.served n k psn len false).roceAnswer n k 3 psn r.2.1

/-- Does a RoCEv2 request need a descriptor of the QP's receive queue (14 R368). -/
def needsRx : Instr → Bool
  | .roceSendRx .. => true
  | .roceRdmaWriteRx _ _ _ _ _ _ imm _ => imm.isSome
  | _ => false

/-- Serve the RoCEv2 request that a command carries. -/
def State.serveRoce (s : State) (c : Instr) : State :=
  match c with
  | .roceSendRx n k psn data imm _ => s.serveSend n.val k.val psn data imm
  | .roceRdmaWriteRx n k psn rkey addr data imm _ => s.serveWrite n.val k.val psn rkey.toNat addr data imm
  | .roceRdmaReadRx n k psn rkey addr len _ => s.serveRead n.val k.val psn rkey.toNat addr len false
  | _ => s

/-- A RoCEv2 request reaches QP k: an RC packet ahead of the expected PSN is answered with a sequence NAK, one behind it is
acknowledged again, a READ being served again; the expected one is served, or waits or is dropped when it needs a descriptor
and the queue has no room (14 R368; 06 R157). -/
def State.roceNow (s : State) (n k psn len : Nat) (c : Instr) : State :=
  let x := s.qp n k
  if !x.ud && psnOf psn != x.rqPsn then
    if psnLe x.rqPsn psn then s.roceAnswer n k 2 x.rqPsn []
    else match c with
      | .roceRdmaReadRx _ _ _ rkey addr len _ => s.serveRead n k psn rkey.toNat addr len true
      | _ => s.roceAnswer n k 0 (x.rqPsn + 2 ^ 24 - 1) []
  else if needsRx c && !((s.rxq x.rxq).room) then s.rxWait x.port n x.rxq x.prio len c
  else s.serveRoce c

/-- One waiting frame leaves the buffer and is taken (06 R157). -/
def State.takeWaiting (s : State) (p : Nat) (x : RxWait) : State :=
  let s := (s.updPort p (fun t => { t with held := t.held.erase x })).pauseCheck p x.prio
  match x.cmd with
  | .frameReceived _ f => s.rxTake x.part x.q 0 0 (s.flowHash x.part f) 0 f.bytes true
  | .roceSendRx n k psn _ _ _ => s.roceNow n.val k.val psn x.len x.cmd
  | .roceRdmaWriteRx n k psn _ _ _ _ _ => s.roceNow n.val k.val psn x.len x.cmd
  | .roceRdmaReadRx n k psn _ _ _ _ => s.roceNow n.val k.val psn x.len x.cmd
  | _ => s

/-- A waiting frame needs a descriptor. -/
def RxWait.needs (x : RxWait) : Bool := needsRx x.cmd || (match x.cmd with | .frameReceived .. => true | _ => false)

/-- Take the waiting frames of queue q at port p in arrival order, as long as it has room (06 R157). -/
def State.drainPort (p q : Nat) : Nat → State → State
  | 0, s => s
  | fuel + 1, s =>
    match (s.port p).held.find? (fun x => x.q == q) with
    | none => s
    | some x => if x.needs && !((s.rxq q).room) then s else State.drainPort p q fuel (s.takeWaiting p x)

/-- The queue takes the frames that wait for it (06 R157). -/
def State.drainQueue (s : State) (q : Nat) : State :=
  forAll (List.range 16) (fun p s => State.drainPort p q (s.port p).held.length s) s

/-- A write of ETH_RXQ_TAIL or ETH_RXQ_CQHEAD (06 R153, R157). -/
def State.writeRxqIndex (s : State) (q v : Nat) (cqhead : Bool) : State :=
  let s := s.updRxq q (fun r =>
    if cqhead then { r with cqHead := v % 65536, cFree := if r.ctrl.testBit 0 then releaseTo (ringOf r.cq) (v % 65536) r.cFree r.cIdx else r.cFree }
    else { r with tail := v % 65536 })
  s.drainQueue q

/-- RXQ_POST (06 R157). -/
def execRxqPost (p : Path) (q : EthQId) (cqhead : Bool) (value : BitVec 32) (s : State) : Res' :=
  closing (s.onEthQ p q.val (fun _ s => s.writeRxqIndex q.val value.toNat cqhead))

/-- A RoCEv2 request of len bytes arrives for QP k of Pn at the QP's port (14 R368, R369, R372): a QP in RTR or RTS takes it, a
UD QP only a SEND. It waits behind the frames that wait for its queue. -/
def State.roceIn (s : State) (n k psn len : Nat) (ce : Bool) (c : Instr) : State :=
  let x := s.qp n k
  let send := match c with | .roceSendRx .. => true | _ => false
  if s.ready n && (s.port x.port).state == 2 && (x.state == 2 || x.state == 3) && (!x.ud || send) then
    let s := s.ceMark n k ce
    if s.rxBehind x.port x.rxq then s.rxWait x.port n x.rxq x.prio len c else s.roceNow n k psn len c
  else s

/-- ROCE_SEND_RX (14 R368). -/
def execRoceSendRx (n : PartId) (k : QpId) (psn : Nat) (data : List Byte) (imm : Option (BitVec 32)) (ce : Bool) (s : State) : Res' :=
  closing (s.roceIn n.val k.val psn data.length ce (.roceSendRx n k psn data imm ce))

/-- ROCE_RDMA_WRITE_RX (14 R370). -/
def execRoceRdmaWriteRx (n : PartId) (k : QpId) (psn : Nat) (rkey : BitVec 32) (addr : Nat) (data : List Byte)
    (imm : Option (BitVec 32)) (ce : Bool) (s : State) : Res' :=
  closing (s.roceIn n.val k.val psn data.length ce (.roceRdmaWriteRx n k psn rkey addr data imm ce))

/-- ROCE_RDMA_READ_RX (14 R370). -/
def execRoceRdmaReadRx (n : PartId) (k : QpId) (psn : Nat) (rkey : BitVec 32) (addr len : Nat) (ce : Bool) (s : State) : Res' :=
  closing (s.roceIn n.val k.val psn len ce (.roceRdmaReadRx n k psn rkey addr len ce))

/-- A transmit descriptor (14 R371). -/
structure TxDesc where
  op : Nat
  buf : Nat
  user : Nat
  len : Nat
  imm : Nat
  k : Nat
  raddr : Nat
  rkey : Nat
  /-- Status of the read that fetched it. -/
  status : StatusCode
  deriving DecidableEq, Repr

/-- The next descriptor of transmit queue q of Pn. -/
def State.txDesc (s : State) (n q : Nat) : TxDesc :=
  let r := s.txq q
  let d := s.ppaPeek n (ringAt r.desc r.dIdx 64) 64
  let w := fun i => fld d.1 (8 * i) 8
  { op := bits (w 0) 51 48, buf := w 0 % 2 ^ 40, user := bits (w 1) 63 32, len := bits (w 1) 31 0, imm := bits (w 2) 63 32
    k := bits (w 2) 9 0, raddr := w 3, rkey := bits (w 4) 31 0
    status := if d.2.2 != St.ok then d.2.2 else if d.2.1 then St.dross else St.ok }

/-- Sends of queue q that are not complete. -/
def State.txOutstanding (s : State) (n q : Nat) : Nat :=
  (s.eth n).qps.foldl (fun a e => a + (e.2.sends.filter (fun o => o.q == q)).length) 0
    + s.net.txWait.foldl (fun a e => a + (e.2.filter (fun f => f.q == q)).length) 0

/-- The queue may act on its next descriptor, whose OP is op: the partition is READY (02 R32), EN, a posted descriptor, and room for its
completion (14 R371). DESIGN CHOICE: a descriptor with a reserved OP is taken with the raw frames (log entry 55). -/
def State.txReady (s : State) (n q op : Nat) : Bool :=
  let r := s.txq q
  s.ready n && r.ctrl.testBit 0 && ahead (ringOf r.desc) r.tail r.dIdx != 0
    && decide (r.cIdx - r.cFree + s.txOutstanding n q < ringOf r.cq) && (let o := (s.txDesc n q).op; o == op || (op == 0 && decide (5 < o)))

/-- The descriptor is taken. -/
def State.txTaken (s : State) (q : Nat) : State := s.updTxq q (fun r => { r with dIdx := r.dIdx + 1 })

/-- A transmit completion (14 R371; 06 R155), and its event. -/
def State.txComplete (s : State) (n q idx user len : Nat) (status : StatusCode) : State :=
  let r := s.txq q
  let w := s.ppaWrite n (ringAt r.cq r.cIdx 32) (complBytes (ringOf r.cq) r.cIdx false status len user idx 0 0) false none
  let s := w.1
  let seen := r.unsignalled + bit (w.2 == St.ok)
  let fire := w.2 == St.ok && reachesCount r.ctrl seen
  let s := s.updTxq q (fun r => { r with cIdx := r.cIdx + 1, unsignalled := if fire then 0 else seen })
  if fire then s.queueEvent r.ctrl else s

/-- The descriptor completes at once with a status. -/
def State.txEnd (s : State) (n q : Nat) (d : TxDesc) (status : StatusCode) : State :=
  let i := (s.txq q).dIdx % ringOf (s.txq q).desc
  (s.txTaken q).txComplete n q i d.user d.len status

/-- A request as it leaves: the fields of its descriptor and its data (log entry 9). -/
def requestBytes (op imm raddr rkey len : Nat) (data : List Byte) : List Byte :=
  leBytes 1 op ++ leBytes 4 imm ++ leBytes 8 raddr ++ leBytes 4 rkey ++ leBytes 4 len ++ data

/-- Read a send's buffer (14 R371; 17 R451): the status that keeps it from being sent, or its bytes. -/
def State.txRead (s : State) (n buf len : Nat) : State × StatusCode × List Byte :=
  let r := s.ppaRead n buf len
  (r.1, if r.2.2.2 != St.ok then r.2.2.2 else if r.2.2.1 then St.dross else St.ok, r.2.1)

/-- An RC request leaves and awaits its acknowledgement (14 R368, R371). -/
def State.sendRc (s : State) (n q : Nat) (d : TxDesc) (data : List Byte) : State :=
  let x := s.qp n d.k
  let last := psnOf (x.sqPsn + x.packets d.len - 1)
  let o : SendOp := { psn := x.sqPsn, last := last, q := q, idx := (s.txq q).dIdx % ringOf (s.txq q).desc, op := d.op, user := d.user
                      addr := d.buf, len := d.len, imm := d.imm, raddr := d.raddr, rkey := d.rkey }
  (((s.txTaken q).updQp n d.k (fun x => { x with sqPsn := psnOf (last + 1), sends := x.sends ++ [o] }))).emit
    (.roce n d.k 5 o.psn (requestBytes d.op d.imm d.raddr d.rkey d.len data))

/-- A frame joins those that wait for their port (14 R365, R371). -/
def State.txQueue (s : State) (p n q : Nat) (d : TxDesc) (prio : Nat) (qp : Option Nat) (bytes : List Byte) : State :=
  let i := (s.txq q).dIdx % ringOf (s.txq q).desc
  let s := s.txTaken q
  { s with net := { s.net with txWait := s.net.txWait.upd [] p (fun l => l ++
      [{ part := n, q := q, idx := i, user := d.user, prio := prio, qp := qp, bytes := bytes }]) } }

/-- A sharer of a shared port without a rate sends nothing; a dedicated port's owner needs none (14 R365). -/
def State.hasRate (s : State) (p n : Nat) : Bool := s.portMode p == 1 || bits (s.reg (s.shapeAddr p n)) 15 0 != 0

/-- A port can send for a priority: it is up and the peer has not paused it (14 R362, R366). -/
def State.canSend (s : State) (p prio : Nat) : Bool := (s.port p).state == 2 && !((s.port p).rxPaused.testBit prio)

/-- Act on a descriptor of OP 1-5 (14 R368-R373): a QP that does not send, or an operation UD does not have, is DENIED; the queue
holds the descriptor while the port cannot send, its partition has no rate there (14 R365), or the injection regulator holds it (08 R202); a buffer that cannot be read, or
is dross, is not sent. -/
def State.txQp (s : State) (n q op : Nat) : State :=
  let d := s.txDesc n q
  let x := s.qp n d.k
  let s := s.ppaReport n (ringAt (s.txq q).desc (s.txq q).dIdx 64) 64
  if d.status != St.ok then s.txEnd n q d d.status
  else if x.state != 3 || (x.ud && decide (3 ≤ op)) then s.txEnd n q d St.denied
  else if !(s.canSend x.port x.prio) || !(x.ud || s.hasRate x.port n) then s
  else if op = 5 then s.sendRc n q d []
  else
    let g := s.inject (q / 2048) 25 n d.len
    if !g.2 then g.1
    else
      let r := g.1.txRead n d.buf d.len
      if r.2.1 != St.ok then r.1.txEnd n q d r.2.1
      else if x.ud then r.1.txQueue x.port n q d x.prio (some d.k) (requestBytes d.op d.imm 0 0 d.len r.2.2)
      else r.1.sendRc n q d r.2.2

/-- Priority of a raw frame: its 802.1Q tag's, 0 without one (14 R360). -/
def framePrio (b : List Byte) : Nat := if fld b 12 2 = 0x0081 then bits (fld b 14 1) 7 5 else 0

/-- A frame with its source MAC address replaced, most significant byte first (14 R364). -/
def putSource (b : List Byte) (mac : Nat) : List Byte := b.take 6 ++ (leBytes 6 mac).reverse ++ b.drop 12

/-- Act on a descriptor of OP 0 (14 R364, R371); a reserved OP is DENIED (DESIGN CHOICE, log entry 55). -/
def State.txRaw (s : State) (n q : Nat) : State :=
  let d := s.txDesc n q
  let s := s.ppaReport n (ringAt (s.txq q).desc (s.txq q).dIdx 64) 64
  if d.status != St.ok then s.txEnd n q d d.status
  else if d.op != 0 || !(s.hasPort n d.k) || decide (d.len < 64) || decide (9216 < d.len) then s.txEnd n q d St.denied
  else if (s.port d.k).state != 2 then s
  else
    let g := s.inject (q / 2048) 25 n d.len
    if !g.2 then g.1
    else
      let r := g.1.txRead n d.buf d.len
      if r.2.1 != St.ok then r.1.txEnd n q d r.2.1
      else r.1.txQueue d.k n q d (framePrio r.2.2) none
        (if r.1.portMode d.k = 2 then putSource r.2.2 (r.1.partMac d.k n % 2 ^ 48) else r.2.2)

/-- Run f on the owner of transmit queue q where its next descriptor has the OP of the row. -/
def State.onTx (s : State) (q op : Nat) (f : Nat → State → State) : State :=
  match s.ownerEthQ q with
  | none => s
  | some n => onlyIf (s.txReady n q op) (f n) s

/-- TX_RAW_FRAME (14 R371). -/
def execTxRawFrame (q : EthQId) (s : State) : Res' := closing (s.onTx q.val 0 (fun n s => s.txRaw n q.val))
/-- TX_SEND (14 R371). -/
def execTxSend (q : EthQId) (s : State) : Res' := closing (s.onTx q.val 1 (fun n s => s.txQp n q.val 1))
/-- TX_SEND_IMM (14 R371). -/
def execTxSendImm (q : EthQId) (s : State) : Res' := closing (s.onTx q.val 2 (fun n s => s.txQp n q.val 2))
/-- TX_WRITE (14 R371). -/
def execTxWrite (q : EthQId) (s : State) : Res' := closing (s.onTx q.val 3 (fun n s => s.txQp n q.val 3))
/-- TX_WRITE_IMM (14 R371). -/
def execTxWriteImm (q : EthQId) (s : State) : Res' := closing (s.onTx q.val 4 (fun n s => s.txQp n q.val 4))
/-- TX_READ (14 R371). -/
def execTxRead (q : EthQId) (s : State) : Res' := closing (s.onTx q.val 5 (fun n s => s.txQp n q.val 5))

/-- May the k-th waiting frame of a port leave (14 R365, R366): no earlier frame of its sharer (on a dedicated port, of its
priority) waits, its priority is not paused, and on a shared port the bucket can hold its length. -/
def State.mayLeavePort (s : State) (p k : Nat) (f : TxFrame) : Bool :=
  let l := s.net.txWait.get [] p
  let ded := s.portMode p == 1
  s.canSend p f.prio && (l.take k).all (fun y => y.part != f.part || (ded && y.prio != f.prio))
    && s.hasRate p f.part && (ded || decide (f.bytes.length ≤ bits (s.reg (s.shapeAddr p f.part)) 47 32 * 1024))

/-- FRAME_LEAVES_PORT (14 R365, R371). -/
def execFrameLeavesPort (port : PortId) (k : Nat) (s : State) : Res' :=
  let p := port.val
  closing (match (s.net.txWait.get [] p)[k]? with
    | none => s
    | some f => onlyIf (s.mayLeavePort p k f) (fun s =>
        let s := { s with net := { s.net with txWait := s.net.txWait.upd [] p (fun l => dropNth l k) } }
        let s := match f.qp with
          | none => s.emit (.frame p f.bytes)
          | some j => (s.emit (.roce f.part j 5 (s.qp f.part j).sqPsn f.bytes)).updQp f.part j (fun x => { x with sqPsn := psnOf (x.sqPsn + 1) })
        s.txComplete f.part f.q f.idx f.user (if f.qp.isSome then f.bytes.length - 21 else f.bytes.length) St.ok) s)

/-- Complete a send of QP k. -/
def State.endSend (s : State) (n k : Nat) (o : SendOp) (status : StatusCode) : State :=
  (s.updQp n k (fun x => { x with sends := x.sends.erase o })).txComplete n o.q o.idx o.user o.len status

/-- QP k receives: its port is up (14 R362) and its partition READY (02 R32). -/
def State.qpHears (s : State) (n k : Nat) : Bool := s.ready n && (s.port (s.qp n k).port).state == 2

/-- ROCE_ACK_RX (14 R371): every operation but a READ whose last PSN the acknowledgement reaches completes. -/
def execRoceAckRx (n : PartId) (k : QpId) (psn : Nat) (s : State) : Res' :=
  let x := s.qp n.val k.val
  let l := x.sends.filter (fun o => o.op != 5 && psnLe o.last psn)
  closing (onlyIf (s.qpHears n.val k.val && !x.ud && psnLe psn (x.sqPsn + 2 ^ 24 - 1) && !l.isEmpty) (fun s =>
    l.foldl (fun s o => s.endSend n.val k.val o St.ok) (s.updQp n.val k.val (fun x => { x with retries := 0 }))) s)

/-- The request that asks for what a READ still lacks: it begins at the first unacknowledged PSN (14 R368). -/
def State.askAgain (s : State) (n k : Nat) (o : SendOp) : Out :=
  .roce n k 5 (psnOf (o.psn + o.got / (s.qp n k).mtu)) (requestBytes o.op o.imm (o.raddr + o.got) o.rkey (o.len - o.got) [])

/-- Send again from the first unacknowledged PSN (14 R368): a buffer that has become dross is not sent (17 R451); while the port
cannot send nothing goes (14 R362, R365, R366), and from the first send that the injection regulator does not let through on nothing goes either
(08 R202; log entry 52). -/
def State.resend (s : State) (n k : Nat) : State :=
  if !(s.canSend (s.qp n k).port (s.qp n k).prio && s.hasRate (s.qp n k).port n) then s else
  ((s.qp n k).sends.foldl (fun (acc : State × Bool) o =>
    if !acc.2 then acc
    else if o.op = 5 then (acc.1.emit (s.askAgain n k o), true)
    else
      let g := acc.1.qpInject n k o.len
      if !g.2 then g
      else
        let r := g.1.txRead n o.addr o.len
        (if r.2.1 = St.ok then r.1.emit (.roce n k 5 o.psn (requestBytes o.op o.imm o.raddr o.rkey o.len r.2.2))
         else r.1.endSend n k o r.2.1, true)) (s, true)).1

/-- ROCE_NAK_RX (14 R368): go-back-N. -/
def execRoceNakRx (n : PartId) (k : QpId) (_psn : Nat) (s : State) : Res' :=
  closing (onlyIf (s.qpHears n.val k.val && !(s.qp n.val k.val).ud && (s.qp n.val k.val).state == 3) (fun s => s.resend n.val k.val) s)

/-- ROCE_RETRY_TIMEOUT (14 R368, R373): the sends go again, until the retry count is used up and the QP enters ERROR. -/
def execRoceRetryTimeout (n : PartId) (k : QpId) (s : State) : Res' :=
  let x := s.qp n.val k.val
  closing (onlyIf (s.ready n.val && !x.ud && !x.sends.isEmpty) (fun s =>
    if x.state = 3 && decide (x.retries < x.retry % 8) then
      (s.updQp n.val k.val (fun x => { x with retries := x.retries + 1 })).resend n.val k.val
    else x.sends.foldl (fun s o => s.endSend n.val k.val o St.timeout) (s.updQp n.val k.val (fun x => { x with state := 4 }))) s)

/-- ROCE_READ_RESPONSE_RX (14 R371; 06 R147): the READ's data is written in order; it completes when all of it is visible, or at
a refused write. -/
def execRoceReadResponseRx (n : PartId) (k : QpId) (psn : Nat) (data : List Byte) (s : State) : Res' :=
  let x := s.qp n.val k.val
  closing (match x.sends.find? (fun o => s.qpHears n.val k.val && o.op == 5 && psnLe o.psn psn && psnLe psn o.last) with
    | none => s
    | some o =>
      if psnOf (psn + 2 ^ 24 - o.psn) * x.mtu != o.got then s
      else
        let b := data.take (o.len - o.got)
        let w := s.ppaWrite n.val (o.addr + o.got) b false none (s.netVia (s.qpHalf n.val k.val) n.val)
        if w.2 != St.ok then w.1.endSend n.val k.val o w.2
        else if o.len ≤ o.got + b.length then
          (w.1.endSend n.val k.val o St.ok).updQp n.val k.val (fun x => { x with retries := 0 })
        else w.1.updQp n.val k.val (fun x => { x with sends := x.sends.map (fun y => if y = o then { y with got := y.got + b.length } else y) }))

/-- Rate in Mb/s at which a QP of Pn starts: its port's, or the sharer's on a shared port (14 R365, R372). -/
def State.startRate (s : State) (n p : Nat) : Nat :=
  let gb := if s.portMode p = 2 then bits (s.reg (s.shapeAddr p n)) 15 0 else nativeGb s.arrangement
  if (s.port p).rate = 2 then gb * 500 else gb * 1000

/-- Rate of a port in Mb/s. -/
def State.portRate (s : State) (p : Nat) : Nat :=
  if (s.port p).rate = 2 then nativeGb s.arrangement * 500 else nativeGb s.arrangement * 1000

/-- CNP_RX (14 R372): the rate halves, to no less than 1 Gb/s. -/
def execCnpRx (n : PartId) (k : QpId) (s : State) : Res' :=
  closing (onlyIf (s.qpHears n.val k.val && (s.qp n.val k.val).state == 3) (fun s => s.updQp n.val k.val (fun x =>
    let cur := if x.rate = 0 then s.startRate n.val x.port else x.rate
    { x with rate := min cur (max 1000 (cur / 2)) })) s)

/-- CNP_RATE_INCREASE (14 R372): 5% of the port rate, up to the start rate. -/
def execCnpRateIncrease (n : PartId) (k : QpId) (s : State) : Res' :=
  closing (onlyIf ((s.qp n.val k.val).rate != 0) (fun s => s.updQp n.val k.val (fun x =>
    { x with rate := min (s.startRate n.val x.port) (x.rate + s.portRate x.port / 20) })) s)

/-- A write of ETH_TXQ_CTRL (14 R371; 06 R154). -/
def State.writeTxqCtrl (s : State) (p : Path) (n q v : Nat) : State :=
  let r := s.txq q
  if v.testBit 0 && s.ownerCore (bits v 23 17) != some n then s.ownership p
  else match ctrlWrite r.ctrl v (canEnable r.desc r.cq) with
    | none => s
    | some v => s.updTxq q (fun r =>
        if v.testBit 0 && !(r.ctrl.testBit 0) then
          { r with ctrl := v, dIdx := r.tail % ringOf r.desc, cIdx := r.cqHead % ringOf r.cq, cFree := r.cqHead % ringOf r.cq, unsignalled := 0 }
        else { r with ctrl := v })

/-- TXQ_ENABLE (14 R371): a write of ETH_TXQ_CTRL that sets EN. -/
def execTxqEnable (p : Path) (q : EthQId) (value : Word64) (s : State) : Res' :=
  closing (s.onEthQ p q.val (fun n s => s.writeTxqCtrl p n q.val (setBit value.toNat 0)))

/-- TXQ_DISABLE (14 R371): a write that clears EN. -/
def execTxqDisable (p : Path) (q : EthQId) (value : Word64) (s : State) : Res' :=
  closing (s.onEthQ p q.val (fun n s => s.writeTxqCtrl p n q.val (clearBit value.toNat 0)))

/-- A write of ETH_TXQ_TAIL or ETH_TXQ_CQHEAD (14 R371). -/
def State.writeTxqIndex (s : State) (q v : Nat) (cqhead : Bool) : State :=
  s.updTxq q (fun r =>
    if cqhead then { r with cqHead := v % 65536, cFree := if r.ctrl.testBit 0 then releaseTo (ringOf r.cq) (v % 65536) r.cFree r.cIdx else r.cFree }
    else { r with tail := v % 65536 })

/-- TXQ_DOORBELL (14 R371). -/
def execTxqDoorbell (p : Path) (q : EthQId) (cqhead : Bool) (value : BitVec 32) (s : State) : Res' :=
  closing (s.onEthQ p q.val (fun _ s => s.writeTxqIndex q.val value.toNat cqhead))

/-- The fields of a QP context lie in their ranges (14 R369). -/
def State.qpContextOk (s : State) (n : Nat) (b : List Byte) : Bool :=
  decide (fld b 0 1 ≤ 4) && decide (fld b 1 1 ≤ 1) && s.hasPort n (fld b 2 1) && decide (fld b 3 1 ≤ 7) && decide (fld b 6 1 ≤ 2)
    && decide (fld b 8 4 < 2 ^ 24) && fld b 0xC 4 == 0 && decide (fld b 0x10 8 < 2 ^ 48) && fld b 0x40 64 == 0

/-- The status ETH_QP_CMD shows. -/
def State.qpCmd (s : State) (n op token k : Nat) (status : StatusCode) : State :=
  s.updEth n (fun e => { e with cmdOp := op, cmdToken := token, cmdQp := k, cmdStatus := status })

/-- LOAD (14 R369, R374): a receive queue that is not Pn's makes the write ignored. -/
def State.loadQp (s : State) (p : Path) (n k token : Nat) : State :=
  let r := s.ppaRead n (bits (s.eth n).qpBase 39 7 * 128 + k * 128) 128
  let b := r.2.1
  if r.2.2.2 != St.ok then r.1.qpCmd n 1 token k r.2.2.2
  else if r.2.2.1 then r.1.qpCmd n 1 token k St.dross
  else if s.ownerEthQ (fld b 4 2) != some n || decide (4096 ≤ fld b 4 2) then r.1.ownership p
  else if !(s.qpContextOk n b) then r.1.qpCmd n 1 token k St.denied
  else (r.1.updQp n k (fun x => { x with
    state := fld b 0 1, ud := fld b 1 1 == 1, port := fld b 2 1, prio := fld b 3 1, rxq := fld b 4 2, pmtu := fld b 6 1, retry := fld b 7 1
    destQpn := fld b 8 4, destMac := fld b 0x10 8, destIp := fld b 0x18 16, srcIp := fld b 0x28 16, sqPsn := psnOf (fld b 0x38 4)
    rqPsn := psnOf (fld b 0x3C 4), retries := 0, rate := 0, cnpSent := false })).qpCmd n 1 token k St.ok

/-- A write of ETH_QP_CMD (14 R374). -/
def State.writeQpCmd (s : State) (p : Path) (n v : Nat) : State :=
  let k := bits v 25 16
  let token := bits v 63 56
  match bits v 1 0 with
  | 1 => s.loadQp p n k token
  | 2 => (s.updQp n k (fun x => { x with state := 4 })).qpCmd n 2 token k St.ok
  | op => s.qpCmd n op token k St.denied

/-- QP_LOAD (14 R369): a write of ETH_QP_CMD with OP LOAD. -/
def execQpLoad (p : Path) (n : PartId) (value : Word64) (s : State) : Res' :=
  closing (s.onPart p n.val (fun s => s.writeQpCmd p n.val (setBits value.toNat 1 0 1)))

/-- QP_ERROR (14 R374): a write of ETH_QP_CMD with OP ERROR. -/
def execQpError (p : Path) (n : PartId) (value : Word64) (s : State) : Res' :=
  closing (s.onPart p n.val (fun s => s.writeQpCmd p n.val (setBits value.toNat 1 0 2)))

/-- PORT_NATIVE_TIMEOUT (14 R362). -/
def execPortNativeTimeout (port : PortId) (s : State) : Res' :=
  closing (onlyIf ((s.port port.val).state == 1) (fun s => s.updPort port.val (fun t => { t with ieee := true })) s)

/-- PORT_UP (14 R362). -/
def execPortUp (port : PortId) (s : State) : Res' :=
  closing (onlyIf ((s.port port.val).state == 1) (fun s =>
    s.updPort port.val (fun t => { t with state := 2, rate := if t.ieee then 2 else 1 })) s)

/-- A port trains again, native signalling first (14 R362; 02 R48). -/
def Port.retrain (t : Port) : Port := { t with state := 1, rate := 0, ieee := false, rxPaused := 0, txPaused := 0 }

/-- PORT_LANE_DOWN (14 R362): the port is down and retrains. -/
def execPortLaneDown (port : PortId) (s : State) : Res' :=
  closing (onlyIf ((s.port port.val).state != 0) (fun s => s.updPort port.val Port.retrain) s)

/-- PAUSE_FRAME_RX (14 R366): on a dedicated port the priority stops, or goes on. -/
def execPauseFrameRx (port : PortId) (prio : Fin 8) (on : Bool) (s : State) : Res' :=
  closing (onlyIf ((s.port port.val).state == 2 && s.portMode port.val == 1) (fun s => s.updPort port.val (fun t =>
    { t with rxPaused := putBit t.rxPaused prio.val on, pauseRx := if on then satAdd 16 t.pauseRx 1 else t.pauseRx })) s)

end Sys2Proof.Machine
end

