-- ==== Sys2Proof/Machine/Ring.lean ====
section
/-!
DEFINITION. The optical ring (14 R375-R380), the collective groups (R381) and the collective engine (R382-R387).
-/

namespace Sys2Proof.Machine

/-- Change the ring's module-wide state. -/
def State.updRing (s : State) (f : Ring → Ring) : State := { s with ring := f s.ring }

/-- Half h's port carries frames: the adit is OPEN and the link is up. -/
def State.ringUp (s : State) (h : Nat) : Bool := s.ring.adit == 1 && (s.ringPort h).link == 2

/-- Frames below seq are acknowledged, and what waits goes on (14 R376). -/
def State.ringAcked (s : State) (h seq : Nat) : State :=
  let s := s.updRingPort h (fun p => { p with retry := p.retry.filter (fun f => decide (seq ≤ f.seq)) })
  State.ringDrain h (s.ringPort h).waiting.length s

/-- Replay every frame not acknowledged (14 R376). -/
def State.ringReplay (s : State) (h : Nat) : State :=
  let p := s.ringPort h
  if p.retry.isEmpty then s
  else p.retry.foldl (fun s f => s.emit (.ring h f.cls f.dest f.payload)) (s.updRingPort h (fun p => { p with replays := satAdd 32 p.replays 1 }))

/-- RING_FRAME_RX (14 R376): a frame in sequence is acknowledged, and forwarded where it is addressed to another position; one that
fails its CRC or leaves a gap is answered with a NAK. A frame with no payload acknowledges (log entry 41). -/
def execRingFrameRx (h : HalfId) (cls : Fin 4) (seq : Nat) (dest : Fin 64) (crcOk : Bool) (payload : List Byte) (s : State) : Res' :=
  let k := h.val
  let e := (s.ringPort k).expect
  done (onlyIf (s.ringUp k) (fun s =>
    if !crcOk || decide (e < seq) then s.emit (.ringCtl k e true)
    else if payload.isEmpty then s.ringAcked k seq
    else if seq < e then s.emit (.ringCtl k e false)
    else
      let s := (s.updRingPort k (fun p => { p with expect := e + 1 })).emit (.ringCtl k (e + 1) false)
      if dest.val = s.ring.position then s else s.ringSend (1 - k) cls.val dest.val payload) s)

/-- RING_NAK_RX (14 R376). -/
def execRingNakRx (h : HalfId) (seq : Nat) (s : State) : Res' :=
  done (onlyIf (s.ringUp h.val) (fun s => ((s.updRingPort h.val (fun p =>
    { p with retry := p.retry.filter (fun f => decide (seq ≤ f.seq)) })).ringReplay h.val).ringAcked h.val seq) s)

/-- RING_ACK_TIMEOUT (14 R376): 20 us pass without an acknowledgement. -/
def execRingAckTimeout (h : HalfId) (s : State) : Res' := done (onlyIf (s.ringUp h.val) (fun s => s.ringReplay h.val) s)

/-- A checkpoint stream whose link is lost ends; its map is merged into the current one (14 R389). BUSY is the outcome the command
register then shows (log entry 42). -/
def State.breakStreams (s : State) : State :=
  { s with twins := Tab.mapVals {} (fun _ (t : Twin) => if t.phase = 2 then
      { t with phase := 0, cmdStatus := St.busy, dirty := t.frozen ++ t.dirty.filter (fun r => !(t.frozen.contains r)), frozen := []
               allDirty := t.allDirty || t.allFrozen, allFrozen := false } else t) s.twins }

/-- RING_LANE_FAIL (14 R375, R389): with fewer than 4 lanes up the port is dark. -/
def execRingLaneFail (h : HalfId) (lane : Fin 8) (s : State) : Res' :=
  let s := s.updRingPort h.val (fun p => { p with lanes := clearBit p.lanes lane.val })
  done (if popCount 8 (s.ringPort h.val).lanes < 4 && (s.ringPort h.val).link != 0 then
      (s.updRingPort h.val (fun p => { p with link := 0, dark := true })).breakStreams
    else s)

/-- RING_LINK_UP (14 R375, R376): what was not acknowledged is replayed, and what waited is sent. -/
def execRingLinkUp (h : HalfId) (lanes : BitVec 8) (s : State) : Res' :=
  done (onlyIf (s.ring.adit == 1 && decide (4 ≤ popCount 8 lanes.toNat)) (fun s =>
    let s := (s.updRingPort h.val (fun p => { p with link := 2, lanes := lanes.toNat, dark := false })).ringReplay h.val
    State.ringDrain h.val (s.ringPort h.val).waiting.length s) s)

/-- A beacon leaves on half h's port if its link is up (14 R377). -/
def State.sendBeacon (s : State) (h pos : Nat) : State := if s.ringUp h then s.ringSend h 0 64 (leBytes 1 pos) else s

/-- BEACON_TIMER (14 R377): beacons leave in both directions; a position not heard of for ten periods is no longer a member. -/
def execBeaconTimer (s : State) : Res' :=
  done (onlyIf (s.ring.adit == 1) (fun s =>
    let s := s.updRing (fun r => { r with members := Tab.mapVals 0 (fun _ k => k - 1) r.members })
    (s.sendBeacon 0 s.ring.position).sendBeacon 1 s.ring.position) s)

/-- BEACON_RX (14 R377): a beacon of another position is noted and goes on in its direction of travel. -/
def execBeaconRx (h : HalfId) (pos : Fin 64) (s : State) : Res' :=
  done (onlyIf (s.ringUp h.val) (fun s =>
    let s := s.updRing (fun r => { r with members := r.members.set 0 pos.val 10, absent := clearBit r.absent pos.val })
    if pos.val = s.ring.position then s else s.sendBeacon (1 - h.val) pos.val) s)

/-- Pn's twin changes STATE (14 R392): PF0 vector 5, and a RAS record on the partition's VF whose class, structure and index the
spec does not give (log entry 43). -/
def State.setTwin (s : State) (n st : Nat) (status : StatusCode) : State :=
  if (s.twin n).state = st then s else
  let s := s.updTwin n (fun t => { t with state := st, status := status })
  let v := (Config.freeValue s.freeCtr).toNat
  (s.tick.raise 16 5).rasWrite 0 (1 + v % 5) (1 + v / 8 % 13) n status (v / 256 % 2 ^ 32) 0 0 1 0

/-- The twin of Pn sits at this position, as the last pair key exchange found it (14 R388, R399). -/
def State.twinAt (s : State) (pos : Nat) : Bool := s.sec.keys.pair && Config.twinPos s.sec.keys.pairGen == pos

/-- Takeover of Pn begins (14 R391 steps 1 and 2): what is partly staged is discarded. -/
def State.beginTakeover (s : State) (n : Nat) : State :=
  (s.updTwin n (fun t => { t with staged := [], stagedDross := [] })).setTwin n 5 St.ok

/-- POSITION_ABSENT (14 R377, R391, R392): a standby partition whose twin is absent takes over; a serving one continues in DEGRADED
while its own ring is lit, with a cause no rule gives (log entry 38). -/
def execPositionAbsent (pos : Fin 64) (s : State) : Res' :=
  closing (onlyIf (s.ring.adit == 1 && pos.val != s.ring.position) (fun s =>
    let s := s.updRing (fun r => { r with absent := setBit r.absent pos.val, members := r.members.set 0 pos.val 0 })
    if s.twinAt pos.val then
      forAll allParts (fun n s =>
        let st := (s.twin n).state
        if st = 4 then s.beginTakeover n
        else if (st = 1 || st = 2) && (s.ringUp 0 || s.ringUp 1) then
          (s.updTwin n (fun t => { t with phase := 0 })).tick.setTwin n 3 (BitVec.ofNat 8 ((Config.freeValue s.freeCtr).toNat % 17))
        else s) s
    else s) s)

/-- A write of RING_ADIT (14 R378, R380): THROUGH on request; OPEN in a running module whose optics pass the loopback test. -/
def State.writeAdit (s : State) (op : Nat) (loopback : Bool) : State :=
  match op with
  | 1 => (s.driveAdit 0).breakStreams
  | 2 => if 3 ≤ s.pwr.stage && loopback then s.driveAdit 1 else s
  | _ => s

/-- ADIT_THROUGH (14 R378). -/
def execAditThrough (p : Path) (value : BitVec 32) (s : State) : Res' :=
  closing (s.onOperLate p (fun s => s.writeAdit (bits (setBits value.toNat 1 0 1) 1 0) false))

/-- ADIT_OPEN (14 R378). -/
def execAditOpen (p : Path) (value : BitVec 32) (loopback : Bool) (s : State) : Res' :=
  closing (s.onOperLate p (fun s => s.writeAdit (bits (setBits value.toNat 1 0 2) 1 0) loopback))

/-- ADIT_SWITCH_DONE (14 R378): an OPEN adit's links train; THROUGH, the module is outside the ring. -/
def execAditSwitchDone (s : State) : Res' :=
  done (onlyIf (s.ring.adit == 2) (fun s =>
    let open_ := s.ring.aditTo == 1
    let s := s.updRing (fun r => { r with adit := r.aditTo, members := if open_ then r.members else [] })
    if open_ then (s.updRingPort 0 (fun p => { p with link := 1 })).updRingPort 1 (fun p => { p with link := 1 }) else s) s)

/-- STATE of a group in its table entry (14 R381), and in the engine. -/
def State.setGroup (s : State) (n g st : Nat) : State :=
  (s.hubWrite n (bits (s.coll n).groupBase 39 10 * 1024 + g * 64 + 8) (leBytes 1 st)).1.updGroup n g (fun x => { x with state := st })

/-- Outcome of a RING_GROUP_CMD. -/
def State.groupCmd (s : State) (n : Nat) (status : StatusCode) : State := s.updColl n (fun c => { c with cmdStatus := status })

/-- ACTIVATE (14 R381; 15 R399, R401): the group is keyed. The lowest member draws the key, and waits for a healthy DRBG. -/
def State.activateGroup (s : State) (n g : Nat) : State :=
  let a := bits (s.coll n).groupBase 39 10 * 1024 + g * 64
  let (s, b, _, st) := s.ppaRead n a 64
  let members := fld b 0 8
  if s.sec.fwState = 4 || (s.group n g).state = 1 then s.groupCmd n St.busy
  else if st != St.ok then s.groupCmd n st
  else if !(members.testBit s.ring.position) then s.groupCmd n St.denied
  else
    let s := ((s.groupCmd n St.pending).updGroup n g (fun x => { x with members := members, parts := bslice b 0x20 32 })).setGroup n g 1
    if lowBit 64 members = s.ring.position && !s.sec.drbgHealthy then
      { s with sec := { s.sec with keyWaits := s.sec.keyWaits ++ [.group n g] } }
    else s

/-- RETIRE (14 R381; 15 R395): the group's key is destroyed. -/
def State.retireGroup (s : State) (n g : Nat) : State := (s.setGroup n g 0).groupCmd n St.ok

/-- A write of RING_GROUP_CMD (14 R380). -/
def State.writeGroupCmd (s : State) (n v : Nat) : State :=
  let g := bits v 11 8
  let s := s.updColl n (fun c => { c with cmdToken := bits v 63 56, cmdGroup := g, cmdOp := bits v 1 0 })
  match bits v 1 0 with
  | 1 => if s.ready n then s.activateGroup n g else s.groupCmd n St.denied
  | 2 => s.retireGroup n g
  | _ => s.groupCmd n St.denied

/-- GROUP_ACTIVATE (14 R381). -/
def execGroupActivate (p : Path) (n : PartId) (value : Word64) (s : State) : Res' :=
  closing (s.onPart p n.val (fun s => s.writeGroupCmd n.val (setBits value.toNat 1 0 1)))

/-- GROUP_RETIRE (14 R381; 15 R395). -/
def execGroupRetire (p : Path) (n : PartId) (value : Word64) (s : State) : Res' :=
  closing (s.onPart p n.val (fun s => s.writeGroupCmd n.val (setBits value.toNat 1 0 2)))

/-- GROUP_KEYED (15 R399): the exchange of a group ends. -/
def execGroupKeyed (n : PartId) (g : Fin 16) (ok : Bool) (s : State) : Res' :=
  let k := n.val
  closing (onlyIf ((s.group k g.val).state == 1 && !(s.sec.keyWaits.contains (.group k g.val))) (fun s =>
    let report := fun (s : State) (st : StatusCode) => if (s.coll k).cmdGroup = g.val then s.groupCmd k st else s
    if ok then (report (s.setGroup k g.val 2) St.ok).log 0x43 k St.ok 0 [] else report (s.setGroup k g.val 0) St.denied) s)

/-! The collective engine. -/

/-- A format of the engine (14 R382). -/
def collFmt (f : Nat) : Bool := f == 0 || f == 1 || (decide (4 ≤ f) && decide (f ≤ 7)) || f == 0x10 || f == 0x11
/-- An MX format. -/
def isMx (f : Nat) : Bool := decide (4 ≤ f) && decide (f ≤ 7)
/-- Bytes of count elements (04 R90; 14 R382). -/
def collBytes (f count : Nat) : Nat := if isMx f then count / 32 * blockBytes f else if f ≤ 1 then count * 2 else count * 4

/-- Byte strings of w bytes each. -/
def chunksOf (w : Nat) : Nat → List Byte → List (List Byte)
  | 0, _ => []
  | k + 1, b => b.take w :: chunksOf w k (b.drop w)

/-- The sum of two elements (14 R383; 05 R121, R122): in INT32 saturating, else in FP32 and encoded to nearest even. -/
def collAdd (f a b : Nat) : Nat :=
  if f = 0x11 then
    let v := signed 32 a + signed 32 b
    ((max (-2 ^ 31) (min v (2 ^ 31 - 1))) % 2 ^ 32).toNat
  else if f = 0x10 then (rne32 ((binary32.decode a).add (binary32.decode b))).1.toNat
  else ((fmtOf f).encode (f32 (rne32 (((fmtOf f).decode a).add ((fmtOf f).decode b))).1)).1

/-- Values of an MX block under its scale byte (05 R116, R117). -/
def mxVals (f : Nat) (b : List Byte) (scale : Byte) : List Fp :=
  (blockCodes f b).map (fun c => match e8m0 scale.toNat with
    | none => .nan
    | some d => ((elemVal f c).getD .nan).mul (d.fp false))

/-- The sum of two MX blocks, and its scale under R124 (14 R383). -/
def mxAdd (f : Nat) (a : List Byte) (sa : Byte) (b : List Byte) (sb : Byte) : List Byte × Byte :=
  let xs := List.zipWith (fun x y => f32 (rne32 (x.add y)).1) (mxVals f a sa) (mxVals f b sb)
  let e := e8m0For f xs
  let x : Xs := match e8m0 e with | some d => .val d | none => .nan
  (packCodes f (xs.map (fun v => (quantEl f .even v x (xs.any (· == .nan))).1)), BitVec.ofNat 8 e)

/-- The sum of two chunks of count elements with their scales (14 R383). -/
def chunkAdd (f count : Nat) (a sa b sb : List Byte) : List Byte × List Byte :=
  if isMx f then
    let k := count / 32
    let w := blockBytes f
    let r := (List.zip (List.zip (chunksOf w k a) sa) (List.zip (chunksOf w k b) sb)).map (fun q => mxAdd f q.1.1 q.1.2 q.2.1 q.2.2)
    ((r.map (·.1)).flatten, r.map (·.2))
  else
    let w := if f ≤ 1 then 2 else 4
    ((List.zipWith (fun x y => leBytes w (collAdd f (ofLe x) (ofLe y))) (chunksOf w count a) (chunksOf w count b)).flatten, [])

/-- What a collective is for this member (14 R381-R383): descriptor, members, own rank, elements of a chunk. -/
structure CollGeo where
  d : CollDesc
  members : List Nat
  rank : Nat
  chunk : Nat
  deriving DecidableEq, Repr

/-- The geometry of a descriptor in a group. -/
def State.collGeo (s : State) (g : Group) (d : CollDesc) : CollGeo :=
  let m := maskList 64 g.members
  { d := d, members := m, rank := (m.filter (fun p => decide (p < s.ring.position))).length, chunk := d.count / (2 * m.length) }

/-- Members. -/
def CollGeo.n (x : CollGeo) : Nat := x.members.length
/-- Steps of each direction (14 R383). -/
def CollGeo.steps (x : CollGeo) : Nat := if x.d.op = 3 then 2 * (x.n - 1) else x.n - 1
/-- Step k reduces. -/
def CollGeo.reduces (x : CollGeo) (k : Nat) : Bool := x.d.op != 2 && decide (k < x.n - 1)
/-- The chunk whose frame arrives at step k. -/
def CollGeo.recv (x : CollGeo) (aft : Bool) (k : Nat) : Nat :=
  if x.reduces k then (if aft then x.rank + 2 + k else x.rank + 2 * x.n - 2 - k) % x.n
  else
    let t := if x.d.op = 2 then k else k - (x.n - 1)
    (if aft then x.rank + 1 + t else x.rank + 2 * x.n - 1 - t) % x.n
/-- The chunk that is sent first. -/
def CollGeo.first (x : CollGeo) (aft : Bool) : Nat :=
  if x.d.op = 2 then x.rank else (if aft then x.rank + 1 else x.rank + x.n - 1) % x.n
/-- First element of a direction's part of segment c: fore takes the lower half of each (log entry 44). -/
def CollGeo.elem (x : CollGeo) (aft : Bool) (c : Nat) : Nat := c * 2 * x.chunk + (if aft then x.chunk else 0)

/-- Bytes of a chunk at element e of an operand, its scales, whether a line of them is dross, and the status. -/
def State.readChunk (s : State) (n : Nat) (x : CollGeo) (base scale e : Nat) : State × List Byte × List Byte × Bool × StatusCode :=
  let (s, b, dr, st) := s.ppaRead n (base + collBytes x.d.fmt e) (collBytes x.d.fmt x.chunk)
  if isMx x.d.fmt then
    let (s, sc, dr2, st2) := s.ppaRead n (scale + e / 32) (x.chunk / 32)
    (s, b, sc, dr || dr2, if st = St.ok then st2 else st)
  else (s, b, [], dr, st)

/-- Write a chunk at element e of DST (14 R383; 06 R147): dross chunks make dross lines. -/
def State.writeChunk (s : State) (n : Nat) (x : CollGeo) (e : Nat) (data scales : List Byte) (dross : Bool) : State × StatusCode :=
  let (s, st) := s.ppaWrite n (x.d.dst + collBytes x.d.fmt e) data dross none (s.ringVia n)
  if isMx x.d.fmt && st = St.ok then s.ppaWrite n (x.d.dstScale + e / 32) scales dross none (s.ringVia n) else (s, st)

/-- Partition of a member position, from the group's table entry (14 R381). -/
def Group.partAt (g : Group) (pos : Nat) : Nat := bits (fld g.parts (pos / 2) 1) (4 * (pos % 2) + 3) (4 * (pos % 2))

/-- Send a chunk for a step to the next member in a direction (14 R383), as class 2 frames. The frames' layout is the model's (log
entry 9). -/
def State.sendChunk (s : State) (n g : Nat) (x : CollGeo) (seq : Nat) (aft : Bool) (step : Nat) (data scales : List Byte) (dross : Bool) :
    State :=
  let next_ := nth x.members ((if aft then x.rank + x.n - 1 else x.rank + 1) % x.n)
  s.ringSendAll (if aft then 1 else 0) 2 next_ (leBytes 1 ((s.group n g).partAt next_) ++ leBytes 1 g ++ leBytes 4 seq ++ leBytes 1 step
    ++ leBytes 1 (bit aft + 2 * bit dross) ++ data ++ scales)

/-- A collective whose steps are all done in both directions ends (14 R384). -/
def State.collFinish (s : State) (n g : Nat) (x : CollGeo) (us : Nat) : State :=
  match (s.group n g).running with
  | none => s
  | some c => if c.foreGot = x.steps && c.aftGot = x.steps then s.endColl n g (if c.dross then St.dross else St.ok) 0xFF us else s

/-- A step's frame has been taken: the next step's frame leaves (14 R383). -/
def State.collStep (s : State) (n g : Nat) (x : CollGeo) (c : Coll) (aft : Bool) (k : Nat) (data scales : List Byte) (dross : Bool) (us : Nat) :
    State :=
  let s := s.updGroup n g (fun y => { y with running := some { c with
    foreGot := if aft then c.foreGot else k + 1, aftGot := if aft then k + 1 else c.aftGot, dross := c.dross || dross } })
  let s := if k + 1 < x.steps then s.sendChunk n g x c.seq aft (k + 1) data scales dross else s
  s.collFinish n g x us

/-- COLLECTIVE_FRAME of the collective in progress (14 R383): a chunk is reduced with this member's own, or copied. -/
def State.collArrive (s : State) (n g : Nat) (aft : Bool) (step : Nat) (data scales : List Byte) (dross : Bool) (us : Nat) : State :=
  match (s.group n g).running with
  | none => s
  | some c =>
    let d := collDesc c.desc
    let x := s.collGeo (s.group n g) d
    if step != (if aft then c.aftGot else c.foreGot) || decide (x.steps ≤ step) || data.length != collBytes d.fmt x.chunk
        || scales.length != (if isMx d.fmt then x.chunk / 32 else 0) then s
    else
      let i := x.recv aft step
      if x.reduces step then
        let (s, own, sc, dr, st) := s.readChunk n x d.src d.srcScale (x.elem aft i)
        if st != St.ok then s.failColl n g st us
        else
          let r := chunkAdd d.fmt x.chunk data scales own sc
          let dr := dr || dross
          if step + 1 < x.n - 1 then s.collStep n g x c aft step r.1 r.2 dr us
          else
            let (s, st) := s.writeChunk n x (if d.op = 3 then x.elem aft i else x.elem aft 0) r.1 r.2 dr
            if st = St.ok then s.collStep n g x c aft step r.1 r.2 dr us else s.failColl n g st us
      else
        let (s, st) := s.writeChunk n x (x.elem aft i) data scales dross
        if st = St.ok then s.collStep n g x c aft step data scales dross us else s.failColl n g st us

/-- Every range that a descriptor names lies within the PPA (14 R384). -/
def State.collInPpa (s : State) (n m : Nat) (d : CollDesc) : Bool :=
  let part := d.count / m
  let src := if d.op = 2 then part else d.count
  let dst := if d.op = 1 then part else d.count
  s.inPpa n d.src (collBytes d.fmt src) && s.inPpa n d.dst (collBytes d.fmt dst) && s.inPpa n d.endAddr 32
    && (!(isMx d.fmt) || (s.inPpa n d.srcScale (src / 32) && s.inPpa n d.dstScale (dst / 32)))

/-- Why a descriptor ends at once (14 R382, R384): a reserved bit or value, a group that is not active, an address beyond the PPA. -/
def State.collRefused (s : State) (n : Nat) (d : CollDesc) : Option StatusCode :=
  let g := s.group n d.group
  let m := popCount 64 g.members
  if d.op = 0 || 3 < d.op || !(collFmt d.fmt) || 15 < d.group || 1 < d.flags || d.rsv != 0 || d.endAddr % 32 != 0
      || (d.flags.testBit 0 && (s.ownerCore d.evCore != some n || decide (63 < d.evBit))) || (d.op != 3 && d.dst == d.src)
      || (!(isMx d.fmt) && (d.srcScale != 0 || d.dstScale != 0)) then some St.denied
  else if g.state != 2 || m = 0 || d.count % (64 * m) != 0 then some St.denied
  else if !(s.collInPpa n m d) then some St.faultBounds else none

/-- The own part of a result that takes no step: ALL_GATHER's own segment, or all of it in a group of one (14 R382). -/
def State.collOwn (s : State) (n : Nat) (x : CollGeo) (aft : Bool) : State × Bool × StatusCode :=
  if x.d.op = 2 || x.n = 1 then
    let (s, b, sc, dr, st) := s.readChunk n x x.d.src x.d.srcScale (x.elem aft 0)
    if st != St.ok then (s, dr, st)
    else let (s, st) := s.writeChunk n x (if x.d.op = 2 then x.elem aft x.rank else x.elem aft 0) b sc dr; (s, dr, st)
  else (s, false, St.ok)

/-- The first frame of a direction leaves (14 R383). -/
def State.collFirst (s : State) (n g seq : Nat) (x : CollGeo) (aft : Bool) : State × StatusCode :=
  if x.steps = 0 then (s, St.ok) else
  let e := if x.d.op = 2 then x.elem aft 0 else x.elem aft (x.first aft)
  let (s, b, sc, dr, st) := s.readChunk n x x.d.src x.d.srcScale e
  if st = St.ok then (s.sendChunk n g x seq aft 0 b sc dr, st) else (s, st)

/-- A collective begins (14 R383): its own part, its first frames, and the frames that came before its descriptor. -/
def State.collBegin (s : State) (n g seq : Nat) (x : CollGeo) : State :=
  let us := s.freeUs
  let (s, d0, s0) := s.tick.collOwn n x false
  let (s, d1, s1) := s.collOwn n x true
  let s := s.updGroup n g (fun y => { y with running := y.running.map (fun c => { c with dross := c.dross || d0 || d1 }) })
  if s0 != St.ok || s1 != St.ok then s.failColl n g (if s0 = St.ok then s1 else s0) us
  else
    let (s, s0) := s.collFirst n g seq x false
    let (s, s1) := s.collFirst n g seq x true
    if s0 != St.ok || s1 != St.ok then s.failColl n g (if s0 = St.ok then s1 else s0) us
    else
      let s := s.collFinish n g x us
      let mine := fun (c : Instr) => match c with | .collectiveFrame _ _ _ q _ _ _ _ _ => q == seq | _ => false
      let l := (s.group n g).ahead.filter mine
      let s := s.updGroup n g (fun y => { y with ahead := y.ahead.filter (fun c => !(mine c)) })
      l.foldl (fun s c => match c with
        | .collectiveFrame _ _ aft _ step data scales dross us => s.collArrive n g aft step data scales dross us
        | _ => s) s

/-- The descriptor at HEAD is taken (14 R382, R384, R386; 17 R451): refused, ended by an abort that came before it, or begun. -/
def State.collTake (s : State) (n : Nat) (b : List Byte) (dross : Bool) : State :=
  let d := collDesc b
  let g := d.group
  let seq := (s.group n g).seq
  if 16 ≤ g then s.tick.putRecord n d St.denied 0 0xFF s.freeUs
  else
    let refused := if dross then some St.dross else s.collRefused n d
    let early := (s.group n g).early.find? (fun e => e.1 == seq)
    let s := s.updGroup n g (fun x => { x with seq := seq + 1, running := some { seq := seq, desc := b }, early := x.early.filter (fun e => e.1 != seq) })
    match refused, early with
    | some st, _ => s.tick.failColl n g st s.freeUs
    | none, some e => s.tick.endColl n g St.collectiveAbort e.2 s.freeUs
    | none, none => s.collBegin n g seq (s.collGeo (s.group n g) d)

/-- Take posted descriptors in ring order while their group runs none (14 R382; log entry 45). -/
def State.collPump (n : Nat) : Nat → State → State
  | 0, s => s
  | fuel + 1, s =>
    let c := s.coll n
    if c.len = 0 || c.head % c.len = c.tail % c.len || !(s.ready n) then s
    else
      let r := s.ppaPeek n (c.entry (c.head % c.len)) 64
      if r.2.2 != St.ok then s
      else if (s.group n (fld r.1 2 1)).running.isSome then s
      else
        let s := (s.ppaReport n (c.entry (c.head % c.len)) 64).updColl n (fun c => { c with head := (c.head + 1) % c.len })
        State.collPump n fuel (s.collTake n r.1 r.2.1)

/-- A write of RING_COLL_TAIL (14 R380, R382). -/
def State.writeCollTail (s : State) (n v : Nat) : State := State.collPump n 4096 (s.updColl n (fun c => { c with tail := bits v 11 0 }))

/-- COLLECTIVE_POST (14 R382). -/
def execCollectivePost (p : Path) (n : PartId) (value : BitVec 32) (s : State) : Res' :=
  closing (s.onPart p n.val (fun s => s.writeCollTail n.val value.toNat))

/-- COLLECTIVE_FRAME (14 R383, R386): a frame of the collective in progress is taken; one of a later collective waits for its
descriptor, and one of a collective that has ended is dropped. -/
def execCollectiveFrame (n : PartId) (g : Fin 16) (aft : Bool) (seq step : Nat) (data scales : List Byte) (dross : Bool) (us : Nat)
    (s : State) : Res' :=
  let x := s.group n.val g.val
  closing (onlyIf (s.ready n.val && x.state == 2) (fun s =>
    if x.running.any (fun c => c.seq == seq) then
      State.collPump n.val 4096 (s.collArrive n.val g.val aft step data scales dross us)
    else if x.seq ≤ seq && !(x.early.any (fun e => e.1 == seq)) then
      s.updGroup n.val g.val (fun x => { x with ahead := x.ahead ++ [.collectiveFrame n g aft seq step data scales dross us] })
    else s) s)

/-- COLLECTIVE_WATCHDOG (14 R385). -/
def execCollectiveWatchdog (n : PartId) (g : Fin 16) (us : Nat) (s : State) : Res' :=
  closing (State.collPump n.val 4096 (s.failColl n.val g.val St.timeout us))

/-- ABORT_TOKEN (14 R386): the collective ends, or will when its descriptor is taken; the token goes on in its direction of travel
until it comes back to the position that sent it. -/
def execAbortToken (n : PartId) (g : Fin 16) (seq : Nat) (origin : Fin 64) (aft : Bool) (us : Nat) (s : State) : Res' :=
  let k := n.val
  let x := s.group k g.val
  closing (onlyIf (origin.val != s.ring.position) (fun s =>
    let s := s.ringSend (if aft then 1 else 0) 0 64 (leBytes 1 k ++ leBytes 1 g.val ++ leBytes 4 seq ++ leBytes 1 origin.val)
    if x.state != 2 then s
    else if x.running.any (fun c => c.seq == seq) then State.collPump k 4096 (s.endColl k g.val St.collectiveAbort origin.val us)
    else if x.seq ≤ seq && !(x.early.any (fun e => e.1 == seq)) then
      s.updGroup k g.val (fun x => { x with early := x.early ++ [(seq, origin.val)]
                                            ahead := x.ahead.filter (fun c => match c with
                                              | .collectiveFrame _ _ _ q _ _ _ _ _ => q != seq | _ => true) })
    else s) s)

end Sys2Proof.Machine
end

