-- ==== Sys2Proof/Machine/Twin.lean ====
section
/-!
DEFINITION. Twins (14 R388-R392): mirroring, checkpoints, the request log, fencing and takeover.
-/

namespace Sys2Proof.Machine

/-- Regions of 64 KiB of Pn's PPA (14 R389). -/
def State.regions (s : State) (n : Nat) : Nat := s.ppaSize n / 65536

/-- The port that carries frames to the twin: fore unless only aft is up (log entry 46). -/
def State.twinPort (s : State) : Nat := if s.ringUp 0 || !(s.ringUp 1) then 0 else 1

/-- Send bytes to the twin in a class (14 R376). -/
def State.twinSend (s : State) (cls : Nat) (bytes : List Byte) : State :=
  s.ringSendAll s.twinPort cls (Config.twinPos s.sec.keys.pairGen) bytes

/-- The channels of a context that runs on no cell pause and are saved (14 R389 step 2; 07 R187). -/
def State.pauseCtx (s : State) (n c : Nat) : State :=
  let st := (s.ctx n c).state
  if st == .active || st == .lost || (s.chansOf n c).isEmpty then s
  else
    let s := if (s.ctx n c).latched then s else s.latch n c
    if (s.ctx n c).latched then s.preemptChans n c else s

/-- A checkpoint begins (14 R389 step 2): every context is brought to a cheap point and saved, its channels paused. -/
def State.beginCheckpoint (s : State) (n : Nat) : State :=
  let s := s.updTwin n (fun t => { t with phase := 1 })
  let s := forAll (List.range 12) (fun k s =>
    match (s.res k n).resident with
    | none => s
    | some c => forAll (s.siteCells n c k) (fun i s => s.askCell i) (s.updRes k n (fun r => { r with incoming := none, switching := true }))) s
  forAll (s.ctxsOf n) (fun c s => s.pauseCtx n c) s

/-- Contexts that no gang keeps PREEMPTED go on with their channels (14 R389 step 3). -/
def State.endPause (s : State) (n : Nat) : State :=
  forAll (s.ctxsOf n) (fun c s =>
    if (s.ctx n c).state == .preempted || (s.ctx n c).state == .lost || (s.ctx n c).savedChans.isEmpty then s else s.reloadChans n c) s

/-- Every context of Pn is saved: none is resident, and no channel of a context moves. -/
def State.atBoundary (s : State) (n : Nat) : Bool :=
  (List.range 12).all (fun k => (s.res k n).resident.isNone)
    && s.chans.all (fun e => isPriv e.1 || !e.2.en || s.ownerChan e.1 != some n || e.2.state == 0 || e.2.state == 6 || e.2.state == 8)

/-- Dirty lines of Pn in its clusters' caches are written back (14 R389 step 2). -/
def State.writeBackClusters (s : State) (n : Nat) : State :=
  (s.coh.copies.filter (fun e => decide (e.1 / 2 ^ 38 % 16 < 8) && moesiDirty e.2.st && s.ownerPch (pchOfLine (e.1 % 2 ^ 38)) == some n)).foldl
    (fun s e => (s.writeAtHome (e.1 % 2 ^ 38) n 0 e.2.data e.2.dross)) s

/-- The lines of a region of Pn whose dross bit is set, as offsets (17 R451). -/
def State.regionDross (s : State) (n r : Nat) : List Nat :=
  (List.range 1024).filter (fun i => match s.ppaToHpa n (r * 65536 + i * 64) with | some a => (s.newest (a / 64)).dross | none => false)

/-- Send a region of the stream (14 R389 step 4): its number, its dross lines and its bytes, as class 3 frames. -/
def State.sendRegion (s : State) (n r : Nat) : State :=
  let d := s.regionDross n r
  (s.ppaReport n (r * 65536) 65536).twinSend 3 (leBytes 1 n ++ leBytes 4 r ++ leBytes 2 d.length ++ (d.map (leBytes 2)).flatten
    ++ (s.ppaPeek n (r * 65536) 65536).1)

/-- The boundary of a checkpoint (14 R389 steps 3 and 4): the map is frozen and streams in ascending PPA, as it stands now; the
contexts go on. A map larger than the twin's staging area ends with NO_MEMORY, and nothing of it is lost. -/
def State.takeBoundary (s : State) (n : Nat) : State :=
  let s := s.writeBackClusters n
  let t := s.twin n
  let map := if t.allDirty then List.range (s.regions n) else (List.range (s.regions n)).filter (fun r => t.dirty.contains r)
  if !t.allDirty && decide (Config.twinStage n * 1048576 < map.length * 65536) then
    (s.updTwin n (fun t => { t with phase := 0, cmdStatus := St.noMemory })).endPause n
  else
    let s := s.updTwin n (fun t => { t with phase := 2, frozen := if t.allDirty then [] else map, allFrozen := t.allDirty, dirty := [], allDirty := false
                                            boundLog := t.logTail })
    (map.foldl (fun s r => s.sendRegion n r) s).endPause n

/-- CHECKPOINT_BOUNDARY (14 R389). -/
def execCheckpointBoundary (n : PartId) (s : State) : Res' :=
  closing (onlyIf ((s.twin n.val).phase == 1 && s.ready n.val && s.atBoundary n.val) (fun s => s.takeBoundary n.val) s)

/-- CHECKPOINT_COMPLETE (14 R389 step 5, R392): the log records before the boundary are released. -/
def execCheckpointComplete (n : PartId) (s : State) : Res' :=
  let k := n.val
  closing (onlyIf ((s.twin k).phase == 2) (fun s =>
    let s := s.updTwin k (fun t => { t with phase := 0, cmdStatus := St.ok, checkpoint := (t.checkpoint + 1) % 2 ^ 32, frozen := [], allFrozen := false
                                            relLog := t.boundLog })
    if (s.twin k).state = 1 then s.setTwin k 2 St.ok else s) s)

/-- A privileged channel of Pn is RUNNING. -/
def State.privRuns (s : State) (n : Nat) : Bool := s.chans.any (fun e => isPriv e.1 && e.2.state == 2 && s.ownerChan e.1 == some n)

/-- Outcome of a twin command. -/
def State.twinCmd (s : State) (n : Nat) (status : StatusCode) : State := s.updTwin n (fun t => { t with cmdStatus := status })

/-- START (14 R388, R389; 15 R401): twinOk says whether the conditions on the twin hold. -/
def State.startTwin (s : State) (n : Nat) (twinOk : Bool) : State :=
  if s.sec.fwState = 4 then s.twinCmd n St.busy
  else if !(s.ready n) || !((s.slice n).mirror) || !s.sec.keys.pair || !twinOk || (s.twin n).state != 0 then s.twinCmd n St.denied
  else
    let s := s.updTwin n (fun t => { t with cmdStatus := St.ok, checkpoint := 0, allDirty := true, dirty := [], relLog := t.logTail, logAck := t.logTail })
    (s.setTwin n 1 St.ok).beginCheckpoint n

/-- CHECKPOINT (14 R389 step 1). -/
def State.startCheckpoint (s : State) (n : Nat) : State :=
  let t := s.twin n
  if t.phase != 0 || s.privRuns n then s.twinCmd n St.busy
  else if t.state != 2 then s.twinCmd n St.denied
  else (s.twinCmd n St.pending).beginCheckpoint n

/-- STOP (14 R388, R392): the partition is no longer mirrored. -/
def State.stopTwin (s : State) (n : Nat) : State :=
  let s := s.updTwin n (fun t => { t with cmdStatus := St.ok, phase := 0, dirty := [], frozen := [], allDirty := false, allFrozen := false, staged := []
                                          stagedDross := [] })
  (s.setTwin n 0 St.ok).endPause n

/-- A write of RING_TWIN_CMD (14 R380). -/
def State.writeTwinCmd (s : State) (n v : Nat) (twinOk : Bool) : State :=
  let s := s.updTwin n (fun t => { t with token := bits v 63 56 })
  match bits v 2 0 with
  | 1 => s.startTwin n twinOk
  | 2 => s.startCheckpoint n
  | 3 => s.stopTwin n
  | _ => s.twinCmd n St.denied

/-- TWIN_START (14 R388). -/
def execTwinStart (p : Path) (n : PartId) (value : Word64) (twinOk : Bool) (s : State) : Res' :=
  closing (s.onPart p n.val (fun s => s.writeTwinCmd n.val (setBits value.toNat 2 0 1) twinOk))

/-- TWIN_CHECKPOINT (14 R389). -/
def execTwinCheckpoint (p : Path) (n : PartId) (value : Word64) (s : State) : Res' :=
  closing (s.onPart p n.val (fun s => s.writeTwinCmd n.val (setBits value.toNat 2 0 2) false))

/-- TWIN_STOP (14 R388, R392). -/
def execTwinStop (p : Path) (n : PartId) (value : Word64) (s : State) : Res' :=
  closing (s.onPart p n.val (fun s => s.writeTwinCmd n.val (setBits value.toNat 2 0 3) false))

/-- Pn may become the standby of its twin (14 R388). -/
def State.mayStandBy (s : State) (n : Nat) : Bool :=
  s.ready n && (s.slice n).mirror && s.sec.keys.pair && (s.code n).running == 0 && (s.ctxsOf n).all (fun c => (s.ctx n c).state == .idle)

/-- Write a region of the stream in place, its dross lines marked (14 R389; 17 R451). -/
def State.placeRegion (s : State) (n r : Nat) (data : List Byte) (dross : List Nat) : State :=
  (List.range 1024).foldl (fun s i => (s.ppaStore n (r * 65536 + i * 64) (bslice data (i * 64) 64) (dross.contains i)).1) s

/-- PPA and size of the staging area (14 R380). -/
def Twin.stageBase (t : Twin) : Nat := bits t.stage 39 20 * 1048576
/-- Its size in bytes. -/
def Twin.stageSize (t : Twin) : Nat := bits t.stage 63 40 * 1048576

/-- A region of a later checkpoint is staged: the k-th at the k-th 64 KiB of the staging area (log entry 47). -/
def State.stageRegion (s : State) (n r : Nat) (data : List Byte) (dross : List Nat) : State :=
  let t := s.twin n
  let k := t.staged.length
  if t.stageSize < (k + 1) * 65536 || !(s.inPpa n (t.stageBase + k * 65536) 65536) then s
  else
    let s := s.placeRegion n (t.stageBase / 65536 + k) data dross
    s.updTwin n (fun t => { t with staged := t.staged.set [] r data, stagedDross := t.stagedDross ++ dross.map (fun i => r * 1024 + i) })

/-- A checkpoint that is wholly staged is copied into place (14 R389 step 5). -/
def State.copyStaged (s : State) (n : Nat) : State :=
  let t := s.twin n
  let s := t.staged.foldl (fun s e => s.placeRegion n e.1 e.2 ((t.stagedDross.filter (fun l => l / 1024 == e.1)).map (· % 1024))) s
  s.updTwin n (fun t => { t with staged := [], stagedDross := [] })

/-- TWIN_STREAM_RX (14 R388, R389): a region of the twin's stream. The first checkpoint is written in place and makes the partition
the standby; a later one is staged and copied into place when its last region has come. -/
def execTwinStreamRx (n : PartId) (region : Nat) (data : List Byte) (drossLines : List Nat) (last : Bool) (number logIdx : Nat) (s : State) :
    Res' :=
  let k := n.val
  closing (onlyIf (((s.twin k).state == 4 || ((s.twin k).state == 0 && s.mayStandBy k)) && decide (region < s.regions k)) (fun s =>
    let s := if (s.twin k).state = 0 then (s.updTwin k (fun t => { t with checkpoint := 0, staged := [], stagedDross := [] })).setTwin k 4 St.ok else s
    let s := if (s.twin k).checkpoint = 0 then s.placeRegion k region data drossLines else s.stageRegion k region data drossLines
    if last then (s.copyStaged k).updTwin k (fun t => { t with checkpoint := number % 2 ^ 32, boundLog := logIdx }) else s) s)

/-- Entries of the request log, 0 where LOG2N is out of range (14 R380). -/
def Twin.logLen (t : Twin) : Nat := let l := bits t.log 59 56; if 6 ≤ l then 2 ^ l else 0

/-- Send the records of the log from index i on (14 R390), as class 1 frames. -/
def State.sendLog (s : State) (n i k : Nat) : State :=
  let t := s.twin n
  (List.range k).foldl (fun s j =>
    let a := bits t.log 39 12 * 4096 + (i + j) % t.logLen * Config.twinRecord
    s.twinSend 1 (leBytes 1 n ++ leBytes 8 a ++ leBytes 4 ((i + j + 1) % t.logLen) ++ (s.ppaPeek n a Config.twinRecord).1)) s

/-- A write of RING_TWIN_LOG_TAIL (14 R390): while the log is full of records no checkpoint has released it is ignored.
Without a twin that takes the stream nothing is sent, and nothing is held. -/
def State.writeLogTail (s : State) (n v : Nat) : State :=
  let t := s.twin n
  let m := t.logLen
  let v := v % 65536
  if m = 0 || !(t.state == 1 || t.state == 2) then s.updTwin n (fun t => { t with logTail := v })
  else
    let used := (t.logTail + m - t.relLog % m) % m
    let want := (v % m + m - t.relLog % m) % m
    if want < used then s
    else (s.updTwin n (fun t => { t with logTail := v % m })).sendLog n t.logTail (want - used)

/-- TWIN_LOG_APPEND (14 R390). -/
def execTwinLogAppend (p : Path) (n : PartId) (value : BitVec 32) (s : State) : Res' :=
  closing (s.onPart p n.val (fun s => s.writeLogTail n.val value.toNat))

/-- TWIN_LOG_RX (14 R390): the twin's record is written to the same PPA, then acknowledged. -/
def execTwinLogRx (n : PartId) (ppa : Nat) (data : List Byte) (idx : Nat) (s : State) : Res' :=
  let k := n.val
  closing (onlyIf ((s.twin k).state == 4 && s.inPpa k ppa data.length) (fun s =>
    let r := s.ppaStore k ppa data false
    if r.2 = St.ok then (r.1.updTwin k (fun t => { t with logTail := idx % 65536 })).twinSend 1 (leBytes 1 k ++ leBytes 4 idx) else r.1) s)

/-- TWIN_LOG_ACK_RX (14 R390): RING_TWIN_LOG_ACK moves to the index acknowledged. -/
def execTwinLogAckRx (n : PartId) (idx : Nat) (s : State) : Res' :=
  let t := s.twin n.val
  done (onlyIf ((t.state == 1 || t.state == 2) && t.logLen != 0
      && decide ((idx % t.logLen + t.logLen - t.logAck % t.logLen) % t.logLen ≤ (t.logTail + t.logLen - t.logAck % t.logLen) % t.logLen))
    (fun s => s.updTwin n.val (fun t => { t with logAck := idx % t.logLen })) s)

/-- DOWN_TOKEN (14 R391): an authenticated token of the twin makes a standby partition take over. -/
def execDownToken (n : PartId) (auth : Bool) (s : State) : Res' :=
  closing (onlyIf (auth && (s.twin n.val).state == 4) (fun s => s.beginTakeover n.val) s)

/-- RING_DARK_FENCE (14 R391): both ports have been dark for 2 ms: the mirrored partitions are LOST with TIMEOUT. -/
def execRingDarkFence (s : State) : Res' :=
  closing (onlyIf ((s.ringPort 0).dark && (s.ringPort 1).dark) (fun s =>
    forAll (allParts.filter (fun n => (s.slice n).mirror && (s.twin n).state != 0 && (s.twin n).state != 6)) (fun n s =>
      ((s.updTwin n (fun t => { t with phase := 0 })).setTwin n 6 St.timeout).losePart n St.timeout) s) s)

/-- Reload a resume record of a save area into its channel (07 R186, R187; 14 R391). -/
def State.adoptRecord (s : State) (n c k : Nat) : State :=
  let a := (s.ctx n c).saveBase + 0x800 + k * 64
  let b := (s.ppaPeek n a 64).1
  let ctrl := fld b 0x20 4
  let i := bits ctrl 9 0
  let desc := fld b 0 8
  let bytes := if desc = 0 || desc.testBit 63 then none else some (s.ppaPeek n desc 64).1
  if isPriv i || s.ownerChan i != some n then s
  else (s.updChan i (fun x => { x with
      ctx := c, en := true, prio := bits ctrl 26 24, state := 8, stop := .none, kind := bits ctrl 13 12, slot := k, dir := ctrl.testBit 14
      spacePpa := ctrl.testBit 15, status := BitVec.ofNat 8 (bits ctrl 23 16), resolved := ctrl.testBit 27, faultId := 0xFFFF
      faultAddr := fld b 0x18 8, pause := bits ctrl 13 12 == 0, desc := bytes, nDesc := none, nIssued := 0, bursts := []
      done := fld b 0x28 8, issued := fld b 0x28 8, seq := fld b 0x3C 4 })).updCtx n c (fun x => { x with savedChans := x.savedChans ++ [i] })

/-- A context of the taking module enters PREEMPTED from its save area (14 R391 step 3): one whose status block shows PREEMPTED, or
whose save area holds resume records. -/
def State.adoptCtx (s : State) (n c : Nat) : State :=
  let s := s.latch n c
  let x := s.ctx n c
  if !x.latched then s.updCtx n c (fun x => { x with latchFail := St.ok })
  else
    let k := min 32 (s.ppaWord n x.saveBase 8)
    if bits (s.ppaWord n x.statusBase 8) 7 0 = 3 || 0 < k then
      forAll (List.range k) (fun j s => s.adoptRecord n c j) (s.setCtxState n c .preempted St.ok)
    else s.updCtx n c (fun x => { x with latched := false })

/-- The clusters that START named start at ENTRY with a0 to a2 (14 R391 step 3; 06 R146). No field of START names them: which they are,
and their image, are free values (log entry 48). -/
def State.startTaken (s : State) (n : Nat) : State :=
  let t := s.twin n
  let v := (Config.freeValue s.freeCtr).toNat
  let clusters := maskList 16 ((s.slice n).clusters &&& v)
  let base := v / 65536 % 2 ^ 28 * 4096
  let h := (s.ppaPeek n base 256).1
  let mask := clusters.foldl setBit 0
  let s := s.tick.updCode n (fun c => { c with running := mask, images := if mask = 0 then [] else [{ base := base, len := fld h 8 4, clusters := mask }] })
  forAll (clusterCores mask) (fun k s => s.updCore k (fun x =>
    { inReset := false, pc := base + fld h 0xC 4, excs := x.excs, a0 := 1, a1 := t.checkpoint, a2 := t.boundLog })) s

/-- TAKEOVER_DONE (14 R391 step 3, R392). The cause that STATUS shows is not given (log entry 38). -/
def execTakeoverDone (n : PartId) (s : State) : Res' :=
  let k := n.val
  closing (onlyIf ((s.twin k).state == 5 && s.ready k) (fun s =>
    let s := forAll (List.range 4096) (fun c s => s.adoptCtx k c) s
    let s := s.startTaken k
    s.tick.setTwin k 3 (BitVec.ofNat 8 ((Config.freeValue s.freeCtr).toNat % 17))) s)

/-- PAIR_KEY_EXCHANGE (15 R399): between bound twins at stage 3 with their adits OPEN; a key is drawn from a healthy DRBG (R394). -/
def execPairKeyExchange (ok : Bool) (s : State) : Res' :=
  closing (onlyIf (s.sec.fuses.twinActive && decide (3 ≤ s.pwr.stage) && s.ring.adit == 1) (fun s =>
    if !ok then s
    else if !s.sec.drbgHealthy then { s with sec := { s.sec with keyWaits := s.sec.keyWaits ++ [.pair] } }
    else
      ({ s with sec := { s.sec with keys := { s.sec.keys with pair := true, pairGen := s.sec.keys.pairGen + 1 } } }).log 0x42 255 St.ok 0 []) s)

end Sys2Proof.Machine
end

