-- ==== Sys2Proof/Machine/Pattern.lean ====
section
/-!
DEFINITION. The pattern stream (02 R34-R37, R470), the checks of an apply (R43), the isolation invariants (R46) and slice digests
(R48).
-/

namespace Sys2Proof.Machine

/-- Every byte is 0. -/
def allZero (b : List Byte) : Bool := b.all (fun x => x == 0)

/-- Body size of a section of fixed size, 0 for the others (02 R35, R470). -/
def sectionSize : Nat → Nat
  | 0x01 => 1024 | 0x10 => 384 | 0x11 => 32 | 0x12 => 128 | 0x13 => 1024 | 0x15 => 2048 | 0x16 => 512 | 0x17 => 136 | 0x18 => 8
  | 0x22 => 256 | 0x23 => 64 | 0x24 => 8 | _ => 0

/-- Size of an entry of a section of entries (02 R35). -/
def entrySize : Nat → Nat
  | 0x20 => 16 | 0x21 => 8 | 0x25 => 8 | _ => 0

/-- The section types (02 R35). -/
def sectionTypes : List Nat := [0x01, 0x10, 0x11, 0x12, 0x13, 0x14, 0x15, 0x16, 0x17, 0x18, 0x20, 0x21, 0x22, 0x23, 0x24, 0x25]

/-- The Required types (02 R35). -/
def requiredTypes : List Nat := [0x01, 0x10, 0x11, 0x12, 0x13, 0x14]

/-- The sections of bytes that must hold exactly count of them (02 R35, R470): TYPE and body in stream order, or FAIL_SECTION.
DESIGN CHOICE: where SECTION_COUNT claims more sections than the bytes hold, R470 names no FAIL_SECTION, and it is 0 (log entry 91). -/
def readSections : Nat → List Nat → List Byte → Except Nat (List (Nat × List Byte))
  | 0, _, b => if b.isEmpty then .ok [] else .error 0
  | k + 1, seen, b =>
    if b.isEmpty then .error 0 else
    let t := fld b 0 2
    let len := fld b 4 4
    if b.length < 16 || !(sectionTypes.contains t) || seen.contains t || fld b 2 2 != 0 || fld b 8 8 != 0 || len % 8 != 0
        || decide (b.length < 16 + len) then .error t
    else match readSections k (t :: seen) (b.drop (16 + len)) with
      | .error e => .error e
      | .ok l => .ok ((t, (b.drop 16).take len) :: l)

/-- A PART_TABLE entry is well formed (02 R36). -/
def partEntryOk (e : List Byte) : Bool :=
  fld e 0 2 / 2 == 0 && fld e 4 4 == 0 && fld e 0x38 8 == 0 && (fld e 0 2 == 1 || allZero (e.drop 2))

/-- The lists of PCH_ORDER and what follows them (02 R35). -/
def readOrders : Nat → List Byte → Option (List (List Nat) × List Byte)
  | 0, b => some ([], b)
  | k + 1, b =>
    let c := fld b 0 2
    if b.length < 2 + 2 * c || b.length < 2 then none
    else match readOrders k (b.drop (2 + 2 * c)) with
      | none => none
      | some (l, r) => some ((List.range c).map (fun i => fld b (2 + 2 * i) 2) :: l, r)

/-- PCH_ORDER is well formed (02 R35, R470). -/
def orderOk (b : List Byte) : Bool :=
  match readOrders 16 b with
  | none => false
  | some (l, r) => decide (r.length < 8) && allZero r && l.all (fun o => o.all (fun i => decide (i < 512)))

/-- An ETH_PORTS entry is well formed (14 R363). -/
def portEntryOk (used : Bool) (e : List Byte) : Bool :=
  match fld e 0 1 with
  | 0 => allZero e
  | 1 => used && decide (fld e 1 1 < 16) && fld e 2 6 == 0
  | 2 => used && fld e 1 1 == 0 && decide (2 ≤ popCount 16 (fld e 2 2)) && decide (1 ≤ fld e 4 2) && decide (9 ≤ fld e 6 2)
  | _ => false

/-- ETH_PORTS is well formed (14 R361, R363). -/
def ethOk (b : List Byte) : Bool :=
  decide (fld b 0 1 ≤ 2) && fld b 1 7 == 0
    && (List.range 16).all (fun p => portEntryOk (decide (p < portCount (fld b 0 1))) (bslice b (8 + 8 * p) 8))

/-- Master i of a half exists (08 R198). -/
def masterOk (h i : Nat) : Bool :=
  decide (i ≤ 5) || (decide (8 ≤ i) && decide (i ≤ 28) && !(i == 26 && h == 1)) || (decide (32 ≤ i) && decide (i ≤ 41))

/-- The real-time masters (08 R198). -/
def realTime (i : Nat) : Bool := i == 24 || i == 27 || i == 28

/-- Default static priority of master i (08 R198). -/
def masterPrio (i : Nat) : Nat := if i = 28 then 7 else if i = 27 then 6 else if i = 24 then 5 else 2

/-- A static priority in the range of master i (08 R198). -/
def prioRange (i p : Nat) : Bool := if realTime i then decide (5 ≤ p) && decide (p ≤ 7) else decide (p ≤ 4)

/-- A REGULATORS entry is well formed (08 R203). -/
def regEntryOk (e : List Byte) : Bool :=
  let t := fld e 0 2
  bits t 13 7 == 0 && decide (bits t 15 14 ≤ 1) && decide (fld e 2 1 < 16) && decide (fld e 3 1 ≤ 4) && decide (1 ≤ fld e 4 4)
    && decide (fld e 4 4 < 2 ^ 20) && fld e 10 6 == 0
    && (if bits t 15 14 = 0 then fld e 8 2 == 0 && regulated (bits t 6 6) (bits t 5 0) else decide (bits t 6 0 < 16))

/-- A PRIORITIES entry is well formed (08 R198, R199). -/
def prioEntryOk (e : List Byte) : Bool :=
  let t := fld e 0 2
  fld e 3 5 == 0 && (if t.testBit 15 then bits t 14 4 == 0 && decide (fld e 2 1 ≤ 4)
    else bits t 14 7 == 0 && masterOk (bits t 6 6) (bits t 5 0) && prioRange (bits t 5 0) (fld e 2 1))

/-- An alarm source is defined (03 R83; 15 R411, R412). -/
def sourceOk (src : Nat) : Bool :=
  (decide (1 ≤ src) && decide (src ≤ 6)) || (decide (0x100 ≤ src) && decide (src ≤ 0x105)) || (decide (0x110 ≤ src) && decide (src ≤ 0x116))

/-- An ALARM_RAISE entry is well formed (02 R35, R470). -/
def raiseEntryOk (e : List Byte) : Bool :=
  sourceOk (fld e 0 2) && (decide (fld e 2 1 < 16) || fld e 2 1 == 255) && decide (fld e 3 1 ≤ 2) && fld e 4 4 == 0

/-- The entries of a body. -/
def entriesOf (size : Nat) (b : List Byte) : List (List Byte) := (List.range (b.length / size)).map (fun i => bslice b (i * size) size)

/-- No element stands twice. -/
def distinct : List Nat → Bool
  | [] => true
  | x :: l => !(l.contains x) && distinct l

/-- A section's body is well formed (02 R35, R36, R470). -/
def sectionOk (t : Nat) (b : List Byte) : Bool :=
  (if sectionSize t != 0 then b.length == sectionSize t else true) && (if entrySize t != 0 then b.length % entrySize t == 0 else true)
    && match t with
      | 0x01 => (entriesOf 64 b).all partEntryOk
      | 0x14 => orderOk b
      | 0x17 => ethOk b
      | 0x18 => fld b 2 6 == 0
      | 0x24 => fld b 2 6 == 0
      | 0x20 => (entriesOf 16 b).all regEntryOk && distinct ((entriesOf 16 b).map (fun e => fld e 0 3))
      | 0x21 => (entriesOf 8 b).all prioEntryOk && distinct ((entriesOf 8 b).map (fun e => fld e 0 2))
      | 0x25 => (entriesOf 8 b).all raiseEntryOk
      | _ => true

/-- The body of a section, none where the pattern has no such section. -/
def bodyOf (secs : List (Nat × List Byte)) (t : Nat) : Option (List Byte) := (secs.find? (fun s => s.1 == t)).map (·.2)

/-- Row n of a section of rows of w bytes; zeros where the section is absent (02 R48). -/
def rowOf (secs : List (Nat × List Byte)) (t w n : Nat) : List Byte := bslice ((bodyOf secs t).getD []) (n * w) w

/-- Check 6 on the bodies (02 R43): the first malformed section in stream order, then the first missing Required type. -/
def badSection (secs : List (Nat × List Byte)) : Option Nat :=
  match secs.find? (fun s => !(sectionOk s.1 s.2)) with
  | some s => some s.1
  | none => requiredTypes.find? (fun t => (bodyOf secs t).isNone)

/-- A REGULATORS entry read. -/
def regEntry (e : List Byte) : RegEntry :=
  let t := fld e 0 2
  { stack := bits t 15 14 == 1, target := bits t 6 0, part := fld e 2 1, window := fld e 3 1, budget := fld e 4 4, slots := fld e 8 2, raw := e }

/-- A PRIORITIES entry read. -/
def prioEntry (e : List Byte) : PrioEntry :=
  let t := fld e 0 2
  { ofPart := t.testBit 15, target := if t.testBit 15 then bits t 3 0 else bits t 6 0, prio := fld e 2 1, raw := e }

/-- An ALARM_RAISE entry read. -/
def raiseEntry (e : List Byte) : RaiseEntry := { source := fld e 0 2, scope := fld e 2 1, cls := fld e 3 1, raw := e }

/-- An ETH_PORTS entry names Pn: it dedicates the port to it or gives it a share (02 R48). -/
def portNames (e : List Byte) (n : Nat) : Bool := (fld e 0 1 == 1 && fld e 1 1 == n) || (fld e 0 1 == 2 && (fld e 2 2).testBit n)

/-- A count and the entries it counts (02 R48 part 6). -/
def counted (w : Nat) (l : List (List Byte)) : List Byte := leBytes w l.length ++ l.flatten

/-- The bytes of Pn's slice (02 R48). -/
def sliceBytes (secs : List (Nat × List Byte)) (order : List Nat) (n : Nat) : List Byte :=
  let mask := fun t => bit ((fld ((bodyOf secs t).getD []) 0 2).testBit n)
  let ents := fun t => entriesOf (entrySize t) ((bodyOf secs t).getD [])
  rowOf secs 0x01 64 n ++ rowOf secs 0x10 24 n ++ rowOf secs 0x11 2 n ++ rowOf secs 0x12 8 n ++ rowOf secs 0x13 64 n
    ++ rowOf secs 0x15 128 n ++ rowOf secs 0x16 32 n
    ++ leBytes 2 order.length ++ (order.map (leBytes 2)).flatten
    ++ rowOf secs 0x22 16 n ++ rowOf secs 0x23 4 n
    ++ leBytes 1 (mask 0x24) ++ leBytes 1 (mask 0x18)
    ++ counted 2 ((ents 0x20).filter (fun e => fld e 2 1 == n))
    ++ counted 2 ((ents 0x21).filter (fun e => (fld e 0 2).testBit 15 && bits (fld e 0 2) 3 0 == n))
    ++ counted 2 ((ents 0x25).filter (fun e => fld e 2 1 == n))
    ++ (let ports := (List.range 16).filter (fun p => portNames (rowOf secs 0x17 8 (p + 1)) n)
        leBytes 1 ports.length ++ (ports.map (fun p => leBytes 1 p ++ rowOf secs 0x17 8 (p + 1))).flatten)

/-- Pn's slice as the sections give it. -/
def readSlice (secs : List (Nat × List Byte)) (order : List Nat) (n : Nat) : Slice :=
  let pe := rowOf secs 0x01 64 n
  let pools := rowOf secs 0x22 16 n
  { defined := (fld pe 0 2).testBit 0, generation := fld pe 2 2
    tenant := BitVec.ofNat 384 (ofBe (bslice pe 8 48)), cells := ofLe (rowOf secs 0x10 24 n)
    clusters := ofLe (rowOf secs 0x11 2 n), ways := ofLe (rowOf secs 0x12 8 n), pchs := ofLe (rowOf secs 0x13 64 n), order := order
    dma := ofLe (rowOf secs 0x15 128 n), ethq := ofLe (rowOf secs 0x16 32 n)
    pools := (List.range 4).map (fun i => fld pools (4 * i) 4), npLimit := ofLe (rowOf secs 0x23 4 n)
    mirror := (fld ((bodyOf secs 0x24).getD []) 0 2).testBit n, vf := (fld ((bodyOf secs 0x18).getD []) 0 2).testBit n
    digest := Config.sha384 (sliceBytes secs order n) }

/-- The pattern that well-formed bytes spell (02 R34-R37). -/
def readPattern (b : List Byte) (secs : List (Nat × List Byte)) : Pattern :=
  let orders := match readOrders 16 ((bodyOf secs 0x14).getD []) with
    | some (l, _) => l
    | none => []
  let ents := fun t => entriesOf (entrySize t) ((bodyOf secs t).getD [])
  { epoch := fld b 8 8, keyIndex := fld b 0x10 1, isPartial := (fld b 0x11 1).testBit 0, population := fld b 0x20 4
    slices := allParts.foldl (fun t n => Tab.set {} t n (readSlice secs (orders.getD n []) n)) []
    arrangement := fld ((bodyOf secs 0x17).getD []) 0 1
    ports := (List.range 16).foldl (fun t p => Tab.set {} t p { raw := rowOf secs 0x17 8 (p + 1) }) []
    regulators := (ents 0x20).map regEntry, priorities := (ents 0x21).map prioEntry, raises := (ents 0x25).map raiseEntry
    digest := Config.sha384 b, bytes := b }

/-- No bit is set in two of the rows (02 R46 code 0x01). -/
def disjoint : List Nat → Bool
  | [] => true
  | r :: l => l.all (fun x => x &&& r == 0) && disjoint l

/-- Window length in microseconds (08 R203). -/
def windowUs (w : Nat) : Nat := 4 ^ w

/-- Capacity of a regulated master in bytes a microsecond; a site's as it has trained (08 R204). -/
def State.masterCap (s : State) (h i : Nat) : Nat :=
  if i ≤ 5 then (if ((s.site (h * 6 + i)).mods.get {} 0).rate then 2458000 else 2048000)
  else if i ≤ 23 then 614400 else if i = 25 then 400000 else 256000

/-- A stack's capacity in bytes a microsecond (10 R246). -/
def stackCap : Nat := 1142000

/-- A resource of a slice is absent, dead, offline, disabled or retired, or its site repairs a lane (02 R46 code 0x08): the TYPE of
the lowest section that assigns one. -/
def State.absentIn (s : State) (x : Slice) : Option Nat :=
  if (maskList 192 x.cells).any (fun i => (s.site (i / 16)).state != 1 || (s.cell i).retired) then some 0x10
  else if (maskList 16 x.clusters).any (fun c => s.isolated (c / 8) (16 + c % 8) || s.fab.halfFailed.get false (c / 8) || s.clusterOut c) then some 0x11
  else if (maskList 64 x.ways).any (fun w => (s.coh.waysOff.get 0 (w / 32)).testBit (w % 32)) then some 0x12
  else if (maskList 512 x.pchs).any (fun i => (s.stack (i / 32)).state != 2
      || decide (294912 ≤ (s.hbm.retired.filter (fun e => e.1 / 294912 == i)).length)) then some 0x13
  else if (maskList 1024 x.dma).any (fun d => s.isolated (d / 512) (24 + (d / 32) % 16)) then some 0x15
  else none

/-- The lowest TYPE that gives an undefined partition anything (02 R46 code 0x04). -/
def givenUndefined (p : Pattern) (n : Nat) : Option Nat :=
  let x := p.slice n
  if x.defined then none
  else if x.cells != 0 then some 0x10
  else if x.clusters != 0 then some 0x11
  else if x.ways != 0 then some 0x12
  else if x.pchs != 0 then some 0x13
  else if !x.order.isEmpty then some 0x14
  else if x.dma != 0 then some 0x15
  else if x.ethq != 0 then some 0x16
  else if (List.range 16).any (fun q => portNames (p.ports.get {} q).raw n) then some 0x17
  else if x.vf then some 0x18
  else if p.regulators.any (fun r => r.part == n) then some 0x20
  else if p.priorities.any (fun e => e.ofPart && e.target == n) then some 0x21
  else if x.pools.any (fun k => k != 0) then some 0x22
  else if x.npLimit != 0 then some 0x23
  else if x.mirror then some 0x24
  else if p.raises.any (fun e => e.scope == n) then some 0x25
  else none

/-- The least of the numbers that f gives. -/
def leastOf (l : List Nat) (f : Nat → Option Nat) : Option Nat :=
  l.foldl (fun m n => match m, f n with
    | none, x => x
    | some a, some b => some (min a b)
    | some a, none => some a) none

/-- The halves on which a slice owns a cell, a cluster or a DMA channel (02 R46 code 0x07). -/
def Slice.onHalf (x : Slice) (h : Nat) : Bool :=
  bits x.cells (h * 96 + 95) (h * 96) != 0 || bits x.clusters (h * 8 + 7) (h * 8) != 0 || bits x.dma (h * 512 + 511) (h * 512) != 0

/-- A site's 16 positions are all one partition's or nobody's (02 R46 code 0x03). -/
def siteWhole (p : Pattern) (k : Nat) : Bool :=
  let rows := allParts.map (fun n => bits (p.slice n).cells (k * 16 + 15) (k * 16))
  rows.all (fun r => r == 0) || (rows.filter (fun r => r != 0)) == [0xFFFF]

/-- The REGULATORS rates and slots of the stack entries fit (02 R46 code 0x0D; 10 R246, R248). The sum of rates is taken over the
longest window, 256 us. -/
def stackFits (p : Pattern) (k : Nat) : Bool :=
  let l := p.regulators.filter (fun r => r.stack && r.target == k)
  decide (l.foldl (fun a r => a + r.budget * 4096 * (256 / windowUs r.window)) 0 ≤ stackCap * 256)
    && decide (l.foldl (fun a r => a + r.slots) 0 ≤ 512)

/-- The shaped rates of a shared port fit (14 R363). -/
def portFits (p : Pattern) (q : Nat) : Bool :=
  let e := (p.ports.get {} q).raw
  fld e 0 1 != 2 || decide (popCount 16 (fld e 2 2) * fld e 4 2 ≤ nativeGb p.arrangement)

/-- The first breach of the invariants 0x01 to 0x0D (02 R46): FAIL_CODE and FAIL_SECTION. -/
def State.breach (s : State) (p : Pattern) : Option (Nat × Nat) :=
  let rows := fun (f : Slice → Nat) => allParts.map (fun n => f (p.slice n))
  let lists := allParts.map (fun n => (p.slice n).order)
  let defd := allParts.filter (fun n => (p.slice n).defined)
  if !(disjoint (rows Slice.cells)) then some (0x01, 0x10)
  else if !(disjoint (rows Slice.clusters)) then some (0x01, 0x11)
  else if !(disjoint (rows Slice.ways)) then some (0x01, 0x12)
  else if !(disjoint (rows Slice.pchs)) then some (0x01, 0x13)
  else if !(disjoint (lists.map (fun l => l.foldl setBit 0))) then some (0x01, 0x14)
  else if !(disjoint (rows Slice.dma)) then some (0x01, 0x15)
  else if !(disjoint (rows Slice.ethq)) then some (0x01, 0x16)
  else if defd.any (fun n => (p.slice n).clusters == 0) then some (0x02, 0x11)
  else if (maskList 12 (p.population / 65536)).any (fun k => !(siteWhole p k)) then some (0x03, 0x10)
  else match leastOf allParts (givenUndefined p) with
  | some t => some (0x04, t)
  | none =>
  if allParts.any (fun n => !(distinct (p.slice n).order) || (p.slice n).order.foldl setBit 0 != (p.slice n).pchs) then some (0x05, 0x14)
  else if defd.any (fun n => (p.slice n).pchs == 0) then some (0x06, 0x13)
  else if allParts.any (fun n => [0, 1].any (fun h => (p.slice n).onHalf h && bits (p.slice n).ways (h * 32 + 31) (h * 32) == 0)) then
    some (0x07, 0x12)
  else match leastOf allParts (fun n => s.absentIn (p.slice n)) with
  | some t => some (0x08, t)
  | none =>
  if allParts.any (fun n => decide ((p.slice n).order.length * pchBytes < (p.slice n).pools.foldl (· + ·) 0 * 65536)) then some (0x09, 0x22)
  else if allParts.any (fun n => decide (800 < (p.slice n).npLimit)) || defd.any (fun n => (p.slice n).cells != 0 && (p.slice n).npLimit == 0) then
    some (0x0A, 0x23)
  else if allParts.any (fun n => (p.slice n).mirror && !(s.sec.fuses.twinActive && (p.slice n).defined)) then some (0x0B, 0x24)
  else if p.raises.any (fun e => e.cls == 0 || decide (e.cls < floorClass s.sec.fuses.floor e.source 0)) then some (0x0C, 0x25)
  else if (List.range 16).any (fun q => !(portFits p q)) then some (0x0D, 0x17)
  else if p.regulators.any (fun r => !r.stack && decide (s.masterCap (r.target / 64) (r.target % 64) * windowUs r.window < r.budget * 4096))
      || (List.range 16).any (fun k => !(stackFits p k)) then some (0x0D, 0x20)
  else none

/-- The lowest-typed section with a module-wide field that differs (02 R46 code 0x0E, R48). DESIGN CHOICE: the module-scope entries of
PRIORITIES and ALARM_RAISE are compared as lists of raw entries in stream order (log entry 91). -/
def moduleWide (a b : Pattern) : Option Nat :=
  if a.arrangement != b.arrangement then some 0x17
  else if a.priorities.filter (fun e => !e.ofPart) != b.priorities.filter (fun e => !e.ofPart) then some 0x21
  else if a.raises.filter (fun e => e.scope == 255) != b.raises.filter (fun e => e.scope == 255) then some 0x25
  else none

/-- A failed check: the status, FAIL_CODE and FAIL_SECTION (02 R40, R43). -/
structure Failure where
  status : StatusCode
  code : Nat := 0
  section_ : Nat := 0
  deriving DecidableEq, Repr

/-- The stored public key of operator root key slot idx: of an ACTIVE slot whose stored record matches its fused digest (15 R398). -/
def State.slotOf (s : State) (idx : Nat) : Option (List Byte) :=
  if 3 < idx then none
  else
    let k := s.sec.fuses.opkeys.get {} idx
    if k.state != 1 then none else
    match k.stored with
    | some b => if Config.sha384 b == k.digest then some b else none
    | none => none

/-- The public key that signs a pattern (02 R37): in the test and analysis states, Lysurman's test key; DEPLOYED alone otherwise runs
patterns (15 R407). -/
def State.patternKey (s : State) (idx : Nat) : Option (List Byte) :=
  match s.sec.fuses.lcs with
  | .test => some Config.lysurmanTestKey
  | .analysis => some Config.lysurmanTestKey
  | .deployed => s.slotOf idx
  | _ => none

/-- The signature over bytes 0 to TOTAL_LEN - 97 verifies under a key (02 R37). -/
def signedBy (key : Option (List Byte)) (b : List Byte) : Bool :=
  match key with
  | none => false
  | some k => Config.ecdsaVerify k (Config.sha384 (b.take (b.length - 96))) (b.drop (b.length - 96))

/-- Checks 1 to 8 of an apply, in order (02 R43); at a start, the epoch is held against the stored one and check 8 is left out
(R45). -/
def State.checkPattern (s : State) (b : List Byte) (atStart : Bool) : Except Failure Pattern :=
  if bslice b 0 4 != [0x46, 0x4A, 0x50, 0x54] || fld b 6 2 != 64 || fld b 0x14 4 != b.length || decide (b.length < 160)
      || fld b 4 2 != 0x0100 then .error { status := St.cfgMismatch }
  else if !(signedBy (s.patternKey (fld b 0x10 1)) b) then .error { status := St.denied }
  else if fld b 0x18 8 != Config.serial.toNat then .error { status := St.denied }
  else if (if atStart then fld b 8 8 != s.pat.storedEpoch else decide (fld b 8 8 ≤ s.patEpoch)) then .error { status := St.denied }
  else if fld b 0x20 4 != s.population then .error { status := St.cfgMismatch }
  else if fld b 0x11 1 / 2 != 0 || !(allZero (bslice b 0x24 28)) then .error { status := St.cfgMismatch }
  else match readSections (fld b 0x12 2) [] ((b.take (b.length - 96)).drop 64) with
    | .error t => .error { status := St.cfgMismatch, section_ := t }
    | .ok secs =>
      match badSection secs with
      | some t => .error { status := St.cfgMismatch, section_ := t }
      | none =>
        let p := readPattern b secs
        match s.breach p with
        | some (c, t) => .error { status := St.cfgMismatch, code := c, section_ := t }
        | none =>
          if atStart || !p.isPartial then .ok p
          else match s.pat.running with
            | none => .error { status := St.cfgMismatch, code := 0x0E }
            | some r => match moduleWide p r with
              | some t => .error { status := St.cfgMismatch, code := 0x0E, section_ := t }
              | none => .ok p

end Sys2Proof.Machine
end

