-- ==== Sys2Proof/Machine/Commit.lean ====
section
/-!
DEFINITION. Staged fields and their commits (02 R52-R58): who owns a staged register, the check of its group, PAT_COMMIT and
COMMIT_COMPLETE.
-/

namespace Sys2Proof.Machine

/-- Half, block and offset of a register (01 R23). -/
def halfAt (a : Nat) : Nat := if regBase 1 ≤ a then 1 else 0
/-- Block index of a register's HPA. -/
def blockAt (a : Nat) : Nat := (a - regBase (halfAt a)) / 0x1000000
/-- Offset in its block. -/
def offAt (a : Nat) : Nat := (a - regBase (halfAt a)) % 0x1000000

/-- The cell of a SITE window register (03 R72). -/
def winCell (a : Nat) : Nat := (halfAt a * 6 + (offAt a - 0x100000) / 0x10000) * 16 + (offAt a % 0x10000) / 0x400
/-- The channel of a DMA register (11 R276). -/
def dmaChanAt (a : Nat) : Nat := halfAt a * 512 + (offAt a - 0x100000) / 0x1000 * 32 + (offAt a % 0x1000) / 0x80

/-- An RWS register (02 R52, R54): SITE windows, FAB_INJ_REG, HMC_PART_REG, DMA_CH_LAT, ETH_SHAPE, SCH_SLICE. -/
def isStaged (a : Nat) : Bool :=
  let o := offAt a
  match blockAt a with
  | 2 => decide (0x10000 ≤ o) && decide (o < 0x12000)
  | 4 => decide (o < 0x100000) && decide (0x100 ≤ o % 0x10000) && decide (o % 0x10000 < 0x300) && o % 0x20 == 0
      && halfOfStack (o / 0x10000) == halfAt a
  | 5 => decide (0x100000 ≤ o) && decide (o < 0x110000) && o % 0x80 == 0x48
  | 7 => decide (0x100000 ≤ o) && decide (o < 0x160000) && decide (o % 0x400 < 0x200) && (o % 0x20 == 0 || o % 0x20 == 8 || o % 0x20 == 0x10)
      && decide (o % 0x10000 < 0x4000)
  | 8 => decide (0x400 ≤ o) && decide (o < 0x800)
  | 14 => decide (0x100000 ≤ o) && decide (o < 0x101000) && o % 0x100 == 8
  | _ => false

/-- The partition whose settings an operator-owned staged register holds: FAB_INJ_REG, HMC_PART_REG, ETH_SHAPE (08 R205; 10 R263;
14 R374). -/
def settingOf (a : Nat) : Option Nat :=
  if !(isStaged a) then none
  else match blockAt a with
    | 2 => some ((offAt a % 0x80) / 8)
    | 4 => some ((offAt a % 0x10000 - 0x100) / 0x20)
    | 8 => some ((offAt a % 0x80) / 8)
    | _ => none

/-- The owning scope of a staged register (02 R53): a partition, or 16 for the module; none where no partition owns it. -/
def State.stagedScope (s : State) (a : Nat) : Option Nat :=
  match blockAt a with
  | 5 => s.ownerChan (dmaChanAt a)
  | 7 => s.ownerCell (winCell a)
  | 14 => some ((offAt a - 0x100000) / 0x100)
  | _ => some 16

/-- The staged copy of a register: what a read of an RWS register returns, and what a commit takes (02 R52). -/
def State.stagedVal (s : State) (a : Nat) : Nat :=
  match s.staged.get 0 a with
  | 0 => s.reg a
  | v + 1 => v

/-- The bits of an RWS register that are not reserved (00 R9; 03 R73, R74; 07 R172; 08 R206; 10 R248; 11 R281; 14 R374): an unregulated
master's FAB_INJ_REG has none. -/
def stagedMask (a : Nat) : Nat :=
  match blockAt a with
  | 2 => if regulated (halfAt a) ((offAt a - 0x10000) / 0x80) then 0x7000FFFFF else 0
  | 4 => 0x3FF0007000FFFFF
  | 5 => 0x7000FFFFF
  | 7 => if a % 0x20 = 0x10 then 3 else 0xFFFFFFF000
  | 8 => 0xFFFF0000FFFF
  | 14 => 0xFFFF0001FFFF
  | _ => 0

/-- What a read of an RWS register returns (00 R9; 02 R52): its staged copy, whose reserved bits read as 0. -/
def State.stagedView (s : State) (a : Nat) : Nat := s.stagedVal a &&& stagedMask a

/-- A write to an RWS register goes to the staged copy (02 R52). -/
def State.stage (s : State) (a v : Nat) : State := { s with staged := s.staged.set 0 a (if v = s.reg a then 0 else v + 1) }

/-- The value a snapshot gives a register: staged, else committed. -/
def snapVal (s : State) (snap : Tab Nat) (a : Nat) : Nat :=
  match snap.get 0 a with
  | 0 => s.reg a
  | v + 1 => v

/-- A register of a SITE window fails (02 R54; 03 R73, R74): its own reserved bits and code; BASE not below LIMIT fails BASE, a LIMIT
beyond the PPA size fails LIMIT, where PERM enables the window. -/
def winFails (s : State) (snap : Tab Nat) (n a : Nat) : Bool :=
  let w := a - a % 0x20
  let base := snapVal s snap w
  let limit := snapVal s snap (w + 8)
  let perm := snapVal s snap (w + 0x10)
  let shape := fun v => v % 4096 != 0 || 2 ^ 40 ≤ v
  if a % 0x20 = 0x10 then decide (3 < perm)
  else if a % 0x20 = 0 then shape base || (!(shape limit) && perm != 0 && decide (perm ≤ 3) && decide (limit ≤ base))
  else shape limit || (!(shape base) && perm != 0 && decide (perm ≤ 3) && decide (base < limit) && decide (s.ppaSize n < limit))

/-- FAB_INJ_REG fails (08 R204, R206). -/
def injFails (s : State) (a v : Nat) : Bool :=
  let h := halfAt a
  let i := (offAt a - 0x10000) / 0x80
  if !(regulated h i) then v != 0
  else bits v 63 35 != 0 || bits v 31 20 != 0 || decide (4 < bits v 34 32)
    || decide (s.masterCap h i * windowUs (bits v 34 32) < bits v 19 0 * 4096)

/-- HMC_PART_REG of a stack: its 16 values under a snapshot. -/
def stackRegs (s : State) (snap : Tab Nat) (k : Nat) : List Nat := allParts.map (fun n => snapVal s snap (hmcAddr k (0x100 + n * 0x20)))

/-- HMC_PART_REG fails (10 R248; 02 R54): its own fields, or the sums of the stack, taken over 256 us. -/
def hmcFails (s : State) (snap : Tab Nat) (a v : Nat) : Bool :=
  let k := offAt a / 0x10000
  let l := stackRegs s snap k
  bits v 63 58 != 0 || bits v 47 35 != 0 || bits v 31 20 != 0 || decide (4 < bits v 34 32) || decide (512 < bits v 57 48)
    || decide (stackCap * windowUs (bits v 34 32) < bits v 19 0 * 4096)
    || decide (stackCap * 256 < l.foldl (fun x r => x + bits r 19 0 * 4096 * (256 / windowUs (bits r 34 32))) 0)
    || decide (512 < l.foldl (fun x r => x + bits r 57 48) 0)

/-- DMA_CH_LAT fails (11 R281). -/
def latFails (s : State) (n v : Nat) : Bool :=
  bits v 63 35 != 0 || bits v 31 20 != 0 || (bits v 19 0 != 0 && decide (bits v 19 0 < 100)) || decide (s.partPrio n < bits v 34 32)

/-- ETH_SHAPE fails (14 R365): a sharer's BURST below 9 KiB, a RATE of a partition that is no sharer, or rates beyond the port's. -/
def shapeFails (s : State) (snap : Tab Nat) (a v : Nat) : Bool :=
  let n := (offAt a % 0x80) / 8
  let p := halfAt a * (portCount s.arrangement / 2) + (offAt a - 0x400) / 0x80
  let used := decide ((offAt a - 0x400) / 0x80 < portCount s.arrangement / 2)
  let sharer := fun m => used && s.portMode p == 2 && (fld (s.portEntry p) 2 2).testBit m
  let sum := (allParts.filter sharer).foldl (fun x m => x + bits (snapVal s snap (a - offAt a % 0x80 + m * 8)) 15 0) 0
  bits v 63 48 != 0 || bits v 31 16 != 0
    || (if sharer n then decide (bits v 47 32 < 9) || decide (nativeGb s.arrangement < sum) else bits v 15 0 != 0)

/-- SCH_SLICE fails (07 R172). -/
def sliceFails (s : State) (n v : Nat) : Bool :=
  bits v 63 48 != 0 || bits v 31 17 != 0 || decide (bits v 16 0 < 250) || decide (100000 < bits v 16 0)
    || decide ((s.slice n).npLimit < bits v 47 32)

/-- A register of a snapshot fails its group's check (02 R54, R57). -/
def regFails (s : State) (snap : Tab Nat) (a : Nat) : Bool :=
  let v := snapVal s snap a
  match blockAt a with
  | 2 => injFails s a v
  | 4 => hmcFails s snap a v
  | 5 => latFails s ((s.ownerChan (dmaChanAt a)).getD 0) v
  | 7 => winFails s snap ((s.ownerCell (winCell a)).getD 0) a
  | 8 => shapeFails s snap a v
  | 14 => sliceFails s ((offAt a - 0x100000) / 0x100) v
  | _ => false

/-- The registers of the groups that a snapshot touches: a window's three. -/
def groupRegs (a : Nat) : List Nat := if blockAt a = 7 then let w := a - a % 0x20; [w, w + 8, w + 0x10] else [a]

/-- The first failing register of a snapshot in (half, offset) order (02 R56). -/
def State.firstFail (s : State) (snap : Tab Nat) : Option Nat :=
  leastOf ((snap.map (fun e => groupRegs e.1)).flatten) (fun a => if regFails s snap a then some a else none)

/-- Set the outcome of a scope's last commit (02 R56). -/
def State.commitOut (s : State) (scope : Nat) (c : CommitStatus) : State :=
  { s with pat := { s.pat with commits := s.pat.commits.set {} scope c } }

/-- The log's scope of a commit scope (02 R64). -/
def logScope (scope : Nat) : Nat := if scope = 16 then 255 else scope

/-- One register of a snapshot takes effect; a staged copy written since stays (02 R57). -/
def State.applyOne (s : State) (a v : Nat) : State :=
  let now := s.stagedVal a
  let s := s.setReg a v
  { s with staged := s.staged.set 0 a (if now = v then 0 else now + 1) }

/-- An accepted commit ends (02 R57). An operator commit counts in each partition it concerns (15 R405 block 20). DESIGN
CHOICE: a module-scope commit that is PENDING when an apply begins ends later, over what the pattern has loaded; R58 settles only those of
a partition's scope (log entry 127). -/
def State.endCommit (s : State) (scope : Nat) : State :=
  match s.pat.pendCommits.get none scope with
  | none => s
  | some c =>
    let s := { s with pat := { s.pat with pendCommits := s.pat.pendCommits.set none scope none } }
    let s := match s.firstFail c.snap with
      | some a =>
        (s.commitOut scope { status := St.cfgMismatch, token := c.token, failHalf := halfAt a, firstFail := offAt a }).log 5 (logScope scope)
          St.cfgMismatch (if scope = 16 then 2 else 3) (Config.commitDetail c.block (offAt a))
      | none =>
        let s := c.snap.foldl (fun s e => s.applyOne e.1 (e.2 - 1)) s
        let s := s.commitOut scope { status := St.ok, token := c.token }
        if scope = 16 then
          let ns := allParts.filter (fun n => c.snap.any (fun e => settingOf e.1 == some n))
          let s := forAll ns (fun n s => s.updPart n (fun p => { p with opCommits := p.opCommits + 1 })) s
          s.log 6 255 St.ok 2 (Config.commitDetail c.block 0)
        else s
    if scope = 16 then s.raise 16 2 else s

/-- The staged values of a block in a scope (02 R57). -/
def State.snapshot (s : State) (block scope : Nat) : Tab Nat :=
  s.staged.keep (fun a => isStaged a && blockAt a == block && s.stagedScope a == some scope)

/-- A commit of a block in a scope (02 R55, R57). -/
def State.commit (s : State) (scope block token : Nat) : State :=
  if block = 15 then s.commitOut scope { status := St.denied, token := token }
  else if (s.pat.pendCommits.get none scope).isSome then s.commitOut scope { status := St.busy, token := token }
  else if scope != 16 && !(s.ready scope) then s.commitOut scope { status := St.denied, token := token }
  else if scope = 16 && !s.logRoom then s.commitOut scope { status := St.busy, token := token }
  else
    let c : PendCommit := { block := block, token := token, snap := s.snapshot block scope }
    let s := { s with pat := { s.pat with pendCommits := s.pat.pendCommits.set none scope (some c) } }
    s.commitOut scope { status := St.pending, token := token }

/-- A write of PAT_COMMIT (02 R55): an alias replaces SCOPE; the operator path takes module scope alone. -/
def State.writeCommit (s : State) (p : Path) (v : Nat) : State :=
  let token := bits v 31 24
  let block := bits v 3 0
  match p with
  | .vf n => s.commit n.val block token
  | .partAlias n => s.commit n.val block token
  | .firmware _ => if bits v 20 16 ≤ 16 then s.commit (bits v 20 16) block token else s.commitOut 16 { status := St.denied, token := token }
  | _ => if bits v 20 16 = 16 then s.commit 16 block token else s.commitOut 16 { status := St.denied, token := token }

/-- PAT_COMMIT (02 R55-R57); the block decodes from stage 1 on (16 R433). -/
def execPatCommit (p : Path) (value : BitVec 32) (s : State) : Res' :=
  closing (if s.pathShut p || s.pwr.stage = 0 then s else s.writeCommit p value.toNat)

/-- COMMIT_COMPLETE (02 R57): the accepted commit of a scope, 16 for the module, ends. -/
def execCommitComplete (scope : Fin 17) (s : State) : Res' := closing (s.endCommit scope.val)

end Sys2Proof.Machine
end

