-- ==== Sys2Proof/Machine/Build.lean ====
section
/-!
DEFINITION. Applying a pattern (02 R42-R45, R48) and building partitions (R49-R51, R58; 16 R434).
-/

namespace Sys2Proof.Machine

/-- Outcome of an apply (02 R40). -/
def State.applyOut (s : State) (phase : Nat) (f : Failure) : State :=
  { s with pat := { s.pat with phase := phase, status := f.status, failCode := f.code, failSection := f.section_ } }

/-- A resource's owner is Pn, or nobody. -/
def ownOrFree (n : Nat) (o : Option Nat) : Bool := o == some n || o == none

/-- What stops at step 1 of a build (02 R49; 12 R332): every submission completes with ABORTED, every context and every privileged channel
aborts, every collective ends. -/
def State.stopWork (s : State) (n : Nat) : State :=
  let posted := s.collPosted n
  let qs := (s.queues.filter (fun e => e.1 / 128 == n && e.2.en)).map (fun e => e.1 % 128)
  let s := forAll qs (fun q s => s.flushQueueAs n q St.aborted) s
  let s := forAll ((s.sch n).waiting.map (fun t => t.ctx)) (fun c s => s.dropWaiting n c St.aborted) s
  let s := (forAll (s.ctxsOf n) (fun c s => s.loseCtx n c St.aborted) s).abortPriv n
  s.collsEnd n St.aborted posted

/-- The regulator entries of a pattern for Pn, as FAB_INJ_REG and HMC_PART_REG hold them (08 R203, R206; 10 R248). -/
def RegEntry.value (e : RegEntry) : Nat :=
  (if e.stack then field 57 48 e.slots else 0) + field 34 32 e.window + field 19 0 e.budget
/-- HPA of the register that an entry loads. -/
def RegEntry.addr (e : RegEntry) : Nat :=
  if e.stack then hmcAddr e.target (0x100 + e.part * 0x20) else injRegAddr (e.target / 64) (e.target % 64) e.part

/-- An apply loads the settings of a partition that it builds or stops, and discards their staged copies (02 R58; 01 R27; 08 R203;
14 R365). -/
def State.loadSettings (s : State) (n : Nat) (p : Pattern) : State :=
  let s := { s with regs := s.regs.keep (fun a => settingOf a != some n), staged := s.staged.keep (fun a => settingOf a != some n) }
  let s := (p.regulators.filter (fun e => e.part == n)).foldl (fun s e => s.setReg e.addr e.value) s
  forAll (List.range 16) (fun q s =>
    if s.portMode q = 2 && (fld (s.portEntry q) 2 2).testBit n then
      s.setReg (s.shapeAddr q n) (field 47 32 (fld (s.portEntry q) 6 2) + field 15 0 (fld (s.portEntry q) 4 2))
    else s) s

/-- Staged copies of Pn's own fields are discarded (02 R58). -/
def State.dropStaged (s : State) (n : Nat) : State :=
  { s with staged := s.staged.keep (fun a => s.stagedScope a != some n) }

/-- Pn enters BUILDING (02 R49 step 1, R58): a commit that is pending ends first. One that the old running pattern defines is
drained (step 2). -/
def State.startBuild (s : State) (n : Nat) (releasing byReset : Bool) (awaits : List Nat) : State :=
  let s := s.endCommit n
  let had := match s.pat.running with | some r => (r.slice n).defined | none => false
  let s := s.dropStaged n
  let s := s.updPart n (fun p => { p with
    oldSlice := p.slice, step := if had then .drain else .keyWait, releasing := releasing, byReset := byReset, awaits := awaits, hadWork := had })
  let s := s.setPartState n .building (s.part n).status
  s.stopWork n

/-- Two slices share a resource that is owned (02 R49). -/
def Slice.overlaps (a b : Slice) : Bool :=
  a.cells &&& b.cells != 0 || a.clusters &&& b.clusters != 0 || a.ways &&& b.ways != 0 || a.pchs &&& b.pchs != 0
    || a.dma &&& b.dma != 0 || a.ethq &&& b.ethq != 0

/-- The partitions that a pattern builds (02 R48). -/
def State.toBuild (s : State) (p : Pattern) : List Nat :=
  allParts.filter (fun n => (p.slice n).defined && match s.pat.running with
    | some r => !p.isPartial || (p.slice n).digest != (r.slice n).digest
    | none => true)
/-- The partitions that it stops and releases (02 R48). -/
def State.toStop (s : State) (p : Pattern) : List Nat :=
  allParts.filter (fun n => !((p.slice n).defined) && (s.part n).state != PState.undefined)

/-- The ports train again where the arrangement changes or no pattern ran (02 R48; 14 R361, R362). -/
def State.retrainPorts (s : State) (p : Pattern) : State :=
  if (match s.pat.running with | some r => r.arrangement == p.arrangement | none => false) then s
  else forAll (List.range 16) (fun q s => s.updPort q (fun t =>
    if fld (p.ports.get ({} : PortEntry) q).raw 0 1 != 0 then { t.retrain with held := [] } else { t with state := 0, rate := 0, held := [] })) s

/-- The checks have passed (02 R44, R48): PHASE 2, and every selected partition enters BUILDING. -/
def State.beginApply (s : State) (p : Pattern) (atStart : Bool) : State :=
  let build := s.toBuild p
  let stop := s.toStop p
  let old := allParts.filter (fun n => (s.part n).state != PState.undefined)
  let awaits := fun n => old.filter (fun m => m != n && (build.contains m || stop.contains m) && (s.slice m).overlaps (p.slice n))
  let s := s.retrainPorts p
  let s := (s.applyOut 2 { status := St.pending })
  let s := { s with pat := { s.pat with cand := some p, atStart := atStart } }
  let s := forAll allParts (fun n s => if build.contains n || stop.contains n then s.loadSettings n p else s) s
  let s := forAll build (fun n s => s.startBuild n false false (awaits n)) s
  let s := forAll stop (fun n s => s.startBuild n true false []) s
  s.tryKeys.phaseCheck

/-- A write of PAT_APPLY (02 R39, R42, R43, R65; 15 R401). -/
def State.writeApply (s : State) (v : Nat) : State :=
  let b := Tab.getList 0 s.pat.stage 0 (bits v 20 0)
  let det := patternDetail (Config.sha384 b)
  if 1 ≤ s.pat.phase && s.pat.phase ≤ 3 then (if s.logRoom then s.log 2 255 St.busy 2 det else s)
  else if !s.logRoom || s.sec.fwState = 4 then s.applyOut 0 { status := St.busy }
  else
    match (if bits v 20 0 ≤ 0x100000 then s.checkPattern b false else .error { status := St.cfgMismatch }) with
    | .error f => ((s.applyOut 0 f).log 2 255 f.status 2 det).raise 16 2
    | .ok p => s.beginApply p false

/-- PAT_APPLY (02 R38, R42-R44): only the operator's paths may write it; it decodes from stage 1 on (16 R433). -/
def execPatApply (p : Path) (value : BitVec 32) (s : State) : Res' :=
  closing (if s.pathShut p || s.pwr.stage = 0 then s else if isOper p then (s.writeApply value.toNat).wakeCells else s.regScope p)

/-- The service cores of a cluster mask go into reset with nothing kept. -/
def State.resetCores (s : State) (mask : Nat) : State :=
  { s with cores := s.cores.keep (fun k => !(mask.testBit (k / 8))) }

/-- BAR2 accesses of Pn that the endpoint holds end: a read is answered UR. -/
def State.dropBar2 (s : State) (n : Nat) : State :=
  let mine := s.pcie.held.filter (fun c => match c with | .bar2Read m .. => m.val == n | .bar2Write m .. => m.val == n | _ => false)
  let s := { s with pcie := { s.pcie with held := s.pcie.held.filter (fun c => !(mine.contains c)) } }
  mine.foldl (fun s c => match c with | .bar2Read .. => s.emit (.completion n true false []) | _ => s) s

/-- Every write that a channel of Pn has issued is acknowledged (11 R280). -/
def State.chansDrained (s : State) (n : Nat) : Bool :=
  s.chans.all (fun e => s.ownerChan e.1 != some n || e.2.bursts.all (fun b => b.state != 1))

/-- BUILD_DRAIN_DONE (02 R49 step 2; 12 R332; 10 R244): the aborts end, cells, cores and channels of Pn stand, its old keys are
destroyed and its resources are given up; key steps that waited for them run. -/
def execBuildDrainDone (n : PartId) (s : State) : Res' :=
  let k := n.val
  closing (onlyIf ((s.part k).state == .building && (s.part k).step == .drain && s.chansDrained k) (fun s =>
    let x := s.slice k
    let s := forAll ((s.ctxsOf k).filter (fun c => (s.ctx k c).aborting)) (fun c s => s.abortEnds k c) s
    let s := forAll (maskList 192 x.cells) (fun i s => s.stopCell i) s
    let s := s.resetCores x.clusters
    let s := { s with chans := s.chans.keep (fun i => !(x.dma.testBit i))
                      egress := s.egress.filter (fun e => match e.flight with | .msg p .. => p != k | .grant p .. => p != k | .ret p .. => p != k)
                      flights := s.flights.filter (fun f => match f with | .msg p .. => p != k | .grant p .. => p != k | .ret p .. => p != k)
                      hbm := { s.hbm with held := s.hbm.held.filter (fun e => e.1 % 16 != k)
                                          pchs := Tab.mapVals {} (fun i p => if x.pchs.testBit i then { p with wcb := [] } else p) s.hbm.pchs } }
    let s := s.dropBar2 k
    let s := s.updKeys k (fun _ => {})
    let s := s.updPart k (fun p => { p with slice := {}, step := .keyWait })
    s.tryKeys) s)

/-- ZERO_FILL_COMPLETE (02 R50; 10 R257): every region of Pn's pseudo-channels is marked cleared, and no old byte can be read. A build that names a
stack still offline fails (10 R259; 02 R51). -/
def execZeroFillComplete (n : PartId) (s : State) : Res' :=
  let k := n.val
  closing (onlyIf ((s.part k).state == .building && (s.part k).step == .fill) (fun s =>
    let m := (s.slice k).pchs
    if (maskList 512 m).any (fun i => s.lineOffline (i * pchLines)) then s.losePart k St.stackOffline else
    let s := { s with mem := s.mem.filter (fun e => !(m.testBit (pchOfLine (e.1 / 64)))), lines := s.lines.keep (fun l => !(m.testBit (pchOfLine l))) }
    let s := forAll (maskList 512 m) (fun i s => s.updPch i (fun p =>
      { p with wcb := [], clearedAll := true, zeroed := [], written := [], sweep := 0 })) s
    s.updPart k (fun p => { p with step := .flush })) s)

/-- Every cached copy that concerns Pn goes, dirty or not (02 R49 step 4): lines of its pseudo-channels and of none, its ways, its
agents. -/
def State.flushPart (s : State) (n : Nat) : State :=
  let line := fun (l : Nat) => ownOrFree n (s.ownerPch (pchOfLine l))
  let copyKey := fun (k : Nat) => line (k % 2 ^ 38) || s.agentPart (k / 2 ^ 42) (k / 2 ^ 38 % 16) == some n
  let c := s.coh
  { s with coh := { c with
      slc := c.slc.filter (fun e => !(line (e.1 % 2 ^ 38)) && match e.2 with
        | some x => x.part != n && s.ownerWay (e.1 / 2 ^ 38) x.way != some n
        | none => true)
      dir := c.dir.filter (fun e => !(line (e.1 % 2 ^ 38)) && e.2.part != n)
      copies := c.copies.keep (fun k => !(copyKey k))
      wbs := c.wbs.keep (fun k => !(copyKey k))
      tallies := c.tallies.filter (fun t => !(line t.line)) } }

/-- A register of Pn's own, or a counter that its build zeroes (02 R49 step 5; 01 R27). -/
def State.partReg (s : State) (n a : Nat) : Bool :=
  let o := offAt a
  match blockAt a with
  | 2 => decide (0x20000 ≤ o) && decide (o < 0x30000) && (o % 0x80) / 8 == n
  | 3 => decide (0x1000 ≤ o) && decide (o < 0x1400) && (o - 0x1000) / 0x40 == n
  | 4 => decide (o < 0x100000) && decide (0x100 ≤ o % 0x10000) && decide (o % 0x10000 < 0x300) && (o % 0x10000 - 0x100) / 0x20 == n && o % 0x20 != 0
  | 5 => decide (0x100000 ≤ o) && ownOrFree n (s.ownerChan (dmaChanAt a))
  | 7 => decide (0x100000 ≤ o) && ownOrFree n (s.ownerCell (winCell a))
  | 14 => a == schSliceAddr n
  | _ => false

/-- Everything of Pn's own is as after a reset (02 R49 step 5): contexts, queues, fences, scheduling, messages, cells, cores, channels,
Ethernet, collectives, twin state, registers and counters. -/
def State.clearPart (s : State) (n : Nat) : State :=
  let cell := fun i => ownOrFree n (s.ownerCell i)
  let ethq := fun q => ownOrFree n (s.ownerEthQ q)
  let msg := fun (k : Nat) =>
    let a := k / 4096
    if a < 192 then cell a else if a < 0x180 then ownOrFree n (s.ownerCore (a - 0x100)) else cell ((a - 0x200) / 8 * 16)
  { s with
    regs := s.regs.keep (fun a => !(s.partReg n a))
    staged := s.staged.keep (fun a => !(s.partReg n a))
    ctxs := s.ctxs.keep (fun k => k / 4096 != n)
    queues := s.queues.keep (fun k => k / 128 != n)
    fences := s.fences.keep (fun k => k / 4096 != n)
    saved := s.saved.keep (fun k => k / 192 / 4096 != n)
    schs := s.schs.set {} n {}
    ress := s.ress.keep (fun k => k % 16 != n)
    msgs := s.msgs.keep (fun k => !(msg k))
    cells := Tab.mapVals {} (fun i c => if cell i then { retired := c.retired } else c) s.cells
    cores := s.cores.keep (fun k => !(ownOrFree n (s.ownerCore k)))
    aclint := s.aclint.keep (fun k => !(ownOrFree n (s.ownerCluster (k / 65536))))
    codes := s.codes.set {} n {}
    chans := s.chans.keep (fun i => !(ownOrFree n (s.ownerChan i)))
    rxqs := s.rxqs.keep (fun q => !(ethq q))
    pools := s.pools.keep (fun k => k / 4 != n)
    vfs := s.vfs.upd {} n (fun v => { tdi := v.tdi })
    xlts := s.xlts.set {} n {}
    walkCaches := Tab.mapVals [] (fun _ l => l.filter (fun x => x.part != n)) s.walkCaches
    pageReady := s.pageReady.filter (fun r => r.id / 64 != n)
    net := { s.net with parts := s.net.parts.set {} n {}
                        txqs := s.net.txqs.keep (fun q => !(ethq q))
                        txWait := Tab.mapVals [] (fun _ l => l.filter (fun f => f.part != n)) s.net.txWait
                        ports := Tab.mapVals {} (fun _ t => { t with held := t.held.filter (fun x => x.part != n) }) s.net.ports }
    colls := s.colls.set {} n {}
    twins := s.twins.set {} n {}
    ras := Tab.mapVals {} (fun _ r => { r with idx := r.idx.set 0 n 0 }) s.ras
    sec := { s.sec with log := { s.sec.log with readers := s.sec.log.readers.set {} n {} }
                        held := s.sec.held.filter (fun h => match h with
                          | .cell i => !(cell i)
                          | .cluster c => !(ownOrFree n (s.ownerCluster c))
                          | .chan i => !(ownOrFree n (s.ownerChan i))
                          | .vf v => v != n
                          | .site _ => true) } }

/-- The pools of Pn at their pattern sizes (02 R49 step 5; 06 R158): pool 0 ends at the top of the PPA, pool p lies below pool p - 1. -/
def State.resetPools (s : State) (n : Nat) : State :=
  let l := (s.slice n).pools
  forAll (List.range 4) (fun p s =>
    let below := (l.take (p + 1)).foldl (· + ·) 0 * 65536
    s.updPool n p (fun _ => { base := if nth l p = 0 then 0 else s.ppaSize n - below, total := nth l p, free := nth l p })) s

/-- BUILD_FLUSH_DONE (02 R49 step 4, R48): Pn's caches hold nothing; a partition that is released becomes UNDEFINED. -/
def execBuildFlushDone (n : PartId) (s : State) : Res' :=
  let k := n.val
  closing (onlyIf ((s.part k).state == .building && (s.part k).step == .flush) (fun s =>
    let s := s.flushPart k
    if (s.part k).releasing then
      let status := (s.part k).status
      let s := (s.clearPart k).updPart k (fun _ => {})
      let s := if s.pwr.rstPart = some k then { s with pwr := { s.pwr with rstPart := none, rstStatus := St.aborted } } else s
      (s.setPartState k .undefined status).phaseCheck
    else s.updPart k (fun p => { p with step := .reset })) s)

/-- Clusters that died as caching agents return with the reset of their partition (09 R233; 08 R211). -/
def State.agentsBack (s : State) (clusters : Nat) : State :=
  forAll (maskList 16 clusters) (fun c s =>
    if (s.coh.dead.get 0 (c / 8)).testBit (c % 8) then
      { s.setIso (c / 8) (16 + c % 8) false with coh := { s.coh with dead := s.coh.dead.upd 0 (c / 8) (fun m => clearBit m (c % 8)) } }
    else s) s

/-- PARTITION_BUILT (02 R49 steps 5 and 6, R44; 16 R434): the partition is empty and READY. -/
def execPartitionBuilt (n : PartId) (s : State) : Res' :=
  let k := n.val
  closing (onlyIf ((s.part k).state == .building && (s.part k).step == .reset) (fun s =>
    let s := ((s.clearPart k).resetPools k).agentsBack (s.slice k).clusters
    let s := s.setReg (schSliceAddr k) (field 47 32 (s.slice k).npLimit + 2000)
    let dig := match s.pat.cand.orElse (fun _ => s.pat.running) with | some p => p.digest | none => 0
    let s := s.updPart k (fun p => { state := p.state, slice := p.slice })
    let s := (s.setPartState k .ready St.ok).log 3 k St.ok 0 (patternDetail dig)
    let s := if s.pwr.rstPart = some k then { s with pwr := { s.pwr with rstPart := none, rstStatus := St.ok } } else s
    s.phaseCheck.wakeCells) s)

/-- PATTERN_STORE_WRITTEN (02 R44): the other slot holds the pattern and is selected with its epoch; PHASE 4 with OK. -/
def execPatternStoreWritten (s : State) : Res' :=
  closing (match s.pat.running with
    | none => s
    | some p => onlyIf (s.pat.phase == 3) (fun s =>
      let pat := s.pat
      let s := { s with pat := { pat with
        slot0 := if pat.selected then some p.bytes else pat.slot0, slot1 := if pat.selected then pat.slot1 else some p.bytes
        selected := !pat.selected, storedEpoch := p.epoch, phase := 4, status := St.ok } }
      (s.log 1 255 St.ok 2 (patternDetail p.digest)).raise 16 2) s)

end Sys2Proof.Machine
end

