-- ==== Sys2Proof/Machine/Sites.lean ====
section
/-!
DEFINITION. Chiplet sites (13): the Open Site Profile, bring-up, partial resets and message routes.
-/

namespace Sys2Proof.Machine

/-- The level both halves use at their sites: the lower (13 R345). -/
def State.siteLevel (s : State) : Nat := min (s.pairLevel 0) (s.pairLevel 1)

/-- Features offered at a level: all eight of OSP 1.2 (13 R339). -/
def featuresOf (level : Nat) : Nat := if level = 0x0102 then 0xFF else (Config.featuresAt level).toNat

/-- The hub's capability word k (13 R336, R339): what the spec fixes laid over its open bits. -/
def State.hubCapWord (s : State) (k : Nat) : Nat :=
  let w := (Config.hubCap k).toNat
  match k with
  | 0 => setBits w 23 0 (0x10000 + s.siteLevel)
  | 1 => setBits (setBit (setBit w 53) 52) 63 60 0xF
  | 2 => w
  | _ => setBits w 31 0 (featuresOf s.siteLevel)

/-- A capability word of the chiplet. -/
def Site.cap (t : Site) (k : Nat) : Nat := t.capPeer.get 0 k

/-- NEG of a check word (13 R349): the first 32 bits of SHA-384 over both sides' words. -/
def State.negWord (s : State) (k : Nat) : Nat :=
  let t := s.site k
  let b := ((List.range 4).map (fun i => leBytes 8 (s.hubCapWord i))).flatten ++ ((List.range 4).map (fun i => leBytes 8 (t.cap i))).flatten
  (Config.sha384 b).toNat >>> 352

/-- A check word (13 R349). -/
def checkWord (seq width : Nat) (rate : Bool) (u neg : Nat) : Nat :=
  field 63 56 seq + field 55 54 width + field 53 53 (bit rate) + field 52 50 u + field 31 0 neg

/-- Change module u of site k. -/
def State.updMod (s : State) (k u : Nat) (f : UMod → UMod) : State := s.updSite k (fun t => { t with mods := t.mods.upd {} u f })
/-- Module u of site k. -/
def State.umod (s : State) (k u : Nat) : UMod := (s.site k).mods.get {} u

/-- Router of module u of a site, or of a cluster 12 + c (08 R191). -/
def routeAt (e u : Nat) : Nat × Nat :=
  let at0 := fun k => if k ≤ 3 then (2 * k + u % 2, u / 2) else if k = 4 then (6 + u % 2, 6 + u / 2) else (4 + u % 2, 6 + u / 2)
  let mir := fun (p : Nat × Nat) => (15 - p.1, p.2)
  if e < 6 then at0 e else if e < 12 then mir (at0 (11 - e))
  else if e < 20 then (e - 12, 2) else mir (e - 20, 2)

/-- Distance on a ring of n. -/
def ringDist (n a b : Nat) : Nat := let d := if a ≤ b then b - a else a - b; min d (n - d)

/-- Idle path time between two routers in ps, the fixed terms left out (08 R192, R193, R214; 13 R337). -/
def pathTime (a b : Nat × Nat) : Nat :=
  833 * (ringDist 16 a.1 b.1 + ringDist 8 a.2 b.2) + (if (decide (a.1 < 8)) != (decide (b.1 < 8)) then 2000 else 0)

/-- Candidate modules of a route's end (13 R337): a site's up modules, a cluster's one port. -/
def State.candidates (s : State) (e : Nat) : List Nat :=
  if 12 ≤ e then [0]
  else if (s.site e).state = 1 || (s.site e).state = 5 then (List.range 4).filter (fun u => (s.umod e u).width != 0 && !((s.umod e u).busy))
  else []

/-- The route between two ends (13 R337): least time, then lower sending, then lower receiving module; 0 for none. -/
def State.bestRoute (s : State) (x y : Nat) : Nat :=
  let l := ((s.candidates x).map (fun u => (s.candidates y).map (fun v => (pathTime (routeAt x u) (routeAt y v), 1 + u * 4 + v)))).flatten
  (l.foldl (fun (m : Option (Nat × Nat)) p => match m with
    | none => some p
    | some q => if p.1 < q.1 then some p else some q) none).elim 0 (·.2)

/-- A module of the site has come up: every route of the site is recomputed over the candidates (13 R337). Where an
end has none, the route stays. -/
def State.reRoute (s : State) (k : Nat) : State :=
  (List.range 28).foldl (fun (s : State) e =>
    if e = k then s else
    let route := fun (r : Tab Nat) (x y : Nat) => if s.bestRoute x y = 0 then r else r.set 0 (x * 32 + y) (s.bestRoute x y)
    { s with fab := { s.fab with routes := route (route s.fab.routes k e) e k } }) s

/-- Cells of the site of a partition that is READY or BUILDING (13 R351, R352). -/
def State.siteOwned (s : State) (k : Nat) : Bool :=
  allParts.any (fun n => ((s.part n).state == .ready || (s.part n).state == .building)
    && (List.range 16).any (fun p => (s.slice n).cells.testBit (k * 16 + p)))

/-- Bring-up starts (13 R342 steps 1 and 2): standby power, and the hub sends its capability words. A site left empty is bypassed (00
R3; 13 R353). -/
def State.bringUp (s : State) (k st : Nat) : State :=
  if (s.site k).fitted = 0 then
    s.updSite k (fun t => { t with state := 3, cmdStatus := if t.cmdStatus = St.pending then St.ok else t.cmdStatus })
  else
    let s := s.updSite k (fun t => { t with
      state := st, power := 1, step := 1, mods := [], capPeer := [], capGot := 0, capAcked := 0, ident := [], identGot := 0, level := 0
      features := 0, lost := 0, clock := 0 })
    let s := { s with sec := { s.sec with held := s.sec.held.filter (fun h => h != .site k) } }
    (List.range 4).foldl (fun s i => s.emit (.osp k 1 (i * 2 ^ 64 + s.hubCapWord i))) s

/-- The negotiated profile is refused (13 R340): level, mandatory protocol or feature, or a reserved CLOCK. -/
def State.negRefused (s : State) (k : Nat) : Bool :=
  let t := s.site k
  let c0 := t.cap 0
  let c1 := t.cap 1
  let level := min s.siteLevel (bits c0 15 0)
  let f := featuresOf s.siteLevel &&& bits (t.cap 3) 31 0
  decide (level / 256 < max 1 (bits c0 23 16)) || !(c1.testBit 53) || !(c1.testBit 52) || bits c1 55 54 == 3
    || (c1.testBit 51 && !(f.testBit 3 && f.testBit 4 && f.testBit 7))

/-- The clock that a site receives (13 R341): 1 forwarded MCLK, which a Renyr chiplet always takes and which either side's offer
decides; 2 the 100 MHz reference. CLOCK 0 and 2 offer MCLK (R339). -/
def State.siteClock (s : State) (k : Nat) : Nat :=
  let offers := fun (w : Nat) => bits w 55 54 == 0 || bits w 55 54 == 2
  if ((s.site k).cap 1).testBit 51 || offers ((s.site k).cap 1) || offers (s.hubCapWord 1) then 1 else 2

/-- Negotiation under R340, then power under R342 steps 3 and 4 (13; R345, R358): an open site without an integration record
stays bypassed. -/
def State.negotiate (s : State) (k : Nat) : State :=
  let t := s.site k
  let kind := if (t.cap 1).testBit 51 then 1 else 2
  let offer := bits (t.cap 3) 31 0
  let f := featuresOf s.siteLevel &&& offer
  let high := featuresOf (max (s.pairLevel 0) (s.pairLevel 1))
  let s := s.updSite k (fun t => { t with
    kind := kind, level := min s.siteLevel (bits (t.cap 0) 15 0), features := f, clock := s.siteClock k
    lost := (offer - f) ||| (high - (high &&& featuresOf s.siteLevel)) })
  let w := bits (t.cap 2) 63 56
  let v := bits (t.cap 2) 23 16
  if s.negRefused k then s.siteDead k 1
  else if kind = 2 && s.sec.fuses.integration.isNone then s.updSite k (fun t => { t with
    state := 3, power := 0, step := 0, cmdStatus := if t.cmdStatus = St.pending then St.ok else t.cmdStatus })
  else if 110 < w || v < 50 || 100 < v then s.siteDead k 3
  else (s.updSite k (fun t => { t with power := 2, step := 2 })).emit (.osp k 4 2)

/-- The exchange is complete when the four words have come and the hub's four are acknowledged. -/
def State.capCheck (s : State) (k : Nat) : State :=
  let t := s.site k
  if t.step = 1 && t.capGot = 15 && t.capAcked = 15 then s.negotiate k else s

/-- OSP_CAP (13 R338, R339). -/
def execOspCap (site : SiteId) (idx : Fin 4) (word : Word64) (s : State) : Res' :=
  let k := site.val
  closing (onlyIf ((s.site k).step == 1) (fun s =>
    (((s.updSite k (fun t => { t with capPeer := t.capPeer.set 0 idx.val word.toNat, capGot := setBit t.capGot idx.val })).emit
      (.osp k 2 idx.val)).capCheck k).wakeCells) s)

/-- OSP_CAP_ACK (13 R338). -/
def execOspCapAck (site : SiteId) (idx : Fin 4) (s : State) : Res' :=
  let k := site.val
  closing (onlyIf ((s.site k).step == 1) (fun s =>
    ((s.updSite k (fun t => { t with capAcked := setBit t.capAcked idx.val })).capCheck k).wakeCells) s)

/-- A module's sides disagree (13 R347): at first it retrains from scratch, then the site is dead. -/
def State.disagree (s : State) (k u : Nat) : State :=
  let s := s.updMod k u (fun m => { m with disagree := m.disagree + 1, scratch := true, trained := 0, peer := none, narrowed := false })
  if 2 ≤ (s.umod k u).disagree then s.siteDead k 5 else s

/-- The module's sides agree (13 R347): it carries traffic, and the site's routes are recomputed (R337). -/
def State.agree (s : State) (k u : Nat) : State :=
  let s := s.updMod k u (fun m => { m with width := m.trained, busy := false, disagree := 0, scratch := false, trained := 0, peer := none, narrowed := false })
  let s := s.updSite k (fun t => if t.state = 5 && !(t.mods.any (fun e => e.2.busy)) then { t with state := 1, cmdStatus := if t.cmdStatus = St.pending then St.ok else t.cmdStatus } else t)
  s.reRoute k

/-- Compare the check words of a module once both are there (13 R347, R349): the narrower width wins once. A site without X32 degrades
no module (R339), so that it disagrees (DESIGN CHOICE, log entry 97). -/
def State.judgeModule (s : State) (k u : Nat) : State :=
  let m := s.umod k u
  match m.peer with
  | none => s
  | some w =>
    if m.trained = 0 then s
    else if w = checkWord m.seq m.trained m.rate u (s.negWord k) then s.agree k u
    else if m.narrowed then s.disagree k u
    else
      let pw := bits w 55 54
      let nw := if pw = 1 || pw = 2 then min m.trained pw else m.trained
      if nw = 1 && !((s.site k).features.testBit 6) then s.disagree k u else
      let s := s.updMod k u (fun m => { m with trained := nw, narrowed := true, peer := none, seq := (m.seq + 1) % 256 })
      s.emit (.osp k 3 (checkWord ((m.seq + 1) % 256) nw m.rate u (s.negWord k)))

/-- OSP_CHECK (13 R349): a check word of a module that retrains is compared with the hub's. -/
def execOspCheck (site : SiteId) (word : Word64) (s : State) : Res' :=
  let k := site.val
  let u := bits word.toNat 52 50
  closing (onlyIf (decide (u < 4) && (s.umod k u).busy) (fun s =>
    ((s.updMod k u (fun m => { m with peer := some word.toNat })).judgeModule k u).wakeCells) s)

/-- A partial reset of module u begins, or begins anew (13 R347): the count of disagreements stands. -/
def State.startRetrain (s : State) (k u : Nat) : State :=
  let s := s.updMod k u (fun m => { m with width := 0, busy := true, trained := 0, peer := none, narrowed := false })
  s.updSite k (fun t => { t with state := 5, retrains := satAdd 16 t.retrains 1 })

/-- Partial resets of the modules of a mask that the site has (13 R343, R347). -/
def State.retrainMask (s : State) (k mask : Nat) : State :=
  forAll ((maskList 4 mask).filter (fun u => (s.umod k u).width != 0 || (s.umod k u).busy)) (fun u s => s.startRetrain k u) s

/-- The site runs, perhaps with a module in a retrain. -/
def State.siteRuns (s : State) (k : Nat) : Bool := (s.site k).state == 1 || (s.site k).state == 5

/-- OSP_RESET (13 R343): an adapter reset is a partial reset, a core reset a fatal error. -/
def execOspReset (site : SiteId) (mask : BitVec 4) (core : Bool) (s : State) : Res' :=
  let k := site.val
  closing (if core then onlyIf ((s.site k).power != 0 && (s.site k).state != 2) (fun s => (s.siteDead k 10).wakeCells) s
    else onlyIf (s.siteRuns k) (fun s => s.retrainMask k mask.toNat) s)

/-- UCIE_LINK_RECOVERY (13 R347). -/
def execUcieLinkRecovery (site : SiteId) (u : Fin 4) (s : State) : Res' :=
  closing (onlyIf (s.siteRuns site.val) (fun s => s.retrainMask site.val (1 <<< u.val)) s)

/-- Lanes that runtime lane repair has replaced in a retrain, where it is negotiated, are counted (13 R336, R339, R352). Which lanes fail
no rule says: their number is a free value (log entry 97). -/
def State.lanesRepaired (s : State) (k : Nat) : State :=
  if (s.site k).features.testBit 5 then
    s.tick.updSite k (fun t => { t with laneRepairs := satAdd 16 t.laneRepairs (Config.freeValue s.freeCtr).toNat })
  else s

/-- MODULE_RETRAIN_DONE (13 R347, R348): the hub's side of a module has trained to a width, and sends its check word; width 0 is a
failed retrain, which counts as a disagreement. -/
def execModuleRetrainDone (site : SiteId) (u : Fin 4) (width : Fin 3) (s : State) : Res' :=
  let k := site.val
  closing (onlyIf ((s.umod k u.val).busy && (s.umod k u.val).trained == 0) (fun s =>
    if width.val = 0 || (width.val == 1 && !((s.site k).features.testBit 6)) then (s.disagree k u.val).wakeCells
    else
      let s := s.lanesRepaired k
      let rate := (s.site k).features.testBit 0
      let s := s.updMod k u.val (fun m => { m with trained := width.val, rate := rate, seq := (m.seq + 1) % 256 })
      let s := s.emit (.osp k 3 (checkWord (s.umod k u.val).seq width.val rate u.val (s.negWord k)))
      (s.judgeModule k u.val).wakeCells) s)

/-- RETRAIN_TIMEOUT (13 R348). -/
def execRetrainTimeout (site : SiteId) (u : Fin 4) (s : State) : Res' :=
  closing (onlyIf ((s.umod site.val u.val).busy) (fun s => (s.disagree site.val u.val).wakeCells) s)

/-- Some message route uses module u of site k (13 R337). -/
def State.onRoute (s : State) (k u : Nat) : Bool :=
  s.fab.routes.any (fun e => e.2 != 0 && ((e.1 / 32 == k && (e.2 - 1) / 4 == u) || (e.1 % 32 == k && (e.2 - 1) % 4 == u)))

/-- ROUTE_MODULE_TIMEOUT (13 R337): a module that carries message routes is absent beyond 2 ms. -/
def execRouteModuleTimeout (site : SiteId) (u : Fin 4) (s : State) : Res' :=
  closing (onlyIf ((s.umod site.val u.val).busy && s.onRoute site.val u.val) (fun s => (s.siteDead site.val 9).wakeCells) s)

/-- The chiplet's identity digest, digest byte 0 first. -/
def Site.identBytes (t : Site) : List Byte := ((List.range 6).map (fun i => leBytes 8 (t.ident.get 0 i))).flatten

/-- The identity is the one recorded (13 R359): Lysurman's Renyr identity, or the site's entry of the integration record. -/
def State.identOk (s : State) (k : Nat) : Bool :=
  let t := s.site k
  let d := BitVec.ofNat 384 (ofBe t.identBytes)
  if t.kind = 1 then d == Config.renyrIdentity
  else match s.sec.fuses.integration with
    | some r => Config.recordLists r k (bits (t.cap 0) 63 24) d
    | none => false

/-- The site is up (13 R342 step 7, R351): it owns no cells until a build gives them. -/
def State.siteUp (s : State) (k : Nat) : State :=
  let s := s.updSite k (fun t => { t with state := 1, step := 0, failures := 0, cmdStatus := if t.cmdStatus = St.pending then St.ok else t.cmdStatus })
  let s := (s.setIso (halfOfSite k) (k % 6) false)
  let s := if (s.site k).kind = 2 then
      { s with coh := { s.coh with dead := s.coh.dead.upd 0 (halfOfSite k) (fun m => clearBit m (8 + k % 6)) } } else s
  let s := forAll allParts (fun n s =>
      if (s.slice n).cells = 0 then s else
      s.updPart n (fun p => { p with slice := { p.slice with cells := (List.range 16).foldl (fun c i => clearBit c (k * 16 + i)) p.slice.cells } })) s
  s.reRoute k

/-- A record of the sealed log whose event type, and detail, no rule gives (13 R345, R359): free values (log entry 37). -/
def State.logOther (s : State) (status : StatusCode) : State :=
  let f := s.freeCtr
  s.tick.log ((Config.freeValue f).toNat % 65536) 255 status 0 ((List.range 16).map (Config.freeByte f))

/-- OSP_IDENTITY (13 R338, R359): the sixth chunk completes the digest, which is measured and checked. -/
def execOspIdentity (site : SiteId) (chunk : Fin 6) (data : Word64) (s : State) : Res' :=
  let k := site.val
  closing (onlyIf ((s.site k).step == 4) (fun s =>
    let s := s.updSite k (fun t => { t with ident := t.ident.set 0 chunk.val data.toNat, identGot := setBit t.identGot chunk.val })
    if (s.site k).identGot != 63 then s
    else
      let t := s.site k
      let m := Config.sha384 (((List.range 4).map (fun i => leBytes 8 (t.cap i))).flatten ++ t.identBytes)
      let s := s.updSite k (fun t => { t with idMeas := m })
      if s.identOk k then s.siteUp k
      else ((s.logOther St.denied).siteDead k 2).wakeCells) s)

/-- OSP_ERROR (13 R338, R350, R352). -/
def execOspError (site : SiteId) (fatal : Bool) (_code : BitVec 16) (s : State) : Res' :=
  let k := site.val
  closing (onlyIf ((s.site k).power != 0 && (s.site k).state != 2) (fun s =>
    if fatal then (s.siteDead k 10).wakeCells else s.updSite k (fun t => { t with correctable := satAdd 32 t.correctable 1 })) s)

/-- OSP_UNKNOWN_CODE (13 R338). -/
def execOspUnknownCode (site : SiteId) (_code : Byte) (s : State) : Res' :=
  done (s.updSite site.val (fun t => { t with droppedOsp := satAdd 16 t.droppedOsp 1 }))

/-- Outcome of a SITE_CTRL command. -/
def State.siteCmd (s : State) (k token : Nat) (status : StatusCode) : State :=
  s.updSite k (fun t => { t with cmdToken := token, cmdStatus := status })

/-- A site reset may run (13 R351): the site is dead, empty or bypassed, or no READY or BUILDING partition owns a cell of it; after
three failures in a row it stays dead. -/
def State.resetAllowed (s : State) (k : Nat) : Bool :=
  let t := s.site k
  (t.state == 2 || t.state == 3 || t.fitted == 0 || !(s.siteOwned k)) && decide (t.failures < 3)

/-- A write of SITE_CTRL (13 R347, R351, R352). -/
def State.writeSiteCtrl (s : State) (k v : Nat) : State :=
  let token := bits v 63 56
  let t := s.site k
  match bits v 2 0 with
  | 1 => if (t.state = 4 || t.state = 6) && t.step != 0 then s.siteCmd k token St.busy
         else if s.resetAllowed k then (s.siteCmd k token St.pending).bringUp k 6
         else s.siteCmd k token St.denied
  | 2 => if s.siteOwned k || !(s.siteRuns k) then s.siteCmd k token St.denied
         else
           let m := bits v 11 8
           let s := ((s.siteCmd k token St.pending).emit (.osp k 5 m)).retrainMask k m
           if (s.site k).state = 5 then s else s.siteCmd k token St.ok
  | 3 => if s.siteOwned k then s.siteCmd k token St.denied
         else ((s.siteCmd k token St.ok).updSite k (fun t => { t with state := 7, power := 0, step := 0, mods := [] })).emit (.osp k 4 0)
  | _ => s.siteCmd k token St.denied

/-- SITE_RESET (13 R351). -/
def execSiteReset (p : Path) (site : SiteId) (value : Word64) (s : State) : Res' :=
  closing (s.onOperLate p (fun s => s.writeSiteCtrl site.val (setBits value.toNat 2 0 1)))

/-- SITE_RETRAIN (13 R347, R352). -/
def execSiteRetrain (p : Path) (site : SiteId) (value : Word64) (s : State) : Res' :=
  closing (s.onOperLate p (fun s => s.writeSiteCtrl site.val (setBits value.toNat 2 0 2)))

/-- SITE_OFF (13 R352). -/
def execSiteOff (p : Path) (site : SiteId) (value : Word64) (s : State) : Res' :=
  closing (s.onOperLate p (fun s => s.writeSiteCtrl site.val (setBits value.toNat 2 0 3)))

/-- SITE_PROTOCOL_READY (13 R342 step 5). -/
def execSiteProtocolReady (site : SiteId) (s : State) : Res' :=
  done (onlyIf ((s.site site.val).step == 2) (fun s => s.updSite site.val (fun t => { t with step := 3 })) s)

/-- The trained widths of the bonded modules serve (13 R336, R339, R342 step 6): none is 0, and x32 needs its feature. -/
def widthsOk (t : Site) (widths : List (Fin 3)) : Bool :=
  let bonded := bits (t.cap 1) 63 60
  bonded != 0 && (maskList 4 bonded).all (fun u =>
    let w := (widths.getD u 0).val
    w == 2 || (w == 1 && t.features.testBit 6))

/-- SITE_MAINBAND_TRAINED (13 R342 step 6). -/
def execSiteMainbandTrained (site : SiteId) (widths : List (Fin 3)) (agree : Bool) (s : State) : Res' :=
  let k := site.val
  closing (onlyIf ((s.site k).step == 3) (fun s =>
    let t := s.site k
    if agree && widthsOk t widths then
      let s := forAll (maskList 4 (bits (t.cap 1) 63 60)) (fun u s => s.updMod k u (fun m =>
        { m with width := (widths.getD u 0).val, rate := t.features.testBit 0, seq := (m.seq + 1) % 256 })) s
      s.updSite k (fun t => { t with step := 4 })
    else (s.siteDead k 4).wakeCells) s)

/-- VSITE_RAIL_FAULT (16 R426; 13 R350). -/
def execVsiteRailFault (site : SiteId) (s : State) : Res' :=
  closing (onlyIf ((s.site site.val).power == 2 && (s.site site.val).state != 2) (fun s =>
    ((s.updSite site.val (fun t => { t with power := 3 })).siteDead site.val 3).wakeCells) s)

end Sys2Proof.Machine
end

