-- ==== Sys2Proof/Machine/Request.lean ====
section
/-!
DEFINITION. Signed requests (15 R397, R398), life-cycle transitions (R407-R410), firmware (R400-R402), the confidential flag and debug
(R403, R404), test access (13 R355, R356).
-/

namespace Sys2Proof.Machine

/-- Change the security controllers' state. -/
def State.updSec (s : State) (f : Sec → Sec) : State := { s with sec := f s.sec }
/-- Change the fuses. -/
def State.updFuses (s : State) (f : Fuses → Fuses) : State := s.updSec (fun c => { c with fuses := f c.fuses })

/-- SEC_NONCE takes a fresh DRBG value (15 R397). -/
def State.freshNonce (s : State) : State := s.tick.updSec (fun c => { c with nonce := Config.drbg s.freeCtr })

/-- A request ends (15 R397, R420). -/
def State.reqEnd (s : State) (status : StatusCode) : State :=
  (s.updSec (fun c => { c with reqStatus := status, reqPhase := 3 })).freshNonce

/-- BODY_LEN fits the kind (15 R398). -/
def bodyFits (kind len : Nat) : Bool :=
  match kind with
  | 2 => len == 96
  | 4 => len == 56
  | 6 => decide (len ≤ 768)
  | 10 => len == 96
  | _ => len == 0

/-- Check 1: the form of a request (15 R397, R398). -/
def formOk (b : List Byte) (len : Nat) : Bool :=
  decide (160 ≤ len) && decide (len ≤ 1024) && bslice b 0 4 == [0x46, 0x4A, 0x52, 0x51] && fld b 4 2 == 0x0100
    && decide (1 ≤ fld b 6 1) && decide (fld b 6 1 ≤ 10) && fld b 0x14 12 == 0 && len == 0x40 + fld b 0x12 2 + 96
    && bodyFits (fld b 6 1) (fld b 0x12 2)

/-- Check 2: SERIAL, LCS and NONCE (15 R398). -/
def State.bindsOk (s : State) (b : List Byte) : Bool :=
  fld b 8 8 == Config.serial.toNat && fld b 0x10 1 == s.sec.fuses.lcs.code && fld b 0x20 32 == s.sec.nonce.toNat % 2 ^ 256

/-- The operator slots count: they are ignored in ANALYSIS and SCRAPPED (15 R408). -/
def State.slotsCount (s : State) : Bool := !(s.sec.fuses.lcs == .analysis || s.sec.fuses.lcs == .scrapped)

/-- State of operator slot k: 0 EMPTY, 1 ACTIVE, 2 REVOKED. -/
def State.slotState (s : State) (k : Nat) : Nat := (s.sec.fuses.opkeys.get {} k).state

/-- The signer that a kind asks for (15 R398). -/
def State.signerOk (s : State) (kind signer : Nat) : Bool :=
  let slot := decide (signer < 4) && s.slotsCount && s.slotState signer == 1
  match kind with
  | 1 => signer == 0x10
  | 6 => signer == 0x10
  | 10 => signer == 0xFF
  | 2 => slot || (signer == 0xFF && s.sec.fuses.lcs == .provisioned && (List.range 4).all (fun k => s.slotState k == 0))
  | _ => slot

/-- The key of a signer; none for unsigned. -/
def State.signerKey (s : State) (signer : Nat) : Option (List Byte) :=
  if signer = 0x10 then some Config.lysurmanKey else s.slotOf signer

/-- Check 3: the signer and the signature (15 R398). -/
def State.sigOk (s : State) (b : List Byte) : Bool :=
  let signer := fld b 7 1
  s.signerOk (fld b 6 1) signer && (signer == 0xFF || signedBy (s.signerKey signer) b)

/-- An edge of the life cycle (15 R408). -/
def lcsEdge (a b : Lcs) : Bool :=
  match a, b with
  | .blank, .test => true
  | .test, .provisioned => true
  | .provisioned, .deployed => true
  | .provisioned, .analysis => true
  | .deployed, .analysis => true
  | .test, .scrapped => true
  | .provisioned, .scrapped => true
  | .deployed, .scrapped => true
  | .analysis, .scrapped => true
  | _, _ => false

/-- An operator slot other than k is ACTIVE. -/
def State.otherActive (s : State) (k : Nat) : Bool := (List.range 4).any (fun i => i != k && s.slotState i == 1)

/-- A twin binding record is free (02 R59). -/
def State.twinRecordFree (s : State) : Bool := decide (s.sec.fuses.twinUsed + s.sec.fuses.twinSpent < 16)

/-- Check 4: the condition of the kind (15 R398): OK, DENIED or BUSY. -/
def State.reqCond (s : State) (b : List Byte) : StatusCode :=
  let f := s.sec.fuses
  let t := fld b 0x11 1
  let ok : Bool → StatusCode := fun c => if c then St.ok else St.denied
  match fld b 6 1 with
  | 1 => ok (match Lcs.ofCode t with
    | some x => lcsEdge f.lcs x && (x != .deployed || (List.range 4).any (fun k => s.slotState k == 1))
    | none => false)
  | 2 => ok (decide (t < 4) && s.slotState t == 0)
  | 3 => ok (decide (t < 4) && s.slotState t == 1 && s.otherActive t)
  | 4 => ok (t == 0 && !f.twinActive && s.twinRecordFree)
  | 5 => ok (t == 0 && f.twinActive && s.twinRecordFree)
  | 6 => ok (t == 0 && (f.lcs == .test || f.lcs == .provisioned || f.lcs == .deployed))
  | 7 => ok ((t == 1 || t == 2) && decide (f.floor < t))
  | 8 => if t != 0 then St.denied else if allParts.any (fun n => (s.code n).running != 0 && !((s.part n).conf)) then St.busy else St.ok
  | 9 => ok (t == 0 && decide (f.svn < s.sec.fwRunning.svn))
  | 10 => ok (decide (t < 4) && s.slotState t == 1 && Config.sha384 (bslice b 0x40 96) == (f.opkeys.get {} t).digest)
  | _ => St.denied

/-- A transition is accepted (15 R408): every partition stops with ABORTED, the module is at the pithead stage, the intent record
begins to be written. -/
def State.beginTransition (s : State) (target : Nat) : State :=
  let c := s.sec
  let s := s.wipe 8 St.aborted
  s.updSec (fun x => { x with reqToken := c.reqToken, reqKind := 1, reqPhase := 2, reqStatus := St.pending, reqTarget := target
                              reqBuf := c.reqBuf, fuseJob := some { kind := 1, target := target } })

/-- A request that passed its checks takes effect (15 R398): its fuse records begin to be written, or its flash record is. -/
def State.reqDo (s : State) (b : List Byte) : State :=
  let t := fld b 0x11 1
  let body := bslice b 0x40 (fld b 0x12 2)
  match fld b 6 1 with
  | 1 =>
    if t = 2 && !s.sec.drbgHealthy then s.updSec (fun c => { c with keyWaits := c.keyWaits ++ [.request], reqTarget := t })
    else s.beginTransition t
  | 6 => ((s.updFuses (fun f => { f with integration := some body })).log 0x34 255 St.ok 1 []).reqEnd St.ok
  | 10 => ((s.updFuses (fun f => { f with opkeys := f.opkeys.upd {} t (fun k => { k with stored := some body }) })).logOther St.ok).reqEnd St.ok
  | k => s.updSec (fun c => { c with reqPhase := 2, fuseJob := some { kind := k, target := t, body := body } })

/-- The valid bits of a request's fuse records are programmed (02 R60; 15 R398, R408 step 1): the settings change, the event is
logged, and the request ends with OK; a transition goes on to its wipes. -/
def State.fuseDone (s : State) (j : FuseJob) : State :=
  let t := j.target
  let s := s.updSec (fun c => { c with fuseJob := none })
  match j.kind with
  | 1 => (s.updFuses (fun f => { f with intent := t, pending := true, lcsRecords := f.lcsRecords + 1 })).log 0x10 255 St.ok 1 []
  | 2 => ((s.updFuses (fun f => { f with opkeys := f.opkeys.set {} t { state := 1, digest := Config.sha384 j.body, stored := some j.body } })).log
      0x13 255 St.ok 2 []).reqEnd St.ok
  | 3 => ((s.updFuses (fun f => { f with opkeys := f.opkeys.upd {} t (fun k => { k with state := 2 }) })).log 0x14 255 St.ok 2 []).reqEnd St.ok
  | 4 => ((s.updFuses (fun f => { f with twinUsed := f.twinUsed + 1, twinActive := true, twinPeer := fld j.body 0 8
                                         twinPeerId := BitVec.ofNat 384 (ofBe (bslice j.body 8 48)) })).log 0x16 255 St.ok 2 []).reqEnd St.ok
  | 5 => (((s.updFuses (fun f => { f with twinUsed := f.twinUsed + 1, twinActive := false, twinPeer := 0, twinPeerId := 0 })).updSec
      (fun c => { c with keys := { c.keys with pair := false } })).log 0x17 255 St.ok 2 []).reqEnd St.ok
  | 7 => ((s.updFuses (fun f => { f with floor := t })).log 0x15 255 St.ok 2 []).reqEnd St.ok
  | 8 => ((s.updFuses (fun f => { f with confOnly := true })).log 0x18 255 St.ok 2 []).reqEnd St.ok
  | 9 => ((s.updFuses (fun f => { f with svn := s.sec.fwRunning.svn })).log 0x12 255 St.ok 2 []).reqEnd St.ok
  | _ => s

/-- What an empty queue gives time for (log entry 11): the fuse records being written are complete. -/
def idleStep (s : State) : Res' :=
  match s.sec.fuseJob with
  | none => .next s
  | some j => closing (s.fuseDone j)

/-- A request runs: it waits for a key, its fuse records are being written, or its transition is being carried out. -/
def State.reqRuns (s : State) : Bool := s.sec.reqPhase == 1 || s.sec.reqPhase == 2

/-- A write of SEC_REQ_CMD (15 R398): the checks in order. While a transition is pending nothing is accepted (R409), nor after
PWR_FAIL (16 R425). -/
def State.writeReqCmd (s : State) (v : Nat) : State :=
  let len := bits v 10 0
  let b := Tab.getList 0 s.sec.reqBuf 0 (min len 1024)
  if s.sec.fuses.pending || s.reqRuns || s.pwr.pwrFail then s
  else
    let s := s.updSec (fun c => { c with reqToken := bits v 31 24, reqKind := fld b 6 1, reqPhase := 1, reqStatus := St.pending })
    if s.sec.closed.contains 0x115 then s.reqEnd St.denied
    else if s.sec.fwState = 4 then s.reqEnd St.busy
    else if !(formOk b len) then s.reqEnd St.cfgMismatch
    else if !(s.bindsOk b) then s.reqEnd St.denied
    else if !(s.sigOk b) then
      let signer := fld b 7 1
      let s := if s.signerOk (fld b 6 1) signer && decide (signer < 4) && (s.slotOf signer).isNone then s.log 0x30 255 St.denied 0 [] else s
      (s.reqEnd St.denied).alarm 0x115 255 none
    else if s.reqCond b != St.ok then s.reqEnd (s.reqCond b)
    else if !s.logRoom then s.reqEnd St.busy
    else s.reqDo b

/-- The buffer holds a request of a kind; a row of another kind has nothing to act on (log entry 13). -/
def State.reqRow (s : State) (p : Path) (kind : Nat) (token : Byte) (len : Nat) : Res' :=
  closing (s.onOper p (fun s => onlyIf (s.sec.reqBuf.get 0 6 == BitVec.ofNat 8 kind)
    (fun s => s.writeReqCmd (field 31 24 token.toNat + field 10 0 len)) s))

/-- LCS_TRANSITION (15 R398, R408): KIND 1. -/
def execLcsTransition (p : Path) (token : Byte) (len : Nat) (s : State) : Res' := s.reqRow p 1 token len
/-- PROVISION_OPKEY (15 R398): KIND 2. -/
def execProvisionOpkey (p : Path) (token : Byte) (len : Nat) (s : State) : Res' := s.reqRow p 2 token len
/-- REVOKE_OPKEY (15 R398): KIND 3. -/
def execRevokeOpkey (p : Path) (token : Byte) (len : Nat) (s : State) : Res' := s.reqRow p 3 token len
/-- BIND_TWIN (15 R398): KIND 4. -/
def execBindTwin (p : Path) (token : Byte) (len : Nat) (s : State) : Res' := s.reqRow p 4 token len
/-- UNBIND_TWIN (15 R398): KIND 5. -/
def execUnbindTwin (p : Path) (token : Byte) (len : Nat) (s : State) : Res' := s.reqRow p 5 token len
/-- INTEGRATION_RECORD (15 R398; 13 R358): KIND 6. -/
def execIntegrationRecord (p : Path) (token : Byte) (len : Nat) (s : State) : Res' := s.reqRow p 6 token len
/-- RAISE_ALARM_FLOOR (15 R398): KIND 7. -/
def execRaiseAlarmFloor (p : Path) (token : Byte) (len : Nat) (s : State) : Res' := s.reqRow p 7 token len
/-- SET_CONF_ONLY (15 R398): KIND 8. -/
def execSetConfOnly (p : Path) (token : Byte) (len : Nat) (s : State) : Res' := s.reqRow p 8 token len
/-- COMMIT_FW_SVN (15 R398, R402): KIND 9. -/
def execCommitFwSvn (p : Path) (token : Byte) (len : Nat) (s : State) : Res' := s.reqRow p 9 token len
/-- RESTORE_OPKEY (15 R398): KIND 10. -/
def execRestoreOpkey (p : Path) (token : Byte) (len : Nat) (s : State) : Res' := s.reqRow p 10 token len

/-- The wipes of a target (15 R408 step 2). -/
def State.lcsWipe (s : State) (target : Nat) : State :=
  match target with
  | 2 => s.updFuses (fun f => { f with uds := true, userErased := true })
  | 4 => ({ s with pat := { s.pat with slot0 := none, slot1 := none, storedEpoch := 0 } } : State).updFuses (fun f => { f with userErased := true })
      |>.updSec (fun c => { c with sessions := [] })
  | 5 =>
    let s := ({ s with pat := { s.pat with slot0 := none, slot1 := none, storedEpoch := 0 }
                       hbm := { s.hbm with retired := [], stackTab := Tab.mapVals {} (fun _ t => { t with repairs := [] }) s.hbm.stackTab } } : State)
    (s.updFuses (fun f => { f with uds := false, userErased := true, integration := none
                                   opkeys := Tab.mapVals {} (fun _ k => { k with stored := none }) f.opkeys })).updSec
      (fun c => { c with log := { c.log with recs := [] } })
  | _ => s

/-- LCS_WIPE_DONE (15 R408 steps 2 and 3, R409): the wipes have ended; the final record is written and logged. Nothing is
written after PWR_FAIL (16 R425); a power that failed has the ROM run them again at its start. -/
def execLcsWipeDone (s : State) : Res' :=
  closing (onlyIf (s.sec.fuses.pending && s.pwr.stage == 0 && s.pwr.powered && !s.pwr.pwrFail) (fun s =>
    let t := s.sec.fuses.intent
    let s := s.lcsWipe t
    let s := s.updFuses (fun f => { f with lcs := (Lcs.ofCode t).getD f.lcs, pending := false, intent := 0, lcsRecords := f.lcsRecords + 1 })
    let s := { s with pwr := { s.pwr with lcsHold := false, fail := if t = 5 then 6 else s.pwr.fail } }
    let s := (s.log 0x11 255 St.ok 1 []).log 0x31 255 St.ok 1 []
    if s.sec.reqPhase = 2 then s.reqEnd St.ok else s) s)

/-- The life-cycle state checks an image's signature and SVN (15 R400). -/
def State.imageChecked (s : State) : Bool := s.sec.fuses.lcs == .provisioned || s.sec.fuses.lcs == .deployed

/-- An image qualifies (15 R400, R402, R407). -/
def State.imageQualifies (s : State) (i : FwImage) : Bool :=
  if s.imageChecked then i.signed && decide (s.sec.fuses.svn ≤ i.svn) else s.sec.fuses.lcs == .test || s.sec.fuses.lcs == .analysis

/-- FW_TRANSFER_END (15 R400; 02 R65; 16 R425): the image is staged, or erased and refused; without room in the log, or after
PWR_FAIL, it is refused with nothing recorded. -/
def execFwTransferEnd (version : BitVec 32) (svn : Fin 129) (signed : Bool) (manifest : BitVec 384) (s : State) : Res' :=
  let i : FwImage := { version := version.toNat, svn := svn.val, manifest := manifest, signed := signed }
  closing (onlyIf (s.pwr.powered && !s.pwr.pwrFail && s.sec.fwState != 4 && s.logRoom && !s.sec.fuses.pending) (fun s =>
    if s.imageQualifies i then
      (s.updSec (fun c => { c with fwStaged := some i, fwStandby := some i, fwState := 3 })).log 0x50 255 St.ok 2 []
    else (s.updSec (fun c => { c with fwStaged := none, fwStandby := none, fwState := 0 })).log 0x52 255 St.denied 2 []) s)

/-- Outcome of a SEC_FW_CMD (15 R421). -/
def State.fwOut (s : State) (token : Nat) (status : StatusCode) : State :=
  s.updSec (fun c => { c with fwToken := token, fwCmdStatus := status })

/-- ACTIVATE (15 R401 step 1). -/
def State.fwActivateCmd (s : State) (token : Nat) : State :=
  if s.sec.fwState = 4 then s.fwOut token St.busy
  else if s.sec.fwStaged.isNone then s.fwOut token St.denied
  else if (1 ≤ s.pat.phase && s.pat.phase ≤ 3) || s.reqRuns || !s.logRoom then s.fwOut token St.busy
  else (s.fwOut token St.pending).updSec (fun c => { c with fwState := 4 })

/-- DISCARD (15 R418). -/
def State.fwDiscardCmd (s : State) (token : Nat) : State :=
  if s.sec.fwState = 4 then s.fwOut token St.busy
  else if s.sec.fwStaged.isNone then s.fwOut token St.denied
  else (s.fwOut token St.ok).updSec (fun c => { c with fwStaged := none, fwStandby := none, fwState := 0 })

/-- A write of SEC_FW_CMD (15 R418). -/
def State.writeFwCmd (s : State) (v : Nat) : State :=
  match bits v 1 0 with
  | 1 => s.fwActivateCmd (bits v 31 24)
  | 2 => s.fwDiscardCmd (bits v 31 24)
  | _ => s.fwOut (bits v 31 24) St.denied

/-- FW_ACTIVATE (15 R401). -/
def execFwActivate (p : Path) (value : BitVec 32) (s : State) : Res' :=
  closing (s.onOper p (fun s => s.fwActivateCmd (bits value.toNat 31 24)))

/-- FW_DISCARD (15 R418). -/
def execFwDiscard (p : Path) (value : BitVec 32) (s : State) : Res' :=
  closing (s.onOper p (fun s => s.fwDiscardCmd (bits value.toNat 31 24)))

/-- FW_ACTIVATED (15 R401 steps 2 and 3; R393): the banks change places and the alias key is derived again. -/
def execFwActivated (s : State) : Res' :=
  closing (onlyIf (s.sec.fwState == 4) (fun s =>
    match s.sec.fwStaged with
    | none => s
    | some i =>
      let s := s.updSec (fun c => { c with fwBank := 1 - c.fwBank, fwStandby := some c.fwRunning, fwRunning := i, fwStaged := none, fwState := 0
                                           fwCmdStatus := St.ok, keys := { c.keys with alias_ := c.keys.cdi, aliasGen := c.keys.aliasGen + 1 } })
      s.log 0x51 255 St.ok 2 []) s)

/-- FW_ACTIVATE_TIMEOUT (15 R401): the former bank restarts, the staged image is erased. -/
def execFwActivateTimeout (s : State) : Res' :=
  closing (onlyIf (s.sec.fwState == 4) (fun s =>
    (s.updSec (fun c => { c with fwStaged := none, fwStandby := none, fwState := 5, fwCmdStatus := St.denied
                                 keys := { c.keys with aliasGen := c.keys.aliasGen + 1 } })).log 0x52 255 St.denied 2 []) s)

/-- The conditions of CONF (15 R403). -/
def State.confOk (s : State) (n : Nat) : Bool :=
  s.sec.fuses.lcs == .deployed && s.ready n && (s.code n).running == 0 && (s.ctxsOf n).all (fun c => (s.ctx n c).state == .idle)
    && !((s.part n).debugged) && !((s.part n).conf)

/-- Partition debug of Pn is wanted by both sides and allowed (15 R404). -/
def State.debugWanted (s : State) (n : Nat) : Bool :=
  s.sec.fuses.lcs == .deployed && !((s.part n).conf) && (s.part n).debugAuth && s.sec.debugGrant.testBit n

/-- Partition debug opens or closes (15 R404): its first opening is logged and waits for room in the log (02 R65). -/
def State.debugCheck (s : State) (n : Nat) : State :=
  if !(s.debugWanted n) then s.updPart n (fun p => { p with debugOpen := false })
  else if (s.part n).debugOpen then s
  else if (s.part n).debugged then s.updPart n (fun p => { p with debugOpen := true })
  else if !s.logRoom then s
  else (s.updPart n (fun p => { p with debugOpen := true, debugged := true })).log 0x32 n St.ok 0 []

/-- A write of 1 to CONF (15 R403). DESIGN CHOICE: R65 lists CONF_SET neither among the records of the reserve nor among the acts that wait
for room, so the act is done and its record may take the reserve (log entry 129). -/
def State.writeConf (s : State) (n : Nat) : State :=
  if s.confOk n then ((s.updPart n (fun p => { p with conf := true })).debugCheck n).log 0x33 n St.ok 3 [] else s

/-- CONF_SET (15 R403). -/
def execConfSet (p : Path) (n : PartId) (s : State) : Res' := closing (s.onPart p n.val (fun s => s.writeConf n.val) true)

/-- A write of AUTH (15 R404, R418). -/
def State.writeAuth (s : State) (n : Nat) (auth : Bool) : State := (s.updPart n (fun p => { p with debugAuth := auth })).debugCheck n

/-- DEBUG_AUTH (15 R404). -/
def execDebugAuth (p : Path) (n : PartId) (auth : Bool) (s : State) : Res' := closing (s.onPart p n.val (fun s => s.writeAuth n.val auth) true)

/-- A write of SEC_DEBUG_GRANT (15 R404). -/
def State.writeGrant (s : State) (v : Nat) : State :=
  forAll allParts (fun n s => s.debugCheck n) (s.updSec (fun c => { c with debugGrant := v % 65536 }))

/-- DEBUG_GRANT (15 R404). -/
def execDebugGrant (p : Path) (value : BitVec 32) (s : State) : Res' := closing (s.onOper p (fun s => s.writeGrant value.toNat))

/-- Module debug is open (15 R404). -/
def State.moduleDebug (s : State) : Bool :=
  s.sec.fuses.lcs == .blank || s.sec.fuses.lcs == .test || s.sec.fuses.lcs == .analysis

/-- The hub puts a bypass in the place of the die's segment, whatever the instruction (13 R356). -/
def State.tapBypassed (s : State) : TapDie → Bool
  | .site k =>
    let t := s.site k.val
    t.fitted == 0 || t.state == 7 || t.state == 6 || t.state == 2 || t.state == 3 || t.power == 0
      || allParts.any (fun n => s.confidential n && bits (s.slice n).cells (k.val * 16 + 15) (k.val * 16) != 0)
  | _ => false

/-- Debug of the die is authorised (15 R404). -/
def State.tapOpen (s : State) : TapDie → Bool
  | .half _ => s.moduleDebug
  | .site k => s.moduleDebug || allParts.any (fun n => (s.part n).debugOpen && bits (s.slice n).cells (k.val * 16 + 15) (k.val * 16) == 0xFFFF)
  | .clusterDebug c => s.moduleDebug || allParts.any (fun n => (s.part n).debugOpen && (s.slice n).clusters.testBit c.val)

/-- TEST_ACCESS_INSTRUCTION (13 R355, R356; 15 R404, R414): it acts, or is a bypass; on a closed die it is probed. -/
def execTestAccessInstruction (die : TapDie) (instr : TapInstr) (s : State) : Res' :=
  closing (if s.tapBypassed die then s.emit (.tap false)
    else if instr != .other then s.emit (.tap true)
    else if s.sec.closed.contains 0x116 then s.emit (.tap false)
    else if s.tapOpen die then s.emit (.tap true)
    else (s.emit (.tap false)).alarm 0x116 255 none)

end Sys2Proof.Machine
end

