-- ==== Sys2Proof/Machine/Seclog.lean ====
section
/-!
DEFINITION. The canaries (15 R411, R415), Note summaries and tenant raises (R413, R414), reading the sealed event log (R416; 02
R62-R65), and the DRBG's health (R394).
-/

namespace Sys2Proof.Machine

/-- A canary trips (15 R411, R415): it latches, and quenches once. It is armed once the standby rails stand (16 R432). -/
def State.canary (s : State) (src : Nat) : State :=
  if !s.pwr.powered || s.sec.canaries.contains src then s
  else (s.updSec (fun c => { c with canaries := c.canaries ++ [src] })).quench src 255

/-- Rails that are meant to be on (16 R426, R432), in table order: rails 9-20 are VSITE of sites 0-11. -/
def State.railOn (s : State) (rail : Nat) : Bool :=
  if rail < 3 then s.pwr.powered
  else if rail = 3 then s.pwr.powered && s.pwr.pithead
  else if rail < 7 then decide (1 ≤ s.pwr.stage)
  else if rail = 7 then decide (2 ≤ s.pwr.stage)
  else if rail = 8 then decide (3 ≤ s.pwr.stage)
  else decide (rail < 21) && (s.site (rail - 9)).power == 2

/-- Rails of half h (16 R426; 01 R23): those that each half has, and the main rails of its sites; the module's single rails are half
0's. -/
def railOf (h rail : Nat) : Bool :=
  if rail < 9 then h == 0 || rail == 0 || decide (4 ≤ rail) else decide ((rail - 9) / 6 = h)

/-- RAIL_CANARY (15 R411; 16 R426): a rail that is off is no event, and a VSITE fault is no canary. -/
def execRailCanary (rail : RailAt) (s : State) : Res' :=
  let j := rail.half.val * 32 + rail.rail
  closing (onlyIf (decide (rail.rail < 9) && railOf rail.half.val rail.rail && s.railOn rail.rail) (fun s =>
    ({ s with pwr := { s.pwr with railsOut := j :: s.pwr.railsOut.erase j } } : State).canary 1) s)

/-- CLOCK_CANARY (15 R411; 16 R428). -/
def execClockCanary (s : State) : Res' := closing (s.canary 2)

/-- TEMP_CANARY (15 R411; 16 R427). -/
def execTempCanary (s : State) : Res' := closing (s.canary 3)

/-- TAMPER (15 R411). -/
def execTamper (s : State) : Res' := closing (s.canary 4)

/-- GLITCH (15 R411). -/
def execGlitch (s : State) : Res' := closing (s.canary 5)

/-- RNG_HEALTH (15 R394): the failure has lasted 1 s. -/
def execRngHealth (s : State) : Res' := closing (onlyIf (!s.sec.drbgHealthy) (fun s => s.canary 6) s)

/-- NOTE_SUMMARY (15 R414, R467): the Notes of a source and scope since the last record; none is written after PWR_FAIL (16 R425). -/
def execNoteSummary (source scope : Nat) (s : State) : Res' :=
  let k := source * 256 + scope
  let n := s.sec.notesNew.get 0 k
  closing (onlyIf (n != 0 && s.pwr.powered && !s.pwr.pwrFail) (fun s =>
    (s.updSec (fun c => { c with notesNew := c.notesNew.set 0 k 0 })).log 0x20 scope St.ok 0 (alarmDetail source 0 n)) s)

/-- The defined bits of SEC_PART_RAISE (15 R418). -/
def raiseMask : Nat := 0x1F003F

/-- A write of SEC_PART_RAISE (15 R413, R418): set bits stay; a change is logged. -/
def State.writeRaise (s : State) (n v : Nat) : State :=
  let old := (s.part n).raise
  let new := old ||| (v &&& raiseMask)
  if new = old then s else (s.updPart n (fun p => { p with raise := new })).log 0x23 n St.ok 3 (alarmDetail 0 1 new)

/-- TENANT_RAISE (15 R413). -/
def execTenantRaise (p : Path) (n : PartId) (value : Word64) (s : State) : Res' :=
  closing (s.onPart p n.val (fun s => s.writeRaise n.val value.toNat) true)

/-- Which copy of the log registers a path reaches (15 R416): that of an alias, or the operator's. -/
def readerOf : Path → Nat
  | .vf n => n.val
  | .partAlias n => n.val
  | _ => 16

/-- A reader's copy. -/
def State.reader (s : State) (r : Nat) : LogReader := s.sec.log.readers.get {} r
/-- Change a reader's copy. -/
def State.updReader (s : State) (r : Nat) (f : LogReader → LogReader) : State :=
  s.updSec (fun c => { c with log := { c.log with readers := c.log.readers.upd {} r f } })

/-- A record as reader r sees it (15 R416; 02 R62): another partition's is a stub. -/
def LogRec.seenBy (x : LogRec) (r : Nat) : List Byte :=
  if r = 16 || x.scope = r || x.scope = 255 then x.bytes
  else leBytes 8 x.seq ++ zeros 16 ++ leBytes 2 0xFFFF ++ zeros 22 ++ x.chain

/-- The alias signature over bytes (15 R393): 96 bytes; free where there is no alias key. -/
def State.aliasSigned (s : State) (bytes : List Byte) : List Byte :=
  if s.sec.keys.alias_ then (leBytes 96 (Config.aliasSign s.sec.keys.aliasGen bytes).toNat).reverse
  else (List.range 96).map (Config.freeByte s.freeCtr)

/-- The outcome of a log command (15 R418). -/
def State.logOut (s : State) (r token delivered : Nat) (status : StatusCode) : State :=
  s.updReader r (fun x => { x with token := token, delivered := delivered, status := status })

/-- READ (15 R416). -/
def State.logRead (s : State) (r token count : Nat) : State :=
  let l := s.sec.log
  let x := s.reader r
  let oldest := l.next - l.recs.length
  if count = 0 || 64 < count || l.next ≤ x.seq || x.seq < oldest then s.logOut r token 0 St.denied
  else
    let recs := (l.recs.drop (x.seq - oldest)).take count
    let head := match recs.getLast? with
      | some y => leBytes 8 y.seq ++ y.chain ++ Tab.getList 0 x.nonce 0 32 ++ leBytes 8 (l.next - 1)
      | none => []
    let sig := s.aliasSigned head
    ((s.tick.logOut r token recs.length St.ok).updReader r (fun x =>
      { x with head := head ++ sig, win := (recs.map (fun y => y.seenBy r)).flatten }))

/-- ACK (15 R416; 02 R65): only the operator's; records up to the sequence are acknowledged. Room in the log may open a debug that
waits for it. -/
def State.logAck (s : State) (p : Path) (token : Nat) : State :=
  let r := readerOf p
  let x := s.reader r
  if r != 16 then (s.logOut r token 0 St.denied).regScope p
  else if s.sec.log.next ≤ x.seq then s.logOut r token 0 St.denied
  else
    let s := (s.logOut r token 0 St.ok).updSec (fun c => { c with log := { c.log with acked := max c.log.acked (x.seq + 1) } })
    forAll allParts (fun n s => s.debugCheck n) s

/-- A write of SEC_LOG_CMD (15 R416, R418): a reserved bit or OP is DENIED. -/
def State.writeLogCmd (s : State) (p : Path) (v : Nat) : State :=
  let token := bits v 63 56
  if bits v 55 15 != 0 || bits v 7 2 != 0 then s.logOut (readerOf p) token 0 St.denied
  else match bits v 1 0 with
    | 1 => s.logRead (readerOf p) token (bits v 14 8)
    | 2 => s.logAck p token
    | _ => s.logOut (readerOf p) token 0 St.denied

/-- LOG_READ (15 R416). -/
def execLogRead (p : Path) (value : Word64) (s : State) : Res' :=
  closing (if s.pathShut p then s else s.writeLogCmd p (setBits value.toNat 1 0 1))

/-- LOG_ACK (15 R416). -/
def execLogAck (p : Path) (value : Word64) (s : State) : Res' :=
  closing (if s.pathShut p then s else s.writeLogCmd p (setBits value.toNat 1 0 2))

/-- ALARM_OUT_PULSE_END (15 R414): a Fence's 10 ms have passed. -/
def execAlarmOutPulseEnd (s : State) : Res' := done (s.updSec (fun c => { c with alarmPulse := false }))

/-- Request codes of SPDM responses in State.out (log entry 9): 0 discovery, 1 GET_DIGESTS, 2 GET_CERTIFICATE, 3 CHALLENGE,
4 GET_MEASUREMENTS, 5 KEY_EXCHANGE, 6 FINISH, 7 END_SESSION, 8 KEY_PROG. -/
def spdmKeyExchange : Nat := 5

/-- KEY_EXCHANGE makes session keys (15 R395, R396): its response is signed by the alias key. -/
def State.openSession (s : State) (fn : Nat) : State :=
  let sig := s.aliasSigned (leBytes 1 fn)
  (s.tick.updSec (fun c => { c with sessions := c.sessions.set {} fn { open_ := true } })).emit
    (.spdm fn spdmKeyExchange true (Config.spdm spdmKeyExchange fn sig))

/-- A request that waited for a key gets it (15 R394). -/
def State.keyServed (s : State) : KeyWait → State
  | .request => s.beginTransition s.sec.reqTarget
  | .rotate n => s.installRotate n
  | .group _ _ => s
  | .pair => ({ s with sec := { s.sec with keys := { s.sec.keys with pair := true, pairGen := s.sec.keys.pairGen + 1 } } }).log 0x42 255 St.ok 0 []
  | .session fn => s.openSession fn

/-- The waiting key requests complete in the order they came; one that a life-cycle transition ends is gone with the reset. -/
def State.serveKeys : Nat → State → State
  | 0, s => s
  | fuel + 1, s =>
    match s.sec.keyWaits with
    | [] => s
    | w :: rest => State.serveKeys fuel ((s.updSec (fun c => { c with keyWaits := rest })).keyServed w)

/-- ENTROPY_HEALTH_CHANGE (15 R394; 02 R49). -/
def execEntropyHealthChange (healthy : Bool) (s : State) : Res' :=
  let s := s.updSec (fun c => { c with drbgHealthy := healthy })
  closing (if healthy then (State.serveKeys s.sec.keyWaits.length s).tryKeys else s)

/-- A request has waited 10 ms for a key: BUSY (15 R394). -/
def State.keyBusy (s : State) : KeyWait → State
  | .request => s.reqEnd St.busy
  | .rotate n => s.updKeys n (fun k => { k with status := St.busy })
  | .group n g =>
    let s := s.setGroup n g 0
    if (s.coll n).cmdGroup = g then s.groupCmd n St.busy else s
  | .pair => s
  | .session fn => s.emit (.spdm fn spdmKeyExchange false [])

/-- KEY_WAIT_TIMEOUT (15 R394): the request that has waited longest. -/
def execKeyWaitTimeout (s : State) : Res' :=
  closing (match s.sec.keyWaits with
    | [] => s
    | w :: rest => (s.updSec (fun c => { c with keyWaits := rest })).keyBusy w)

end Sys2Proof.Machine
end

