-- ==== Sys2Proof/Machine/Power.lean ====
section
/-!
DEFINITION. Feeds, loss of power and the limiter (16 R422-R427), the staged start (R432, R433; 13 R345; 15 R393, R402; 10 R260; 02
R45) and the resets (R434, R435; 01 R14).
-/

namespace Sys2Proof.Machine

/-- Change the power block's state. -/
def State.updPwr (s : State) (f : Pwr → Pwr) : State := { s with pwr := f s.pwr }

/-- State of a feed (16 R422). -/
def Pwr.feed (p : Pwr) : Feed → FeedSt
  | .a => p.feedA
  | .b => p.feedB

/-- A feed takes a state and a voltage in tenths of a volt (16 R437). -/
def Pwr.setFeed (p : Pwr) (f : Feed) (st : FeedSt) (v : Nat) : Pwr :=
  match f with
  | .a => { p with feedA := st, voltA := v }
  | .b => { p with feedB := st, voltB := v }

/-- A RAS record of module scope whose class, structure and index no rule gives (16 R423, R425; log entry 43). -/
def State.rasFree (s : State) (status : StatusCode) : State :=
  let v := (Config.freeValue s.freeCtr).toNat
  s.tick.rasRecord 0 (1 + v % 5) (1 + v / 8 % 13) 255 status (v / 256 % 2 ^ 32) 0 0 1 0

/-- A start begins (02 R63; 16 R425): BOOT counts it, and one after PWR_FAIL is recorded. -/
def State.beginStart (s : State) : State :=
  let s := s.updPwr (fun p => { p with boot := (p.boot + 1) % 2 ^ 32 })
  if s.pwr.cause = 5 then s.rasFree St.ok else s

/-- FEED_GOOD (16 R422, R423, R425, R432): A carries the load whenever it is GOOD. The first good feed starts the module; one that
returns after PWR_FAIL ends the latch. -/
def execFeedGood (f : Feed) (decivolts : Fin 1024) (s : State) : Res' :=
  let v := decivolts.val
  done (onlyIf (decide (395 ≤ v) && decide (v ≤ 610)) (fun s =>
    let s := s.updPwr (fun p =>
      let p := p.setFeed f .good v
      { p with activeB := !(p.feedA == .good) })
    if s.pwr.powered then s.updPwr (fun p => { p with pwrFail := false })
    else (s.updPwr (fun p => { p with powered := true })).beginStart) s)

/-- A feed is not GOOD any more, in the state its voltage gives (16 R422, R423): B takes over from A if it is GOOD. -/
def State.feedLeaves (s : State) (f : Feed) (v : Nat) : State :=
  let was := s.pwr.feed f == .good
  let s := s.updPwr (fun p => p.setFeed f (if 620 < v then .overVolt else if v < 100 then .absent else .under) v)
  if was && f == .a && s.pwr.feedB == .good then
    let s := s.updPwr (fun p => { p with activeB := true, switches := satAdd 16 p.switches 1 })
    (s.raise 16 4).rasFree St.ok
  else s

/-- FEED_LEAVES_GOOD (16 R422, R423). -/
def execFeedLeavesGood (f : Feed) (decivolts : Fin 1024) (s : State) : Res' :=
  let v := decivolts.val
  done (onlyIf (s.pwr.feed f == .good && (decide (v < 385) || decide (620 < v))) (fun s => s.feedLeaves f v) s)

/-- FEED_OVER (16 R422): the feed is held off. -/
def execFeedOver (f : Feed) (decivolts : Fin 1024) (s : State) : Res' :=
  done (onlyIf (decide (620 < decivolts.val)) (fun s => s.feedLeaves f decivolts.val) s)

/-- PWR_FAIL (16 R425): fuse writes abort, the down tokens leave, everything stops with its keys zeroised and the adit driven
THROUGH. No flash program begins any more, so nothing is logged. -/
def execPwrFail (s : State) : Res' :=
  done (onlyIf (s.pwr.powered && !s.pwr.pwrFail && s.pwr.feedA != .good && s.pwr.feedB != .good) (fun s =>
    ((s.abortFuse.downTokens).wipeCore 5 St.aborted).updPwr (fun p => { p with pwrFail := true })) s)

/-- BROWN_OUT (16 R425, R426, R440): the rails go off; flash and fuses are kept. -/
def execBrownOut (s : State) : Res' :=
  done (onlyIf s.pwr.powered (fun s =>
    let cause := if s.pwr.pwrFail then 5 else 6
    let s := s.abortFuse.wipeCore cause St.aborted
    { s with
      pat := { s.pat with parts := [] }
      fab := { bridgeUp := false }
      ras := []
      pcie := {}
      sec := { s.sec with canaries := [], alarmLow := false, seenNote := false, seenFence := false, seenQuench := false, lastSource := 0
                          lastScope := 0, nonce := 0 }
      pwr := { feedA := s.pwr.feedA, feedB := s.pwr.feedB, voltA := s.pwr.voltA, voltB := s.pwr.voltB, boot := s.pwr.boot, cause := cause
               perstHigh := s.pwr.perstHigh } }) s)

/-- POWER_LIMIT_TICK (16 R427, R438): the average of one millisecond adjusts DUTY, which the die temperature may hold. -/
def execPowerLimitTick (watts : Nat) (s : State) : Res' :=
  done (onlyIf (s.pwr.powered && s.pwr.pithead) (fun s => s.updPwr (fun p =>
    let w := min watts 65535
    let above := decide (p.cap < w)
    let under := decide (w * 100 < p.cap * 95)
    let duty := if above then max 8 (p.duty - 1) else if under && !p.thermal then min 16 (p.duty + 1) else p.duty
    { p with watts := (w :: p.watts).take 1000, duty := duty
             powerHold := if above then true else if under then false else p.powerHold
             gatedMs := satAdd 32 p.gatedMs (bit (decide (p.duty < 16))) })) s)

/-- Die temperature of half h. -/
def Pwr.temp (p : Pwr) (h : Nat) : Int := p.dieTemp.get 0 h

/-- A canary's condition is still there at a module reset (15 R415): the die samples and the DRBG tell for theirs; the other
conditions are outside, a free choice. -/
def State.canaryHolds (s : State) (src : Nat) : Bool :=
  match src with
  | 3 => (List.range 2).any (fun h => decide (s.pwr.temp h < -20) || decide (125 < s.pwr.temp h))
  | 6 => !s.sec.drbgHealthy
  | _ => Config.freeBool (s.freeCtr + src)

/-- A module reset asked for from outside (15 R415; 16 R434; 17 R446; 01 R14): it clears what only a module reset clears. -/
def State.moduleReset (s : State) (cause : Nat) : State :=
  let keep := s.sec.canaries.filter (fun c => s.canaryHolds c)
  let s := s.tick.tick.tick.tick.tick.tick.updSec (fun c => { c with canaries := keep, alarmLow := false, alarmPulse := false })
  let s := s.updPwr (fun p => { p with railsOut := if keep.contains 1 then p.railsOut else [] })
  (s.wipe cause St.aborted).clearRas

/-- DIE_TEMP_SAMPLE (16 R427): from 105 degrees on either die DUTY is held at 8; 115 degrees for 1 ms reset the module. -/
def execDieTempSample (h : HalfId) (temp : Int) (lasted1ms : Bool) (s : State) : Res' :=
  closing (onlyIf (s.pwr.powered && s.pwr.pithead) (fun s =>
    let s := s.updPwr (fun p =>
      let p := { p with dieTemp := p.dieTemp.set 0 h.val temp }
      let hot := decide (105 ≤ p.temp 0) || decide (105 ≤ p.temp 1)
      { p with thermal := hot, duty := if hot then 8 else p.duty })
    if 115 ≤ temp && lasted1ms then s.moduleReset 7 else s) s)

/-- A write of PWR_CAP (16 R438). -/
def State.writeCap (s : State) (v : Nat) : State := s.updPwr (fun p => { p with cap := max 1000 (min 2400 (bits v 11 0)) })

/-- PWR_CAP_WRITE (16 R438). -/
def execPwrCapWrite (p : Path) (value : BitVec 32) (s : State) : Res' := closing (s.onOper p (fun s => s.writeCap value.toNat))

/-- PWR_STAGE_TIME of stage k is now (16 R436). -/
def State.stampStage (s : State) (k : Nat) : State :=
  s.tick.updPwr (fun p => { p with stageTime := p.stageTime.set 0 k ((Config.uptime s.freeCtr).toNat % 2 ^ 32) })

/-- PITHEAD (16 R432 step 3; 12 R318; 15 R409): the ROM has read the fuses, and the Structure Table is written with STAGE 0. -/
def execPithead (s : State) : Res' :=
  done (onlyIf (s.pwr.powered && !s.pwr.pithead && !s.pwr.pwrFail) (fun s =>
    let s := (s.driveAdit 0).updPwr (fun p => { p with pithead := true, lcsHold := s.sec.fuses.pending, fail := s.holdFail })
    (s.stampStage 0).rewriteTable) s)

/-- The module may attempt stage 1 (15 R409, R415; 16 R432, R434; 01 R14): after a quench or a half failure the operator resets it
first. -/
def State.mayStart (s : State) : Bool :=
  s.pwr.powered && s.pwr.pithead && !s.pwr.pwrFail && !s.pwr.inReset && !s.pwr.resetLow && s.pwr.stage == 0 && s.pwr.fail == 0
    && s.pwr.cause != 3 && s.pwr.cause != 4 && !s.sec.fuses.pending && s.sec.fuseJob.isNone

/-- FAIL takes a value and the module stays at the pithead stage (16 R433, R440). -/
def State.stay (s : State) (fail : Nat) : State := s.updPwr (fun p => { p with fail := fail })

/-- The ROM starts from the standby bank (15 R402). -/
def State.fallback (s : State) (i : FwImage) : State :=
  s.updSec (fun c => { c with fwBank := 1 - c.fwBank, fwRunning := i, fwStandby := some c.fwRunning, fwStaged := none, fwState := 5 })

/-- The image that stage 1 runs (15 R400, R402): the running bank's, else the standby bank's if it qualifies; none otherwise. -/
def State.bootImage (s : State) : Option State :=
  if s.imageQualifies s.sec.fwRunning then some s
  else match s.sec.fwStandby with
    | some i => if s.imageQualifies i then some (s.fallback i) else none
    | none => none

/-- The keys that a start derives (15 R393, R395). -/
def State.startKeys (s : State) : State :=
  let l := s.sec.fuses.lcs
  s.updSec (fun c => { c with keys := { c.keys with
    cdi := true, deviceId := true, alias_ := true, aliasGen := c.keys.aliasGen + 1, vendorSeal := true
    operSeal := l == .provisioned || l == .deployed } })

/-- STAGE_1 (16 R432 step 4): firmware is verified, the keys are derived, the records that aborts
spent are logged (log entry 115), the bridge is up and the pair levels agree; every block
decodes and the sites' bring-up begins (13 R342, R345). -/
def execStage1 (ok : Bool) (level0 level1 : BitVec 16) (s : State) : Res' :=
  closing (onlyIf s.mayStart (fun s =>
    if !ok then s.stay 4
    else match s.bootImage with
      | none => s.stay 1
      | some s =>
        let l0 := level0.toNat
        let l1 := level1.toNat
        let s := (s.startKeys).freshNonce.logSpent
        let s := { s with fab := { s.fab with bridgeUp := true, levels := (s.fab.levels.set 0x0102 0 l0).set 0x0102 1 l1 } }
        if l0 / 256 ≠ l1 / 256 then (s.stay 2).logOther St.denied
        else
          let s := { s with fab := { s.fab with halfFailed := [] } }
          let s := s.updPwr (fun p => { p with stage := 1, rootLock := true, refOk := true })
          forAll (List.range 12) (fun k s => s.bringUp k 4) (s.stampStage 1)) s)

/-- Up to n SOFT entries, oldest first, become HARD (10 R260); the second part is how many did. -/
def hardenRows : Nat → List Repair → List Repair × Nat
  | _, [] => ([], 0)
  | 0, l => (l, 0)
  | n + 1, r :: l =>
    if r.st == .soft then
      let (l, k) := hardenRows n l
      ({ r with st := .hard } :: l, k + 1)
    else
      let (l, k) := hardenRows (n + 1) l
      (r :: l, k)

/-- The assay tests the spare of a suspect row before it is used (10 R260): one that fails, a free choice, is a spare on which the row
has failed (R261). -/
def State.testSuspect (s : State) (k : Nat) (r : Repair) : State :=
  let own := fun (x : Repair) => x.sid == r.sid && x.pc == r.pc && x.bank == r.bank && x.row == r.row
  let good := Config.freeBool s.freeCtr
  let put := fun (s : State) (y : Repair) => s.updStack k (fun t => { t with repairs := t.repairs.map (fun x => if own x then y else x) })
  if good then put s.tick { r with suspect := false }
  else
    let bad := setBit r.bad r.spare
    match freeSpare (s.stack k).repairs r.sid r.pc r.bank r.row bad with
    | some i => put s.tick { r with bad := bad, spare := i, suspect := false }
    | none =>
      let index := field 31 16 r.row + field 15 14 r.sid + field 13 10 r.bank + (k * 32 + r.pc)
      (put s.tick { r with bad := bad, st := .retired, suspect := false }).retireRow (halfOfStack k)
        { cls := 2, str := 1, index := index, scope := (s.ownerPch (k * 32 + r.pc)).getD 255, addr := 0, detail := 0 }

/-- The repair map of stack k is read from flash (10 R260): one that fails its seal, a free choice, is discarded and logged. Hard
repairs remain in the stack. -/
def State.readRepairs (s : State) (k : Nat) : State :=
  if (s.stack k).repairs.isEmpty then s
  else if Config.freeBool s.freeCtr then (s.tick.updStack k (fun t => { t with repairs := [] })).logOther St.denied
  else ((s.stack k).repairs.filter (fun r => r.suspect)).foldl (fun s r => s.testSuspect k r) s.tick

/-- A stack is trained at stage 2 and its repairs are applied (10 R258, R260; 02 R59). -/
def State.trainStack (s : State) (k : Nat) : State :=
  let s := s.readRepairs k
  let (l, n) := hardenRows 8 (s.stack k).repairs
  let s := s.updStack k (fun t => { t with state := 2, level := riseLevel t.temp, repairs := l, hard := t.hard + n })
  (List.range n).foldl (fun s _ => s.log 0x19 255 St.ok 0 []) s

/-- Stage k is reached (16 R432; 12 R318). -/
def State.enterStage (s : State) (k : Nat) : State := ((s.updPwr (fun p => { p with stage := k })).stampStage k).rewriteTable

/-- A site's bring-up has ended: it is up, dead, bypassed, off or under lane repair, or the site is empty (13 R342). -/
def State.siteSettled (s : State) (k : Nat) : Bool :=
  (s.site k).fitted == 0 || !((s.site k).state == 0 || (s.site k).state == 4 || (s.site k).state == 6)

/-- STAGE_2 (16 R432 step 5): the stacks are trained and the sites are brought up. -/
def execStage2 (s : State) : Res' :=
  closing (onlyIf (s.pwr.stage == 1 && (List.range 12).all (fun k => s.siteSettled k)) (fun s =>
    ((forAll (List.range 16) (fun k s => s.trainStack k) s).enterStage 2).wakeCells) s)

/-- The partitions that a reset left LOST and the stored pattern does not define become UNDEFINED (02 R45, R48). -/
def State.undefineLost (s : State) (p : Pattern) : State :=
  forAll allParts (fun n s =>
    if (s.part n).state == .lost && !((p.slice n).defined) then
      (s.updPart n (fun _ => {})).setPartState n .undefined (s.part n).status
    else s) s

/-- STAGE_3 (16 R432 step 6; 02 R45; 14 R378): the stored pattern is applied, or no partition is defined and the cause is logged; the
adit goes OPEN if the optics pass their loopback, a free choice. -/
def execStage3 (s : State) : Res' :=
  closing (onlyIf (s.pwr.stage == 2) (fun s =>
    let s := s.enterStage 3
    let open_ := Config.freeBool s.freeCtr
    let s := if open_ then s.tick.driveAdit 1 else s.tick
    let none_ := fun (s : State) => s.undefineLost {}
    match (if s.pat.selected then s.pat.slot1 else s.pat.slot0) with
    | none => none_ s
    | some b =>
      if s.pat.storedEpoch = 0 then none_ s
      else match s.checkPattern b true with
        | .error f => ((none_ s).applyOut 0 f).log 2 255 f.status 0 (patternDetail (Config.sha384 b))
        | .ok p => (s.undefineLost p).beginApply p true) s)

/-- FULL_FUNCTION (16 R432 step 7): the ports that fell back to IEEE 802.3dj are up, the ring links of an OPEN adit are trained, the
twin pair key is derived (14 R362, R375; 15 R399). The lanes that train are free, four at least. -/
def execFullFunction (s : State) : Res' :=
  closing (onlyIf (s.pwr.stage == 3) (fun s =>
    let s := forAll (List.range 16) (fun q s =>
      if (s.port q).state = 1 && (s.port q).ieee then s.updPort q (fun t => { t with state := 2, rate := 2 }) else s) s
    let lanes := (Config.freeValue s.freeCtr).toNat % 256 ||| 15
    let s := forAll (List.range 2) (fun h s =>
      if s.ring.adit = 1 && (s.ringPort h).link = 1 then
        let s := (s.updRingPort h (fun p => { p with link := 2, lanes := lanes, dark := false })).ringReplay h
        State.ringDrain h (s.ringPort h).waiting.length s
      else s) s.tick
    if s.sec.fuses.twinActive && s.ring.adit = 1 && s.sec.drbgHealthy && !s.sec.keys.pair then s.keyServed .pair else s) s)

/-- A stack untrained at stage 2's bound is left offline (16 R433; 10 R259, R264): which ones trained is free. -/
def State.boundStack (s : State) (k : Nat) : State :=
  if Config.freeBool s.freeCtr then s.tick.trainStack k
  else (s.tick.updStack k (fun t => { t with state := 4, level := 4 })).setIso (halfOfStack k) (8 + k % 8) true

/-- STAGE_BOUND_MISSED (16 R433). A stage 3 that misses its bound goes on. -/
def execStageBoundMissed (stage : Fin 4) (s : State) : Res' :=
  closing (match stage.val with
    | 1 => onlyIf s.mayStart (fun s => s.stay 7) s
    | 2 => onlyIf (s.pwr.stage == 1) (fun s =>
        let s := forAll (List.range 16) (fun k s => s.boundStack k) s
        let s := forAll (List.range 12) (fun k s => if s.siteSettled k then s else s.siteDead k 4) s
        (s.enterStage 2).wakeCells) s
    | _ => s)

/-- RESET_PIN (16 R434): RESET# is low and holds the module at the pithead stage. -/
def execResetPin (s : State) : Res' :=
  closing (onlyIf s.pwr.powered (fun s => (s.moduleReset 1).updPwr (fun p => { p with resetLow := true })) s)

/-- Outcome of a PWR_RESET_CMD (16 R436). -/
def State.resetOut (s : State) (token : Nat) (status : StatusCode) : State :=
  s.updPwr (fun p => { p with rstToken := token, rstStatus := status })

/-- PARTITION of PWR_RESET_CMD (16 R434, R435): the partition is built again, from the running pattern's slice. -/
def State.resetPartition (s : State) (n token : Nat) : State :=
  let p := s.part n
  if p.state == .undefined then s.resetOut token St.denied
  else
    match s.pat.running with
    | none => s.resetOut token St.busy
    | some r =>
      if p.state == .building || (1 ≤ s.pat.phase && s.pat.phase ≤ 3) || s.pwr.rstPart.isSome || !s.logRoom then s.resetOut token St.busy
      else
        let s := (s.resetOut token St.pending).updPwr (fun p => { p with rstPart := some n })
        let s := s.startBuild n false true []
        (s.updPart n (fun p => { p with oldSlice := r.slice n })).tryKeys

/-- A write of PWR_RESET_CMD (16 R435, R439): only over the operator's management path. -/
def State.writeResetCmd (s : State) (p : Path) (v : Nat) : State :=
  if s.pathShut p then s
  else if !isOper p then s.regScope p
  else match bits v 1 0 with
    | 1 => s.moduleReset 2
    | 2 => s.resetPartition (bits v 19 16) (bits v 63 56)
    | _ => s.resetOut (bits v 63 56) St.denied

/-- MODULE_RESET (16 R435). -/
def execModuleReset (p : Path) (value : Word64) (s : State) : Res' :=
  closing (onlyIf s.pwr.powered (fun s => s.writeResetCmd p (setBits value.toNat 1 0 1)) s)

/-- PARTITION_RESET (16 R435). -/
def execPartitionReset (p : Path) (value : Word64) (s : State) : Res' :=
  closing (onlyIf s.pwr.powered (fun s => (s.writeResetCmd p (setBits value.toNat 1 0 2)).wakeCells) s)

/-- HALF_FAILURE (01 R14; 16 R440): a half that failed before and fails again during stage 1 keeps the module at the pithead
stage. -/
def execHalfFailure (h : HalfId) (s : State) : Res' :=
  closing (onlyIf s.pwr.powered (fun s =>
    let again := s.fab.halfFailed.get false h.val && s.mayStart
    let s := s.halfFail h.val
    if again then s.stay 3 else s) s)

/-- RESET_RELEASE (16 R434; 02 R63): the module reset is released, and a new start begins. -/
def execResetRelease (s : State) : Res' :=
  done (onlyIf (s.pwr.powered && s.pwr.inReset && !s.pwr.pwrFail) (fun s =>
    (s.updPwr (fun p => { p with inReset := false, resetLow := false })).beginStart) s)

/-- PERST_RELEASE (16 R432; 18 R455). -/
def execPerstRelease (s : State) : Res' := done (s.updPwr (fun p => { p with perstHigh := true }))

end Sys2Proof.Machine
end

