-- ==== Sys2Proof/Machine/Assay.lean ====
section
/-!
DEFINITION. Errors by class (17 R441), the summary of corrected errors (R444), and the assay: its queue, its tests and what a lasting
fault leads to (R448-R450, R452; 10 R260-R262; 09 R236).
-/

namespace Sys2Proof.Machine

/-- Mark the line in which data was lost as dross (17 R441): where the structure holds it, the stack, the SLC or a cluster's
caches. Address 0 names none. -/
def State.markDross (s : State) (h : Nat) (str : RasStruct) (index addr : Nat) : State :=
  let l := addr / 64
  match str with
  | .slcSet => match s.slcLine h l with
    | some x => s.setSlc h l (some { x with dross := true })
    | none => s
  | .clusterCache =>
    let a := index / 16 % 8
    let c := s.copyOf h a l
    if c.st == .i then s else s.setCopy h a l { c with dross := true }
  | .scratchBank => if index / 256 < 192 then s.updCell (index / 256) (fun c => { c with lineDross := c.lineDross.set false l true }) else s
  | _ => if addr = 0 || s.lineCleared l then s else { s with lines := s.lines.upd {} l (fun m => { m with dross := true }) }

/-- DETAIL of an error (17 R443): the way of an SLC set, the set of a cluster cache and whether it is an L1 instruction cache; which
one it is no operand names, so it is free. -/
def detailOf (str : RasStruct) (v : Nat) : Nat :=
  match str with
  | .slcSet => v % 32
  | .clusterCache => v % 4096 + (if v.testBit 12 then 2 ^ 31 else 0)
  | _ => 0

/-- Contexts of Pn that an error of class 3 ends (17 R441): those whose state the structure holds; where the structure does not tell,
a free choice among the partition's. -/
def State.eccCtxs (s : State) (str : RasStruct) (index n : Nat) : List Nat :=
  match str with
  | .scratchBank => let c := s.cell (index / 256); if c.state = 0 then [] else [c.ctx]
  | .dmaEngine => (s.chans.filter (fun e => e.1 / 32 == index && e.2.en && s.ownerChan e.1 == some n)).map (fun e => e.2.ctx)
  | _ => (s.ctxsOf n).filter (fun c => (s.ctx n c).state != .idle && Config.freeBool (s.freeCtr + c))

/-- RAS ADDRESS (17 R442): only an HPA is recorded; that of a scratchpad is none. -/
def rasAddr (str : RasStruct) (addr : Nat) : Nat := if str == .scratchBank then 0 else addr

/-- ECC_ERROR (17 R441, R444, R448): it is counted, marks its line as dross, or ends the contexts, the partition or the module whose
state it is; an agent, a site or a half by its own rule (09 R233; 13 R350, which has no CAUSE for it: it is free; 01 R14). For a scratchpad bank addr is an address in
the scratchpad. -/
def execEccError (h : HalfId) (cls : ErrClass) (str : RasStruct) (index : BitVec 32) (addr : Nat) (scope : Nat) (status : StatusCode)
    (s : State) : Res' :=
  let k := h.val
  let i := index.toNat
  let det := detailOf str (Config.freeValue s.freeCtr).toNat
  let v := (Config.freeValue s.freeCtr).toNat / 2 ^ 32 % 256
  let cause := if v = 3 || v = 8 then 0 else v
  let rec_ := fun (s : State) (cls : Nat) => s.tick.rasError k cls (rasCode str) scope status i (rasAddr str addr) det
  closing (match cls with
    | .corrected => s.corrected k (rasCode str) 1
    | .contained => if str == .agent then s.killAgent k (i % 14) else (rec_ s 2).markDross k str i addr
    | .context =>
      if str == .agent then s.killAgent k (i % 14)
      else if str == .siteLink then (s.siteDead (i % 12) cause).wakeCells
      else
        let l := s.eccCtxs str i scope
        let s := rec_ s 3
        if scope < 16 then l.foldl (fun s c => s.loseCtx scope c status) s else s
    | .partition =>
      if str == .siteLink then (s.siteDead (i % 12) cause).wakeCells
      else
        let s := rec_ s 4
        if scope < 16 then s.losePart scope status else s
    | .module => if str == .half then s.halfFail (i % 2) else (rec_ s 5).halfFail k)

/-- CORRECTED_SUMMARY (17 R444): the corrected errors of a structure since its last record. INDEX is free: it stands for many. -/
def execCorrectedSummary (h : HalfId) (str : RasStruct) (s : State) : Res' :=
  let k := h.val
  let n := (s.rasOf k).correctedNew.get 0 (rasCode str)
  done (onlyIf (n != 0) (fun s =>
    let s := s.updRas k (fun r => { r with correctedNew := r.correctedNew.set 0 (rasCode str) 0 })
    s.rasWrite k 1 (rasCode str) 255 St.ok ((Config.freeValue s.freeCtr).toNat % 2 ^ 32) 0 0 n 0) s)

/-- Stack of an HBM row's INDEX (17 R443). -/
def rowStack (index : Nat) : Nat := index % 1024 / 32

/-- The next entry to test (17 R448): fabric links, HBM rows, SLC sets, cluster caches, scratchpad banks, each kind in arrival order;
rows of different stacks in parallel, every other test alone. -/
def Ras.nextTest (r : Ras) : Option Assay :=
  let kind := fun (k : Nat) => r.queue.find? (fun e => e.str == k)
  let rows := r.queue.filter (fun e => e.str == 1)
  match kind 3 with
  | some e => if r.testing.isEmpty then some e else none
  | none =>
    if rows.isEmpty then
      if r.testing.isEmpty then (kind 2).orElse (fun _ => (kind 5).orElse (fun _ => kind 4)) else none
    else if r.testing.all (fun e => e.str == 1) then
      rows.find? (fun e => !(r.testing.any (fun t => rowStack t.index == rowStack e.index)))
    else none

/-- Key of a structure's transient errors. -/
def transientKey (e : Assay) : Nat := e.str * 2 ^ 32 + e.index

/-- Transient errors of a structure within 24 hours of uptime before now (17 R449). -/
def Ras.recent (r : Ras) (now : BitVec 64) (e : Assay) : List (BitVec 64) :=
  (r.transients.get [] (transientKey e)).filter (fun t => decide ((now - t).toNat < 86400000000))

/-- The 16 lines of a row (10 R240). -/
def rowLines (index : Nat) : List Nat :=
  let o := bits index 15 14 * 0x18000000 + bits index 31 16 * 16384 + bits index 11 10 * 4096 + bits index 13 12 * 1024
  (List.range 16).map (fun i => (index % 1024 * pchBytes + o) / 64 + i)

/-- The lines of a row are written back as they were parked, one that fails its tag as dross, under the current slot (17 R449; 10
R261). -/
def State.rewriteRow (s : State) (index : Nat) : State :=
  (rowLines index).foldl (fun s l =>
    if s.lineOffline l || s.isRetired l || s.lineCleared l || (s.ownerPch (pchOfLine l)).isNone then s
    else if s.lineFails l then s.storeLine l (zeros 64) true
    else s.storeLine l (s.memLine l) (s.lineMeta l).dross) s

/-- An agent gives up a line (17 R449): dirty data go to the SLC line that holds it, or home. -/
def State.flushCopy (s : State) (h a l : Nat) : State :=
  let c := s.copyOf h a l
  let e := s.dirEnt h l
  let left := clearBit e.sharers a
  let s := s.setCopy h a l {}
  let s := s.setDir h l (if e.owner = a then { e with owner := 15, sharers := left, st := if left = 0 then .i else .s }
    else { e with sharers := left, st := if e.owner = 15 && left = 0 then .i else e.st })
  if moesiDirty c.st then
    match s.slcLine h l, s.slcLine (homeOf l) l with
    | some x, _ => s.setSlc h l (some { x with data := c.data, dross := c.dross, dirty := true })
    | none, some x => s.setSlc (homeOf l) l (some { x with data := c.data, dross := c.dross, dirty := true })
    | none, none => s.evictWrite l c.data c.dross
  else s

/-- The lines of a cluster's caches in the failing set: a cache's set of a line is not given, so which they are is free; the erring
line is one. -/
def State.cacheSetLines (s : State) (h a : Nat) (e : Assay) : List Nat :=
  (s.coh.copies.filter (fun x => x.1 / 2 ^ 38 == h * 16 + a && (x.1 % 2 ^ 38 == e.addr / 64 || Config.freeBool (s.freeCtr + x.1 % 2 ^ 38)))).map
    (fun x => x.1 % 2 ^ 38)

/-- What a test does before it runs (17 R449). -/
def State.prepareTest (s : State) (h : Nat) (e : Assay) : State :=
  match e.str with
  | 1 => s.rewriteRow e.index
  | 2 =>
    let l := (s.coh.slc.filter (fun x => x.1 / 2 ^ 38 == h && sliceOfLine (x.1 % 2 ^ 38) == bits e.index 15 10
      && setOfLine (x.1 % 2 ^ 38) == bits e.index 9 0)).map (fun x => x.1 % 2 ^ 38)
    l.foldl (fun s k => s.evictSlc h k) s
  | 5 => (s.cacheSetLines h (e.index / 16 % 8) e).foldl (fun s l => s.flushCopy h (e.index / 16 % 8) l) s.tick
  | 4 => s.overrunCell (e.index / 256)
  | _ => s

/-- A row that the test found faulty (10 R261). -/
def State.repairRow (s : State) (h : Nat) (e : Assay) : State :=
  let k := rowStack e.index
  let pch := e.index % 1024
  let (row, sid, bank, pc) := (bits e.index 31 16, bits e.index 15 14, bits e.index 13 10, pch % 32)
  let l := (s.stack k).repairs
  let own := fun (r : Repair) => r.sid == sid && r.pc == pc && r.bank == bank && r.row == row
  let fixed := fun (s : State) => (s.updPch pch (fun p => { p with repaired := satAdd 16 p.repaired 1 })).rewriteRow e.index
    |>.rasWrite h e.cls 1 e.scope St.ok e.index e.addr 2 1 e.detail
  match l.find? own with
  | some r =>
    let bad := setBit r.bad r.spare
    match freeSpare l sid pc bank row bad with
    | some i => fixed (s.updStack k (fun t => { t with repairs := t.repairs.map (fun x => if own x then { x with bad := bad, spare := i, st := .soft } else x) }))
    | none =>
      (s.updStack k (fun t => { t with repairs := t.repairs.map (fun x => if own x then { x with bad := bad, st := .retired } else x) })).retireRow h e
  | none =>
    let new := fun (i : Nat) (st : RepairSt) => s.updStack k (fun t =>
      { t with repairs := t.repairs ++ [{ sid := sid, pc := pc, bank := bank, row := row, spare := i, bad := 0, st := st }] })
    if 4096 ≤ l.length then s.retireRow h e
    else match freeSpare l sid pc bank row 0 with
      | some i => fixed (new i .soft)
      | none => (new 0 .retired).retireRow h e

/-- A way of half h's SLC is disabled (17 R449, R450; 09 R236): it holds nothing; a partition that has no way left there is lost. -/
def State.disableWay (s : State) (h w : Nat) (e : Assay) : State :=
  let l := (s.coh.slc.filter (fun x => x.1 / 2 ^ 38 == h && (match x.2 with | some c => c.way == w | none => false))).map (fun x => x.1 % 2 ^ 38)
  let s := l.foldl (fun s k => s.evictSlc h k) s
  let s := { s with coh := { s.coh with waysOff := s.coh.waysOff.upd 0 h (fun m => setBit m w) } }
  let s := s.rasWrite h e.cls 2 e.scope St.ok e.index e.addr 3 1 e.detail
  let off := s.coh.waysOff.get 0 h
  let gone := allParts.filter (fun n => s.claims n (fun x =>
    (x.ways >>> (h * 32)).testBit w && (maskList 32 (x.ways >>> (h * 32))).all (fun i => off.testBit i)))
  forAll gone (fun n s => (s.rasWrite h 4 2 n St.busError e.index e.addr 3 1 e.detail).losePart n St.busError) s

/-- A way of a cluster cache is disabled (17 R449); with half of them gone the cluster is out of service and its owner is lost. -/
def State.disableCacheWay (s : State) (h : Nat) (e : Assay) : State :=
  let key := e.index % 256 + (if e.detail.testBit 31 then 256 else 0)
  let s := { s with coh := { s.coh with cacheWays := s.coh.cacheWays.upd 0 key (fun c => c + 1) } }
  let s := s.rasWrite h e.cls 5 e.scope St.ok e.index e.addr 3 1 e.detail
  let c := e.index % 256 / 16
  if s.clusterOut c then
    forAll (allParts.filter (fun n => s.claims n (fun x => x.clusters.testBit c))) (fun n s =>
      (s.rasWrite h 4 5 n St.busError e.index e.addr 3 1 e.detail).losePart n St.busError) s
  else s

/-- A cell is retired (17 R452): its resident context is lost; a chiplet with four retired cells is dead. -/
def State.retireCell (s : State) (h i : Nat) (e : Assay) : State :=
  let k := i / 16
  let s := s.rasWrite h e.cls 4 e.scope St.ok e.index 0 5 1 e.detail
  let s := match s.ownerCell i with
    | some n =>
      let c := if (s.cell i).state != 0 then some (s.cell i).ctx else (s.res k n).resident
      match c with
      | some c => s.loseCtx n c St.busError
      | none => s
    | none => s
  let s := (s.stopCell i).updCell i (fun c => { c with retired := true })
  if 4 ≤ ((List.range 16).filter (fun p => (s.cell (k * 16 + p)).retired)).length then s.siteDead k 0x0B else s

/-- What a lasting fault leads to (17 R449). A fabric link goes into lane repair, whose end LANE_REPAIR_DONE is (08 R213). -/
def State.lastingFault (s : State) (h : Nat) (e : Assay) : State :=
  match e.str with
  | 1 => s.repairRow h e
  | 2 => s.disableWay h (e.detail % 32) e
  | 3 => ((s.setPort h (e.index / 256 % 256) (e.index % 8) 2).updRas h (fun r => { r with testing := r.testing ++ [e] }))
  | 4 => s.retireCell h (e.index / 256 % 192) e
  | 5 => s.disableCacheWay h e
  | _ => s

/-- ASSAY_TEST_START (17 R448, R449): the engine takes the next entry. A structure with three transient errors in 24 hours is treated as
lasting without a test. -/
def execAssayTestStart (h : HalfId) (s : State) : Res' :=
  let k := h.val
  closing (match (s.rasOf k).nextTest with
    | none => s
    | some e =>
      let now := Config.uptime s.freeCtr
      let s := s.tick.updRas k (fun r => { r with queue := r.queue.erase e })
      if 3 ≤ ((s.rasOf k).recent now e).length then (s.lastingFault k e).wakeCells
      else ((s.updRas k (fun r => { r with testing := r.testing ++ [e] })).prepareTest k e).wakeCells)

/-- ASSAY_TEST_DONE (17 R449). -/
def execAssayTestDone (h : HalfId) (str : RasStruct) (index : BitVec 32) (lasting : Bool) (s : State) : Res' :=
  let k := h.val
  closing (match (s.rasOf k).testing.find? (fun e => e.str == rasCode str && e.index == index.toNat) with
    | none => s
    | some e =>
      let s := s.updRas k (fun r => { r with testing := r.testing.erase e })
      if lasting then ((s.updRas k (fun r => { r with lasting := satAdd 16 r.lasting 1 })).lastingFault k e).wakeCells
      else
        let now := Config.uptime s.freeCtr
        let s := s.tick.updRas k (fun r => { r with transient := satAdd 16 r.transient 1
                                                    transients := r.transients.set [] (transientKey e) (r.recent now e ++ [now]) })
        let s := if e.str = 3 then s.setPort k (e.index / 256 % 256) (e.index % 8) 0 else if e.str = 1 then s.rewriteRow e.index else s
        (s.rasWrite k e.cls e.str e.scope St.ok e.index e.addr 1 1 e.detail).wakeCells)

end Sys2Proof.Machine
end

