-- ==== Sys2Proof/Machine/Host.lean ====
section
/-!
DEFINITION. The host interface (12): the endpoint and the functions (R302-R317), queues and fences (R320-R326).
-/

namespace Sys2Proof.Machine

/-- Change the endpoint. -/
def State.updPcie (s : State) (f : Pcie → Pcie) : State := { s with pcie := f s.pcie }

/-- VF n answers TLPs (12 R310; 01 R28; 15 R414, R415): the link is up, the VF is enabled and no Fence holds it. -/
def State.vfLive (s : State) (n : Nat) : Bool := s.pcie.up && !(s.sec.held.contains (.vf n))

/-- A TLP that VF n answers with UR (12 R310): the TDI is in ERROR, or it is in RUN and the TLP does not carry the T bit. -/
def State.vfRefuses (s : State) (n : Nat) (tbit : Bool) : Bool :=
  (s.vf n).tdi == 3 || ((s.vf n).tdi == 2 && !tbit)

/-- A TLP refused in RUN is counted as a Note (12 R310; 15 R412 TDI_TLP). -/
def State.noteTlp (s : State) (n : Nat) (tbit : Bool) : State :=
  if (s.slice n).vf && (s.vf n).tdi == 2 && !tbit then s.alarm 0x113 n (some (.vf n)) else s

/-- PPA of a BAR2 offset (12 R307, R315). -/
def State.aperture (s : State) (n off : Nat) : Nat := bits (s.vf n).aperture 39 30 * 2 ^ 30 + off

/-- Count an access beyond the PPA (12 R307, R314). -/
def State.countBounds (s : State) (n : Nat) : State := s.updVf n (fun v => { v with bounds := satAdd 16 v.bounds 1 })

/-- A BAR2 read takes effect at a PPA (12 R307; 17 R451): all ones beyond the PPA, the EP bit for dross. -/
def State.bar2ReadNow (s : State) (n a len : Nat) : State :=
  if !(s.inPpa n a len) then (s.countBounds n).emit (.completion n false false (List.replicate len 0xFF))
  else
    let r := s.ppaRead n a len (s.bar2Via n)
    if r.2.2.2 != St.ok then r.1.emit (.completion n true false [])
    else if r.2.2.1 then
      (r.1.updVf n (fun v => { v with dross := satAdd 8 v.dross 1 })).emit (.completion n false true r.2.1)
    else r.1.emit (.completion n false false r.2.1)

/-- A BAR2 write takes effect at a PPA (12 R307; 06 R147): dropped beyond the PPA or in a protected image. -/
def State.bar2WriteNow (s : State) (n a : Nat) (data : List Byte) : State :=
  if !(s.inPpa n a data.length) then s.countBounds n
  else (s.ppaWrite n a data false (some (.vf n)) (s.bar2Via n)).1

/-- Partition and bytes of a BAR2 access. -/
def bar2Of : Instr → Option (Nat × Nat)
  | .bar2Read n _ len _ => some (n.val, len)
  | .bar2Write n _ d _ => some (n.val, d.length)
  | _ => none

/-- A BAR2 access that has been accepted, its offset by then the PPA it names (12 R307), takes effect. -/
def State.bar2Now (s : State) : Instr → State
  | .bar2Read n a len _ => s.bar2ReadNow n.val a len
  | .bar2Write n a d _ => s.bar2WriteNow n.val a d
  | _ => s

/-- A BAR2 access passes the endpoint's regulator in the order of its function, or waits there (08 R202; 12 R307). -/
def State.bar2Enter (s : State) (n len : Nat) (c : Instr) : State :=
  if s.pcie.held.any (fun x => (bar2Of x).any (fun y => y.1 == n)) then s.updPcie (fun p => { p with held := p.held ++ [c] })
  else
    let r := s.inject 0 26 n len
    if r.2 then r.1.bar2Now c else r.1.updPcie (fun p => { p with held := p.held ++ [c] })

/-- BAR2_READ (12 R307, R310; 01 R28): a disabled VF returns all ones. -/
def execBar2Read (n : PartId) (off len : Nat) (tbit : Bool) (s : State) : Res' :=
  closing (onlyIf (s.vfLive n.val) (fun s =>
    if !((s.slice n.val).vf) then s.emit (.completion n.val false false (List.replicate len 0xFF))
    else if s.vfRefuses n.val tbit then (s.noteTlp n.val tbit).emit (.completion n.val true false [])
    else s.bar2Enter n.val len (.bar2Read n (s.aperture n.val off) len tbit)) s)

/-- BAR2_WRITE (12 R307, R310; 01 R28): a disabled VF drops writes. -/
def execBar2Write (n : PartId) (off : Nat) (data : List Byte) (tbit : Bool) (s : State) : Res' :=
  closing (onlyIf (s.vfLive n.val) (fun s =>
    if !((s.slice n.val).vf) then s
    else if s.vfRefuses n.val tbit then s.noteTlp n.val tbit
    else s.bar2Enter n.val data.length (.bar2Write n (s.aperture n.val off) data tbit)) s)

/-- The BAR2 accesses of Pn that the regulator holds go on in order while it is open (08 R202). -/
def State.releaseBar2 (n : Nat) : Nat → State → State
  | 0, s => s
  | fuel + 1, s =>
    match s.pcie.held.find? (fun x => (bar2Of x).any (fun y => y.1 == n)) with
    | none => s
    | some c =>
      let r := s.inject 0 26 n ((bar2Of c).getD (0, 0)).2
      if r.2 then State.releaseBar2 n fuel ((r.1.updPcie (fun p => { p with held := p.held.erase c })).bar2Now c) else r.1

/-- The burst that a host request belongs to, while it awaits its data. -/
def State.burstOf (s : State) (u : HostUser) : Option (Nat × Burst) :=
  match u with
  | .burst ch k => ((s.chan ch).bursts.find? (fun b => b.id == k && b.state == 0)).map (fun b => (ch, b))

/-- A host request ends without data (12 R305, R306, R308): its burst's read fails with the status. -/
def State.failReq (s : State) (r : HostReq) (status : StatusCode) : State :=
  let s := s.updPcie (fun p => { p with reqs := p.reqs.filter (fun x => x.tag != r.tag) })
  match s.burstOf r.user with
  | some (ch, b) => s.burstFail ch b false status (r.off + r.data.length)
  | none => s

/-- Count a completion that is dropped (12 R305, R306). -/
def State.unexpected (s : State) : State := s.updPcie (fun p => { p with dropped := satAdd 32 p.dropped 1 })

/-- HOST_COMPLETION (12 R305, R306): a piece of a read of host memory; bad for UR, CA or the EP bit. -/
def execHostCompletion (tag lower count : Nat) (data : List Byte) (bad : Bool) (s : State) : Res' :=
  closing (onlyIf s.pcie.up (fun s =>
    match s.pcie.reqs.find? (fun r => r.tag == tag) with
    | none => s.unexpected
    | some r =>
      if bad then s.failReq r St.busError
      else if lower % 128 != r.addr % 128 || count != r.left || data.isEmpty || decide (r.left < data.length) then s.unexpected
      else if data.length < r.left then
        s.updPcie (fun p => { p with reqs := p.reqs.map (fun x => if x.tag = tag then
          { x with addr := x.addr + data.length, left := x.left - data.length, data := x.data ++ data } else x) })
      else
        let s := s.updPcie (fun p => { p with reqs := p.reqs.filter (fun x => x.tag != tag) })
        match s.burstOf r.user with
        | some (ch, b) => s.updChan ch (fun c => setBurst c { b with parts := b.parts.set [] r.off (r.data ++ data) })
        | none => s) s)

/-- COMPLETION_TIMEOUT (12 R306): the tag is quarantined. -/
def execCompletionTimeout (tag : Nat) (s : State) : Res' :=
  closing (match s.pcie.reqs.find? (fun r => r.tag == tag) with
    | none => s
    | some r =>
      let s := s.updPcie (fun p => { p with timeouts := satAdd 64 p.timeouts 1, quarantine := p.quarantine ++ [tag] })
      (s.failReq r St.timeout).raise 16 7)

/-- TAG_QUARANTINE_END (12 R306). -/
def execTagQuarantineEnd (tag : Nat) (s : State) : Res' :=
  done (s.updPcie (fun p => { p with quarantine := p.quarantine.erase tag }))

/-- The TDI of VF n changes state (12 R310, R317). -/
def State.setTdi (s : State) (n t : Nat) : State :=
  if (s.vf n).tdi = t then s else (s.updVf n (fun v => { v with tdi := t })).raise n 5

/-- The session of an endpoint ends, its IDE stream keys with it (15 R395). -/
def State.dropSession (s : State) (fn : Nat) : State := { s with sec := { s.sec with sessions := s.sec.sessions.set {} fn {} } }

/-- The IDE stream keys of an endpoint are erased (15 R395). -/
def State.dropIde (s : State) (fn : Nat) : State :=
  { s with sec := { s.sec with sessions := s.sec.sessions.upd {} fn (fun x => { x with ideKeys := false }) } }

/-- PCIE_LINK_DOWN (12 R308): every request toward the host ends with BUS_ERROR, and a queue whose ring lies in host memory loses
its context; accesses the endpoint holds are gone, and so are the session and IDE keys
(15 R395). -/
def execPcieLinkDown (s : State) : Res' :=
  closing (onlyIf s.pcie.up (fun s =>
    let s := s.updPcie (fun p => { p with up := false, rate := 0, width := 0, flit := false, downs := satAdd 16 p.downs 1, held := [] })
    let s := s.pcie.reqs.foldl (fun s r => s.failReq r St.busError) s
    let s := forAll (List.range 17) (fun f s => s.dropSession f) s
    (s.queues.filter (fun e => e.2.en && queueInHost e.2)).foldl (fun s e => s.loseCtx (e.1 / 128) e.2.ctx St.busError) s) s)

/-- A link that the endpoint can train (12 R302): rate codes 1-6, x16, x8, x4 or x1, Flit mode at 64 GT/s. -/
def linkTrains (rate width : Nat) (flit : Bool) : Bool :=
  decide (1 ≤ rate) && decide (rate ≤ 6) && [1, 4, 8, 16].contains width && (flit || rate != 6)

/-- PCIE_LINK_UP (12 R302, R308): every function is in its reset configuration and every TDI unlocked. -/
def execPcieLinkUp (rate : Fin 16) (width : Fin 64) (flit : Bool) (s : State) : Res' :=
  closing (onlyIf (linkTrains rate.val width.val flit && !s.pcie.up && s.pwr.perstHigh && s.pwr.powered) (fun s =>
    let s := s.updPcie (fun p => { p with up := true, rate := rate.val, width := width.val, flit := flit, mrrs := 512, mps := 128, cto := 900
                                          msix := [], msixOff := 0 })
    forAll allParts (fun n s => s.setTdi n 0) s) s)

/-- VF_FLR (12 R309), over the link: the bitmaps are reset first, the losses reported after. -/
def execVfFlr (n : PartId) (s0 : State) : Res' :=
  let s := s0
  let k := n.val
  let ctxs := (s.queues.filter (fun e => e.1 / 128 == k && e.2.en)).map (fun e => e.2.ctx)
  let s := (s.updVf k (fun v => { v with aperture := 0, winSel := [], dmaVec := [], dmaHalt := 0, ctxLost := 0, ctxDone := 0 })).dropSession k
  let s := s.updPcie (fun p => { p with msix := p.msix.keep (fun e => e / 2048 != k), msixOff := clearBit p.msixOff k })
  let s := ctxs.foldl (fun s c => s.loseCtx k c St.aborted) s
  closing (if s0.pcie.up then { s with queues := s.queues.keep (fun e => e / 128 != k) } else s0)

/-- PF0_FLR (12 R309): PF0's configuration and MSI-X table. -/
def execPf0Flr (s : State) : Res' :=
  done ((s.updPcie (fun p => { p with msix := p.msix.keep (fun e => e / 2048 != 16), msixOff := clearBit p.msixOff 16, mrrs := 512, mps := 128
                                      cto := 900 })).dropSession 16)

/-- TDI_CONFIG_VIOLATION (12 R310). -/
def execTdiConfigViolation (n : PartId) (s : State) : Res' :=
  closing (onlyIf ((s.vf n.val).tdi == 1 || (s.vf n.val).tdi == 2) (fun s => s.setTdi n.val 3) s)

/-- A TDISP message is accepted in a session on VF n's mailbox (15 R396). -/
def State.inSession (s : State) (fn : Nat) : Bool := (s.sec.sessions.get {} fn).established

/-- LOCK_INTERFACE (12 R310). -/
def execLockInterface (n : PartId) (s : State) : Res' :=
  closing (onlyIf (s.inSession n.val && (s.vf n.val).tdi == 0) (fun s => s.setTdi n.val 1) s)

/-- START_INTERFACE (12 R310). -/
def execStartInterface (n : PartId) (s : State) : Res' :=
  closing (onlyIf (s.inSession n.val && (s.vf n.val).tdi == 1) (fun s => s.setTdi n.val 2) s)

/-- STOP_INTERFACE (12 R310; 15 R395): the TDI is unlocked and the IDE keys are erased. -/
def execStopInterface (n : PartId) (s : State) : Res' :=
  closing (onlyIf (s.inSession n.val) (fun s => (s.setTdi n.val 0).dropIde n.val) s)

/-- A write of CHIP_VF_APERTURE (12 R315). -/
def State.writeAperture (s : State) (n v : Nat) : State :=
  if bits v 39 30 * 2 ^ 30 < s.ppaSize n then s.updVf n (fun x => { x with aperture := field 39 30 (bits v 39 30) }) else s

/-- VF_APERTURE_WRITE (12 R307, R315). -/
def execVfApertureWrite (p : Path) (n : PartId) (value : Word64) (s : State) : Res' :=
  closing (s.onPart p n.val (fun s => s.writeAperture n.val value.toNat))

/-- A vector is unmasked, and delivered where it was pending (12 R317). -/
def State.unmask (s : State) (fn vec : Nat) : State :=
  let k := fn * 2048 + vec
  let m := s.pcie.msix.get {} k
  let s := s.updPcie (fun p => { p with msix := p.msix.upd {} k (fun m => { m with masked := false }) })
  if m.pending && !(s.pcie.msixOff.testBit fn) then
    (s.updPcie (fun p => { p with msix := p.msix.upd {} k (fun m => { m with pending := false }) })).raise fn vec
  else s

/-- MSIX_UNMASK (12 R317). -/
def execMsixUnmask (fn : Fin 17) (vec : Nat) (s : State) : Res' := done (s.unmask fn.val vec)

/-- The ring length of a queue, 0 where LOG2N is not 4-12 (12 R322). -/
def Queue.len (q : Queue) : Nat := let l := bits q.ring 59 56; if 4 ≤ l && l ≤ 12 then 2 ^ l else 0

/-- A write of SCH_Q_CTRL (12 R322; 02 R52): one that changes CONTEXT or VECTOR while EN is 1 is ignored. Entries of a halted queue whose tasks still
run complete when those end (R324). -/
def State.writeQueueCtrl (s : State) (n q v : Nat) : State :=
  let c := bits v 55 44
  let vec := bits v 21 16
  s.updQueue n q (fun x =>
    if x.en then
      if v.testBit 0 || c != x.ctx || vec != x.vector || !(x.state == 1 || x.state == 4) then x
      else { x with en := false, state := 0, status := St.ok }
    else if v.testBit 0 && x.len != 0 && decide (8 ≤ vec) then
      { x with en := true, ctx := c, vector := vec, head := x.tail % x.len, state := 1, status := St.ok }
    else { x with ctx := c, vector := vec })

/-- QUEUE_ENABLE (12 R322): a write of SCH_Q_CTRL that sets EN. -/
def execQueueEnable (p : Path) (n : PartId) (q : QueueId) (value : Word64) (s : State) : Res' :=
  closing (s.onPart p n.val (fun s => s.writeQueueCtrl n.val q.val (setBit value.toNat 0)))

/-- QUEUE_DISABLE (12 R322): a write that clears EN. -/
def execQueueDisable (p : Path) (n : PartId) (q : QueueId) (value : Word64) (s : State) : Res' :=
  closing (s.onPart p n.val (fun s => s.writeQueueCtrl n.val q.val (clearBit value.toNat 0)))

/-- A write of SCH_Q_TAIL (12 R322, R324): an IDLE queue with entries runs. Entries of a lost context complete at once with
CONTEXT_LOST (R331), those of a partition that is being built with ABORTED (02 R49). -/
def State.writeQueueTail (s : State) (n q v : Nat) : State :=
  let s := s.updQueue n q (fun x =>
    let t := if x.len = 0 then v % 4096 else v % 4096 % x.len
    { x with tail := t, state := if x.en && x.state = 1 && x.head != t then 2 else x.state })
  let x := s.queue n q
  if !x.en then s
  else if (s.part n).state == .building then s.flushQueueAs n q St.aborted
  else if s.ctxLost n x.ctx then s.flushQueue n q
  else s

/-- QUEUE_DOORBELL (12 R322, R324). -/
def execQueueDoorbell (p : Path) (n : PartId) (q : QueueId) (value : BitVec 32) (s : State) : Res' :=
  closing (s.onPart p n.val (fun s => s.writeQueueTail n.val q.val value.toNat))

/-- Fetch the entry at HEAD (12 R321, R324, R330; 17 R451): its bytes and whether they are dross, or the status of the failed
fetch. host is what host memory holds there, for a ring at a DVA. -/
def State.fetchEntry (s : State) (n q : Nat) (host : List Byte) : State × Except StatusCode (List Byte × Bool) :=
  let x := s.queue n q
  let a := queueAddr x x.head
  if queueInHost x then
    let w := s.walk none n x.ctx a true false
    let s := s.noteWalk none n x.ctx w.reads
    match w.res with
    | .leaf _ _ true _ _ _ => if s.hostOpen n then (s, .ok (bslice host 0 128, false)) else (s, .error St.busError)
    | .err st => (s, .error st)
    | _ => (s, .error St.faultXlt)
  else
    let r := s.ppaRead n a 128
    if r.2.2.2 = St.ok then (r.1, .ok (r.2.1, r.2.2.1)) else (r.1, .error r.2.2.2)

/-- An entry with a reserved bit or OP set, or with OWN 0, is DENIED (12 R323, R324). -/
def entryBad (b : List Byte) : Bool :=
  let c := fld b 0 4
  !(c.testBit 31) || bits c 27 24 != 0 || bits c 11 8 != 0 || decide (3 < bits c 7 0) || fld b 4 4 != 0 || (fld b 8 8).testBit 63
    || fld b 0x10 40 != 0 || (bits c 7 0 != 1 && fld b 0x40 64 != 0)

/-- HEAD moves past an entry that has been fetched. -/
def Queue.taken (x : Queue) (e : QEnt) : Queue := { x with head := (x.head + 1) % x.len, entries := x.entries ++ [e] }

/-- A RUNNING queue with nothing left is IDLE (12 R322). -/
def State.restQueue (s : State) (n q : Nat) : State :=
  s.updQueue n q (fun x => if x.state = 2 && x.entries.isEmpty && x.head = x.tail then { x with state := 1 } else x)

/-- An entry fetched at HEAD completes at once. -/
def State.endNow (s : State) (n q : Nat) (e : QEnt) (status : StatusCode) : State :=
  (((s.updQueue n q (fun x => x.taken e)).finishEntry n q e status).1).restQueue n q

/-- Submit a TASK entry (12 R324; 07 R166, R168): BUSY leaves it at HEAD. -/
def State.runTask (s : State) (n q : Nat) (e : QEnt) : State :=
  let x := s.queue n q
  let b := bslice e.bytes 0x40 64
  let r := (s.updQueue n q (fun x => x.taken { e with running := true })).submitTask n x.ctx b (.queue q e.idx)
  if r.2 = St.ok then r.1.restQueue n q
  else if r.2 = St.busy then s
  else s.endNow n q e r.2

/-- A WAIT entry (12 R324): it completes, or the queue waits. -/
def State.runWait (s : State) (n q : Nat) (e : QEnt) : State :=
  match s.waitOutcome n e with
  | none => s.updQueue n q (fun x => { x.taken e with state := 3 })
  | some st =>
    let s := s.endNow n q e st
    if st = St.ok then s else s.updQueue n q (fun x => { x with state := 4, status := St.aborted })

/-- Run a fetched entry by its OP (12 R324). A standby partition's entries complete with DENIED (14 R388). -/
def State.runEntry (s : State) (n q : Nat) (b : List Byte) (dross : Bool) : State :=
  let x := s.queue n q
  let e : QEnt := { idx := x.head, bytes := b }
  let c := fld b 0 4
  if dross then s.endNow n q e St.dross
  else if entryBad b || (s.twin n).state = 4 then s.endNow n q e St.denied
  else match bits c 7 0 with
    | 0 => s.endNow n q e St.ok
    | 1 => if c.testBit 28 && !x.entries.isEmpty then s else s.runTask n q e
    | 2 => s.runWait n q e
    | _ => if x.entries.isEmpty then s.endNow n q e St.ok else s

/-- OP of the entry at HEAD as the rows of the table divide them: an OP above 3 is run by the NOP row, as is a failed fetch of
any (log entry 36). -/
def entryOp (b : List Byte) : Nat := let o := bits (fld b 0 4) 7 0; if 3 < o then 0 else o

/-- A queue fetches the entry at HEAD and runs it where its OP is the row's (12 R324): a failed fetch loses the context
(R330). -/
def State.queueStep (s : State) (n q op : Nat) (host : List Byte) : State :=
  let x := s.queue n q
  if x.en && x.state = 2 && x.len != 0 && x.head != x.tail && s.ready n && !(s.ctxLost n x.ctx) then
    let r := s.fetchEntry n q host
    match r.2 with
    | .error st => if op = 0 then r.1.loseCtx n x.ctx st else s
    | .ok (b, dross) => if entryOp b = op then r.1.runEntry n q b dross else s
  else s

/-- QUEUE_NOP (12 R324). -/
def execQueueNop (n : PartId) (q : QueueId) (host : List Byte) (s : State) : Res' := closing (s.queueStep n.val q.val 0 host)
/-- QUEUE_TASK (12 R324). -/
def execQueueTask (n : PartId) (q : QueueId) (host : List Byte) (s : State) : Res' := closing (s.queueStep n.val q.val 1 host)
/-- QUEUE_WAIT (12 R324). -/
def execQueueWait (n : PartId) (q : QueueId) (host : List Byte) (s : State) : Res' := closing (s.queueStep n.val q.val 2 host)
/-- QUEUE_SIGNAL (12 R324). -/
def execQueueSignal (n : PartId) (q : QueueId) (host : List Byte) (s : State) : Res' := closing (s.queueStep n.val q.val 3 host)

/-- A write to the signal view of a fence (12 R326). -/
def State.writeFence (s : State) (n f v : Nat) : State := s.signal n f (v % 2 ^ 63) (v.testBit 63)

/-- FENCE_SIGNAL (12 R326). -/
def execFenceSignal (p : Path) (n : PartId) (f : FenceId) (value : Word64) (s : State) : Res' :=
  closing (s.onPart p n.val (fun s => s.writeFence n.val f.val value.toNat))

/-- A write to the reset view: the word is set exactly, VALUE limited (12 R326). -/
def resetWord (v : Nat) : Nat := min (v % 2 ^ 63) fenceMax + (if v.testBit 63 then 2 ^ 63 else 0)

/-- Write the reset view of a fence; a WAIT goes on as soon as its fence lets it (12 R324). -/
def State.resetFence (s : State) (n f v : Nat) : State :=
  State.settleWaits n 128 { s with fences := s.fences.set 0 (fenceKey n f) (resetWord v) }

/-- FENCE_RESET (12 R326). -/
def execFenceReset (p : Path) (n : PartId) (f : FenceId) (value : Word64) (s : State) : Res' :=
  closing (s.onPart p n.val (fun s => s.resetFence n.val f.val value.toNat))

end Sys2Proof.Machine
end

