-- ==== Sys2Proof/Machine/Views.lean ====
section
/-!
DEFINITION. What registers show that the hallmark measures too (15 R405): values computed from the state.
-/

namespace Sys2Proof.Machine

/-- LCS_STATE (15 R410). -/
def State.lcsView (s : State) : Nat :=
  let f := s.sec.fuses
  field 47 40 f.lcsRecords + field 39 32 f.lcsSpent + field 19 16 f.intent + field 8 8 (bit f.pending) + field 2 0 f.lcs.code

/-- SEC_FW_SVN (15 R418). -/
def State.svnView (s : State) : Nat := field 7 0 s.sec.fuses.svn + field 15 8 s.sec.fuses.svnSpent

/-- SEC_OPKEY_STATE (15 R418). -/
def State.opkeyView (s : State) : Nat :=
  (List.range 4).foldl (fun v k => v + (s.sec.fuses.opkeys.get {} k).state % 4 * 4 ^ k) 0 + field 15 8 s.sec.fuses.opSpent

/-- SEC_ALARM_FLOOR (15 R418). -/
def State.floorView (s : State) : Nat := field 1 0 s.sec.fuses.floor + field 15 8 s.sec.fuses.floorSpent

/-- SEC_TWIN_COUNT (15 R418). -/
def State.twinCountView (s : State) : Nat :=
  field 4 0 s.sec.fuses.twinUsed + field 12 8 s.sec.fuses.twinSpent + field 16 16 (bit s.sec.fuses.twinActive)

/-- HMC_REPAIR_COUNT of stack k (10 R263). -/
def State.repairView (s : State) (k : Nat) : Nat := field 15 0 (s.stack k).hard + field 31 16 (s.stack k).hardSpent

/-- PAT_DIGEST (02 R38). -/
def State.patDigest (s : State) : BitVec 384 := match s.pat.running with | some p => p.digest | none => 0

/-- SITE_NEG (13 R352). -/
def State.negView (s : State) (k : Nat) : Nat := let t := s.site k; field 63 48 t.level + field 31 0 t.features

end Sys2Proof.Machine
end

