-- ==== Sys2Proof/Machine/Attest.lean ====
section
/-!
DEFINITION. Attestation: the measurement blocks of the hallmark (15 R405, R406) and the SPDM requests (R395, R396).
-/

namespace Sys2Proof.Machine

/-- The staged record (15 R405 block 3). -/
def State.stagedRecord (s : State) : List Byte :=
  match s.sec.fwStaged with
  | some i => leBytes 1 (1 - s.sec.fwBank) ++ leBytes 4 i.version ++ leBytes 1 i.svn ++ digestBytes i.manifest
  | none => zeros 54

/-- Module blocks 1-10 (15 R405). -/
def State.moduleBlocks (s : State) : List Byte :=
  let f := s.sec.fuses
  let svn := leBytes 4 s.svnView
  let conf := leBytes 4 (bit f.confOnly)
  block 1 (digestBytes (Config.fwMeasurement 0 s.sec.fwRunning.manifest)) ++ block 2 (digestBytes (Config.fwMeasurement 1 s.sec.fwRunning.manifest))
    ++ block 3 s.stagedRecord
    ++ block 4 (leBytes 8 s.lcsView ++ svn ++ leBytes 1 s.sec.fwRunning.svn)
    ++ block 5 (leBytes 8 s.lcsView ++ leBytes 4 s.opkeyView ++ leBytes 4 s.floorView ++ leBytes 4 s.twinCountView ++ conf
        ++ (List.range 16).flatMap (fun k => leBytes 4 (s.repairView k)) ++ leBytes 8 s.sec.log.lost)
    ++ block 6 (leBytes 4 f.floor ++ conf ++ leBytes 1 (bit s.moduleDebug))
    ++ block 7 (digestBytes s.patDigest ++ leBytes 8 s.patEpoch ++ leBytes 1 s.pat.phase)
    ++ block 8 ((List.range 12).flatMap (fun k => let t := s.site k
        digestBytes t.idMeas ++ leBytes 8 (s.negView k) ++ leBytes 4 (t.cap 3) ++ leBytes 4 t.lost))
    ++ block 9 (allParts.flatMap (fun n => leBytes 1 (s.part n).state.code))
    ++ block 10 ((if f.twinActive then leBytes 8 f.twinPeer ++ digestBytes f.twinPeerId else zeros 56) ++ leBytes 4 s.twinCountView)

/-- Partition blocks 16-21 of Pn: of a LOST partition, as they stood at its loss (15 R405, R406). -/
def State.partBlocks (s : State) (n : Nat) : List Byte :=
  if (s.part n).state == .lost then (s.part n).lossBlocks.getD (s.liveBlocks n) else s.liveBlocks n

/-- Whether Pn's own hallmark can be given at a snapshot (15 R406): BUSY, DENIED or OK. -/
def State.hallmarkAt (s : State) (n : Nat) : StatusCode :=
  if s.sec.fwState = 4 then St.busy
  else match (s.part n).state with
    | .building => St.busy
    | .undefined => St.denied
    | _ => St.ok

/-- Outcome of a hallmark request of Pn (15 R418). -/
def State.hallmarkOut (s : State) (n token len : Nat) (status : StatusCode) : State :=
  s.updPart n (fun p => { p with hmToken := token, hmLen := len, hmStatus := status })

/-- A write of SEC_HALLMARK_CMD (15 R406, R418): the snapshot is taken; one hallmark of Pn is made at a time. -/
def State.writeHallmark (s : State) (n v : Nat) : State :=
  let token := bits v 63 56
  let area := bits v 39 6 * 64
  if (s.part n).hmRun.isSome then s.hallmarkOut n token 0 St.busy
  else if s.hallmarkAt n != St.ok then s.hallmarkOut n token 0 (s.hallmarkAt n)
  else
    let (s, nonce, dross, st) := s.ppaRead n area 32
    if st != St.ok then s.hallmarkOut n token 0 st
    else if dross then s.hallmarkOut n token 0 St.dross
    else
      let r : HmRun := { token := token, area := area, nonce := nonce, blocks := s.moduleBlocks ++ s.partBlocks n }
      (s.hallmarkOut n token 0 St.pending).updPart n (fun p => { p with hmRun := some r })

/-- HALLMARK_REQUEST (15 R406). -/
def execHallmarkRequest (p : Path) (n : PartId) (value : Word64) (s : State) : Res' :=
  closing (s.onPart p n.val (fun s => s.writeHallmark n.val value.toNat) true)

/-- Request codes of SPDM responses (log entry 9). -/
def spdmMeasurements : Nat := 4

/-- HALLMARK_DONE (15 R406): the signed response, of len bytes and at most 8 KiB, overwrites the area. One that a build of Pn overtakes is
dropped with its memory (02 R49). -/
def execHallmarkDone (n : PartId) (len : Nat) (s : State) : Res' :=
  let k := n.val
  closing (match (s.part k).hmRun with
    | none => s
    | some r =>
      if (s.part k).state == .building then s.updPart k (fun p => { p with hmRun := none }) else
      let sig := s.aliasSigned (r.nonce ++ r.blocks)
      let s := s.tick.updPart k (fun p => { p with hmRun := none })
      let len := min len 8192
      let (s, st) := s.hubWrite k r.area (bslice (Config.spdm spdmMeasurements k (r.nonce ++ r.blocks ++ sig)) 0 len)
      s.hallmarkOut k r.token (if st = St.ok then len else 0) st)

/-- The SPDM endpoint of a function answers (12 R311; 15 R396): the module's from the pithead stage on, a VF's while the link is up and
the VF is enabled. -/
def State.spdmLive (s : State) (fn : Nat) : Bool :=
  s.pwr.powered && s.pwr.pithead && (fn == 16 || (s.vfLive fn && (s.slice fn).vf && (s.vf fn).tdi != 3))

/-- Answer an SPDM request (15 R396, R401): Busy while an activation runs, an error where its response needs an identity key that is not
there. -/
def State.spdmAnswer (s : State) (fn code : Nat) (needsKey : Bool) (f : State → State) : Res' :=
  closing (onlyIf (s.spdmLive fn) (fun s =>
    if s.sec.fwState = 4 || (needsKey && !s.sec.keys.alias_) then s.emit (.spdm fn code false []) else f s) s)

/-- A response whose body the standard gives, over the bytes it carries. -/
def State.spdmBody (s : State) (fn code : Nat) (bytes : List Byte) : State := s.emit (.spdm fn code true (Config.spdm code fn bytes))

/-- A response that the alias key signs (15 R393). -/
def State.spdmSigned (s : State) (fn code : Nat) (bytes : List Byte) : State :=
  s.tick.spdmBody fn code (bytes ++ s.aliasSigned bytes)

/-- SPDM_DISCOVERY (15 R396): version, capabilities, algorithms. -/
def execSpdmDiscovery (fn : Fin 17) (s : State) : Res' := s.spdmAnswer fn.val 0 false (fun s => s.spdmBody fn.val 0 [])

/-- GET_DIGESTS (15 R393, R396): of the certificate chain in slot 0, whose last certificate is that of the alias key. -/
def execGetDigests (fn : Fin 17) (s : State) : Res' :=
  s.spdmAnswer fn.val 1 true (fun s => s.spdmBody fn.val 1 (leBytes 8 s.sec.keys.aliasGen))

/-- GET_CERTIFICATE (15 R393, R396). -/
def execGetCertificate (fn : Fin 17) (s : State) : Res' :=
  s.spdmAnswer fn.val 2 true (fun s => s.spdmBody fn.val 2 (leBytes 8 s.sec.keys.aliasGen))

/-- CHALLENGE (15 R393, R396). -/
def execChallenge (fn : Fin 17) (nonce : BitVec 256) (s : State) : Res' :=
  s.spdmAnswer fn.val 3 true (fun s => s.spdmSigned fn.val 3 (leBytes 32 nonce.toNat))

/-- GET_MEASUREMENTS (15 R405, R406): the module blocks, and over VF n's mailbox Pn's; Busy while Pn is BUILDING, an error while it is
UNDEFINED. -/
def execGetMeasurements (fn : Fin 17) (nonce : BitVec 256) (s : State) : Res' :=
  let k := fn.val
  s.spdmAnswer k spdmMeasurements true (fun s =>
    if k < 16 && s.hallmarkAt k != St.ok then s.emit (.spdm k spdmMeasurements false [])
    else s.spdmSigned k spdmMeasurements (leBytes 32 nonce.toNat ++ s.moduleBlocks ++ (if k < 16 then s.partBlocks k else [])))

/-- KEY_EXCHANGE (15 R394-R396): session keys are made; while the DRBG is unhealthy the request waits. -/
def execKeyExchange (fn : Fin 17) (s : State) : Res' :=
  s.spdmAnswer fn.val spdmKeyExchange true (fun s =>
    if s.sec.drbgHealthy then s.openSession fn.val
    else s.updSec (fun c => { c with keyWaits := c.keyWaits ++ [.session fn.val] }))

/-- FINISH (15 R396): ok says whether the requester's verification data holds. -/
def execFinish (fn : Fin 17) (ok : Bool) (s : State) : Res' :=
  s.spdmAnswer fn.val 6 true (fun s =>
    if ok && (s.sec.sessions.get {} fn.val).open_ then
      (s.updSec (fun c => { c with sessions := c.sessions.upd {} fn.val (fun x => { x with established := true }) })).spdmBody fn.val 6 []
    else s.emit (.spdm fn.val 6 false []))

/-- END_SESSION (15 R395, R396): the session keys are erased. -/
def execEndSession (fn : Fin 17) (s : State) : Res' :=
  s.spdmAnswer fn.val 7 true (fun s =>
    if (s.sec.sessions.get {} fn.val).open_ then
      (s.updSec (fun c => { c with sessions := c.sessions.upd {} fn.val (fun x => { x with open_ := false, established := false }) })).spdmBody fn.val 7 []
    else s.emit (.spdm fn.val 7 false []))

/-- KEY_PROG (15 R395, R396): IDE stream keys arrive inside a session. -/
def execKeyProg (fn : Fin 17) (s : State) : Res' :=
  s.spdmAnswer fn.val 8 true (fun s =>
    if s.inSession fn.val then
      ((s.updSec (fun c => { c with sessions := c.sessions.upd {} fn.val (fun x => { x with ideKeys := true }) })).log 0x44
        (if fn.val = 16 then 255 else fn.val) St.ok 0 []).spdmBody fn.val 8 []
    else s.emit (.spdm fn.val 8 false []))

end Sys2Proof.Machine
end

