-- ==== Sys2Proof/Machine/RegTypes.lean ====
section
/-!
DEFINITION. What a register is to an access (00 R8, R9, R468; 01 R25-R27; 02 R38, R53): its place, its owner, what it reads and what a
write of it does.
-/

namespace Sys2Proof.Machine

/-- Who owns a register (01 R27; 02 R53): the operator, with the partitions (a mask) that may read it; a partition, whose register the
operator may or may not see; no partition, where none owns the resource; or every path its own. -/
inductive RegOwner where
  | oper (readers : Nat)
  | part (n : Nat) (shown : Bool)
  | none
  | each

/-- What a write does (00 R8): nothing; nothing but a Note (RWL); an act on the whole value; or an act on the bytes written from an
offset on, for registers that are strings of bytes or of bits to clear. -/
inductive RegSet where
  | ro
  | locked
  | whole (f : Path → Nat → State → State)
  | span (f : Path → Nat → List Byte → State → State)

/-- A register: its first offset in its block, its width in bytes, what len bytes from an offset of it read; bld is the partition during
whose build it reads its reset value rst (01 R27), hide the partition whose confidentiality hides it from the operator, priv marks a
privileged channel's (11 R265). -/
structure Reg where
  base : Nat
  width : Nat
  own : RegOwner
  get : Nat → Nat → List Byte
  set : RegSet := .ro
  bld : Option Nat := Option.none
  rst : Nat := 0
  hide : Option Nat := Option.none
  priv : Bool := false

/-- A register of a number at offset base. -/
def numReg (o base width : Nat) (own : RegOwner) (val : Nat) (set : RegSet) : Option Reg :=
  if base ≤ o && decide (o < base + width) then
    some { base := base, width := width, own := own, get := fun off len => bslice (leBytes width val) off len, set := set }
  else Option.none

/-- A read-only register of the operator. -/
def roReg (o base width val : Nat) : Option Reg := numReg o base width (.oper 0) val .ro

/-- A register of a digest, byte 0 first (00 R468). -/
def digReg (o base : Nat) (own : RegOwner) (d : BitVec 384) : Option Reg := numReg o base 48 own (ofLe (digestBytes d)) .ro

/-- A partition's register. -/
def ownReg (o base width n val : Nat) (set : RegSet) : Option Reg :=
  (numReg o base width (.part n false) val set).map (fun r => { r with bld := some n })

/-- A register that is a string of bytes. -/
def strReg (o base width : Nat) (own : RegOwner) (get : Nat → Nat → List Byte) (set : RegSet) : Option Reg :=
  if base ≤ o && decide (o < base + width) then some { base := base, width := width, own := own, get := get, set := set } else Option.none

/-- The first register found. -/
def firstReg (l : List (Option Reg)) : Option Reg := l.findSome? id

/-- An array of count groups of registers, stride apart: f takes the index and the offset in the group. -/
def regArray (o base stride count : Nat) (f : Nat → Nat → Option Reg) : Option Reg :=
  if base ≤ o && decide (o < base + stride * count) then
    let i := (o - base) / stride
    (f i ((o - base) % stride)).map (fun r => { r with base := r.base + base + i * stride })
  else Option.none


/-- A mask from which the bits that are 1 in a string of bytes are cleared (00 R8 W1C). -/
def clearBits (mask off : Nat) (b : List Byte) : Nat := mask - (mask &&& (ofLe b <<< (8 * off)))

/-- The owner as a register owner. -/
def ownerReg (n : Option Nat) : RegOwner := match n with | some n => .part n false | Option.none => .none

/-- The register belongs to a partition's resource: it reads reset values while the owner builds. -/
def Reg.ofOwner (r : Reg) (n : Option Nat) : Reg := { r with own := ownerReg n, bld := n }

/-- The register is hidden from the operator for a confidential partition (01 R27), and zeroed by its build. -/
def Reg.counterOf (r : Reg) (n : Nat) : Reg := { r with own := .oper (1 <<< n), hide := some n, bld := some n }

/-- The path sees the register (01 R27). -/
def State.regSeen (s : State) (p : Path) (r : Reg) : Bool :=
  let hidden := r.hide.any (fun n => s.confidential n)
  let named := match p with | .vf n => some n.val | .partAlias n => some n.val | _ => Option.none
  match r.own with
  | .oper m => isFirmware p || (isOper p && !hidden) || named.any (fun n => m.testBit n)
  | .part n shown => reaches p n || (shown && isOper p && !hidden)
  | .none => isFirmware p
  | .each => true

/-- The path may write the register (02 R53; 11 R265). -/
def regMayWrite (p : Path) (r : Reg) : Bool :=
  match r.own with
  | .oper _ => isOper p || isFirmware p
  | .part n _ => reaches p n && !(r.priv && (match p with | .vf _ => true | _ => false))
  | .none => isFirmware p
  | .each => true

/-- len bytes from offset o of the block, as the path reads them in the register (01 R27). -/
def State.regGet (s : State) (p : Path) (r : Reg) (o len : Nat) : List Byte :=
  if !(s.regSeen p r) then zeros len
  else if r.bld.any (fun n => (s.part n).state == .building) then bslice (leBytes r.width r.rst) (o - r.base) len
  else r.get (o - r.base) len

/-- A write of len bytes at offset o of the block (00 R8; 01 R25, R27): a register of a number is written whole. -/
def State.regPut (s : State) (p : Path) (r : Reg) (o : Nat) (b : List Byte) : State :=
  match r.set with
  | .ro => if s.regSeen p r then s else s.regScope p
  | .locked => s.regScope p
  | .whole f =>
    if !(regMayWrite p r) then s.regScope p
    else if o = r.base && b.length == r.width then f p (ofLe b) s
    else s
  | .span f => if !(regMayWrite p r) then s.regScope p else f p (o - r.base) (b.take (r.base + r.width - o)) s

end Sys2Proof.Machine
end

