-- ==== Sys2Proof/Machine/RegsHub.lean ====
section
/-!
DEFINITION. The registers of the CHIP, PAT, FAB, SLC, HMC, DMA, XLT and SITE blocks (02 R38; 03 R72; 04 R113; 08 R205; 09 R235; 10
R256, R263; 11 R276, R299; 12 R312; 13 R352).
-/

namespace Sys2Proof.Machine

/-- CHIP (12 R312; 01 R23): the endpoint registers, on half 0. Half 1 shows its identity, bridge and half status, whose layout no rule
gives: free bytes, read only (log entry 114). -/
def State.chipRegs (s : State) (h o : Nat) : Option Reg :=
  if h != 0 then
    strReg o 0 0x800000 (.oper 0) (fun off len => (List.range len).map (fun i => Config.freeByte s.freeCtr (off + i))) .ro
  else
    let p := s.pcie
    firstReg [
      roReg o 0x2000 8 (field 3 0 p.rate + field 9 4 p.width + field 10 10 (bit p.flit) + field 47 32 p.downs),
      roReg o 0x2008 4 p.cto,
      roReg o 0x2010 8 (field 63 32 p.dropped + field 13 0 p.quarantine.length),
      roReg o 0x2018 8 p.timeouts]

/-- A write into PAT_STAGE (02 R38): only over the operator's management path, and not while an apply reads or stores it. -/
def State.writeStage (p : Path) (off : Nat) (b : List Byte) (s : State) : State :=
  if !(isOper p) then s.regScope p
  else if 1 ≤ s.pat.phase && s.pat.phase ≤ 3 then s
  else { s with pat := { s.pat with stage := Tab.setList 0 s.pat.stage off b } }

/-- PAT (02 R38-R41, R55, R56); half 1 mirrors half 0. -/
def State.patRegs (s : State) (o : Nat) : Option Reg :=
  let p := s.pat
  firstReg [
    roReg o 0x0000 4 0x0100,
    roReg o 0x0008 8 s.patEpoch,
    digReg o 0x0010 (.oper 0) s.patDigest,
    numReg o 0x0040 4 (.oper 0) 0 (.whole (fun p v s => if isOper p then (s.writeApply v).wakeCells else s.regScope p)),
    roReg o 0x0048 8 (field 47 32 p.failSection + field 31 16 p.failCode + field 15 8 p.phase + p.status.toNat),
    numReg o 0x0050 4 .each 0 (.whole (fun p v s => s.writeCommit p v)),
    regArray o 0x0080 4 16 (fun n o => numReg o 0 4 (.oper (1 <<< n)) (field 15 8 (s.part n).status.toNat + (s.part n).state.code) .ro),
    regArray o 0x0100 8 17 (fun k o =>
      let c := p.commits.get {} k
      numReg o 0 8 (.oper (if k < 16 then 1 <<< k else 0))
        (field 47 24 c.firstFail + field 23 16 c.token + field 8 8 c.failHalf + c.status.toNat) .ro),
    regArray o 0x0400 0x40 16 (fun n o => digReg o 0 (.oper (1 <<< n)) (s.sliceDigest n)),
    strReg o 0x100000 0x100000 (.oper 0) (fun off len => Tab.getList 0 p.stage off len) (.span (fun p off b s => s.writeStage p off b))]

/-- Static priority of master i of half h (08 R198, R199). -/
def State.masterPrioOf (s : State) (h i : Nat) : Nat :=
  match s.inForce with
  | some p => match p.priorities.find? (fun e => !e.ofPart && e.target == h * 64 + i) with
    | some e => e.prio
    | none => masterPrio i
  | none => masterPrio i

/-- A staged register of the operator's at HPA a (02 R52, R53). -/
def State.stagedReg (s : State) (o base width : Nat) (own : RegOwner) (a : Nat) : Option Reg :=
  numReg o base width own (s.stagedView a) (.whole (fun _ v s => s.stage a v))

/-- FAB (08 R205-R209): the priority of a reserved index reads 0. -/
def State.fabRegs (s : State) (h o : Nat) : Option Reg :=
  let a := fun o => regAddr h 2 o
  firstReg [
    roReg o 0x0000 4 (h + field 15 8 64),
    regArray o 0x0200 8 64 (fun r o => roReg o 0 8 (s.linkView h r)),
    strReg o 0x1000 8 (.oper 0) (fun off len => bslice (leBytes 8 (s.reg (a 0x1000))) off len)
      (.span (fun _ off b s => s.setReg (a 0x1000) (clearBits (s.reg (a 0x1000)) off b))),
    numReg o 0x1008 8 (.oper 0) (s.reg (a 0x1008)) (.whole (fun _ v s => s.setReg (a 0x1008) (bits v 3 0))),
    roReg o 0x1010 8 (s.reg (a 0x1010)),
    roReg o 0x1018 8 (s.reg (a 0x1018)),
    regArray o 0x2000 4 42 (fun i o => numReg o 0 4 (.oper 0) (if masterOk h i then s.masterPrioOf h i else 0) .locked),
    regArray o 0x2200 4 16 (fun n o => numReg o 0 4 (.oper 0) (s.partPrio n) .locked),
    regArray o 0x10000 0x80 64 (fun i o => regArray o 0 8 16 (fun n o => s.stagedReg o 0 8 (.oper 0) (injRegAddr h i n))),
    regArray o 0x20000 0x80 64 (fun i o => regArray o 0 8 16 (fun n o =>
      (roReg o 0 8 (s.reg (injStallAddr h i n))).map (fun r => r.counterOf n)))]

/-- SLC (09 R235-R238). -/
def State.slcRegs (s : State) (h o : Nat) : Option Reg :=
  let c := s.coh
  let n := c.reclaimPart.get 0 h
  firstReg [
    roReg o 0x0000 4 (h + field 15 8 64 + field 23 16 32),
    regArray o 0x0100 4 32 (fun w o =>
      numReg o 0 4 (.oper 0) ((s.ownerWay h w).getD 0x1F + field 8 8 (bit ((c.waysOff.get 0 h).testBit w))) .locked),
    numReg o 0x0200 8 (.oper (1 <<< n)) (field 63 40 (c.drossLines.get 0 h) + field 39 16 (c.recovered.get 0 h)
      + field 8 8 (bit (c.reclaimActive.get false h)) + field 7 4 n + field 3 0 (c.reclaimAgent.get 0 h)) .ro,
    regArray o 0x1000 0x40 16 (fun n o =>
      let a := slcPartAddr h n
      let own := fun (r : Option Reg) => r.map (fun r => { r with own := .part n true, hide := some n, bld := some n })
      firstReg [
        (own (numReg o 0 4 .none (s.reg (a 0) ^^^ policyReset) (.whole (fun _ v s => s.setReg (a 0) (bits v 9 0 ^^^ policyReset))))).map
          (fun r => { r with rst := policyReset }),
        own (roReg o 0x08 8 (s.reg (a 0x08))),
        own (roReg o 0x10 8 (s.reg (a 0x10))),
        own (roReg o 0x18 8 (s.reg (a 0x18))),
        own (roReg o 0x20 8 (s.reg (a 0x20)))])]

/-- The PPAs of Pn's retired granules, ascending (10 R256). -/
def State.retiredPpas (s : State) (n : Nat) : List Nat :=
  (s.hbm.retired.filterMap (fun e => s.hpaToPpa n (e.1 * 4096))).mergeSort (fun a b => decide (a ≤ b))

/-- Banks of a stack with no good spare (10 R263). -/
def banksSpent (l : List Repair) : Nat :=
  ((l.map (fun r => (r.sid, r.pc, r.bank))).eraseDups.filter (fun b => (freeSpare l b.1 b.2.1 b.2.2 (2 ^ 32) 0).isNone)).length

/-- HMC_STACK_CTRL (10 R259, R263): whether the stack has been cool for 1 s is not in the write: a free choice. -/
def State.writeStack (s : State) (k v : Nat) : State :=
  if bits v 1 0 == 1 && (s.stack k).state == 4 && decide ((s.stack k).temp < 85) && Config.freeBool s.freeCtr then
    s.tick.updStack k (fun t => { t with state := 1 })
  else s

/-- The controller slot of stack k (10 R263, R264). -/
def State.slotRegs (s : State) (k o : Nat) : Option Reg :=
  let t := s.stack k
  let retired := (s.hbm.retired.filter (fun e => e.1 * 4096 / 0x900000000 == k)).length
  firstReg [
    roReg o 0x0000 4 (k % 8 + field 4 4 (halfOfStack k) + field 11 8 2),
    numReg o 0x0008 8 (.oper 0xFFFF) (field 39 32 t.temp + field 10 8 t.level + field 3 0 t.state) .ro,
    numReg o 0x0010 4 (.oper 0) 0 (.whole (fun _ v s => s.writeStack k v)),
    roReg o 0x0018 4 (s.repairView k),
    roReg o 0x0020 8 (field 63 48 (t.repairs.filter (fun r => r.st == .soft)).length + field 47 32 retired + field 31 16 (banksSpent t.repairs)),
    regArray o 0x0100 0x20 16 (fun n o => firstReg [
      s.stagedReg o 0x00 8 (.oper (1 <<< n)) (hmcAddr k (0x100 + n * 0x20)),
      (roReg o 0x08 8 (s.reg (hmcAddr k (0x108 + n * 0x20)))).map (fun r => r.counterOf n),
      (roReg o 0x10 8 (s.reg (hmcAddr k (0x110 + n * 0x20)))).map (fun r => r.counterOf n)]),
    regArray o 0x1000 0x40 32 (fun c o =>
      let i := k * 32 + c
      let x := s.pch i
      let n := s.ownerPch i
      let readers := match n with | some n => 1 <<< n | none => 0
      let own := fun (r : Option Reg) => r.map (fun r => { r with own := .oper readers, hide := n })
      firstReg [
        numReg o 0x00 4 (.oper readers) (n.getD 0x1F) .locked,
        own (roReg o 0x08 8 (field 63 32 x.fails + field 31 16 x.repaired + field 15 0 x.retiredCnt)),
        own (roReg o 0x10 8 (field 63 32 x.wcbFull + field 31 0 x.rmws))])]

/-- HMC (10 R256, R263; 01 R24): the half's own controller slots, and the key registers, which half 1 mirrors. -/
def State.hmcRegs (s : State) (h o : Nat) : Option Reg :=
  firstReg [
    regArray o 0 0x10000 16 (fun k o => if halfOfStack k = h then s.slotRegs k o else none),
    regArray o 0x100000 0x100 16 (fun n o =>
      let k := s.keys n
      firstReg [
        ownReg o 0x00 8 n 0 (.whole (fun p v s => if isFirmware p then s.regScope p else s.writeKeyCmd n v)),
        ownReg o 0x08 8 n (s.keyView n) .ro,
        ownReg o 0x10 8 n (s.oldLinesView n) .ro,
        ownReg o 0x18 4 n (s.retiredPpas n).length .ro,
        ownReg o 0x20 4 n k.retireIdx (.whole (fun _ v s => s.updKeys n (fun k => { k with retireIdx := v }))),
        ownReg o 0x28 8 n (match (s.retiredPpas n)[k.retireIdx]? with | some a => 2 ^ 63 + keepBits a 39 12 | none => 0) .ro])]

/-- DMA_CH_CTRL as it reads (11 R277). -/
def Chan.ctrlView (c : Chan) : Nat := field 55 44 c.ctx + field 10 8 c.prio + field 2 2 (bit c.pause) + bit c.en

/-- DMA_CH_STATUS (11 R279). -/
def Chan.statusView (c : Chan) : Nat :=
  field 63 48 c.faultId + field 39 39 (bit c.limit) + field 38 38 (bit c.resolved) + field 37 37 (bit c.spacePpa) + field 36 36 (bit c.dir)
    + field 31 24 c.cmdToken + field 23 16 c.cmdStatus.toNat + field 15 8 c.status.toNat + field 3 0 c.state

/-- A write of DMA_CH_RING (11 R277, R278): ignored while EN is 1. -/
def State.writeRing (s : State) (i v : Nat) : State :=
  s.updChan i (fun c => if c.en then c else { c with ring := keepBits v 63 63 + keepBits v 59 56 + keepBits v 47 6 })

/-- DMA (11 R265, R276-R282). -/
def State.dmaRegs (s : State) (h o : Nat) : Option Reg :=
  firstReg [
    roReg o 0x0000 4 (h + field 15 8 16 + field 23 16 32),
    regArray o 0x100000 0x80 512 (fun j o =>
      let i := h * 512 + j
      let c := s.chan i
      let own := s.ownerChan i
      let mk := fun (rst : Nat) (r : Option Reg) => r.map (fun r => { r.ofOwner own with priv := isPriv i, rst := rst })
      firstReg [
        mk 0 (numReg o 0x00 8 .none c.ctrlView (.whole (fun _ v s => s.writeChanCtrl i v))),
        mk 0 (numReg o 0x08 8 .none c.ring (.whole (fun _ v s => s.writeRing i v))),
        mk 0 (numReg o 0x10 4 .none (bits c.tail 15 0) (.whole (fun _ v s => s.writeChanTail i v))),
        mk 0 (roReg o 0x14 4 (bits c.head 15 0)),
        mk (field 63 48 0xFFFF) (roReg o 0x18 8 c.statusView),
        mk 0 (strReg o 0x20 16 .none (fun off len => bslice (c.cursor.flatMap (leBytes 4)) off len) .ro),
        mk 0 (roReg o 0x30 8 c.faultAddr),
        mk 0 (numReg o 0x38 8 .none 0 (.whole (fun _ v s => s.writeChanCmd i v))),
        mk 0 (numReg o 0x40 8 .none c.record (.whole (fun _ v s => s.updChan i (fun c => { c with record := keepBits v 39 6 })))),
        mk 0 (s.stagedReg o 0x48 8 .none (dmaAddr i 0x48)),
        mk 0 (roReg o 0x50 8 (field 63 32 c.missed + field 31 0 (c.lats.foldl max 0))),
        mk 0 (roReg o 0x58 8 c.done)])]

/-- A write of XLT_FQ_RING (11 R299): ignored while a record is open. -/
def State.writeFqRing (s : State) (n v : Nat) : State :=
  s.updXlt n (fun x => if x.recs.isEmpty then { x with fqRing := keepBits v 63 60 + keepBits v 39 5 } else x)

/-- An index that runs without wrapping, as a ring register shows it. -/
def wrapped (len i : Nat) : Nat := if len = 0 then 0 else i % len

/-- XLT (11 R299-R301); half 1 mirrors half 0. -/
def State.xltRegs (s : State) (o : Nat) : Option Reg :=
  regArray o 0x100000 0x100 16 (fun n o =>
    let x := s.xlt n
    firstReg [
      ownReg o 0x00 8 n x.ctxBase (.whole (fun _ v s => s.updXlt n (fun x => { x with ctxBase := keepBits v 39 16 }))),
      ownReg o 0x08 8 n x.invAddr (.whole (fun _ v s => s.updXlt n (fun x => { x with invAddr := keepBits v 47 12 }))),
      ownReg o 0x10 8 n 0 (.whole (fun p v s => s.writeInv p n v)),
      ownReg o 0x18 8 n (field 63 56 x.invToken + field 47 40 x.invStatus.toNat + field 31 0 x.invMask) .ro,
      ownReg o 0x20 8 n x.fqRing (.whole (fun _ v s => s.writeFqRing n v)),
      ownReg o 0x28 4 n (wrapped (fqLen x) x.fqHead) (.whole (fun _ v s => s.writeFqHead n v)),
      ownReg o 0x2C 4 n (wrapped (fqLen x) x.fqCount) .ro,
      ownReg o 0x30 8 n 0 (.whole (fun p v s => s.writeResolve p n v)),
      ownReg o 0x38 4 n x.fqFull .ro,
      ownReg o 0x3C 4 n x.faultIdx (.whole (fun _ v s => s.updXlt n (fun x => { x with faultIdx := bits v 5 0 }))),
      ownReg o 0x40 8 n (match x.recs.get none x.faultIdx with
        | some r => 2 ^ 63 + field 57 56 r.access + field 31 0 r.waiters
        | none => 0) .ro])

/-- OWNER of SITE_STATUS (13 R353). -/
def State.siteOwnerCode (s : State) (k : Nat) : Nat :=
  match allParts.filter (fun n => bits (s.slice n).cells (k * 16 + 15) (k * 16) != 0) with
  | [] => 0x1F
  | [n] => n
  | _ => 0x10

/-- SITE_STATUS (13 R353). -/
def State.siteStatusView (s : State) (k : Nat) : Nat :=
  let t := s.site k
  field 63 56 t.cmdToken + field 55 48 t.cmdStatus.toNat + field 39 32 t.cause + field 20 16 (s.siteOwnerCode k) + field 11 8 t.power
    + field 7 6 t.kind + field 3 0 t.state

/-- SITE_LINK (13 R354). -/
def State.siteLinkView (s : State) (k : Nat) : Nat :=
  let byte := fun (m : UMod) => field 7 6 m.width + field 5 5 (bit m.rate) + field 4 4 (bit m.busy) + field 3 2 m.disagree
  field 63 48 (s.site k).retrains + (List.range 4).foldl (fun v u => v + byte (s.umod k u) * 256 ^ u) 0

/-- SITE_CELL_STATUS of cell i (04 R114): MMA and vector instructions end with their command, so BUSY shows the mover and the message
unit. An idle cell shows the context resident for its owner (log entry 80). -/
def State.cellStatusView (s : State) (i : Nat) : Nat :=
  let c := s.cell i
  let mover := c.movers.any (fun e => e.2.any (fun t => t.accesses.any (fun a => !a.done)))
  let send := s.egress.any (fun e => e.src == i)
  let resident := match s.ownerCell i with | some n => (s.res (i / 16) n).resident.getD 0 | none => 0
  field 63 51 c.pc + field 50 39 (if c.state = 0 then resident else c.ctx) + field 5 5 (bit mover) + field 4 4 (bit send) + field 3 0 c.state

/-- The windows and registers of cell i (03 R72-R74; 04 R113): partition debug lets the operator read the cell's status (15 R404). -/
def State.cellRegs (s : State) (i o : Nat) : Option Reg :=
  let mk := fun (r : Option Reg) => r.map (fun r => r.ofOwner (s.ownerCell i))
  firstReg [
    regArray o 0 0x20 16 (fun w o => firstReg [
      mk (s.stagedReg o 0x00 8 .none (winAddr i w 0)),
      mk (s.stagedReg o 0x08 8 .none (winAddr i w 8)),
      mk (s.stagedReg o 0x10 4 .none (winAddr i w 16)),
      mk (roReg o 0x18 8 0)]),
    (mk (roReg o 0x200 8 (s.cellStatusView i))).map (fun r => match s.ownerCell i with
      | some n => if (s.part n).debugOpen then { r with own := .oper (1 <<< n) } else r
      | none => r),
    mk (roReg o 0x208 8 (s.cell i).mmaCycles),
    mk (roReg o 0x210 8 (s.cell i).bankWait)]

/-- Partitions that own cells of site k, as a mask. -/
def State.siteReaders (s : State) (k : Nat) : Nat := allParts.foldl (fun m n => if (s.sitesOf n).contains k then setBit m n else m) 0

/-- SITE (13 R346, R352-R354; 03 R72): a foreign chiplet's CXL.io space belongs to the chiplet, whose bytes are free. -/
def State.siteRegs (s : State) (h o : Nat) : Option Reg :=
  firstReg [
    roReg o 0x0000 4 (h + field 15 8 (s.pairLevel h / 256) + field 7 1 (s.pairLevel h % 256)),
    regArray o 0x1000 0x200 6 (fun l o =>
      let k := h * 6 + l
      let t := s.site k
      firstReg [
        numReg o 0x00 8 (.oper 0) 0 (.whole (fun _ v s => s.writeSiteCtrl k v)),
        numReg o 0x08 8 (.oper (s.siteReaders k)) (s.siteStatusView k) .ro,
        numReg o 0x10 8 (.oper (s.siteReaders k)) (s.siteLinkView k) .ro,
        roReg o 0x18 8 (s.negView k),
        regArray o 0x20 8 4 (fun i o => roReg o 0 8 (t.capPeer.get 0 i)),
        regArray o 0x40 8 4 (fun i o => roReg o 0 8 (s.hubCapWord i)),
        roReg o 0x60 8 (field 63 32 t.correctable + field 31 16 t.droppedOsp + field 15 0 t.laneRepairs),
        digReg o 0x80 (.oper 0) t.idMeas]),
    regArray o 0x100000 0x10000 6 (fun l o => regArray o 0 0x400 16 (fun c o => s.cellRegs ((h * 6 + l) * 16 + c) o)),
    regArray o 0x200000 0x10000 6 (fun l o =>
      if (s.site (h * 6 + l)).fitted = 2 then
        (strReg o 0 0x10000 .none (fun off len => (List.range len).map (fun i => Config.freeByte s.freeCtr (off + i)))
          (.span (fun _ _ _ s => s))).map (fun r => r.ofOwner (s.ownerCell ((h * 6 + l) * 16)))
      else none)]

end Sys2Proof.Machine
end

