-- ==== Sys2Proof/Machine/RegsIo.lean ====
section
/-!
DEFINITION. The registers of the ETH, RING, SEC and LCS, PWR and CLK, RAS, POOL and SCH blocks, and of VF BAR0 (06 R145, R153, R160; 07
R171; 12 R313-R326; 14 R371, R374, R380; 15 R418; 16 R436; 17 R446).
-/

namespace Sys2Proof.Machine

/-- A write of ETH_DGRAM (14 R374): a queue that is not Pn's makes it ignored. -/
def State.writeDgram (s : State) (p : Path) (n v : Nat) : State :=
  let first := bits v 11 0
  if (List.range (2 ^ bits v 15 12)).all (fun i => decide (first + i < 4096) && s.ownerEthQ (first + i) == some n) then
    s.updEth n (fun e => { e with dgram := bits v 15 0 })
  else s.ownership p

/-- A write of ETH_RXQ_DESC or ETH_RXQ_CQ (06 R154): ignored while EN is 1. -/
def State.writeRxqRing (s : State) (q v : Nat) (cq : Bool) : State :=
  let v := keepBits v 63 60 + keepBits v 39 6
  s.updRxq q (fun r => if r.ctrl.testBit 0 then r else if cq then { r with cq := v } else { r with desc := v })

/-- A write of ETH_TXQ_DESC or ETH_TXQ_CQ (14 R371). -/
def State.writeTxqRing (s : State) (q v : Nat) (cq : Bool) : State :=
  let v := keepBits v 63 60 + keepBits v 39 6
  s.updTxq q (fun r => if r.ctrl.testBit 0 then r else if cq then { r with cq := v } else { r with desc := v })

/-- ETH_QP_CMD as it reads (14 R374). -/
def State.qpCmdView (s : State) (n : Nat) : Nat :=
  let e := s.eth n
  field 63 56 e.cmdToken + field 25 16 e.cmdQp + field 15 8 e.cmdStatus.toNat + field 7 4 (s.qp n e.cmdQp).state + field 1 0 e.cmdOp

/-- ETH (06 R153, R154; 14 R365, R371, R374): the partition registers of both halves are the same. -/
def State.ethRegs (s : State) (h o : Nat) : Option Reg :=
  let k := portCount s.arrangement / 2
  firstReg [
    roReg o 0x0000 4 (h + field 9 8 s.arrangement + field 23 16 k),
    regArray o 0x0100 0x40 k (fun pl o =>
      let p := h * k + pl
      let t := s.port p
      firstReg [
        roReg o 0x00 8 (field 63 48 t.pauseRx + field 47 32 t.pauseTx + field 7 4 t.rate + field 3 0 t.state),
        numReg o 0x08 8 (.oper 0) t.lossless (.whole (fun _ v s => s.updPort p (fun t => { t with lossless := bits v 7 0 }))),
        roReg o 0x10 8 t.drop]),
    regArray o 0x0400 0x80 8 (fun pl o => regArray o 0 8 16 (fun n o =>
      s.stagedReg o 0 8 (.oper 0) (regAddr h 8 (0x400 + pl * 0x80 + n * 8)))),
    regArray o 0x0800 0x80 k (fun pl o => regArray o 0 8 16 (fun n o =>
      let i := (h * k + pl) * 16 + n
      numReg o 0 8 (.oper 0) (s.net.mac.get 0 i) (.whole (fun _ v s => { s with net := { s.net with mac := s.net.mac.set 0 i (bits v 49 0) } })))),
    regArray o 0x10000 0x100 16 (fun n o =>
      let e := s.eth n
      firstReg [
        ownReg o 0x00 8 n e.qpBase (.whole (fun _ v s => s.updEth n (fun e => { e with qpBase := keepBits v 39 7 }))),
        ownReg o 0x08 8 n e.mrBase (.whole (fun _ v s => s.updEth n (fun e => { e with mrBase := keepBits v 39 13 }))),
        ownReg o 0x10 8 n e.dgram (.whole (fun p v s => s.writeDgram p n v)),
        ownReg o 0x18 8 n (s.qpCmdView n) (.whole (fun p v s => s.writeQpCmd p n v)),
        ownReg o 0x20 8 n e.rerr .ro,
        (strReg o 0x40 40 (.part n false) (fun off len => Tab.getList 0 e.hashKey off len)
          (.span (fun _ off b s => s.updEth n (fun e => { e with hashKey := Tab.setList 0 e.hashKey off b })))).map (fun r => { r with bld := some n })]),
    regArray o 0x200000 0x40 2048 (fun j o =>
      let q := h * 2048 + j
      let r := s.rxq q
      let mk := fun (x : Option Reg) => x.map (fun x => x.ofOwner (s.ownerEthQ q))
      let n := (s.ownerEthQ q).getD 0
      firstReg [
        mk (numReg o 0x00 8 .none r.ctrl (.whole (fun p v s => s.writeRxqCtrl p n q v))),
        mk (numReg o 0x08 8 .none r.desc (.whole (fun _ v s => s.writeRxqRing q v false))),
        mk (numReg o 0x10 8 .none r.cq (.whole (fun _ v s => s.writeRxqRing q v true))),
        mk (numReg o 0x18 4 .none r.tail (.whole (fun _ v s => s.writeRxqIndex q v false))),
        mk (numReg o 0x20 4 .none r.cqHead (.whole (fun _ v s => s.writeRxqIndex q v true))),
        mk (roReg o 0x28 8 r.drop)]),
    regArray o 0x300000 0x40 2048 (fun j o =>
      let q := h * 2048 + j
      let r := s.txq q
      let mk := fun (x : Option Reg) => x.map (fun x => x.ofOwner (s.ownerEthQ q))
      let n := (s.ownerEthQ q).getD 0
      firstReg [
        mk (numReg o 0x00 8 .none r.ctrl (.whole (fun p v s => s.writeTxqCtrl p n q v))),
        mk (numReg o 0x08 8 .none r.desc (.whole (fun _ v s => s.writeTxqRing q v false))),
        mk (numReg o 0x10 8 .none r.cq (.whole (fun _ v s => s.writeTxqRing q v true))),
        mk (numReg o 0x18 4 .none r.tail (.whole (fun _ v s => s.writeTxqIndex q v false))),
        mk (numReg o 0x20 4 .none r.cqHead (.whole (fun _ v s => s.writeTxqIndex q v true)))])]

/-- A write of RING_CFG (14 R380): only while the adit is THROUGH; SIZE is 1-64. -/
def State.writeRingCfg (s : State) (v : Nat) : State :=
  if s.ring.adit = 0 then s.updRing (fun r => { r with position := bits v 5 0, size := bits v 14 8 }) else s

/-- A write of RING_ADIT (14 R378, R380): whether the optics pass the loopback test is not in the write: a free choice. -/
def State.writeAditReg (s : State) (v : Nat) : State := s.tick.writeAdit (bits v 1 0) (Config.freeBool s.freeCtr)

/-- RING_TWIN_STATUS (14 R392). -/
def Twin.statusView (t : Twin) : Nat :=
  field 63 56 t.token + field 55 48 t.cmdStatus.toNat + field 47 16 t.checkpoint + field 15 8 t.status.toNat + field 3 0 t.state

/-- RING (14 R380): each half's port; the registers of partitions are mirrored. Whether the conditions on the twin hold at a START is
not in the write: a free choice. -/
def State.ringRegs (s : State) (h o : Nat) : Option Reg :=
  let p := s.ringPort h
  firstReg [
    roReg o 0x0000 4 h,
    roReg o 0x0100 8 (field 7 0 p.lanes + field 9 8 p.link + field 11 10 s.ring.adit + field 63 32 p.replays),
    numReg o 0x0108 8 (.oper 0) (field 5 0 s.ring.position + field 14 8 s.ring.size) (.whole (fun _ v s => s.writeRingCfg v)),
    numReg o 0x0110 4 (.oper 0) 0 (.whole (fun _ v s => s.writeAditReg v)),
    roReg o 0x0118 8 (s.ring.members.foldl (fun m e => if e.1 < 64 && e.2 != 0 then setBit m e.1 else m) 0),
    regArray o 0x1000 0x100 16 (fun n o =>
      let c := s.coll n
      let t := s.twin n
      firstReg [
        ownReg o 0x00 8 n c.ring (.whole (fun _ v s => s.updColl n (fun c => { c with ring := keepBits v 59 56 + keepBits v 39 6 }))),
        ownReg o 0x08 4 n c.tail (.whole (fun _ v s => s.writeCollTail n v)),
        ownReg o 0x0C 4 n (bits c.head 11 0) .ro,
        (ownReg o 0x10 4 n (if c.watchdog = 0 then 50 else c.watchdog)
          (.whole (fun _ v s => s.updColl n (fun c => { c with watchdog := bits v 9 0 })))).map (fun r => { r with rst := 50 }),
        ownReg o 0x18 8 n c.groupBase (.whole (fun _ v s => s.updColl n (fun c => { c with groupBase := keepBits v 39 10 }))),
        ownReg o 0x20 8 n (field 63 56 c.cmdToken + field 23 16 c.cmdStatus.toNat + field 11 8 c.cmdGroup + field 1 0 c.cmdOp)
          (.whole (fun _ v s => s.writeGroupCmd n v)),
        ownReg o 0x40 8 n 0 (.whole (fun _ v s => s.tick.writeTwinCmd n v (Config.freeBool s.freeCtr))),
        ownReg o 0x48 8 n t.statusView .ro,
        ownReg o 0x50 8 n t.log (.whole (fun _ v s => s.updTwin n (fun t => { t with log := keepBits v 59 56 + keepBits v 39 12 }))),
        ownReg o 0x58 4 n (bits t.logTail 15 0) (.whole (fun _ v s => s.writeLogTail n v)),
        ownReg o 0x5C 4 n (bits t.logAck 15 0) .ro,
        ownReg o 0x60 8 n t.stage (.whole (fun _ v s => s.updTwin n (fun t => { t with stage := keepBits v 63 40 + keepBits v 39 20 })))])]

/-- A write of SEC_ALARM_STATUS clears what it sets (15 R419). -/
def State.clearAlarms (s : State) (v : Nat) : State :=
  s.updSec (fun c => { c with seenNote := c.seenNote && !(v.testBit 0), seenFence := c.seenFence && !(v.testBit 1)
                              seenQuench := c.seenQuench && !(v.testBit 2) })

/-- SEC_ALARM_STATUS (15 R419). -/
def State.alarmView (s : State) : Nat :=
  let c := s.sec
  field 39 24 c.lastSource + field 23 16 c.lastScope + field 3 3 (bit (!c.canaries.isEmpty)) + field 2 2 (bit c.seenQuench)
    + field 1 1 (bit c.seenFence) + bit c.seenNote

/-- SEC_ALARM_VIEW of the source and scope that SEC_ALARM_IDX names (15 R418). -/
def State.alarmCountView (s : State) : Nat :=
  let src := bits s.sec.alarmIdx 15 0
  let scope := bits s.sec.alarmIdx 23 16
  field 63 32 (s.sec.notes.get 0 (src * 256 + scope)) + field 9 8 (s.effClass src scope).code

/-- The fields of an image that SEC_FW_STATUS shows (15 R421). -/
def State.fwView (s : State) : Nat :=
  let c := s.sec
  field 63 56 c.fwToken + field 55 48 c.fwCmdStatus.toNat + field 47 40 (match c.fwStaged with | some i => i.svn | none => 0)
    + field 39 32 c.fwRunning.svn + field 11 8 c.fwState + field 0 0 c.fwBank

/-- The log registers, of which each reader has its own copy (15 R416, R418). -/
def State.logRegs (s : State) (p : Path) (o : Nat) : Option Reg :=
  let r := readerOf p
  let x := s.reader r
  firstReg [
    numReg o 0x0608 8 .each 0 (.whole (fun p v s => s.writeLogCmd p v)),
    numReg o 0x0610 8 .each x.seq (.whole (fun p v s => s.updReader (readerOf p) (fun x => { x with seq := v }))),
    numReg o 0x0618 8 .each (field 63 56 x.token + field 14 8 x.delivered + x.status.toNat) .ro,
    strReg o 0x0620 32 .each (fun off len => Tab.getList 0 x.nonce off len)
      (.span (fun p off b s => s.updReader (readerOf p) (fun x => { x with nonce := Tab.setList 0 x.nonce off b }))),
    strReg o 0x0800 160 .each (fun off len => bslice x.head off len) .ro,
    strReg o 0x2000 4096 .each (fun off len => bslice x.win off len) .ro]

/-- SEC_ID (15 R418). -/
def secId (h : Nat) : Nat := bit (h == 0) + field 15 8 Config.romRevision.toNat

/-- SEC and LCS (06 R145; 15 R418): on half 1 the identity and LCS_STATE, read only. -/
def State.secRegs (s : State) (p : Path) (h o : Nat) : Option Reg :=
  let c := s.sec
  let f := c.fuses
  if h != 0 then firstReg [roReg o 0x0000 4 (secId h), roReg o 0x40000 8 s.lcsView]
  else firstReg [
    roReg o 0x0000 4 (secId h),
    roReg o 0x0010 32 (c.nonce.toNat % 2 ^ 256),
    numReg o 0x0040 4 (.oper 0) 0 (.whole (fun _ v s => s.writeReqCmd v)),
    roReg o 0x0048 8 (field 63 56 c.reqToken + field 55 48 c.reqKind + field 15 8 c.reqPhase + c.reqStatus.toNat),
    strReg o 0x0100 8 (.oper 0) (fun off len => bslice (leBytes 8 s.alarmView) off len)
      (.span (fun _ off b s => s.clearAlarms (ofLe b <<< (8 * off)))),
    roReg o 0x0108 4 s.floorView,
    numReg o 0x0110 4 (.oper 0) c.alarmIdx (.whole (fun _ v s => s.updSec (fun c => { c with alarmIdx := bits v 23 0 }))),
    roReg o 0x0118 8 s.alarmCountView,
    roReg o 0x0200 4 s.svnView,
    numReg o 0x0208 4 (.oper 0) 0 (.whole (fun _ v s => s.writeFwCmd v)),
    roReg o 0x0210 8 s.fwView,
    roReg o 0x0300 4 s.opkeyView,
    regArray o 0x0340 0x40 4 (fun k o => digReg o 0 (.oper 0) (f.opkeys.get {} k).digest),
    roReg o 0x0400 4 s.twinCountView,
    roReg o 0x0408 8 f.twinPeer,
    digReg o 0x0440 (.oper 0) f.twinPeerId,
    roReg o 0x0500 4 (bit f.confOnly),
    numReg o 0x0508 4 (.oper 0) c.debugGrant (.whole (fun _ v s => s.writeGrant v)),
    roReg o 0x0600 8 c.log.lost,
    s.logRegs p o,
    strReg o 0x1000 1024 (.oper 0) (fun off len => Tab.getList 0 c.reqBuf off len)
      (.span (fun _ off b s => s.updSec (fun c => { c with reqBuf := Tab.setList 0 c.reqBuf off b }))),
    roReg o 0x40000 8 s.lcsView,
    regArray o 0x200000 0x100 16 (fun n o =>
      let d := s.code n
      firstReg [
        ownReg o 0x00 8 n 0 (.whole (fun _ v s => s.writeCode n v)),
        ownReg o 0x08 8 n (field 63 56 d.token + field 55 40 d.running + d.status.toNat) .ro,
        ownReg o 0x40 48 n (ofLe (digestBytes (s.part n).codeMeas)) .ro]),
    regArray o 0x210000 0x100 16 (fun n o =>
      let x := s.part n
      firstReg [
        (strReg o 0x00 8 (.part n false) (fun off len => bslice (leBytes 8 (s.confView n)) off len)
          (.span (fun _ off b s => if (ofLe b <<< (8 * off)).testBit 0 then s.writeConf n else s))).map (fun r => { r with bld := some n }),
        ownReg o 0x08 4 n (bit x.debugAuth) (.whole (fun _ v s => s.writeAuth n (v.testBit 0))),
        (strReg o 0x10 8 (.part n false) (fun off len => bslice (leBytes 8 x.raise) off len)
          (.span (fun _ off b s => s.writeRaise n (ofLe b <<< (8 * off))))).map (fun r => { r with bld := some n }),
        ownReg o 0x18 8 n 0 (.whole (fun _ v s => s.writeHallmark n v)),
        ownReg o 0x20 8 n (field 63 56 x.hmToken + field 45 32 x.hmLen + x.hmStatus.toNat) .ro])]

/-- PWR_FEED_STATUS (16 R437). -/
def Pwr.feedView (p : Pwr) : Nat :=
  field 63 48 p.switches + field 41 32 p.voltB + field 25 16 p.voltA + field 5 5 (bit p.pwrFail) + field 4 4 (bit p.activeB)
    + field 3 2 p.feedB.code + field 1 0 p.feedA.code

/-- PWR_START (16 R440). -/
def Pwr.startView (p : Pwr) : Nat :=
  field 63 32 p.boot + field 31 24 p.cause + field 23 16 p.fail + field 3 3 (bit p.lcsHold) + field 2 0 p.stage

/-- PWR and CLK (16 R436-R440): feeds, limiter, resets and starts on half 0; the measured frequency and the cycle count are free. -/
def State.pwrRegs (s : State) (h o : Nat) : Option Reg :=
  let p := s.pwr
  let free := (Config.freeValue s.freeCtr).toNat
  let rails := (List.range 21).foldl (fun m j => putBit m j (railOf h j && s.railOn j && !(p.railsOut.contains (h * 32 + j)))) 0
  let clk := bit p.refOk * 0xB + field 2 2 (bit p.rootLock)
  firstReg ([
    roReg o 0x0000 4 h,
    roReg o 0x0030 8 rails,
    roReg o 0x10000 8 (field 47 32 free + clk),
    numReg o 0x10008 8 (.oper 0xFFFF) free .ro] ++ (if h != 0 then [] else [
    roReg o 0x0008 8 p.feedView,
    roReg o 0x0010 8 (field 15 0 (p.watts.headD 0) + field 31 16 (p.watts.foldl max 0)),
    numReg o 0x0018 4 (.oper 0) p.cap (.whole (fun _ v s => s.writeCap v)),
    roReg o 0x0020 8 (field 63 32 p.gatedMs + field 12 8 p.duty + field 1 1 (bit p.thermal) + bit p.powerHold),
    numReg o 0x0040 8 (.oper 0) 0 (.whole (fun p v s => (s.writeResetCmd p v).wakeCells)),
    roReg o 0x0048 8 (field 63 56 p.rstToken + p.rstStatus.toNat),
    numReg o 0x0050 8 (.oper 0xFFFF) p.startView .ro,
    regArray o 0x0058 4 4 (fun k o => roReg o 0 4 (p.stageTime.get 0 k))]))

/-- A reader of the RAS log sees record r: the operator, reader 16, sees all; Pn those of scope n or 0xFF (17 R445). -/
def rasVisible (reader : Nat) (r : RasRec) : Bool := reader == 16 || r.scope == reader || r.scope == 255

/-- The 64 bytes of a RAS record as a reader sees it (17 R442, R445). -/
def State.rasBytes (s : State) (reader : Nat) (r : RasRec) : List Byte :=
  let blind := reader == 16 && decide (r.scope < 16) && s.confidential r.scope
  let bare := reader != 16 && r.scope == 255
  let addr := if reader = 16 then (if blind then 0 else r.addr) else (s.hpaToPpa reader r.addr).getD 0
  leBytes 8 r.seq ++ leBytes 8 r.uptime.toNat ++ leBytes 1 r.cls ++ leBytes 1 r.str ++ leBytes 1 r.scope ++ leBytes 1 r.status.toNat
    ++ leBytes 4 (if bare then 0 else r.index) ++ leBytes 8 addr ++ leBytes 1 r.action ++ zeros 1 ++ leBytes 2 r.count
    ++ leBytes 4 (if bare || blind then 0 else r.detail) ++ zeros 24

/-- RAS_LOG_HEAD, RAS_LOG_IDX and RAS_LOG_WIN of a reader on half h (17 R446). -/
def State.rasLogRegs (s : State) (h reader o : Nat) (own : RegOwner) : Option Reg :=
  let r := s.rasOf h
  let l := r.log.filter (rasVisible reader)
  let i := r.idx.get 0 reader
  firstReg [
    numReg o 0x08 8 own (match l.getLast? with | some x => x.seq | none => 0) .ro,
    (numReg o 0x10 8 own i (.whole (fun _ v s => s.updRas h (fun r => { r with idx := r.idx.set 0 reader v })))).map
      (fun r => { r with bld := if reader < 16 then some reader else none }),
    strReg o 0x40 64 own (fun off len => match l.find? (fun x => x.seq == i) with
      | some x => bslice (s.rasBytes reader x) off len
      | none => zeros len) .ro]

/-- RAS (17 R446, R447). -/
def State.rasRegs (s : State) (h o : Nat) : Option Reg :=
  let r := s.rasOf h
  firstReg [
    roReg o 0x0000 4 (h + field 15 8 16),
    s.rasLogRegs h 16 o (.oper 0),
    roReg o 0x0080 8 r.lost,
    regArray o 0x0108 8 13 (fun k o => roReg o 0 8 (r.corrected.get 0 (k + 1))),
    roReg o 0x0200 8 r.unexpected,
    roReg o 0x0208 8 (field 63 48 r.lasting + field 47 32 r.transient + field 31 16 r.deferred + field 5 0 r.queue.length)]

/-- The half whose POOL block keeps Pn's pools (06 R158): that of the partition's lowest-numbered cluster. -/
def State.poolHalf (s : State) (n : Nat) : Nat := if (s.slice n).clusters = 0 || lowBit 16 (s.slice n).clusters < 8 then 0 else 1

/-- POOL (06 R158, R160; 01 R23): a half shows the pools of the partitions homed on it. RESERVE reads 0 while no step is open. -/
def State.poolRegs (s : State) (h o : Nat) : Option Reg :=
  firstReg [
    regArray o 0x10000 0x400 16 (fun n o => if s.poolHalf n != h then none else regArray o 0 0x100 4 (fun k o =>
      let x := s.pool n k
      firstReg [
        ownReg o 0x00 8 n x.base .ro,
        ownReg o 0x08 4 n x.total .ro,
        ownReg o 0x10 4 n x.free .ro,
        ownReg o 0x18 4 n x.deferPages.length .ro,
        ownReg o 0x20 8 n (field 47 32 x.extra + field 31 0 x.reserve) .ro,
        ownReg o 0x28 8 n (field 63 32 x.step + field 31 18 x.running + field 17 7 x.queue.length + bit x.isOpen) .ro])),
    regArray o 0x400000 0x40000 16 (fun n o => if s.poolHalf n != h then none else regArray o 0 0x10000 4 (fun k o => regArray o 0 8 8192 (fun i o =>
      let x := (s.pool n k).slots.get {} i
      ownReg o 0 8 n (field 63 52 x.pages.length + field 51 40 x.need + field 16 16 (bit x.grew) + field 15 8 x.status.toNat
        + field 1 0 x.state) .ro)))]

/-- CHIP_VF_STATUS (12 R314): the counts that a build zeroes read 0 while it runs (01 R27). -/
def State.vfStatusView (s : State) (n : Nat) : Nat :=
  let v := s.vf n
  let p := s.part n
  let count := fun (x : Nat) => if p.state == .building then 0 else x
  field 47 32 (count v.bounds) + field 31 24 (count v.dross) + field 23 20 v.tdi + field 19 19 (bit p.conf) + field 18 18 (bit p.slice.mirror)
    + field 15 8 p.status.toNat + field 2 0 p.state.code

/-- A write of CHIP_VF_DMA_VEC (12 R313): channels Pn does not own and privileged channels drop it, and so does a vector outside 8-63. -/
def State.writeDmaVec (s : State) (n i v : Nat) : State :=
  if s.ownerChan i == some n && !(isPriv i) && decide (8 ≤ v) && decide (v < 64) then
    s.updVf n (fun x => { x with dmaVec := x.dmaVec.set 8 i v })
  else s

/-- A write of an entry of VF n's MSI-X table (12 R302, R313): address, data and mask; an unmasked vector that pends is delivered. -/
def State.writeMsix (s : State) (n v off : Nat) (b : List Byte) : State :=
  let k := n * 2048 + v
  let m := s.pcie.msix.get {} k
  let old := leBytes 8 m.addr ++ leBytes 4 m.data ++ leBytes 4 (bit m.masked)
  let new := old.take off ++ b ++ old.drop (off + b.length)
  let s := s.updPcie (fun p => { p with msix := p.msix.set {} k { m with addr := fld new 0 8, data := fld new 8 4, masked := (fld new 12 4).testBit 0 } })
  if (fld new 12 4).testBit 0 then s else s.unmask n v

/-- A write of SCH_Q_RING (12 R322): ignored while EN is 1. -/
def State.writeQueueRing (s : State) (n q v : Nat) : State :=
  s.updQueue n q (fun x => if x.en then x else { x with ring := keepBits v 63 63 + keepBits v 59 56 + keepBits v 47 7 })

/-- The registers of queue q of Pn (12 R322). -/
def State.queueRegs (s : State) (n q o : Nat) : Option Reg :=
  let x := s.queue n q
  firstReg [
    ownReg o 0x00 8 n x.ring (.whole (fun _ v s => s.writeQueueRing n q v)),
    (ownReg o 0x08 8 n (field 55 44 x.ctx + field 21 16 x.vector + bit x.en) (.whole (fun _ v s => s.writeQueueCtrl n q v))).map
      (fun r => { r with rst := field 21 16 8 }),
    ownReg o 0x10 4 n (bits x.tail 11 0) (.whole (fun _ v s => s.writeQueueTail n q v)),
    ownReg o 0x14 4 n (bits x.head 11 0) .ro,
    ownReg o 0x18 8 n (field 15 8 x.status.toNat + field 2 0 x.state) .ro]

/-- SCH_CTX_BASE of Pn. -/
def State.ctxBaseReg (s : State) (n o base : Nat) : Option Reg :=
  ownReg o base 8 n (s.sch n).ctxBase (.whole (fun _ v s => s.updSch n (fun h => { h with ctxBase := keepBits v 39 12 })))

/-- A bitmap of VF n that a write clears (12 R313). -/
def bitmapReg (o base width n mask : Nat) (f : (Nat → Nat) → State → State) : Option Reg :=
  (strReg o base width (.part n false) (fun off len => bslice (leBytes width mask) off len)
    (.span (fun _ off b s => f (fun m => clearBits m off b) s))).map (fun r => { r with bld := some n })

/-- The status page and queue registers of Pn, at VF BAR0 0-0x2FFF and in its status region (12 R313). -/
def State.vfPage (s : State) (n o : Nat) : Option Reg :=
  let v := s.vf n
  firstReg [
    numReg o 0x0000 8 (.part n false) (s.vfStatusView n) .ro,
    ownReg o 0x0008 8 n v.aperture (.whole (fun _ x s => s.writeAperture n x)),
    s.ctxBaseReg n o 0x0010,
    ownReg o 0x0018 8 n (s.xlt n).ctxBase (.whole (fun _ x s => s.updXlt n (fun y => { y with ctxBase := keepBits x 39 16 }))),
    regArray o 0x0040 8 8 (fun k o => ownReg o 0 8 n (v.winSel.get 0 k)
      (.whole (fun _ x s => s.updVf n (fun y => { y with winSel := y.winSel.set 0 k (keepBits x 27 16) })))),
    regArray o 0x0400 1 1024 (fun i o =>
      (ownReg o 0 1 n (if s.ownerChan i == some n && !(isPriv i) then v.dmaVec.get 8 i else 0)
        (.whole (fun _ x s => s.writeDmaVec n i x))).map (fun r => { r with rst := if s.ownerChan i == some n && !(isPriv i) then 8 else 0 })),
    bitmapReg o 0x0800 128 n v.dmaHalt (fun f s => s.updVf n (fun y => { y with dmaHalt := f y.dmaHalt })),
    bitmapReg o 0x0C00 512 n v.ctxLost (fun f s => s.updVf n (fun y => { y with ctxLost := f y.ctxLost })),
    bitmapReg o 0x0E00 512 n v.ctxDone (fun f s => s.updVf n (fun y => { y with ctxDone := f y.ctxDone })),
    regArray o 0x1000 16 64 (fun k o =>
      let m := s.pcie.msix.get {} (n * 2048 + k)
      strReg o 0 16 (.part n false) (fun off len => bslice (leBytes 8 m.addr ++ leBytes 4 m.data ++ leBytes 4 (bit m.masked)) off len)
        (.span (fun _ off b s => s.writeMsix n k off b))),
    numReg o 0x1800 8 (.part n false)
      ((List.range 64).foldl (fun x k => putBit x k (s.pcie.msix.get {} (n * 2048 + k)).pending) 0) .ro,
    regArray o 0x2000 0x20 128 (fun q o => s.queueRegs n q o)]

/-- Fence f of Pn: signal view and reset view (12 R326). -/
def State.fenceReg (s : State) (n f o : Nat) (reset : Bool) : Option Reg :=
  if reset then ownReg o 0 8 n 0 (.whole (fun _ v s => s.resetFence n f v))
  else ownReg o 0 8 n (s.fence n f) (.whole (fun _ v s => s.writeFence n f v))

/-- SCH_SLICE as it reads: 2,000 us and the NP limit until something else is staged or committed (07 R172). -/
def State.sliceReg (s : State) (n o : Nat) : Option Reg :=
  let a := schSliceAddr n
  let rst := field 47 32 (s.slice n).npLimit + 2000
  let v := if s.staged.get 0 a = 0 && s.reg a = 0 then rst else s.stagedView a
  (ownReg o 0x08 8 n v (.whole (fun _ v s => s.stage a v))).map (fun r => { r with rst := rst })

/-- SCH (07 R171-R174; 12 R313; 17 R446): registers of the partitions, mirrored on half 1; status and fence regions on half 0; each half's
RAS log copies in its own. -/
def State.schRegs (s : State) (h o : Nat) : Option Reg :=
  firstReg [
    regArray o 0x100000 0x100 16 (fun n o =>
      let x := s.sch n
      let waiting := fun k => (x.waiting.filter (fun t => halfOfSite t.site == k)).length
      firstReg [
        s.ctxBaseReg n o 0x00,
        s.sliceReg n o,
        ownReg o 0x10 8 n x.runlist (.whole (fun _ v s => s.writeRunlist n v)),
        ownReg o 0x18 8 n 0 (.whole (fun _ v s => s.writeCtxCmd n v)),
        ownReg o 0x20 8 n (field 63 56 x.cmdToken + x.cmdStatus.toNat) .ro,
        (ownReg o 0x28 4 n (s.slice n).npLimit .ro).map (fun r => { r with rst := (s.slice n).npLimit }),
        ownReg o 0x2C 4 n (field 10 0 (waiting 0) + field 26 16 (waiting 1)) .ro]),
    regArray o 0x200000 0x10000 16 (fun n o =>
      if o < 0x8000 then (if h = 0 then s.vfPage n o else none)
      else (s.rasLogRegs h n (o - 0x8000) (.part n false)).map (fun r => { r with base := r.base + 0x8000 })),
    if h = 0 then regArray o 0x300000 0x10000 16 (fun n o => firstReg [
      regArray o 0 8 4096 (fun f o => s.fenceReg n f o false),
      regArray o 0x8000 8 4096 (fun f o => s.fenceReg n f o true)])
    else none]

end Sys2Proof.Machine
end

