-- ==== Sys2Proof/Machine/Registers.lean ====
section
/-!
DEFINITION. Register accesses (01 R19-R28; 12 R313, R316; 16 R433): where an address leads on each path, what it reads, what a write of it
does; and the memory accesses of the service cores (06 R142, R143).
-/

namespace Sys2Proof.Machine

/-- The register at offset o of block N of half h, as a path finds it (01 R23, R24). -/
def State.blockReg (s : State) (p : Path) (h N o : Nat) : Option Reg :=
  match N with
  | 0 => s.chipRegs h o
  | 1 => s.patRegs o
  | 2 => s.fabRegs h o
  | 3 => s.slcRegs h o
  | 4 => s.hmcRegs h o
  | 5 => s.dmaRegs h o
  | 6 => s.xltRegs o
  | 7 => s.siteRegs h o
  | 8 => s.ethRegs h o
  | 9 => s.ringRegs h o
  | 10 => s.secRegs p h o
  | 11 => s.pwrRegs h o
  | 12 => s.rasRegs h o
  | 13 => s.poolRegs h o
  | 14 => s.schRegs h o
  | _ => none

/-- Blocks that decode before stage 1 (16 R433): CHIP, SEC and LCS, PWR and CLK, RAS. -/
def State.blockDecodes (s : State) (N : Nat) : Bool := s.pwr.stage != 0 || N == 0 || N == 10 || N == 11 || N == 12

/-- Where an address leads: an offset of a block of a half; an offset of a VF's own BAR0 layout; nowhere, reading 0; or an error. -/
inductive RegPlace where
  | block (h N o : Nat)
  | vf (n o : Nat)
  | nowhere
  | error
  deriving DecidableEq, Repr

/-- A PF0 BAR0 offset (01 R26), which the partition alias shares (06 R142). -/
def windowPlace (a : Nat) : RegPlace :=
  if a < 0x10000000 && decide (a / 0x800000 % 16 < 15) then .block (a / 0x8000000) (a / 0x800000 % 16) (a % 0x800000) else .nowhere

/-- An HPA (01 R21, R23): what lies outside the first 8 MiB of the register blocks is reserved. -/
def hpaPlace (a : Nat) : RegPlace :=
  if a < regBase 0 then .error
  else
    let h := (a - regBase 0) / 0x8000000000
    let o := (a - regBase 0) % 0x8000000000
    if h < 2 && decide (o < 0xF000000) && decide (o % 0x1000000 < 0x800000) then .block h (o / 0x1000000) (o % 0x1000000) else .error

/-- An offset of VF n's BAR0 (12 R313, R316): the alias windows lead into the partition alias. -/
def State.vfPlace (s : State) (n a : Nat) : RegPlace :=
  if 0x80000 ≤ a && decide (a < 0x100000) then
    windowPlace (bits ((s.vf n).winSel.get 0 ((a - 0x80000) / 0x10000)) 27 16 * 0x10000 + a % 0x10000)
  else .vf n a

/-- Where an address leads on a path (01 R19). -/
def State.regPlace (s : State) (p : Path) (a : Nat) : RegPlace :=
  match p with
  | .pf0 => windowPlace a
  | .partAlias _ => windowPlace a
  | .vf n => s.vfPlace n.val a
  | .mctp => hpaPlace a
  | .firmware _ => hpaPlace a

/-- VF n's own layout (12 R313). -/
def State.vfReg (s : State) (n o : Nat) : Option Reg :=
  firstReg [
    if o < 0x3000 then s.vfPage n o else none,
    regArray o 0x8000 8 4096 (fun f o => s.fenceReg n f o false),
    regArray o 0x10000 8 4096 (fun f o => s.fenceReg n f o true)]

/-- The half whose management path an access takes (01 R25): the endpoint and the MCTP port are half 0's. -/
def Path.half : Path → Nat
  | .firmware h => h.val
  | _ => 0

/-- The register an address leads to, with the offset in its block or layout; none: nothing is there. Across a bridge that is down no
register of the other half is reached (01 R25). -/
def State.regFind (s : State) (p : Path) (a : Nat) : Except Unit (Option (Reg × Nat)) :=
  match s.regPlace p a with
  | .error => .error ()
  | .nowhere => .ok none
  | .vf n o => .ok ((s.vfReg n o).map (fun r => (r, o)))
  | .block h N o =>
    if h != Path.half p && !s.fab.bridgeUp then .error ()
    else if !(s.blockDecodes N) then .ok none
    else .ok ((s.blockReg p h N o).map (fun r => (r, o)))

/-- The path is that of a VF which the pattern's VF map disables (01 R28). -/
def State.vfOff (s : State) : Path → Bool
  | .vf n => !((s.slice n.val).vf)
  | _ => false

/-- What a path reads at an address (01 R21, R25-R28): status and bytes; a reserved HPA reads 0, and across a bridge that is down, or
through a disabled VF, a read returns all ones. -/
def State.readReg (s : State) (p : Path) (a len : Nat) : StatusCode × List Byte :=
  if s.vfOff p then (St.ok, List.replicate len 0xFF)
  else match s.regFind p a with
  | .error _ => (St.busError, match s.regPlace p a with | .error => zeros len | _ => List.replicate len 0xFF)
  | .ok none => (St.ok, zeros len)
  | .ok (some (r, o)) => (St.ok, s.regGet p r o len)

/-- A write of bytes at an address on a path. -/
def State.writeReg (s : State) (p : Path) (a : Nat) (b : List Byte) : State :=
  if s.pathShut p then s
  else match s.regFind p a with
    | .error _ => s.emit (.access St.busError 0)
    | .ok none => s
    | .ok (some (r, o)) => s.regPut p r o b

/-- A path carries accesses (01 R26-R28; 12 R308, R310, R311; 16 R432): MCTP and firmware from the pithead stage on, PF0 while the link is
up, a VF while it is enabled and its TDI is not in ERROR. -/
def State.pathLive (s : State) (p : Path) : Bool :=
  s.pwr.powered && s.pwr.pithead && match p with
    | .pf0 => s.pcie.up
    | .vf n => s.vfLive n.val && (s.slice n.val).vf && (s.vf n.val).tdi != 3
    | _ => true

/-- REGISTER_WRITE (00 R8, R9; 01 R23-R28): a write of len bytes to a register on a path, under its access code. -/
def execRegisterWrite (p : Path) (addr len value : Nat) (s : State) : Res' :=
  closing (onlyIf (s.pathLive p) (fun s => s.writeReg p addr (leBytes len value)) s)

/-- Where the partition control page and the cluster's timer and software interrupts begin (06 R142). -/
def controlPage : Nat := 0x10000000000
/-- Base of the timer and software interrupts. -/
def aclintBase : Nat := 0x20000000000

/-- What a core's address names (06 R142). -/
inductive CoreTarget where
  | ppa
  | control (o : Nat)
  | aclint (o : Nat)
  | none
  deriving DecidableEq, Repr

/-- The target of len bytes at a core physical address of a core of Pn. -/
def State.coreTarget (s : State) (n a len : Nat) : CoreTarget :=
  if s.inPpa n a len then .ppa
  else if controlPage ≤ a && decide (a + len ≤ controlPage + 0x10000000) then .control (a - controlPage)
  else if aclintBase ≤ a && decide (a + len ≤ aclintBase + 0x10000) then .aclint (a - aclintBase)
  else .none

/-- Offset o of the ACLINT layout holds a register: MSIP of hart h at 4h, of which bit 0 acts, MTIMECMP at 0x4000 + 8h, and MTIME at
0xBFF8 (06 R142). -/
def aclintMask (o : Nat) : Byte :=
  if o < 32 then (if o % 4 = 0 then 1 else 0)
  else if (0x4000 ≤ o && decide (o < 0x4040)) || (0xBFF8 ≤ o && decide (o < 0xC000)) then 0xFF else 0

/-- Bytes of a cluster's timer and software interrupts. -/
def State.aclintRead (s : State) (c o len : Nat) : List Byte := Tab.getList 0 s.aclint (c * 65536 + o) len

/-- MTIME of a cluster counts on (06 R142): by how much since it was last seen is a free value (log entry 3). -/
def State.mtimeRuns (s : State) (c : Nat) : State :=
  let v := ofLe (s.aclintRead c 0xBFF8 8) + (Config.freeValue s.freeCtr).toNat
  { s.tick with aclint := Tab.setList 0 s.aclint (c * 65536 + 0xBFF8) (leBytes 8 (v % 2 ^ 64)) }

/-- A write of them. -/
def State.aclintWrite (s : State) (c o : Nat) : List Byte → State
  | [] => s
  | b :: l => State.aclintWrite { s with aclint := s.aclint.set 0 (c * 65536 + o) (b &&& aclintMask o) } c (o + 1) l

/-- A core reads at a physical address: the bytes, or whether its access fault is for dross (06 R143; 17 R451). -/
def State.loadPiece (s : State) (k a len : Nat) : State × Except Bool (List Byte) :=
  match s.coreTarget (s.corePart k) a len with
  | .ppa => s.readPiece k a len
  | .control o => (s.tick, match s.readReg (.partAlias (Fin.ofNat 16 (s.corePart k))) o len with
    | (st, b) => if st = St.ok then .ok b else .error false)
  | .aclint o => let t := s.mtimeRuns (k / 8); (t, .ok (t.aclintRead (k / 8) o len))
  | .none => (s, .error false)

/-- A core writes at a physical address (06 R142, R143, R147). -/
def State.storePiece (s : State) (k a : Nat) (data : List Byte) : State × StatusCode :=
  match s.coreTarget (s.corePart k) a data.length with
  | .ppa => s.writePiece k a data
  | .control o => (s.writeReg (.partAlias (Fin.ofNat 16 (s.corePart k))) o data, St.ok)
  | .aclint o => (s.aclintWrite (k / 8) o data, St.ok)
  | .none => (s, St.faultBounds)

/-- A core's load or fetch at an address of its own (06 R142). -/
def State.coreFetch (s : State) (k va len : Nat) (a : VaKind) : State :=
  match s.corePieces k a va len with
  | .error e => s.coreFault k e.1 e.2 false
  | .ok l =>
    let r := readPieces (fun s p => s.loadPiece k p.1 p.2) s l
    match r.2 with
    | .error dross => r.1.coreFault k a.accessFault va dross
    | .ok b => r.1.emit (.coreData k b)

/-- A core's store. -/
def State.coreStores (s : State) (k va : Nat) (data : List Byte) : State :=
  match s.corePieces k .store va data.length with
  | .error e => s.coreFault k e.1 e.2 false
  | .ok l =>
    let r := writePieces (fun s p => s.storePiece k p.1 p.2) s (cutData l data)
    if r.2 then r.1 else r.1.coreFault k 7 va false

/-- A core's AMO: it reads, and writes where the read gave its bytes and the write is allowed. -/
def State.coreAmo (s : State) (k va : Nat) (data : List Byte) : State :=
  match s.corePieces k .store va data.length with
  | .error e => s.coreFault k e.1 e.2 false
  | .ok l =>
    let r := readPieces (fun s p => s.loadPiece k p.1 p.2) s l
    match r.2 with
    | .error dross => r.1.coreFault k 7 va dross
    | .ok b =>
      let w := writePieces (fun s p => s.storePiece k p.1 p.2) r.1 (cutData l data)
      if w.2 then w.1.emit (.coreData k b) else w.1.coreFault k 7 va false

/-- Run a core's access, or wait at the first of its lines that holds it: Retry (09 R227) or the line's stack (10 R247). -/
def State.coreOn (s : State) (k : Nat) (a : VaKind) (va len : Nat) (f : State → State) : State :=
  let n := s.corePart k
  let via : Via := { cluster := some (k / 8), store := a == .store }
  match s.corePieces k a va len with
  | .error _ => f s
  | .ok l =>
    match l.findSome? (fun q => if s.inPpa n q.1 q.2 then
        (pieces (q.2 / 64 + 2) q.1 q.2).findSome? (fun x => s.lineWaits ((s.ppaToHpa n x.1).getD 0 / 64) via) else none) with
    | some t => t
    | none => f s

/-- CORE_MEMORY_ACCESS (06 R142, R143, R147; 17 R451): a core of a cluster that a Fence holds presents nothing (15 R414). -/
def execCoreMemoryAccess (core : CoreId) (addr : Nat) (a : CoreAccess) (s : State) : Res' :=
  let k := core.val
  closing (onlyIf (s.coreRuns k && !(s.heldUnit (some (.cluster (k / 8))))) (fun s =>
    match a with
    | .load len => s.coreOn k .load addr len (fun s => s.coreFetch k addr len .load)
    | .store data => s.coreOn k .store addr data.length (fun s => s.coreStores k addr data)
    | .amo data => s.coreOn k .store addr data.length (fun s => s.coreAmo k addr data)
    | .fetch len => s.coreOn k .fetch addr len (fun s => s.coreFetch k addr len .fetch)) s)

end Sys2Proof.Machine
end

