-- ==== Sys2Proof/Machine/Late.lean ====
section
/-!
DEFINITION. Windows of the regulators (08 R202; 10 R247), the timers of the requester ports (08 R212), and the memory requests of foreign
chiplets (13 R346).
-/

namespace Sys2Proof.Machine

/-- The chiplet of site k is foreign and its site carries requests (13 R346; 15 R414): Pn owns it whole. -/
def State.foreignOpen (s : State) (k n : Nat) : Bool :=
  let t := s.site k
  t.kind == 2 && (t.state == 1 || t.state == 5) && !(s.siteIsolated k) && !(s.heldUnit (some (.site k))) && s.ready n

/-- Site k answers its chiplet. -/
def State.answerSite (s : State) (k a : Nat) (status : StatusCode) (data : List Byte) (dross : Bool) : State :=
  s.emit (.homeData (k % 6) (a / 64) status data dross)

/-- The window check of a streaming request (03 R70; 13 R346): a position is a cell of the site, and no access crosses 4 KiB. -/
def State.streamCheck (s : State) (k pos w : Nat) (write : Bool) (off len : Nat) : Option Nat :=
  if off % 4096 + len ≤ 4096 then s.winCheck (k * 16 + pos) w write off len else some 0x104

/-- A streaming request that its check refuses (03 R71; 13 R346). -/
def State.streamRefused (s : State) (k n src off : Nat) : State :=
  (s.alarm src n (some (.site k))).answerSite k off St.faultBounds [] false

/-- A foreign request that the regulator has let in (13 R340, R346): a chiplet without DROSS marks every line it writes. -/
def State.foreignNow (s : State) (k n : Nat) : ForeignReq → State
  | .streamRead pos w off len =>
    match s.streamCheck k pos.val w.val false off len with
    | some src => s.streamRefused k n src off
    | none =>
      let a := (s.window (k * 16 + pos.val) w.val).1 + off
      let (s, b, dross, st) := s.ppaRead n a len
      s.answerSite k a st b dross
  | .streamWrite pos w off data dross =>
    match s.streamCheck k pos.val w.val true off data.length with
    | some src => s.streamRefused k n src off
    | none =>
      let a := (s.window (k * 16 + pos.val) w.val).1 + off
      let (s, st) := s.ppaWrite n a data (dross || !((s.site k).features.testBit 3)) (some (.site k))
      s.answerSite k a st [] false
  | .cxl ppa unique hint =>
    match s.ppaToHpa n ppa with
    | none => (s.alarm 0x104 n (some (.site k))).answerSite k ppa St.faultBounds [] false
    | some hpa => s.agentRequest (halfOfSite k) (8 + k % 6) (hpa / 64) false (if unique then .rdu else .rds) hint

/-- Bytes that a foreign request injects. -/
def foreignLen : ForeignReq → Nat
  | .streamRead _ _ _ len => len
  | .streamWrite _ _ _ d _ => d.length
  | .cxl .. => 64

/-- A foreign request passes its site's injection regulator in order, or waits there (08 R202). -/
def State.foreignEnter (s : State) (k n : Nat) (r : ForeignReq) : State :=
  let wait := fun (s : State) => { s with fab := { s.fab with held := s.fab.held ++ [(k, r)] } }
  if s.fab.held.any (fun x => x.1 == k) then wait s
  else
    let g := s.inject (halfOfSite k) (k % 6) n (foreignLen r)
    if g.2 then g.1.foreignNow k n r else wait g.1

/-- FOREIGN_MEMORY_REQUEST (13 R346). -/
def execForeignMemoryRequest (site : SiteId) (r : ForeignReq) (s : State) : Res' :=
  let k := site.val
  closing (match s.ownerCell (k * 16) with
    | none => s
    | some n => onlyIf (s.foreignOpen k n) (fun s => s.foreignEnter k n r) s)

/-- The held requests of site k go on while the regulator is open. -/
def State.releaseForeign (k n : Nat) : Nat → State → State
  | 0, s => s
  | fuel + 1, s =>
    match s.fab.held.find? (fun x => x.1 == k) with
    | some (_, r) =>
      let g := s.inject (halfOfSite k) (k % 6) n (foreignLen r)
      if g.2 then
        let s : State := { g.1 with fab := { g.1.fab with held := g.1.fab.held.erase (k, r) } }
        State.releaseForeign k n fuel (if s.foreignOpen k n then s.foreignNow k n r else s)
      else g.1
    | none => s

/-- A held mover access leaves its site if the regulator lets it. -/
def State.freeAccess (s : State) (i n : Nat) (a : Access) : State × Access :=
  if a.held then
    let g := s.inject (halfOfSite (i / 16)) (i / 16 % 6) n a.len
    (g.1, { a with held := !g.2 })
  else (s, a)

/-- The held accesses of a transfer. -/
def State.freeTransfer (s : State) (i n : Nat) (t : Transfer) : State × Transfer :=
  let r := t.accesses.foldl (fun (acc : State × List Access) a => let g := acc.1.freeAccess i n a; (g.1, acc.2 ++ [g.2])) (s, [])
  (r.1, { t with accesses := r.2 })

/-- The held mover accesses of cell i of Pn leave, queue by queue and in order, while the regulator is open (08 R202). -/
def State.releaseMovers (s : State) (i n : Nat) : State :=
  (s.cell i).movers.foldl (fun s e =>
    let r := e.2.foldl (fun (acc : State × List Transfer) t => let g := acc.1.freeTransfer i n t; (g.1, acc.2 ++ [g.2])) (s, [])
    r.1.updCell i (fun c => c.updQ e.1 (fun _ => r.2))) s

/-- What master i of half h holds for Pn goes on, as far as its regulator lets it (08 R202). The Ethernet transmit path holds descriptors
in their queues, whose own commands try again. -/
def State.releaseMaster (s : State) (h i n : Nat) : State :=
  if i ≤ 5 then
    let k := h * 6 + i
    let s := forAll ((List.range 16).filter (fun c => s.ownerCell (k * 16 + c) == some n)) (fun c s => s.releaseMovers (k * 16 + c) n) s
    if s.ownerCell (k * 16) == some n then State.releaseForeign k n s.fab.held.length s else s
  else if 8 ≤ i && i ≤ 23 then State.pumpEngine (h * 16 + i - 8) 256 s
  else if i = 26 && h = 0 then State.releaseBar2 n s.pcie.held.length s
  else s

/-- REGULATOR_WINDOW_START (08 R202; 10 R247): the account of master i of half h, or of the half's stack i, for Pn is refilled, and what
was held goes on. -/
def execRegulatorWindowStart (h : HalfId) (i : Fin 64) (n : PartId) (stack : Bool) (s : State) : Res' :=
  closing (if stack then onlyIf (decide (i.val < 8)) (fun s => (s.stkRefill (h.val * 8 + i.val) n.val).releaseStack (h.val * 8 + i.val) n.val) s
    else onlyIf (regulated h.val i.val) (fun s => (s.injRefill h.val i.val n.val).releaseMaster h.val i.val n.val) s)

/-- A burst of a channel gets no answer: BURST_ERROR with TIMEOUT on the side that is out. -/
def State.burstTimeout (s : State) (i k : Nat) : State :=
  match (s.chan i).bursts[k]? with
  | none => s
  | some b =>
    if b.state = 0 && !b.srcHost then s.burstFail i b false St.timeout 0
    else if b.state = 1 && !b.dstHost then s.burstFail i b true St.timeout 0
    else s

/-- A coherent request or a home access that is open at an entry of half h's directory times out (08 R212): its requester gets TIMEOUT, and what it is
given later is dropped. -/
def State.cohTimeout (s : State) (h l : Nat) : State :=
  let e := s.dirEnt h l
  match e.txn with
  | none => s
  | some t =>
    if t.late || t.kind == .writeBack || t.kind == .evict || (t.requester == 14 && t.origin.isNone) then s
    else
      let s := s.emit (.homeData (t.origin.getD t.requester) l St.timeout [] false)
      let s := s.setDir h l { e with txn := some { t with late := true } }
      if t.delivered then s.finishTxn h l else s

/-- REQUEST_TIMEOUT (08 R212): requests are numbered 64 for each DMA channel, by their place among its bursts, then 256 for each matrix
cell, by their place among its mover accesses, then by half * 2^38 + line for what a directory entry serves (log entry 9). -/
def execRequestTimeout (id : Nat) (s : State) : Res' :=
  closing (if id < 65536 then s.burstTimeout (id / 64) (id % 64)
    else if 114688 ≤ id then s.cohTimeout ((id - 114688) / 2 ^ 38) ((id - 114688) % 2 ^ 38)
    else onlyIf (decide ((id - 65536) / 256 < 192)) (fun s => s.accessReturn ((id - 65536) / 256) ((id - 65536) % 256) (some St.timeout)) s)

end Sys2Proof.Machine
end

