-- ==== Sys2Proof/Machine/Dispatch.lean ====
section
/-!
DEFINITION. Which meaning each command has: one arm per constructor.
-/

namespace Sys2Proof.Machine

def exec (i : Instr) (s : State) : Host.Outcome State Fault Refusal :=
  match i with
  | .registerWrite p addr len value => Sys2Proof.Machine.execRegisterWrite p addr len value s
  | .patApply p value => Sys2Proof.Machine.execPatApply p value s
  | .buildDrainDone n => Sys2Proof.Machine.execBuildDrainDone n s
  | .zeroFillComplete n => Sys2Proof.Machine.execZeroFillComplete n s
  | .buildFlushDone n => Sys2Proof.Machine.execBuildFlushDone n s
  | .partitionBuilt n => Sys2Proof.Machine.execPartitionBuilt n s
  | .patternStoreWritten => Sys2Proof.Machine.execPatternStoreWritten s
  | .patCommit p value => Sys2Proof.Machine.execPatCommit p value s
  | .commitComplete scope => Sys2Proof.Machine.execCommitComplete scope s
  | .messageIngress m => Sys2Proof.Machine.execMessageIngress m s
  | .messageArrival k cycles => Sys2Proof.Machine.execMessageArrival k cycles s
  | .grantArrival k => Sys2Proof.Machine.execGrantArrival k s
  | .tallyReturnArrival k => Sys2Proof.Machine.execTallyReturnArrival k s
  | .tallyWaitTimeout cell => Sys2Proof.Machine.execTallyWaitTimeout cell s
  | .nop cell => Sys2Proof.Machine.execNop cell s
  | .mma cell f => Sys2Proof.Machine.execMma cell f s
  | .zac cell td int32 => Sys2Proof.Machine.execZac cell td int32 s
  | .lda cell td f ra => Sys2Proof.Machine.execLda cell td f ra s
  | .sta cell ts f ra => Sys2Proof.Machine.execSta cell ts f ra s
  | .qnt cell f => Sys2Proof.Machine.execQnt cell f s
  | .qnts cell f rc => Sys2Proof.Machine.execQnts cell f rc s
  | .eadd cell td ts => Sys2Proof.Machine.execEadd cell td ts s
  | .emul cell td ts => Sys2Proof.Machine.execEmul cell td ts s
  | .emax cell td ts => Sys2Proof.Machine.execEmax cell td ts s
  | .ecpy cell td ts => Sys2Proof.Machine.execEcpy cell td ts s
  | .escl cell td ra axis => Sys2Proof.Machine.execEscl cell td ra axis s
  | .ebias cell td ra axis => Sys2Proof.Machine.execEbias cell td ra axis s
  | .eact cell td ra => Sys2Proof.Machine.execEact cell td ra s
  | .erow cell ts ra axis fn => Sys2Proof.Machine.execErow cell ts ra axis fn s
  | .ecvt cell td ra axis dir => Sys2Proof.Machine.execEcvt cell td ra axis dir s
  | .snd cell f => Sys2Proof.Machine.execSnd cell f s
  | .rcv cell ra mailbox nb rd => Sys2Proof.Machine.execRcv cell ra mailbox nb rd s
  | .grant cell rb mailbox n => Sys2Proof.Machine.execGrant cell rb mailbox n s
  | .rtn cell rb mailbox n => Sys2Proof.Machine.execRtn cell rb mailbox n s
  | .mbcfg cell rb mailbox standing urgent => Sys2Proof.Machine.execMbcfg cell rb mailbox standing urgent s
  | .movr cell f => Sys2Proof.Machine.execMovr cell f s
  | .movw cell f => Sys2Proof.Machine.execMovw cell f s
  | .movr2 cell f rd re => Sys2Proof.Machine.execMovr2 cell f rd re s
  | .movw2 cell f rd re => Sys2Proof.Machine.execMovw2 cell f rd re s
  | .moverAccessReturn cell k err => Sys2Proof.Machine.execMoverAccessReturn cell k err s
  | .mwait cell qid n ra => Sys2Proof.Machine.execMwait cell qid n ra s
  | .wait cell rb mailbox n => Sys2Proof.Machine.execWait cell rb mailbox n s
  | .bar cell mask bid => Sys2Proof.Machine.execBar cell mask bid s
  | .fence cell => Sys2Proof.Machine.execFence cell s
  | .yld cell lrt => Sys2Proof.Machine.execYld cell lrt s
  | .cellSaveDone cell => Sys2Proof.Machine.execCellSaveDone cell s
  | .cellRestoreDone cell => Sys2Proof.Machine.execCellRestoreDone cell s
  | .li cell rd imm => Sys2Proof.Machine.execLi cell rd imm s
  | .addi cell rd ra imm => Sys2Proof.Machine.execAddi cell rd ra imm s
  | .andi cell rd ra imm => Sys2Proof.Machine.execAndi cell rd ra imm s
  | .add cell rd ra rb => Sys2Proof.Machine.execAdd cell rd ra rb s
  | .sub cell rd ra rb => Sys2Proof.Machine.execSub cell rd ra rb s
  | .mul cell rd ra rb => Sys2Proof.Machine.execMul cell rd ra rb s
  | .shli cell rd ra sh => Sys2Proof.Machine.execShli cell rd ra sh s
  | .shri cell rd ra sh => Sys2Proof.Machine.execShri cell rd ra sh s
  | .loop cell ra end_ => Sys2Proof.Machine.execLoop cell ra end_ s
  | .br cell off => Sys2Proof.Machine.execBr cell off s
  | .brc cell ra rb cond off => Sys2Proof.Machine.execBrc cell ra rb cond off s
  | .halt cell status => Sys2Proof.Machine.execHalt cell status s
  | .reservedOpcode cell word => Sys2Proof.Machine.execReservedOpcode cell word s
  | .fjSnd core addr desc => Sys2Proof.Machine.execFjSnd core addr desc s
  | .fjSndnb core addr desc => Sys2Proof.Machine.execFjSndnb core addr desc s
  | .fjRcv core addr rs2 => Sys2Proof.Machine.execFjRcv core addr rs2 s
  | .fjRcvnb core addr rs2 => Sys2Proof.Machine.execFjRcvnb core addr rs2 s
  | .fjGrant core rs1 rs2 => Sys2Proof.Machine.execFjGrant core rs1 rs2 s
  | .fjRtn core rs1 rs2 => Sys2Proof.Machine.execFjRtn core rs1 rs2 s
  | .fjMbcfg core rs1 rs2 => Sys2Proof.Machine.execFjMbcfg core rs1 rs2 s
  | .fjWait core rs1 rs2 => Sys2Proof.Machine.execFjWait core rs1 rs2 s
  | .fjTask core addr => Sys2Proof.Machine.execFjTask core addr s
  | .fjEvwait core rs1 => Sys2Proof.Machine.execFjEvwait core rs1 s
  | .fjWaitTimeout core => Sys2Proof.Machine.execFjWaitTimeout core s
  | .illegalInstruction core word => Sys2Proof.Machine.execIllegalInstruction core word s
  | .coreInterrupt core => Sys2Proof.Machine.execCoreInterrupt core s
  | .coreMemoryAccess core addr a => Sys2Proof.Machine.execCoreMemoryAccess core addr a s
  | .fjevtClear core mask => Sys2Proof.Machine.execFjevtClear core mask s
  | .allocJoin core rs1 rs2 => Sys2Proof.Machine.execAllocJoin core rs1 rs2 s
  | .allocGrowth core rs1 rs2 => Sys2Proof.Machine.execAllocGrowth core rs1 rs2 s
  | .free core rs1 rs2 => Sys2Proof.Machine.execFree core rs1 rs2 s
  | .stepBegin core rs1 rs2 => Sys2Proof.Machine.execStepBegin core rs1 rs2 s
  | .stepEnd core rs1 rs2 => Sys2Proof.Machine.execStepEnd core rs1 rs2 s
  | .reserveSet core rs1 rs2 => Sys2Proof.Machine.execReserveSet core rs1 rs2 s
  | .codeLoad p n value => Sys2Proof.Machine.execCodeLoad p n value s
  | .codeStop p n value => Sys2Proof.Machine.execCodeStop p n value s
  | .clustersStopped n => Sys2Proof.Machine.execClustersStopped n s
  | .codeImageChecked n => Sys2Proof.Machine.execCodeImageChecked n s
  | .frameReceived port f => Sys2Proof.Machine.execFrameReceived port f s
  | .rxqEventTimer q => Sys2Proof.Machine.execRxqEventTimer q s
  | .rxqEnable p q value => Sys2Proof.Machine.execRxqEnable p q value s
  | .rxqDisable p q value => Sys2Proof.Machine.execRxqDisable p q value s
  | .rxqPost p q cqhead value => Sys2Proof.Machine.execRxqPost p q cqhead value s
  | .gangStart site n => Sys2Proof.Machine.execGangStart site n s
  | .sliceEnd site n => Sys2Proof.Machine.execSliceEnd site n s
  | .contextResident site n overrun => Sys2Proof.Machine.execContextResident site n overrun s
  | .stretchTimeout cell => Sys2Proof.Machine.execStretchTimeout cell s
  | .saveRestoreFailure cell status => Sys2Proof.Machine.execSaveRestoreFailure cell status s
  | .runlistWrite p n value => Sys2Proof.Machine.execRunlistWrite p n value s
  | .schResume p n value => Sys2Proof.Machine.execSchResume p n value s
  | .schLose p n value => Sys2Proof.Machine.execSchLose p n value s
  | .schReset p n value => Sys2Proof.Machine.execSchReset p n value s
  | .contextAbortDone n c => Sys2Proof.Machine.execContextAbortDone n c s
  | .regulatorWindowStart h k n stack => Sys2Proof.Machine.execRegulatorWindowStart h k n stack s
  | .requestTimeout id => Sys2Proof.Machine.execRequestTimeout id s
  | .unexpectedResponse h => Sys2Proof.Machine.execUnexpectedResponse h s
  | .linkRetry h router port repair => Sys2Proof.Machine.execLinkRetry h router port repair s
  | .laneRepairDone h router port ok => Sys2Proof.Machine.execLaneRepairDone h router port ok s
  | .sinkTimeout site => Sys2Proof.Machine.execSinkTimeout site s
  | .rds h agent line hint tally => Sys2Proof.Machine.execRds h agent line hint tally s
  | .rdu h agent line hint tally => Sys2Proof.Machine.execRdu h agent line hint tally s
  | .upgrade h agent line tally => Sys2Proof.Machine.execUpgrade h agent line tally s
  | .writeBack h agent line => Sys2Proof.Machine.execWriteBack h agent line s
  | .evictionNotice h agent line => Sys2Proof.Machine.execEvictionNotice h agent line s
  | .homeRead h master line hint tally => Sys2Proof.Machine.execHomeRead h master line hint tally s
  | .homeFullWrite h master line data dross hint tally => Sys2Proof.Machine.execHomeFullWrite h master line data dross hint tally s
  | .homePartialWrite h master line mask data hint tally => Sys2Proof.Machine.execHomePartialWrite h master line mask data hint tally s
  | .snpShared h agent line => Sys2Proof.Machine.execSnpShared h agent line s
  | .snpUnique h agent line => Sys2Proof.Machine.execSnpUnique h agent line s
  | .snpInv h agent line => Sys2Proof.Machine.execSnpInv h agent line s
  | .snpCur h agent line => Sys2Proof.Machine.execSnpCur h agent line s
  | .snoopAnswer h agent line => Sys2Proof.Machine.execSnoopAnswer h agent line s
  | .writeBackGrant h agent line => Sys2Proof.Machine.execWriteBackGrant h agent line s
  | .stale h agent line => Sys2Proof.Machine.execStale h agent line s
  | .retry h agent line => Sys2Proof.Machine.execRetry h agent line s
  | .retryGrant h agent line => Sys2Proof.Machine.execRetryGrant h agent line s
  | .completionAck h agent line => Sys2Proof.Machine.execCompletionAck h agent line s
  | .snoopTimeout h agent line => Sys2Proof.Machine.execSnoopTimeout h agent line s
  | .reclaimWalkDone h => Sys2Proof.Machine.execReclaimWalkDone h s
  | .hmcRead line => Sys2Proof.Machine.execHmcRead line s
  | .hmcFullWrite line data dross => Sys2Proof.Machine.execHmcFullWrite line data dross s
  | .hmcPartialWrite line mask data => Sys2Proof.Machine.execHmcPartialWrite line mask data s
  | .regionZeroed pch region => Sys2Proof.Machine.execRegionZeroed pch region s
  | .zeroFillPassStep pch => Sys2Proof.Machine.execZeroFillPassStep pch s
  | .wcbAgeTimeout pch => Sys2Proof.Machine.execWcbAgeTimeout pch s
  | .stackTempSample stack temp => Sys2Proof.Machine.execStackTempSample stack temp s
  | .stackOnline p stack value cool => Sys2Proof.Machine.execStackOnline p stack value cool s
  | .stackOnlineDone stack => Sys2Proof.Machine.execStackOnlineDone stack s
  | .rotate p n value => Sys2Proof.Machine.execRotate p n value s
  | .keySweepStep n pch => Sys2Proof.Machine.execKeySweepStep n pch s
  | .dmaChEnable p ch value => Sys2Proof.Machine.execDmaChEnable p ch value s
  | .dmaChDisable p ch value => Sys2Proof.Machine.execDmaChDisable p ch value s
  | .dmaChPause p ch value => Sys2Proof.Machine.execDmaChPause p ch value s
  | .dmaChUnpause p ch value => Sys2Proof.Machine.execDmaChUnpause p ch value s
  | .dmaPauseDrained ch => Sys2Proof.Machine.execDmaPauseDrained ch s
  | .dmaDoorbell p ch value => Sys2Proof.Machine.execDmaDoorbell p ch value s
  | .descriptorFetch ch host => Sys2Proof.Machine.execDescriptorFetch ch host s
  | .burstAck ch k latency => Sys2Proof.Machine.execBurstAck ch k latency s
  | .burstError ch k side status => Sys2Proof.Machine.execBurstError ch k side status s
  | .dmaResume p ch value => Sys2Proof.Machine.execDmaResume p ch value s
  | .dmaAbort p ch value => Sys2Proof.Machine.execDmaAbort p ch value s
  | .dmaAbortDone ch => Sys2Proof.Machine.execDmaAbortDone ch s
  | .dmaSave p ch value => Sys2Proof.Machine.execDmaSave p ch value s
  | .walkDone ch => Sys2Proof.Machine.execWalkDone ch s
  | .faultTaken ch => Sys2Proof.Machine.execFaultTaken ch s
  | .fqHeadWrite p n value => Sys2Proof.Machine.execFqHeadWrite p n value s
  | .xltFaultResolve p n value => Sys2Proof.Machine.execXltFaultResolve p n value s
  | .pageReady e id => Sys2Proof.Machine.execPageReady e id s
  | .faultRecordTimeout id => Sys2Proof.Machine.execFaultRecordTimeout id s
  | .xltInvCmd p n value => Sys2Proof.Machine.execXltInvCmd p n value s
  | .invEngineAck n e => Sys2Proof.Machine.execInvEngineAck n e s
  | .bar2Read n off len tbit => Sys2Proof.Machine.execBar2Read n off len tbit s
  | .bar2Write n off data tbit => Sys2Proof.Machine.execBar2Write n off data tbit s
  | .hostCompletion tag lower count data bad => Sys2Proof.Machine.execHostCompletion tag lower count data bad s
  | .completionTimeout tag => Sys2Proof.Machine.execCompletionTimeout tag s
  | .tagQuarantineEnd tag => Sys2Proof.Machine.execTagQuarantineEnd tag s
  | .pcieLinkDown => Sys2Proof.Machine.execPcieLinkDown s
  | .pcieLinkUp rate width flit => Sys2Proof.Machine.execPcieLinkUp rate width flit s
  | .vfFlr n => Sys2Proof.Machine.execVfFlr n s
  | .pf0Flr => Sys2Proof.Machine.execPf0Flr s
  | .tdiConfigViolation n => Sys2Proof.Machine.execTdiConfigViolation n s
  | .stopInterface n => Sys2Proof.Machine.execStopInterface n s
  | .vfApertureWrite p n value => Sys2Proof.Machine.execVfApertureWrite p n value s
  | .msixUnmask fn vec => Sys2Proof.Machine.execMsixUnmask fn vec s
  | .queueEnable p n q value => Sys2Proof.Machine.execQueueEnable p n q value s
  | .queueDisable p n q value => Sys2Proof.Machine.execQueueDisable p n q value s
  | .queueDoorbell p n q value => Sys2Proof.Machine.execQueueDoorbell p n q value s
  | .queueNop n q host => Sys2Proof.Machine.execQueueNop n q host s
  | .queueTask n q host => Sys2Proof.Machine.execQueueTask n q host s
  | .queueWait n q host => Sys2Proof.Machine.execQueueWait n q host s
  | .queueSignal n q host => Sys2Proof.Machine.execQueueSignal n q host s
  | .fenceSignal p n f value => Sys2Proof.Machine.execFenceSignal p n f value s
  | .fenceReset p n f value => Sys2Proof.Machine.execFenceReset p n f value s
  | .ospCap site idx word => Sys2Proof.Machine.execOspCap site idx word s
  | .ospCapAck site idx => Sys2Proof.Machine.execOspCapAck site idx s
  | .ospCheck site word => Sys2Proof.Machine.execOspCheck site word s
  | .ospReset site mask core => Sys2Proof.Machine.execOspReset site mask core s
  | .ospIdentity site chunk data => Sys2Proof.Machine.execOspIdentity site chunk data s
  | .ospError site fatal code => Sys2Proof.Machine.execOspError site fatal code s
  | .ospUnknownCode site code => Sys2Proof.Machine.execOspUnknownCode site code s
  | .siteReset p site value => Sys2Proof.Machine.execSiteReset p site value s
  | .siteProtocolReady site => Sys2Proof.Machine.execSiteProtocolReady site s
  | .siteMainbandTrained site widths agree => Sys2Proof.Machine.execSiteMainbandTrained site widths agree s
  | .siteRetrain p site value => Sys2Proof.Machine.execSiteRetrain p site value s
  | .siteOff p site value => Sys2Proof.Machine.execSiteOff p site value s
  | .moduleRetrainDone site u width => Sys2Proof.Machine.execModuleRetrainDone site u width s
  | .retrainTimeout site u => Sys2Proof.Machine.execRetrainTimeout site u s
  | .routeModuleTimeout site u => Sys2Proof.Machine.execRouteModuleTimeout site u s
  | .portNativeTimeout port => Sys2Proof.Machine.execPortNativeTimeout port s
  | .portUp port => Sys2Proof.Machine.execPortUp port s
  | .portLaneDown port => Sys2Proof.Machine.execPortLaneDown port s
  | .pauseFrameRx port prio on => Sys2Proof.Machine.execPauseFrameRx port prio on s
  | .roceSendRx n k psn data imm ce => Sys2Proof.Machine.execRoceSendRx n k psn data imm ce s
  | .roceRdmaWriteRx n k psn rkey addr data imm ce => Sys2Proof.Machine.execRoceRdmaWriteRx n k psn rkey addr data imm ce s
  | .roceRdmaReadRx n k psn rkey addr len ce => Sys2Proof.Machine.execRoceRdmaReadRx n k psn rkey addr len ce s
  | .roceReadResponseRx n k psn data => Sys2Proof.Machine.execRoceReadResponseRx n k psn data s
  | .roceAckRx n k psn => Sys2Proof.Machine.execRoceAckRx n k psn s
  | .roceNakRx n k psn => Sys2Proof.Machine.execRoceNakRx n k psn s
  | .cnpRx n k => Sys2Proof.Machine.execCnpRx n k s
  | .cnpRateIncrease n k => Sys2Proof.Machine.execCnpRateIncrease n k s
  | .roceRetryTimeout n k => Sys2Proof.Machine.execRoceRetryTimeout n k s
  | .txqEnable p q value => Sys2Proof.Machine.execTxqEnable p q value s
  | .txqDisable p q value => Sys2Proof.Machine.execTxqDisable p q value s
  | .txqDoorbell p q cqhead value => Sys2Proof.Machine.execTxqDoorbell p q cqhead value s
  | .txRawFrame q => Sys2Proof.Machine.execTxRawFrame q s
  | .txSend q => Sys2Proof.Machine.execTxSend q s
  | .txSendImm q => Sys2Proof.Machine.execTxSendImm q s
  | .txWrite q => Sys2Proof.Machine.execTxWrite q s
  | .txWriteImm q => Sys2Proof.Machine.execTxWriteImm q s
  | .txRead q => Sys2Proof.Machine.execTxRead q s
  | .qpLoad p n value => Sys2Proof.Machine.execQpLoad p n value s
  | .qpError p n value => Sys2Proof.Machine.execQpError p n value s
  | .ringFrameRx h cls seq dest crcOk payload => Sys2Proof.Machine.execRingFrameRx h cls seq dest crcOk payload s
  | .ringNakRx h seq => Sys2Proof.Machine.execRingNakRx h seq s
  | .ringAckTimeout h => Sys2Proof.Machine.execRingAckTimeout h s
  | .ringLaneFail h lane => Sys2Proof.Machine.execRingLaneFail h lane s
  | .ringLinkUp h lanes => Sys2Proof.Machine.execRingLinkUp h lanes s
  | .beaconTimer => Sys2Proof.Machine.execBeaconTimer s
  | .beaconRx h pos => Sys2Proof.Machine.execBeaconRx h pos s
  | .positionAbsent pos => Sys2Proof.Machine.execPositionAbsent pos s
  | .aditThrough p value => Sys2Proof.Machine.execAditThrough p value s
  | .aditOpen p value loopback => Sys2Proof.Machine.execAditOpen p value loopback s
  | .aditSwitchDone => Sys2Proof.Machine.execAditSwitchDone s
  | .groupActivate p n value => Sys2Proof.Machine.execGroupActivate p n value s
  | .groupKeyed n g ok => Sys2Proof.Machine.execGroupKeyed n g ok s
  | .groupRetire p n value => Sys2Proof.Machine.execGroupRetire p n value s
  | .collectivePost p n value => Sys2Proof.Machine.execCollectivePost p n value s
  | .collectiveFrame n g aft seq step data scales dross us => Sys2Proof.Machine.execCollectiveFrame n g aft seq step data scales dross us s
  | .collectiveWatchdog n g us => Sys2Proof.Machine.execCollectiveWatchdog n g us s
  | .abortToken n g seq origin aft us => Sys2Proof.Machine.execAbortToken n g seq origin aft us s
  | .twinStart p n value twinOk => Sys2Proof.Machine.execTwinStart p n value twinOk s
  | .twinCheckpoint p n value => Sys2Proof.Machine.execTwinCheckpoint p n value s
  | .twinStop p n value => Sys2Proof.Machine.execTwinStop p n value s
  | .checkpointBoundary n => Sys2Proof.Machine.execCheckpointBoundary n s
  | .checkpointComplete n => Sys2Proof.Machine.execCheckpointComplete n s
  | .twinStreamRx n region data drossLines last number logIdx => Sys2Proof.Machine.execTwinStreamRx n region data drossLines last number logIdx s
  | .twinLogAppend p n value => Sys2Proof.Machine.execTwinLogAppend p n value s
  | .twinLogRx n ppa data idx => Sys2Proof.Machine.execTwinLogRx n ppa data idx s
  | .twinLogAckRx n idx => Sys2Proof.Machine.execTwinLogAckRx n idx s
  | .downToken n auth => Sys2Proof.Machine.execDownToken n auth s
  | .ringDarkFence => Sys2Proof.Machine.execRingDarkFence s
  | .takeoverDone n => Sys2Proof.Machine.execTakeoverDone n s
  | .pairKeyExchange ok => Sys2Proof.Machine.execPairKeyExchange ok s
  | .lcsTransition p token len => Sys2Proof.Machine.execLcsTransition p token len s
  | .lcsWipeDone => Sys2Proof.Machine.execLcsWipeDone s
  | .provisionOpkey p token len => Sys2Proof.Machine.execProvisionOpkey p token len s
  | .revokeOpkey p token len => Sys2Proof.Machine.execRevokeOpkey p token len s
  | .bindTwin p token len => Sys2Proof.Machine.execBindTwin p token len s
  | .unbindTwin p token len => Sys2Proof.Machine.execUnbindTwin p token len s
  | .integrationRecord p token len => Sys2Proof.Machine.execIntegrationRecord p token len s
  | .raiseAlarmFloor p token len => Sys2Proof.Machine.execRaiseAlarmFloor p token len s
  | .setConfOnly p token len => Sys2Proof.Machine.execSetConfOnly p token len s
  | .commitFwSvn p token len => Sys2Proof.Machine.execCommitFwSvn p token len s
  | .restoreOpkey p token len => Sys2Proof.Machine.execRestoreOpkey p token len s
  | .keyWaitTimeout => Sys2Proof.Machine.execKeyWaitTimeout s
  | .fwTransferEnd version svn signed manifest => Sys2Proof.Machine.execFwTransferEnd version svn signed manifest s
  | .fwActivate p value => Sys2Proof.Machine.execFwActivate p value s
  | .fwDiscard p value => Sys2Proof.Machine.execFwDiscard p value s
  | .fwActivated => Sys2Proof.Machine.execFwActivated s
  | .fwActivateTimeout => Sys2Proof.Machine.execFwActivateTimeout s
  | .confSet p n => Sys2Proof.Machine.execConfSet p n s
  | .debugAuth p n auth => Sys2Proof.Machine.execDebugAuth p n auth s
  | .debugGrant p value => Sys2Proof.Machine.execDebugGrant p value s
  | .testAccessInstruction die instr => Sys2Proof.Machine.execTestAccessInstruction die instr s
  | .hallmarkRequest p n value => Sys2Proof.Machine.execHallmarkRequest p n value s
  | .hallmarkDone n len => Sys2Proof.Machine.execHallmarkDone n len s
  | .spdmDiscovery fn => Sys2Proof.Machine.execSpdmDiscovery fn s
  | .getDigests fn => Sys2Proof.Machine.execGetDigests fn s
  | .getCertificate fn => Sys2Proof.Machine.execGetCertificate fn s
  | .challenge fn nonce => Sys2Proof.Machine.execChallenge fn nonce s
  | .getMeasurements fn nonce => Sys2Proof.Machine.execGetMeasurements fn nonce s
  | .keyExchange fn => Sys2Proof.Machine.execKeyExchange fn s
  | .finish fn ok => Sys2Proof.Machine.execFinish fn ok s
  | .endSession fn => Sys2Proof.Machine.execEndSession fn s
  | .keyProg fn => Sys2Proof.Machine.execKeyProg fn s
  | .railCanary rail => Sys2Proof.Machine.execRailCanary rail s
  | .clockCanary => Sys2Proof.Machine.execClockCanary s
  | .tempCanary => Sys2Proof.Machine.execTempCanary s
  | .tamper => Sys2Proof.Machine.execTamper s
  | .glitch => Sys2Proof.Machine.execGlitch s
  | .rngHealth => Sys2Proof.Machine.execRngHealth s
  | .noteSummary source scope => Sys2Proof.Machine.execNoteSummary source scope s
  | .tenantRaise p n value => Sys2Proof.Machine.execTenantRaise p n value s
  | .logRead p value => Sys2Proof.Machine.execLogRead p value s
  | .logAck p value => Sys2Proof.Machine.execLogAck p value s
  | .feedGood f decivolts => Sys2Proof.Machine.execFeedGood f decivolts s
  | .feedLeavesGood f decivolts => Sys2Proof.Machine.execFeedLeavesGood f decivolts s
  | .feedOver f decivolts => Sys2Proof.Machine.execFeedOver f decivolts s
  | .pwrFail => Sys2Proof.Machine.execPwrFail s
  | .brownOut => Sys2Proof.Machine.execBrownOut s
  | .powerLimitTick watts => Sys2Proof.Machine.execPowerLimitTick watts s
  | .dieTempSample h temp lasted1ms => Sys2Proof.Machine.execDieTempSample h temp lasted1ms s
  | .pwrCapWrite p value => Sys2Proof.Machine.execPwrCapWrite p value s
  | .pithead => Sys2Proof.Machine.execPithead s
  | .stage1 ok level0 level1 => Sys2Proof.Machine.execStage1 ok level0 level1 s
  | .stage2 => Sys2Proof.Machine.execStage2 s
  | .stage3 => Sys2Proof.Machine.execStage3 s
  | .fullFunction => Sys2Proof.Machine.execFullFunction s
  | .stageBoundMissed stage => Sys2Proof.Machine.execStageBoundMissed stage s
  | .resetPin => Sys2Proof.Machine.execResetPin s
  | .moduleReset p value => Sys2Proof.Machine.execModuleReset p value s
  | .partitionReset p value => Sys2Proof.Machine.execPartitionReset p value s
  | .halfFailure h => Sys2Proof.Machine.execHalfFailure h s
  | .eccError h cls str index addr scope status => Sys2Proof.Machine.execEccError h cls str index addr scope status s
  | .correctedSummary h str => Sys2Proof.Machine.execCorrectedSummary h str s
  | .assayTestStart h => Sys2Proof.Machine.execAssayTestStart h s
  | .assayTestDone h str index lasting => Sys2Proof.Machine.execAssayTestDone h str index lasting s
  | .burstReadReturn ch k => Sys2Proof.Machine.execBurstReadReturn ch k s
  | .abortBoundStop n c => Sys2Proof.Machine.execAbortBoundStop n c s
  | .foreignMemoryRequest site r => Sys2Proof.Machine.execForeignMemoryRequest site r s
  | .ucieLinkRecovery site u => Sys2Proof.Machine.execUcieLinkRecovery site u s
  | .vsiteRailFault site => Sys2Proof.Machine.execVsiteRailFault site s
  | .frameLeavesPort port k => Sys2Proof.Machine.execFrameLeavesPort port k s
  | .lockInterface n => Sys2Proof.Machine.execLockInterface n s
  | .startInterface n => Sys2Proof.Machine.execStartInterface n s
  | .entropyHealthChange healthy => Sys2Proof.Machine.execEntropyHealthChange healthy s
  | .alarmOutPulseEnd => Sys2Proof.Machine.execAlarmOutPulseEnd s
  | .resetRelease => Sys2Proof.Machine.execResetRelease s
  | .perstRelease => Sys2Proof.Machine.execPerstRelease s
  | .xfjmCsrWrite core csr value => Sys2Proof.Machine.execXfjmCsrWrite core csr value s

end Sys2Proof.Machine
end

