-- ==== Sys2Proof/Safety.lean ====
section
/-!
DEFINITION. What counts as a safe state, and the conditions under which the statements say what a command does.
-/

namespace Sys2Proof.Machine

/-- Memory is in its canonical form: addresses strictly rising, no byte listed that an unlisted address reads as (log entry 5). -/
def Memory.wf (m : List Host.Cell) : Bool := Tab.wf 0 m

/-- One byte of HBM as the model reads it. -/
def State.byteAt (s : State) (hpa : Nat) : Byte := Tab.get 0 s.mem hpa

/-- Nothing is left to judge: every command begins and ends so. -/
abbrev State.quiet (s : State) : Prop := s.dues = []

/-- A state between commands: its memory is canonical and nothing is left to judge. -/
abbrev State.safe (s : State) : Prop := Memory.wf s.mem = true ∧ s.quiet

/-- Command c at s answers a next state that satisfies p. -/
def Gives (c : Instr) (s : State) (p : State → Prop) : Prop := ∃ t, exec c s = .next t ∧ p t

/-- Index of the instruction that follows the one at cell i's PC (04 R103). -/
def State.pcAfter (s : State) (i : Nat) : Nat := (nextPc (s.cell i).loops ((s.cell i).pc + 1)).1

/-- Cell i may issue, and what follows its instruction lies in its code (04 R100, R101). -/
abbrev State.runs (s : State) (i : Nat) : Prop := s.quiet ∧ s.mayIssue i = true ∧ s.pcAfter i < (s.cell i).codeLen

/-- Cell i goes past its instruction: its PC and loops take their next values (04 R103). -/
def State.pastInstr (s : State) (i : Nat) : State :=
  s.updCell i (fun c => { c with pc := (nextPc c.loops (c.pc + 1)).1, loops := (nextPc c.loops (c.pc + 1)).2 })

/-- Path p presents what it carries: neither a Fence nor a closed operator path drops it (15 R414). -/
abbrev State.carries (s : State) (p : Path) : Prop := s.quiet ∧ s.pathShut p = false

/-- The hub's registers decode and path p presents what it carries (15 R414; 16 R433). -/
abbrev State.hubCarries (s : State) (p : Path) : Prop := s.carries p ∧ s.pwr.stage ≠ 0

/-- The hub's own writes into Pn's memory meet no protected code image (06 R147). -/
abbrev State.unprotected (s : State) (n : Nat) : Prop := s.quiet ∧ (s.code n).images = []

/-- The loss of context c of Pn ends no other work: Pn runs no protected image, the context has no enabled queue, and no task of Pn waits. -/
abbrev State.calm (s : State) (n c : Nat) : Prop := s.unprotected n ∧ s.queuesOf n c = [] ∧ (s.sch n).waiting = []

/-- No cell waits to issue an instruction. -/
abbrev State.noCellWaits (s : State) : Prop := ∀ e ∈ s.cells, e.2.waiting = none

/-- No line of a range of Pn's PPA holds an access from port p: no open transaction, no earlier request, no regulator (09 R227; 10 R242, R247). -/
abbrev State.lets (s : State) (n ppa len : Nat) (p : Via) : Prop :=
  ∀ x ∈ pieces (len / 64 + 2) ppa len, s.lineWaits ((s.ppaToHpa n x.1).getD 0 / 64) p = none

/-- Core k issues an Xfjm instruction (06 R149): it runs and waits in nothing, in M- or S-mode, or in U-mode with UEN set. -/
abbrev State.coreIssues (s : State) (k : Nat) : Prop := s.quiet ∧ s.coreRuns k = true ∧ ((s.core k).priv ≠ 0 ∨ (s.core k).uen = true)

/-- The port of core k's cluster (06 R141). -/
def corePort (k : Nat) : Via := { cluster := some (k / 8) }

/-- Core k's access of len bytes at va has one piece, at physical address pa (06 R142): with translation off, pa is va. -/
abbrev State.corePlace (s : State) (k : Nat) (a : VaKind) (va len pa : Nat) : Prop := s.corePieces k a va len = .ok [(pa, len)]

/-- Between s and t core k took an exception (06 R143, R149) with a cause and a tval: it runs in M-mode and waits in nothing. -/
def State.coreTrapped (s t : State) (k cause tval : Nat) : Prop :=
  (t.core k).cause = cause ∧ (t.core k).tval = tval ∧ (t.core k).excs = (s.core k).excs + 1 ∧ (t.core k).priv = 3 ∧ (t.core k).waiting = none

/-- rs1 of FJ.POOL names operation op with this JOIN, its reserved bits 0 (06 R161). -/
abbrev poolNames (rs1 : Word64) (op : Nat) (join : Bool) : Prop :=
  bits rs1.toNat 10 8 = op ∧ rs1.toNat.testBit 4 = join ∧ bits rs1.toNat 63 29 = 0 ∧ bits rs1.toNat 15 11 = 0 ∧ bits rs1.toNat 7 5 = 0
    ∧ bits rs1.toNat 3 2 = 0

/-- Cell i's register rd takes a value and the cell goes on (04 R88, R103). -/
def State.wrote (s : State) (i rd : Nat) (v : Word32) : State := (s.updCell i (fun c => c.setReg rd v)).pastInstr i

/-- A computing instruction of cell i leaves the cell c and its context the safeguard counters g, and the cell goes on. -/
def State.computed (s : State) (i : Nat) (c : Cell) (g : Guard) : State :=
  ((s.updCell i (fun _ => c)).setGuard (s.cellPart i) c.ctx g).pastInstr i

/-- Cell i runs and no mover transfer in flight touches the ranges of its instruction (04 R100). -/
abbrev State.runsFree (s : State) (i : Nat) (f : Foot) : Prop := s.runs i ∧ (s.cell i).conflicts f = false

/-- A computing instruction that wrote tile td of cell c gives d: every element of the tile is as f says, its TYPE is int, and the rest of the
cell stands. -/
def Cell.tileBecame (c d : Cell) (td : Nat) (int : Bool) (f : Nat → Nat → Word32) : Prop :=
  (∀ r k, r < 128 → k < 128 → d.elem td r k = f r k) ∧ d.isInt td = int
    ∧ (∀ u r k, u ≠ td → r < 128 → k < 128 → d.elem u r k = c.elem u r k) ∧ d.scratch = c.scratch ∧ d.sregs = c.sregs ∧ d.pc = c.pc

/-- The command on cell i computes: it answers the state after a computation whose cell satisfies p. -/
def Computes (c : Instr) (s : State) (i : Nat) (p : Cell → Prop) : Prop := ∃ d g, exec c s = .next (s.computed i d g) ∧ p d

/-- What the home of line l sends to its stack goes at once: no cache holds the line, or neither a regulator nor an earlier request is in the way
(10 R242, R247). -/
abbrev State.stackFree (s : State) (l : Nat) : Prop := s.fromHbm l = true → s.hmcHolds l = none ∧ s.lineHeld l = false

/-- Half h takes a request of requester r for line l at once: h is its home, no transaction and no tally of the line is open, fewer than 16 of r are
outstanding, and the entry holds the line or its set has room for its partition (09 R225-R231). -/
abbrev State.takesIn (s : State) (h r l : Nat) : Prop :=
  homeOf l = h ∧ s.lineOffline l = false ∧ (s.dirEnt h l).txn = none ∧ s.coh.tallies.any (fun x => x.half == h && x.line == l) = false
    ∧ s.outstandingAt h r l < 16 ∧ s.stackFree l
    ∧ ((s.dirEnt h l).st ≠ .i ∨ (s.dirSetEntries h l ((s.ownerPch (pchOfLine l)).getD 16)).length < popCount 64 (s.slice ((s.ownerPch (pchOfLine l)).getD 16)).ways)

/-- The same of a caching agent a whose write-back buffer does not hold the line (09 R228). -/
abbrev State.takesFrom (s : State) (h a l : Nat) : Prop := s.takesIn h a l ∧ s.wbOf h a l = none

/-- What the home of line l gives where no cache but its own holds the line: its SLC's data, else HBM's; of a retired granule, zeros (10 R262). -/
def State.homeData (s : State) (h l : Nat) : List Byte :=
  match if s.isRetired l then none else s.slcLine h l with | some c => c.data | none => (s.hbmPeek l).data

/-- A write on path p reaches the registers of DMA channel i (11 R265, R276). -/
abbrev State.chanCarries (s : State) (p : Path) (i : Nat) : Prop := s.carries p ∧ s.chanReached p i = true

/-- No channel of channel i's engine but i itself can issue a burst (11 R273). -/
abbrev State.engineFree (s : State) (i : Nat) : Prop := ∀ k, k < 32 → i / 32 * 32 + k ≠ i → (s.chan (i / 32 * 32 + k)).mayIssue = false

/-- A command that reaches channel i leaves it as c, and all else stands. -/
def State.chanBecomes (s : State) (i : Nat) (c : Chan) : State := s.updChan i (fun _ => c)

/-- Queue q of Pn may fetch the entry at its HEAD from a ring in its PPA: it runs, none of its entries is in progress, and the entry's bytes are b, neither
dross nor malformed (12 R321-R324). -/
abbrev State.fetches (s : State) (n q : Nat) (b : List Byte) : Prop :=
  let x := s.queue n q
  s.unprotected n ∧ x.en = true ∧ x.state = 2 ∧ x.len ≠ 0 ∧ x.head ≠ x.tail ∧ x.entries = [] ∧ s.ready n = true ∧ s.ctxLost n x.ctx = false
    ∧ queueInHost x = false ∧ s.ppaPeek n (queueAddr x x.head) 128 = (b, false, St.ok) ∧ entryBad b = false ∧ (s.twin n).state ≠ 4

/-- The state in which the entry at HEAD of queue q of Pn has been fetched. -/
def State.fetched (s : State) (n q : Nat) (b : List Byte) : State :=
  (s.ppaReport n (queueAddr (s.queue n q) (s.queue n q).head) 128).updQueue n q (fun x => x.taken { idx := (s.queue n q).head, bytes := b })

/-- No queue of Pn waits at a fence. -/
abbrev State.noWaits (s : State) (n : Nat) : Prop := ∀ q, q < 128 → (s.queue n q).state ≠ 3

/-- Site k serves no partition, and no work waits on it: its death touches nothing else. -/
abbrev State.spareSite (s : State) (k : Nat) : Prop :=
  s.quiet ∧ s.noCellWaits ∧ s.flights = [] ∧ ∀ n ∈ allParts, s.claims n (fun x => bits x.cells (k * 16 + 15) (k * 16) != 0) = false

/-- Command c at s leaves site k dead with a cause (13 R350). -/
def Kills (c : Instr) (s : State) (k cause : Nat) : Prop := Gives c s fun t => (t.site k).state = 2 ∧ (t.site k).cause = cause ∧ (t.site k).step = 0

/-- Half h's ring port has presented this frame, or holds it waiting (14 R376). -/
def State.ringHas (t : State) (h cls dest : Nat) (payload : List Byte) : Prop :=
  .ring h cls dest payload ∈ t.out ∨ ∃ f ∈ (t.ringPort h).waiting, f.cls = cls ∧ f.dest = dest ∧ f.payload = payload

/-- No descriptor of Pn's collectives is posted and not begun (14 R382). -/
abbrev State.collIdle (s : State) (n : Nat) : Prop := (s.coll n).len = 0 ∨ (s.coll n).head % (s.coll n).len = (s.coll n).tail % (s.coll n).len

/-- Pn's contexts neither run on a site nor move channels, and its clusters' caches hold no line: a checkpoint has nothing to save (14 R389). -/
abbrev State.stillPart (s : State) (n : Nat) : Prop :=
  s.unprotected n ∧ (∀ k, k < 12 → (s.res k n).resident = none) ∧ s.ctxsOf n = [] ∧ s.coh.copies = []

/-- No partition holds contexts, queues, collectives, code or waiting work: stopping one ends nothing else. -/
abbrev State.bare (s : State) : Prop :=
  s.quiet ∧ s.codes = [] ∧ s.ctxs = [] ∧ s.queues = [] ∧ s.schs = [] ∧ s.colls = [] ∧ s.flights = [] ∧ s.chans = [] ∧ s.pat.pendCommits = [] ∧ s.noCellWaits

/-- What an accepted request b does between s and t (15 R398): its fuse records begin to be written and the request is PENDING, a transition's behind a module
reset; a flash record is written at once. -/
def State.requestDid (s t : State) (b : List Byte) : Prop :=
  let k := fld b 0x11 1
  let body := bslice b 0x40 (fld b 0x12 2)
  let f := s.sec.fuses
  let g := t.sec.fuses
  match fld b 6 1 with
  | 1 => if k = 2 ∧ s.sec.drbgHealthy = false then t.sec.keyWaits = s.sec.keyWaits ++ [.request] ∧ g = f
      else t.sec.fuseJob = some { kind := 1, target := k } ∧ g = f ∧ t.pwr.stage = 0 ∧ t.sec.reqPhase = 2
  | 6 => g.integration = some body ∧ t.sec.reqStatus = St.ok
  | 10 => (g.opkeys.get {} k).stored = some body ∧ (g.opkeys.get {} k).state = (f.opkeys.get {} k).state ∧ t.sec.reqStatus = St.ok
  | kind => t.sec.fuseJob = some { kind := kind, target := k, body := body } ∧ g = f ∧ t.sec.reqPhase = 2 ∧ t.sec.reqStatus = St.pending

/-- What the fuse records of a request have done between s and t once their valid bits are programmed (02 R60; 15 R398, R408). -/
def State.fusesDid (s t : State) (j : FuseJob) : Prop :=
  let k := j.target
  let f := s.sec.fuses
  let g := t.sec.fuses
  t.sec.fuseJob = none ∧ match j.kind with
  | 1 => g.pending = true ∧ g.intent = k ∧ g.lcs = f.lcs ∧ g.lcsRecords = f.lcsRecords + 1
  | 2 => g.opkeys.get {} k = { state := 1, digest := Config.sha384 j.body, stored := some j.body } ∧ t.sec.reqStatus = St.ok
  | 3 => (g.opkeys.get {} k).state = 2 ∧ (g.opkeys.get {} k).digest = (f.opkeys.get {} k).digest ∧ t.sec.reqStatus = St.ok
  | 4 => g.twinActive = true ∧ g.twinPeer = fld j.body 0 8 ∧ g.twinUsed = f.twinUsed + 1 ∧ t.sec.reqStatus = St.ok
  | 5 => g.twinActive = false ∧ g.twinUsed = f.twinUsed + 1 ∧ t.sec.keys.pair = false ∧ t.sec.reqStatus = St.ok
  | 7 => g.floor = k ∧ t.sec.reqStatus = St.ok
  | 8 => g.confOnly = true ∧ t.sec.reqStatus = St.ok
  | 9 => g.svn = s.sec.fwRunning.svn ∧ t.sec.reqStatus = St.ok
  | _ => g = f

/-- What a module reset leaves (16 R434): no partition is READY, the module is at the pithead stage with this cause, HBM and the keys are gone, fuses and
the log's records are kept. -/
def State.wiped (s t : State) (cause : Nat) : Prop :=
  t.pwr.stage = 0 ∧ t.pwr.cause = cause ∧ t.pwr.inReset = true ∧ t.mem = [] ∧ t.sec.keys.alias_ = false ∧ t.sec.keys.pair = false
    ∧ t.sec.fuses = s.sec.fuses ∧ t.cells.all (fun e => e.2.state == 0) = true ∧ t.pat.slot0 = s.pat.slot0 ∧ t.pat.slot1 = s.pat.slot1
    ∧ (∀ n, n < 16 → (t.part n).state = if (s.part n).state = .undefined then .undefined else .lost) ∧ (s.ring.adit ≠ 0 → t.ring.adit = 2)

end Sys2Proof.Machine
end

