-- ==== Sys2Proof/Certificates/Slice0/Obligations.lean ====
section
/-!
DEFINITION. The statements for the provers: what the commands of each family do, from the rules of the spec.
-/

open Sys2Proof Sys2Proof.Machine

/-- Step takes the command at the front of the queue and runs it on the queue's rest.
On an empty queue the block idles, but that fuse records being written are then complete (the model's choice: log entry 11). -/
def Obligations.StepRunsFrontCommand : Prop :=
  (∀ (c : Instr) (rest : List Instr) (s : State), s.pending = c :: rest → step s = exec c { s with pending := rest })
  ∧ (∀ s : State, s.pending = [] → s.sec.fuseJob = none → step s = .next s)
  ∧ (∀ (j : FuseJob) (s : State), s.pending = [] → s.sec.fuseJob = some j → step s = closing (s.fuseDone j))

/-- No command stops the module: every command, in every state, answers a next state with nothing left to judge, where nothing was left
before it (log entry 8). -/
def Obligations.EveryCommandAnswersNext : Prop := ∀ (c : Instr) (s : State), s.quiet → Gives c s State.quiet

/-- 02 R49, R50: each step of a build does its act and goes on to the next step. -/
def Obligations.BuildStepsRunInOrder : Prop :=
  (∀ (n : PartId) (s : State), s.quiet → (s.part n).state = .building → (s.part n).step = .drain → s.chansDrained n = true →
      (∀ c, (s.ctx n c).aborting = false) → (∀ i, (s.cell i).gang = none) →
    Gives (.buildDrainDone n) s fun t =>
      (∀ i, i < 192 → (s.slice n).cells.testBit i = true → (t.cell i).state = 0) ∧ (∀ i, (s.slice n).dma.testBit i = true → t.chan i = {})
      ∧ (∀ k, (s.slice n).clusters.testBit (k / 8) = true → t.core k = {}) ∧ (t.part n).step ≠ .drain ∧ t.mem = s.mem)
  ∧ (∀ (n : PartId) (s : State), s.quiet → (s.part n).state = .building → (s.part n).step = .fill →
      (∀ i, (s.slice n).pchs.testBit i = true → s.lineOffline (i * pchLines) = false) →
    Gives (.zeroFillComplete n) s fun t =>
      (t.part n).step = .flush ∧ ∀ a, t.byteAt a = if (s.slice n).pchs.testBit (pchOfLine (a / 64)) then 0 else s.byteAt a)
  ∧ (∀ (n : PartId) (s : State), s.quiet → (s.part n).state = .building → (s.part n).step = .flush →
    Gives (.buildFlushDone n) s fun t =>
      if (s.part n).releasing then (t.part n).state = .undefined ∧ (t.part n).slice = {} else (t.part n).step = .reset ∧ t.mem = s.mem)
  ∧ (∀ (n : PartId) (s : State), s.quiet → (s.part n).state = .building → (s.part n).step = .reset → s.noCellWaits →
    Gives (.partitionBuilt n) s fun t =>
      (t.part n).state = .ready ∧ (t.part n).status = St.ok ∧ (t.part n).slice = (s.part n).slice ∧ (∀ c : CtxId, t.ctx n c = {})
      ∧ (∀ q : QueueId, t.queue n q = {}) ∧ ∀ f : FenceId, t.fence n f = 0)

/-- 02 R52, R55-R57: PAT_COMMIT takes a snapshot of the staged values and registers keep their values; COMMIT_COMPLETE gives every register of a
snapshot that passes its check its value, or changes none. -/
def Obligations.CommitIsAllOrNothing : Prop :=
  (∀ (n : PartId) (v : BitVec 32) (s : State), s.hubCarries (.vf n) → bits v.toNat 3 0 ≠ 15 → s.pat.pendCommits.get none n = none → s.ready n = true →
    Gives (.patCommit (.vf n) v) s fun t =>
      t.pat.pendCommits.get none n
        = some { block := bits v.toNat 3 0, token := bits v.toNat 31 24, snap := s.snapshot (bits v.toNat 3 0) n }
      ∧ (t.pat.commits.get {} n).status = St.pending ∧ t.regs = s.regs ∧ t.staged = s.staged)
  ∧ (∀ (v : BitVec 32) (s : State), s.hubCarries .pf0 → bits v.toNat 20 16 = 16 → bits v.toNat 3 0 ≠ 15 → s.pat.pendCommits.get none 16 = none →
      s.logRoom = true →
    Gives (.patCommit .pf0 v) s fun t =>
      t.pat.pendCommits.get none 16
        = some { block := bits v.toNat 3 0, token := bits v.toNat 31 24, snap := s.snapshot (bits v.toNat 3 0) 16 }
      ∧ (t.pat.commits.get {} 16).status = St.pending ∧ t.regs = s.regs ∧ t.staged = s.staged)
  ∧ (∀ (k : Fin 17) (c : PendCommit) (a : Nat) (s : State), s.quiet → s.pat.pendCommits.get none k = some c → s.firstFail c.snap = some a →
    Gives (.commitComplete k) s fun t =>
      (t.pat.commits.get {} k).status = St.cfgMismatch ∧ (t.pat.commits.get {} k).failHalf = halfAt a
      ∧ (t.pat.commits.get {} k).firstFail = offAt a ∧ t.pat.pendCommits.get none k = none ∧ t.regs = s.regs)
  ∧ (∀ (k : Fin 17) (c : PendCommit) (s : State), s.quiet → s.pat.pendCommits.get none k = some c → Tab.wf 0 c.snap = true →
      s.firstFail c.snap = none →
    Gives (.commitComplete k) s fun t =>
      (t.pat.commits.get {} k).status = St.ok ∧ t.pat.pendCommits.get none k = none ∧ t.mem = s.mem
      ∧ ∀ a, t.reg a = snapVal s c.snap a)

/-- 02 R43, R44, R45: PAT_APPLY with the checks passed brings every partition that the pattern defines into BUILDING; with a check failed it changes
no partition and shows the failure. PATTERN_STORE_WRITTEN ends the apply: the other slot holds the pattern. -/
def Obligations.PatternApplyAndStore : Prop :=
  (∀ (p : Path) (v : BitVec 32) (s : State), s.hubCarries p → isOper p = true → (s.pat.phase = 0 ∨ s.pat.phase = 4) → s.logRoom = true →
      s.sec.fwState ≠ 4 → bits v.toNat 20 0 ≤ 0x100000 → s.pat.running = none → s.pat.cand = none → (∀ n, s.part n = {}) → s.noCellWaits → s.ctxs = [] →
      s.queues = [] → s.colls = [] → s.schs = [] → s.pat.pendCommits = [] →
    Gives (.patApply p v) s fun t =>
      match s.checkPattern (Tab.getList 0 s.pat.stage 0 (bits v.toNat 20 0)) false with
      | .error f => t.pat.phase = 0 ∧ t.pat.status = f.status ∧ t.pat.failCode = f.code ∧ t.pat.failSection = f.section_
          ∧ ∀ n, (t.part n).state = .undefined
      | .ok q => ∀ n : PartId, (q.slice n).defined = true → (t.part n).state = .building ∧ t.pat.phase = 2 ∧ t.pat.cand = some q)
  ∧ (∀ (q : Pattern) (s : State), s.quiet → s.pat.running = some q → s.pat.phase = 3 →
    Gives .patternStoreWritten s fun t =>
      t.pat.phase = 4 ∧ t.pat.status = St.ok ∧ t.pat.storedEpoch = q.epoch ∧ t.pat.selected = !s.pat.selected
      ∧ (if s.pat.selected then t.pat.slot0 = some q.bytes ∧ t.pat.slot1 = s.pat.slot1 else t.pat.slot1 = some q.bytes ∧ t.pat.slot0 = s.pat.slot0))

/-- 04 R88, R103: the scalar instructions write one register with the stated value and go on; s0 reads 0 and keeps nothing; nothing else of the
module changes. -/
def Obligations.ScalarInstructionsWriteOneRegister : Prop :=
  (∀ (cell : CellId) (rd ra rb sh : Fin 32) (imm : Word32) (s : State), s.runs cell →
    exec (.li cell rd imm) s = .next (s.wrote cell rd imm)
    ∧ exec (.addi cell rd ra imm) s = .next (s.wrote cell rd ((s.cell cell).reg ra + imm))
    ∧ exec (.andi cell rd ra imm) s = .next (s.wrote cell rd ((s.cell cell).reg ra &&& imm))
    ∧ exec (.add cell rd ra rb) s = .next (s.wrote cell rd ((s.cell cell).reg ra + (s.cell cell).reg rb))
    ∧ exec (.sub cell rd ra rb) s = .next (s.wrote cell rd ((s.cell cell).reg ra - (s.cell cell).reg rb))
    ∧ exec (.mul cell rd ra rb) s = .next (s.wrote cell rd ((s.cell cell).reg ra * (s.cell cell).reg rb))
    ∧ exec (.shli cell rd ra sh) s = .next (s.wrote cell rd ((s.cell cell).reg ra <<< sh.val))
    ∧ exec (.shri cell rd ra sh) s = .next (s.wrote cell rd ((s.cell cell).reg ra >>> sh.val)))
  ∧ ∀ (cell : CellId) (rd r : Fin 32) (v : Word32) (s : State),
    ((s.wrote cell rd v).cell cell).reg r = if r = 0 then 0 else if r = rd then v else (s.cell cell).reg r

/-- 04 R103, R104: NOP, BR, BRC and LOOP change the PC and the loops of their cell and nothing else.
04 R95, R101, R102; 05 R139; 07 R182: HALT ends its cell's task: with transfers in flight the cell stops issuing and keeps its status for their
end; with none, and other cells of the gang at work, the cell is free and the gang holds its status. RESERVED_OPCODE records a fault with DETAIL
0x01 at the instruction and ends the same way with DENIED, whatever word it is that is no instruction. -/
def Obligations.ControlFlowAndTaskEnd : Prop :=
  ((∀ (cell : CellId) (s : State), s.runs cell → exec (.nop cell) s = .next (s.pastInstr cell))
  ∧ (∀ (cell : CellId) (off : Word32) (s : State), s.quiet → s.mayIssue cell = true → 0 ≤ ((s.cell cell).pc : Int) + off.toInt →
      ((s.cell cell).pc : Int) + off.toInt < (s.cell cell).codeLen →
    exec (.br cell off) s = .next (s.updCell cell (fun c =>
      { c with pc := (c.pc + off.toInt).toNat, loops := leaveLoops c.loops (c.pc + off.toInt).toNat })))
  ∧ (∀ (cell : CellId) (ra rb : Fin 32) (cond : BitVec 3) (off : Word32) (s : State), s.runs cell → cond.toNat < 6 →
      0 ≤ ((s.cell cell).pc : Int) + off.toInt → ((s.cell cell).pc : Int) + off.toInt < (s.cell cell).codeLen →
    exec (.brc cell ra rb cond off) s = .next (
      if branchTaken cond.toNat ((s.cell cell).reg ra) ((s.cell cell).reg rb) then s.updCell cell (fun c =>
        { c with pc := (c.pc + off.toInt).toNat, loops := leaveLoops c.loops (c.pc + off.toInt).toNat })
      else s.pastInstr cell))
  ∧ (∀ (cell : CellId) (ra : Fin 32) (len : BitVec 16) (s : State), s.quiet → s.mayIssue cell = true → ((s.cell cell).reg ra).toNat ≠ 0 → len.toNat ≠ 0 →
      (s.cell cell).loops.length < 4 → (s.cell cell).pc + 1 < (s.cell cell).codeLen →
    exec (.loop cell ra len) s = .next (s.updCell cell (fun c => { c with pc := c.pc + 1, loops :=
      { first := c.pc + 1, last := c.pc + 1 + len.toNat, left := (c.reg ra).toNat - 1 } :: c.loops })))
  ∧ (∀ (cell : CellId) (ra : Fin 32) (len : BitVec 16) (s : State), s.quiet → s.mayIssue cell = true →
      (((s.cell cell).reg ra).toNat = 0 ∨ len.toNat = 0) → (nextPc (s.cell cell).loops ((s.cell cell).pc + 1 + len.toNat)).1 < (s.cell cell).codeLen →
    exec (.loop cell ra len) s = .next (s.updCell cell (fun c =>
      { c with pc := (nextPc c.loops (c.pc + 1 + len.toNat)).1, loops := (nextPc c.loops (c.pc + 1 + len.toNat)).2 }))))
  ∧ ((∀ (cell : CellId) (st : StatusCode) (s : State), s.quiet → s.mayIssue cell = true → (s.cell cell).moversIdle = false →
    exec (.halt cell st) s = .next (s.updCell cell (fun c => { c with state := 5, halt := some st, waiting := none, bar := none })))
  ∧ (∀ (cell : CellId) (n : PartId) (s : State) (g : Gang) (j : Nat), s.unprotected n → s.mayIssue cell = true → (s.cell cell).moversIdle = true →
      s.ownerCell cell = some n.val → (s.ctx n (s.cell cell).ctx).aborting = false → s.gangOf n ((s.cell cell).gang.getD 0) = some g → g.dross = false →
      j ≠ cell.val → (s.cell j).gang = (s.cell cell).gang → s.ownerCell j = some n.val →
    Gives (.halt cell St.ok) s fun t =>
      t.cell cell = (s.cell cell).freed ∧ (∀ i, i ≠ cell.val → t.cell i = s.cell i)
      ∧ ∃ g', t.gangOf n ((s.cell cell).gang.getD 0) = some g' ∧ g'.ended.get none (cell.val % 16) = some St.ok ∧ g'.task = g.task)
  ∧ (∀ (cell : CellId) (n : PartId) (w : Word64) (s : State), s.unprotected n → s.mayIssue cell = true → (s.cell cell).moversIdle = false →
      s.ownerCell cell = some n.val → (s.ctx n (s.cell cell).ctx).fault = 0 → (tileInstr cell w.toNat).isNone = true →
    Gives (.reservedOpcode cell w) s fun t =>
      (t.ctx n (s.cell cell).ctx).fault = faultWord ((s.cell cell).pc % 8192) (opcodeOf w.toNat) 1 0 St.denied
      ∧ (t.cell cell).state = 5 ∧ (t.cell cell).halt = some St.denied ∧ ∀ i, i ≠ cell.val → t.cell i = s.cell i))

/-- 04 R96, R103, R104; 05 R123, R136, R466: ZAC, EADD, EMUL, EMAX and ECPY compute every element of their tile and leave the cell's other tiles, its
scratchpad and its registers.
04 R103-R105; 05 R123, R136: ESCL, EBIAS, EACT and ECVT compute every element of their FP32 or INT32 tile from it and the vector or table at RA. -/
def Obligations.TileInstructionsAreElementwise : Prop :=
  ((∀ (cell : CellId) (td : Fin 4) (int : Bool) (s : State), s.runs cell →
    Computes (.zac cell td int) s cell fun d => (s.cell cell).tileBecame d td int (fun _ _ => 0) ∧ ∀ r k, r < 128 → k < 128 → d.elemDross td r k = false)
  ∧ (∀ (cell : CellId) (td ts : Fin 4) (s : State), s.runs cell → (s.cell cell).isInt td = (s.cell cell).isInt ts →
    Computes (.eadd cell td ts) s cell fun d => (s.cell cell).tileBecame d td ((s.cell cell).isInt td) (fun r k =>
      (eaddEl ((s.cell cell).isInt td) ((s.cell cell).elem td r k) ((s.cell cell).elem ts r k)).1)
      ∧ ∀ r k, r < 128 → k < 128 → d.elemDross td r k = ((s.cell cell).elemDross td r k || (s.cell cell).elemDross ts r k))
  ∧ (∀ (cell : CellId) (td ts : Fin 4) (s : State), s.runs cell → (s.cell cell).isInt td = false → (s.cell cell).isInt ts = false →
    Computes (.emul cell td ts) s cell fun d => (s.cell cell).tileBecame d td false (fun r k =>
      (emulEl ((s.cell cell).elem td r k) ((s.cell cell).elem ts r k)).1)
      ∧ ∀ r k, r < 128 → k < 128 → d.elemDross td r k = ((s.cell cell).elemDross td r k || (s.cell cell).elemDross ts r k))
  ∧ (∀ (cell : CellId) (td ts : Fin 4) (s : State), s.runs cell → (s.cell cell).isInt td = (s.cell cell).isInt ts →
    Computes (.emax cell td ts) s cell fun d => (s.cell cell).tileBecame d td ((s.cell cell).isInt td) (fun r k =>
      (emaxEl ((s.cell cell).isInt td) ((s.cell cell).elem td r k) ((s.cell cell).elem ts r k)).1)
      ∧ ∀ r k, r < 128 → k < 128 → d.elemDross td r k = ((s.cell cell).elemDross td r k || (s.cell cell).elemDross ts r k))
  ∧ (∀ (cell : CellId) (td ts : Fin 4) (s : State), s.runs cell →
    Computes (.ecpy cell td ts) s cell fun d => (s.cell cell).tileBecame d td ((s.cell cell).isInt ts) (fun r k => (s.cell cell).elem ts r k)
      ∧ ∀ r k, r < 128 → k < 128 → d.elemDross td r k = (s.cell cell).elemDross ts r k))
  ∧ ((∀ (cell : CellId) (td : Fin 4) (ra : Fin 32) (axis : Bool) (s : State), let c := s.cell cell; let a := (c.reg ra).toNat
    s.runsFree cell { reads := [(a, 512)] } → a % 64 = 0 → a + 512 ≤ scratchBytes → c.isInt td = false →
    Computes (.escl cell td ra axis) s cell (fun d => c.tileBecame d td false (fun r k =>
      (rne32 (Fp.mul (f32 (c.elem td r k)) (c.vec a (if axis then k else r)))).1))
    ∧ Computes (.ebias cell td ra axis) s cell (fun d => c.tileBecame d td false (fun r k =>
      (rne32 (Fp.add (f32 (c.elem td r k)) (c.vec a (if axis then k else r)))).1)))
  ∧ (∀ (cell : CellId) (td : Fin 4) (ra : Fin 32) (s : State), let c := s.cell cell; let a := (c.reg ra).toNat
    s.runsFree cell { reads := [(a, 384)] } → a % 64 = 0 → a + 384 ≤ scratchBytes → c.isInt td = false →
    Computes (.eact cell td ra) s cell (fun d => c.tileBecame d td false (fun r k =>
      let x := f32 (c.elem td r k)
      let j := actIndex ((List.range 32).map (c.vec a)) x
      if x = .nan then nan32 else (rne32 ((Fp.mul (c.vec (a + 128) j) x).add (c.vec (a + 256) j))).1)))
  ∧ (∀ (cell : CellId) (td : Fin 4) (ra : Fin 32) (axis : Bool) (s : State), let c := s.cell cell; let a := (c.reg ra).toNat
    s.runsFree cell { reads := [(a, 512)] } → a % 64 = 0 → a + 512 ≤ scratchBytes → c.isInt td = true →
    Computes (.ecvt cell td ra axis false) s cell (fun d => c.tileBecame d td false (fun r k =>
      (rne32 (Fp.mul (fpInt (c.elem td r k).toInt) (c.vec a (if axis then k else r)))).1)))
  ∧ (∀ (cell : CellId) (td : Fin 4) (ra : Fin 32) (axis : Bool) (s : State), s.runs cell → (s.cell cell).isInt td = false →
    Computes (.ecvt cell td ra axis true) s cell (fun d => (s.cell cell).tileBecame d td true (fun r k =>
      (toInt32 (f32 ((s.cell cell).elem td r k))).1))))

/-- 04 R96, R103, R104; 05 R123: LDA fills a tile from the scratchpad, STA writes a tile to it, EROW writes the 128 reductions of a tile's rows or
columns; each leaves the registers, and LDA the scratchpad, STA and EROW the tiles. -/
def Obligations.TileLoadStoreAndReduce : Prop :=
  (∀ (cell : CellId) (td f : Fin 4) (ra : Fin 32) (s : State), let c := s.cell cell; let a := (c.reg ra).toNat; let b := ldaBytes f
    s.runsFree cell { reads := [(a, 16384 * b)] } → a % 64 = 0 → a + 16384 * b ≤ scratchBytes →
    Computes (.lda cell td f ra) s cell (fun d => c.tileBecame d td (f == 1) (fun r k =>
      let w := c.word (a + (r * 128 + k) * b) b
      if f.val ≤ 1 then BitVec.ofNat 32 w else (rne32 ((if f.val = 2 then bf16 else fp16).decode w)).1)))
  ∧ (∀ (cell : CellId) (ts f : Fin 4) (ra : Fin 32) (s : State), let c := s.cell cell; let a := (c.reg ra).toNat; let b := ldaBytes f
    s.runsFree cell { writes := [(a, 16384 * b)] } → a % 64 = 0 → a + 16384 * b ≤ scratchBytes → c.isInt ts = (f == 1) →
    Computes (.sta cell ts f ra) s cell (fun d => d.tiles = c.tiles ∧ d.tileInt = c.tileInt ∧ d.sregs = c.sregs ∧ d.pc = c.pc
      ∧ (∀ r k, r < 128 → k < 128 → d.bytes (a + (r * 128 + k) * b) b
          = leBytes b (if f.val ≤ 1 then (c.elem ts r k).toNat else ((if f.val = 2 then bf16 else fp16).encode (f32 (c.elem ts r k))).1))
      ∧ ∀ x, (x < a ∨ a + 16384 * b ≤ x) → d.scratch.get 0 x = c.scratch.get 0 x))
  ∧ (∀ (cell : CellId) (ts : Fin 4) (ra : Fin 32) (axis : Bool) (fn : BitVec 2) (s : State), let c := s.cell cell; let a := (c.reg ra).toNat
    s.runsFree cell { writes := [(a, 512)] } → a % 64 = 0 → a + 512 ≤ scratchBytes → c.isInt ts = false → fn.toNat ≠ 3 →
    Computes (.erow cell ts ra axis fn) s cell (fun d => d.tiles = c.tiles ∧ d.tileInt = c.tileInt ∧ d.sregs = c.sregs ∧ d.pc = c.pc
      ∧ (∀ i, i < 128 → d.bytes (a + 4 * i) 4 = leBytes 4 (reduce fn.toNat ((List.range 128).map (fun j =>
          if axis then c.elem ts j i else c.elem ts i j))).1.toNat)
      ∧ ∀ x, (x < a ∨ a + 512 ≤ x) → d.scratch.get 0 x = c.scratch.get 0 x))

/-- 04 R90-R96, R103; 05 R117, R120-R122: MMA adds, block by block and panel by panel, the products of A's row and B's column to each element of its
region, in FP32 or INT32 as the formats say; the other elements of the tile, the other tiles, the scratchpad and the registers stand. QNT and QNTS
write only the scratchpad. -/
def Obligations.MmaAndQuantizeCompute : Prop :=
  (∀ (cell : CellId) (f : MmaF) (s : State), let c := s.cell cell
    let fa := f.fa.toNat; let fb := f.fb.toNat; let m := 32 * (f.ms.val + 1); let n := 32 * (f.ns.val + 1); let k := f.kb.val + 1
    let a := (c.reg f.ra).toNat; let b := (c.reg f.rb).toNat; let rs := (c.reg f.rs).toNat; let rt := (c.reg f.rt).toNat
    let rx := (c.reg f.rx).toNat; let side := if f.esc then some rx else none
    s.runsFree cell (mmaFoot f c) → fmtDefined fa = true → fmtDefined fb = true → (f.esc = true → fb = 11 ∧ intPair fa fb = false) →
    (if intPair fa fb then f.sa = 0 ∧ f.sb = 0 else scaleAllowed fa f.sa.toNat = true ∧ scaleAllowed fb f.sb.toNat = true) →
    a % 64 = 0 → a + operandLen fa k m ≤ scratchBytes → b % 64 = 0 → b + operandLen fb k n ≤ scratchBytes →
    (f.sa ≠ 0 → rs % 64 = 0 ∧ rs + scaleLen f.sa.toNat k m ≤ scratchBytes) → (f.sb ≠ 0 → rt % 64 = 0 ∧ rt + scaleLen f.sb.toNat k n ≤ scratchBytes) →
    (f.esc = true → rx % 64 = 0 ∧ rx + ((k - 1) * 512 + n * 4) ≤ scratchBytes) → (f.z = true ∨ c.isInt f.dt = intPair fa fb) →
    c.firstBad fa fb a b m n k side = none →
    ∃ d g, exec (.mma cell f) s = .next (s.tick.computed cell d g) ∧ (
      let p := f32 (rne32 ((c.tileScale f.sa.toNat rs).mul (c.tileScale f.sb.toNat rt))).1
      let el := fun (r q : Nat) =>
        let x := c.line fa f.sa.toNat a rs k r none
        let y := c.line fb f.sb.toNat b rt k q side
        let start := (if f.z then (0 : Word32) else c.elem f.dt r q, false)
        (if intPair fa fb then (List.zip x.blks y.blks).foldl (fun acc z => accumulateInt acc z.1 z.2) start
          else (List.zip x.blks y.blks).foldl (fun acc z => accumulate acc (blockSum (decide (fa ≤ 1) || decide (fb ≤ 1)) p z.1 z.2)) start).1
      c.tileBecame d f.dt (intPair fa fb) (fun r q => if r < m ∧ q < n then el r q else c.elem f.dt r q)
      ∧ d.mmaCycles = satAdd 64 c.mmaCycles (mmaCyclesOf f)))
  ∧ (∀ (cell : CellId) (f : QntF) (s : State), let c := s.cell cell; let q := qntArgs c f none
    s.runsFree cell (qntFoot f none c) → f.rnd.toNat < 2 → isTarget q.f = true → scaleAllowed q.f q.sm = true → q.ra % 64 = 0 →
    q.ra + 512 * blockBytes q.f ≤ scratchBytes → (q.sm ≠ 0 → q.rb % 64 = 0 ∧ q.rb + scaleLen q.sm 4 128 ≤ scratchBytes) →
    Computes (.qnt cell f) s cell (fun d => d.tiles = c.tiles ∧ d.tileInt = c.tileInt ∧ d.sregs = c.sregs ∧ d.pc = c.pc ∧ ∃ g,
      qntRun c (s.guardOf cell) q c.excThr c.pc c.excTrap = .ok d g))
  ∧ (∀ (cell : CellId) (f : QntF) (rc : Fin 32) (s : State), let c := s.cell cell; let q := qntArgs c f (some rc.val); let g := (c.reg rc).toNat
    s.runsFree cell (qntFoot f (some rc.val) c) → f.rnd.toNat < 2 → isTarget q.f = true → scaleAllowed q.f q.sm = true → q.ra % 64 = 0 →
    q.ra + 512 * blockBytes q.f ≤ scratchBytes →
    (q.sm ≠ 0 → q.rb % 64 = 0 ∧ q.rb + scaleLen q.sm 4 128 ≤ scratchBytes ∧ g % 64 = 0 ∧ g + scaleLen q.sm 4 128 ≤ scratchBytes) →
    Computes (.qnts cell f rc) s cell (fun d => d.tiles = c.tiles ∧ d.tileInt = c.tileInt ∧ d.sregs = c.sregs ∧ d.pc = c.pc ∧ ∃ g,
      qntRun c (s.guardOf cell) q c.excThr c.pc c.excTrap = .ok d g))

/-- 03 R75-R78; 04 R103: SND takes a tally and releases its message, RCV takes the oldest message of a mailbox into the scratchpad; a non-blocking RCV
of an empty mailbox writes 0 and goes on. Neither writes memory. -/
def Obligations.CellSendsAndReceives : Prop :=
  (∀ (cell : CellId) (f : SndF) (t : Tally) (s : State), let c := s.cell cell; let a := (c.reg f.ra).toNat; let dest := c.addr f.rb
    let key := msgKey cell c.ctx
    s.runsFree cell { reads := [(a, f.length.val)] } → (f.length.val = 0 ∨ a + f.length.val ≤ scratchBytes) → (s.msgSt key).entry dest f.mailbox = some t → t.dead = false →
    t.void = false →
    Gives (.snd cell f) s fun s' => (∃ m after, s'.egress = s.egress ++ [{ src := cell, ctx := c.ctx, after := after
                                                                           flight := .msg (s.cellPart cell) cell dest f.mailbox m }]
        ∧ m.payload = bslice (c.bytes a (min f.length.val 64)) 0 64
        ∧ m.header = headerOf dest cell f.mailbox f.length t.urgent (c.rangeDross a f.length) c.ctx (c.reg f.rc).toNat)
      ∧ s'.msgSt key = (s.msgSt key).takeTallies dest f.mailbox 1 ∧ (s'.cell cell).pc = s.pcAfter cell ∧ s'.mem = s.mem)
  ∧ (∀ (cell : CellId) (ra rd : Fin 32) (b : Fin 16) (nb : Bool) (m : Msg) (rest : List Msg) (s : State), let c := s.cell cell
    let a := (c.reg ra).toNat; let key := msgKey cell c.ctx
    s.runsFree cell { writes := [(a, 80)] } → a + 80 ≤ scratchBytes → ((s.msgSt key).box b).held = m :: rest →
    Gives (.rcv cell ra b nb rd) s fun t => (t.cell cell).bytes a 80 = m.bytes ∧ ((t.msgSt key).box b).held = rest
      ∧ (∀ r : Fin 32, (t.cell cell).reg r = if nb = true ∧ r = rd ∧ r ≠ 0 then 1 else c.reg r) ∧ (t.cell cell).pc = s.pcAfter cell ∧ t.mem = s.mem)
  ∧ (∀ (cell : CellId) (ra rd : Fin 32) (b : Fin 16) (s : State), let c := s.cell cell; let a := (c.reg ra).toNat; let key := msgKey cell c.ctx
    s.runsFree cell { writes := [(a, 80)] } → a + 80 ≤ scratchBytes → ((s.msgSt key).box b).held = [] →
    exec (.rcv cell ra b true rd) s = .next (s.wrote cell rd 0)
    ∧ ((t : State) → exec (.rcv cell ra b false rd) s = .next t → t.msgs = s.msgs ∧ (t.cell cell).pc = c.pc ∧ (t.cell cell).state = 2))

/-- 03 R77, R78; 04 R103: GRANT adds to OUT and releases a grant where the mailbox has room; RTN releases the return of unused tallies; MBCFG sets
a mailbox; WAIT goes on when the tallies are there and waits else. -/
def Obligations.CellTallyInstructions : Prop :=
  (∀ (cell : CellId) (rb : Fin 32) (b : Fin 16) (k : Fin 64) (s : State), let c := s.cell cell; let key := msgKey cell c.ctx
    s.runs cell → k.val ≠ 0 → ((s.msgSt key).box b).used + k.val ≤ 32 →
    Gives (.grant cell rb b k) s fun t =>
      t.egress = s.egress ++ [{ src := cell, ctx := c.ctx, flight := .grant (s.cellPart cell) cell (c.addr rb) b k ((s.msgSt key).box b).urgent c.ctx }]
      ∧ ((t.msgSt key).box b).out = ((s.msgSt key).box b).out + k ∧ ((t.msgSt key).box b).held = ((s.msgSt key).box b).held
      ∧ (t.cell cell).pc = s.pcAfter cell ∧ t.mem = s.mem)
  ∧ (∀ (cell : CellId) (rb : Fin 32) (b : Fin 16) (k : Fin 64) (x : Tally) (s : State), let c := s.cell cell; let key := msgKey cell c.ctx
    s.runs cell → (s.msgSt key).entry (c.addr rb) b = some x → min k.val x.count ≠ 0 →
    Gives (.rtn cell rb b k) s fun t =>
      t.egress = s.egress ++ [{ src := cell, ctx := c.ctx, flight := .ret (s.cellPart cell) cell (c.addr rb) b (min k x.count) x.ctx }]
      ∧ t.msgSt key = (s.msgSt key).takeTallies (c.addr rb) b (min k x.count) ∧ (t.cell cell).pc = s.pcAfter cell ∧ t.mem = s.mem)
  ∧ (∀ (cell : CellId) (rb : Fin 32) (b : Fin 16) (standing urgent : Bool) (s : State), let c := s.cell cell; let key := msgKey cell c.ctx
    s.runs cell →
    Gives (.mbcfg cell rb b standing urgent) s fun t =>
      (t.msgSt key).box b = { (s.msgSt key).box b with standing := standing, urgent := urgent, sender := c.addr rb }
      ∧ (∀ b', b' ≠ b.val → (t.msgSt key).box b' = (s.msgSt key).box b') ∧ (t.cell cell).pc = s.pcAfter cell ∧ t.mem = s.mem)
  ∧ (∀ (cell : CellId) (rb : Fin 32) (b : Fin 16) (k : Fin 64) (s : State), s.runs cell →
    exec (.wait cell rb b k) s = .next (
      if k ≤ (s.msgSt (msgKey cell (s.cell cell).ctx)).tallies ((s.cell cell).addr rb) b then s.pastInstr cell
      else s.updCell cell (fun c => { c with waiting := some (.wait cell rb b k), state := 2 })))

/-- 03 R70; 04 R103, R106: a mover instruction whose fields and window are in order queues one transfer, split at 4 KiB boundaries, and goes on;
MWAIT goes on when the queue is short enough, FENCE when every earlier write of its context, on whichever of its cells, has returned; they wait else. -/
def Obligations.MoverQueuesTransfers : Prop :=
  (∀ (cell : CellId) (f : MovF) (rd re : Fin 32) (w : Bool) (two : Bool) (s : State), let c := s.cell cell
    let a := moveArgs c w ((if w then 0x31 else 0x30) + (if two then 2 else 0)) f (if two then (c.reg rd).toNat else 1) (if two then (c.reg re).toNat else 0)
    let ins := if two then (if w then Instr.movw2 cell f rd re else .movr2 cell f rd re) else (if w then .movw cell f else .movr cell f)
    s.runsFree cell (moveFoot a c) → a.fault = none → (c.movers.get [] f.qid).length < 8 →
    (∀ x ∈ moveAccesses a.off a.spad a.len a.rows a.step, s.winCheck cell f.win w x.1 x.2.2 = none) →
    Gives ins s fun t => (∃ l, (t.cell cell).movers.get [] f.qid = c.movers.get [] f.qid ++ [{ id := c.nextXfer, write := w, pc := c.pc, op := a.op, accesses := l }]
        ∧ l.map (fun x => (x.off, x.spad, x.len)) = moveAccesses a.off a.spad a.len a.rows a.step
        ∧ ∀ x ∈ l, x.ppa = (s.window cell f.win).1 + x.off ∧ x.done = false)
      ∧ (t.cell cell).pc = s.pcAfter cell ∧ (t.cell cell).nextXfer = c.nextXfer + 1 ∧ (t.cell cell).scratch = c.scratch ∧ t.mem = s.mem)
  ∧ (∀ (cell : CellId) (q : Fin 4) (k : Fin 64) (ra : Fin 32) (s : State), s.runs cell →
    exec (.mwait cell q k ra) s = .next (
      if ((s.cell cell).movers.get [] q).length ≤ k + ((s.cell cell).reg ra).toNat then s.pastInstr cell
      else s.updCell cell (fun c => { c with waiting := some (.mwait cell q k ra), state := 2 })))
  ∧ (∀ (cell : CellId) (s : State), s.runs cell →
    exec (.fence cell) s = .next (
      if ∀ x ∈ s.fenceSet cell, (s.cell x.1).writesDone x.2 = true then (s.updCell cell (fun c => { c with fence := none })).pastInstr cell
      else s.updCell cell (fun c => { c with fence := some (s.fenceSet cell), waiting := some (.fence cell), state := 2 })))
  ∧ (∀ (cell : CellId) (s : State), s.runs cell → (s.cell cell).fence = none →
    s.fenceSet cell = (s.cellsOf (s.cellPart cell) (s.cell cell).ctx).map (fun j => (j, (s.cell j).nextXfer)))

/-- 03 R79; 04 R106, R107: a mover read that returns fills its scratchpad range with the bytes at its PPA; with NOALLOC,
which displaces no line of the cache, memory stands; the tally wait limit
ends the wait of SND, RCV, WAIT or BAR with TIMEOUT in the context's message word, with transfers in flight as the halt waits for them.
04 R103, R108; 05 R132: BAR holds its cell until every cell of MASK waits at the same barrier and then releases them all; YLD goes on in a cell
that is not asked, and begins the save of one that is. -/
def Obligations.WaitsReturnsAndCheapPoints : Prop :=
  ((∀ (cell : CellId) (n : PartId) (k q : Nat) (x : Transfer) (a : Access) (s : State), s.quiet → s.ownerCell cell = some n.val →
      (s.cell cell).outstanding[k]? = some (q, x, a) → a.held = false → x.write = false → a.len % 64 = 0 → (s.ppaPeek n a.ppa a.len).2.2 = St.ok →
      (s.cell cell).halt = none → s.noCellWaits → s.lets n a.ppa a.len (s.moverReads (cell / 16) n) →
    Gives (.moverAccessReturn cell k none) s fun t =>
      (t.cell cell).bytes a.spad a.len = bslice (s.ppaPeek n a.ppa a.len).1 0 a.len ∧ ((s.moverReads (cell / 16) n).hint = .noAlloc → t.mem = s.mem)
      ∧ ∀ z, (z < a.spad ∨ a.spad + a.len ≤ z) → (t.cell cell).scratch.get 0 z = (s.cell cell).scratch.get 0 z)
  ∧ (∀ (cell : CellId) (n : PartId) (ins : Instr) (dest b : Nat) (s : State), s.unprotected n → s.ownerCell cell = some n.val →
      (s.cell cell).waiting = some ins → waitTarget cell (s.cell cell) (some ins) = some (dest, b) → (s.cell cell).state = 2 →
      (s.cell cell).moversIdle = false → (s.ctx n (s.cell cell).ctx).msgStatus = St.ok →
    Gives (.tallyWaitTimeout cell) s fun t => let x := t.ctx n (s.cell cell).ctx
      x.msgStatus = St.timeout ∧ x.msgDest = dest ∧ x.msgBox = b ∧ (t.cell cell).state = 5 ∧ (t.cell cell).halt = some St.timeout
      ∧ (t.cell cell).waiting = none ∧ t.egress = s.egress))
  ∧ ((∀ (cell : CellId) (mask : BitVec 16) (bid : Fin 16) (s : State) (p : Nat), s.quiet → s.mayIssue cell = true → p < 16 → mask.toNat.testBit p = true →
      p ≠ cell.val % 16 → s.atBar (s.cellPart cell) (s.cell cell).ctx mask.toNat bid (cell.val / 16 * 16 + p) = false →
    exec (.bar cell mask bid) s = .next (s.updCell cell (fun c =>
      { c with bar := some (mask.toNat, bid.val), waiting := some (.bar cell mask bid), state := 2 })))
  ∧ (∀ (cell : CellId) (mask : BitVec 16) (bid : Fin 16) (s : State), s.quiet → s.mayIssue cell = true →
      (∀ p, p < 16 → mask.toNat.testBit p = true → p ≠ cell.val % 16 →
        s.atBar (s.cellPart cell) (s.cell cell).ctx mask.toNat bid (cell.val / 16 * 16 + p) = true) →
      (∀ p, p < 16 → s.pcAfter (cell.val / 16 * 16 + p) < (s.cell (cell.val / 16 * 16 + p)).codeLen) →
    Gives (.bar cell mask bid) s fun t => (t.cell cell).bar = none ∧ (t.cell cell).waiting = none ∧ (t.cell cell).pc = s.pcAfter cell
      ∧ ∀ p, p < 16 → mask.toNat.testBit p = true → let j := cell.val / 16 * 16 + p
        (t.cell j).bar = none ∧ (t.cell j).waiting = none ∧ (t.cell j).state = 1 ∧ (t.cell j).pc = s.pcAfter j)
  ∧ (∀ (cell : CellId) (lrt : BitVec 16) (s : State), s.runs cell → (s.cell cell).asked = false → (s.guardOf cell).pending = false →
    exec (.yld cell lrt) s = .next (s.pastInstr cell))
  ∧ (∀ (cell : CellId) (n : PartId) (lrt : BitVec 16) (s : State), s.runs cell → s.unprotected n → s.ownerCell cell = some n.val →
      (s.cell cell).asked = true → (s.guardOf cell).pending = false →
    Gives (.yld cell lrt) s fun t => (t.cell cell).state = 3 ∧ (t.cell cell).yld = some lrt.toNat ∧ (t.cell cell).pc = s.pcAfter cell
      ∧ (t.cell cell).sregs = (s.cell cell).sregs ∧ ∀ i, i ≠ cell.val → t.cell i = s.cell i))


/-- 03 R75, R82, R469: a message that passes the five checks of its ingress travels on with the context and the partition that the hub writes; one
whose LENGTH or reserved bits are not in order goes nowhere, a Note where its source's class is that. A grant from its own partition travels on. -/
def Obligations.IngressForwardsOwnTraffic : Prop :=
  (∀ (at_ : Ingress) (h : BitVec 128) (pl : List Byte) (n : PartId) (s : State), let src := bits h.toNat 117 108; let dest := bits h.toNat 127 118
    s.quiet → s.noCellWaits → src < 0x200 → s.holdsSource at_ src = true → s.heldUnit (unitOf src) = false → s.addrOwner src = some n.val →
    s.ready n = true → bits h.toNat 103 97 ≤ 64 → bits h.toNat 78 64 = 0 → s.addrOwner dest = some n.val → s.onDead dest = false →
    Gives (.messageIngress (.message at_ h pl)) s fun t => ∃ m, t.flights = s.flights ++ [.msg n src dest (bits h.toNat 107 104) m]
      ∧ bits m.header 94 91 = n.val ∧ bits m.header 90 79 = s.senderCtx src % 4096 ∧ bits m.header 63 0 = bits h.toNat 63 0
      ∧ m.payload = (bslice pl 0 64).take (bits h.toNat 103 97) ++ zeros (64 - bits h.toNat 103 97) ∧ t.mem = s.mem)
  ∧ (∀ (at_ : Ingress) (h : BitVec 128) (pl : List Byte) (n : PartId) (s : State), let src := bits h.toNat 117 108
    s.quiet → s.noCellWaits → src < 0x200 → s.holdsSource at_ src = true → s.heldUnit (unitOf src) = false → s.addrOwner src = some n.val →
    s.ready n = true → (64 < bits h.toNat 103 97 ∨ bits h.toNat 78 64 ≠ 0) → s.effClass 0x102 n = .note →
    exec (.messageIngress (.message at_ h pl)) s = .next (s.countNote 0x102 n))
  ∧ (∀ (at_ : Ingress) (src dest : Fin 1024) (b : Fin 16) (k : Fin 64) (urgent : Bool) (n : PartId) (s : State),
      s.quiet → s.holdsSource at_ src = true → s.addrOwner src = some n.val → s.heldUnit (unitOf src) = false → s.addrOwner dest = some n.val →
      s.onDead dest = false →
    Gives (.messageIngress (.grant at_ src dest b k urgent)) s fun t =>
      t.flights = s.flights ++ [.grant n src dest b k urgent (s.senderCtx src)] ∧ t.mem = s.mem)

/-- 03 R77, R78: a message that arrives at a context that is resident joins its mailbox; a grant that arrives there, or at a core, adds its tallies to the
sender's store, or goes back where the store is full; a return that arrives takes from OUT. -/
def Obligations.ArrivalsReachTheirMailbox : Prop :=
  (∀ (k cycles : Nat) (p src dest b : Nat) (m : Msg) (s s1 : State), let c := bits m.header 90 79; let key := addrKey dest c
    s.quiet → s.takeFlight k 0 = some (s1, .msg p src dest b m) → m.header.testBit 96 = false → dest < 192 → s.onDead dest = false →
    s.closedTo p dest c = false → (s.res (dest / 16) p).resident = some c → (s.cell dest).waiting = none → ((s.msgSt key).box b).held.length < 32 →
    Gives (.messageArrival k cycles) s fun t =>
      ((t.msgSt key).box b).held = ((s.msgSt key).box b).held ++ [m] ∧ ((t.msgSt key).box b).out = ((s.msgSt key).box b).out - 1
      ∧ t.flights = s.flights.eraseIdx k ∧ t.mem = s.mem)
  ∧ (∀ (k p src dest b n ctx : Nat) (urgent : Bool) (s s1 : State), let key := addrKey dest ctx
    s.quiet → s.takeFlight k 1 = some (s1, .grant p src dest b n urgent ctx) → dest < 0x200 →
    (dest < 192 → (s.cell dest).waiting = none ∧ (s.res (dest / 16) p).resident = some ctx) → (0x100 ≤ dest → dest < 0x180 → (s.core (dest - 0x100)).waiting = none) →
    Gives (.grantArrival k) s fun t => t.mem = s.mem ∧
      if ((s.msgSt key).entry src b).isSome ∨ (s.msgSt key).store.length < 16 then
        (t.msgSt key).tallies src b = (s.msgSt key).tallies src b + n ∧ t.flights = s.flights.eraseIdx k
      else t.msgSt key = s.msgSt key ∧ t.flights = s.flights.eraseIdx k ++ [.ret p dest src b n ctx])
  ∧ (∀ (k p src dest b n ctx : Nat) (s s1 : State), let key := addrKey dest ctx
    s.quiet → s.takeFlight k 2 = some (s1, .ret p src dest b n ctx) → dest < 0x200 →
    Gives (.tallyReturnArrival k) s fun t => ((t.msgSt key).box b).out = ((s.msgSt key).box b).out - n ∧ ((t.msgSt key).box b).held = ((s.msgSt key).box b).held
      ∧ t.flights = s.flights.eraseIdx k ∧ t.mem = s.mem)

/-- 06 R149-R151: what the messaging instructions of a service core do where they do not wait: FJ.SND and FJ.SNDNB take a tally and release their
message, FJ.RCV and FJ.RCVNB take the oldest message into memory, and rd is OK; FJ.RCVNB of an empty mailbox gives PENDING and FJ.SNDNB without a
tally BUSY. What they read or write goes through the cluster's L2, at the physical address of rs1. -/
def Obligations.CoreSendsAndReceives : Prop :=
  (∀ (core : CoreId) (addr desc : Word64) (x : Tally) (nb : Bool) (pa : Nat) (s : State), let dest := bits desc.toNat 9 0; let b := bits desc.toNat 13 10
    let len := bits desc.toNat 20 14; let key := addrKey (coreAddr core) 0; let n := s.corePart core
    s.coreIssues core → len ≤ 64 → bits desc.toNat 31 22 = 0 → addr.toNat % 64 = 0 → s.corePlace core .load addr.toNat len pa →
    (s.ppaPeek n pa len).2 = (false, St.ok) →
    (s.msgSt key).entry dest b = some x → x.dead = false → x.void = false →
    Gives (if nb then .fjSndnb core addr desc else .fjSnd core addr desc) s fun t => (t.core core).rd = 0 ∧ t.msgSt key = (s.msgSt key).takeTallies dest b 1
      ∧ (∃ m, t.egress = s.egress ++ [{ src := coreAddr core, ctx := (s.core core).ctx, flight := .msg n (coreAddr core) dest b m }]
        ∧ m.payload = bslice (s.ppaPeek n pa len).1 0 64) ∧ t.mem = (s.ppaReport n pa len (corePort core)).mem)
  ∧ (∀ (core : CoreId) (addr desc : Word64) (pa : Nat) (s : State), let dest := bits desc.toNat 9 0; let n := s.corePart core; let len := bits desc.toNat 20 14
    s.coreIssues core → len ≤ 64 → bits desc.toNat 31 22 = 0 → addr.toNat % 64 = 0 → s.corePlace core .load addr.toNat len pa →
    (s.ppaPeek n pa len).2 = (false, St.ok) → (s.msgSt (addrKey (coreAddr core) 0)).entry dest (bits desc.toNat 13 10) = none →
    s.onDead dest = false →
    Gives (.fjSndnb core addr desc) s fun t => (t.core core).rd = BitVec.ofNat 64 St.busy.toNat ∧ t.egress = s.egress ∧ t.msgs = s.msgs
      ∧ t.mem = (s.ppaReport n pa len (corePort core)).mem)
  ∧ (∀ (core : CoreId) (addr rs2 : Word64) (m : Msg) (rest : List Msg) (nb : Bool) (pa : Nat) (s : State), let b := bits rs2.toNat 3 0
    let key := addrKey (coreAddr core) 0; let n := s.corePart core
    s.unprotected n → s.coreIssues core → addr.toNat % 16 = 0 → s.corePlace core .store addr.toNat m.bytes.length pa →
    s.inPpa n pa m.bytes.length = true → (s.twin n).state ≠ 4 → ((s.msgSt key).box b).held = m :: rest →
    (s.ppaStore n pa m.bytes false (corePort core)).2 = St.ok →
    Gives (if nb then .fjRcvnb core addr rs2 else .fjRcv core addr rs2) s fun t => (t.core core).rd = 0 ∧ ((t.msgSt key).box b).held = rest
      ∧ t.mem = (s.ppaStore n pa m.bytes false (corePort core)).1.mem)
  ∧ (∀ (core : CoreId) (addr rs2 : Word64) (s : State),
    s.coreIssues core → addr.toNat % 16 = 0 → ((s.msgSt (addrKey (coreAddr core) 0)).box (bits rs2.toNat 3 0)).held = [] →
    exec (.fjRcvnb core addr rs2) s = .next (s.coreRd core St.pending.toNat))

/-- 03 R77, R78, R84, R85; 06 R149-R151: the tally instructions of a service core, a grant for the context of fjctx; a limited wait that ends with TIMEOUT sends and takes nothing. -/
def Obligations.CoreTallyInstructions : Prop :=
  (∀ (core : CoreId) (rs1 rs2 : Word64) (s : State), let b := bits rs2.toNat 3 0; let k := bits rs2.toNat 9 4; let key := addrKey (coreAddr core) 0
    s.coreIssues core → k ≠ 0 → ((s.msgSt key).box b).used + k ≤ 32 →
    Gives (.fjGrant core rs1 rs2) s fun t => (t.core core).rd = 0 ∧ ((t.msgSt key).box b).out = ((s.msgSt key).box b).out + k
      ∧ t.egress = s.egress ++ [{ src := coreAddr core, ctx := (s.core core).ctx
                                  flight := .grant (s.corePart core) (coreAddr core) (bits rs1.toNat 9 0) b k ((s.msgSt key).box b).urgent (s.core core).ctx }]
      ∧ t.mem = s.mem)
  ∧ (∀ (core : CoreId) (rs1 rs2 : Word64) (x : Tally) (s : State), let b := bits rs2.toNat 3 0; let k := min (bits rs2.toNat 9 4) x.count
    let key := addrKey (coreAddr core) 0
    s.coreIssues core → (s.msgSt key).entry (bits rs1.toNat 9 0) b = some x → k ≠ 0 →
    Gives (.fjRtn core rs1 rs2) s fun t => (t.core core).rd = 0 ∧ t.msgSt key = (s.msgSt key).takeTallies (bits rs1.toNat 9 0) b k
      ∧ t.egress = s.egress ++ [{ src := coreAddr core, ctx := 0, flight := .ret (s.corePart core) (coreAddr core) (bits rs1.toNat 9 0) b k x.ctx }]
      ∧ t.mem = s.mem)
  ∧ (∀ (core : CoreId) (rs1 rs2 : Word64) (s : State), let b := bits rs2.toNat 3 0; let key := addrKey (coreAddr core) 0
    s.coreIssues core →
    Gives (.fjMbcfg core rs1 rs2) s fun t => (t.core core).rd = 0 ∧ (t.msgSt key).box b = { (s.msgSt key).box b with
        standing := rs2.toNat.testBit 4, urgent := rs2.toNat.testBit 5, sender := bits rs1.toNat 9 0 } ∧ t.mem = s.mem)
  ∧ (∀ (core : CoreId) (rs1 rs2 : Word64) (s : State), s.coreIssues core →
    exec (.fjWait core rs1 rs2) s = .next (
      match (s.msgSt (addrKey (coreAddr core) 0)).entry (bits rs1.toNat 9 0) (bits rs2.toNat 3 0) with
      | some x =>
        if x.dead then s.coreRd core St.siteDead.toNat
        else if x.void then s.coreRd core St.contextLost.toNat
        else if bits rs2.toNat 9 4 ≤ x.count then s.coreRd core 0 else s.coreHold core (.fjWait core rs1 rs2)
      | none =>
        if s.onDead (bits rs1.toNat 9 0) then s.coreRd core St.siteDead.toNat
        else if bits rs2.toNat 9 4 = 0 then s.coreRd core 0 else s.coreHold core (.fjWait core rs1 rs2)))
  ∧ (∀ (core : CoreId) (a b : Word64) (s : State), s.quiet →
      ((s.core core).waiting = some (.fjSnd core a b) ∨ (s.core core).waiting = some (.fjRcv core a b) ∨ (s.core core).waiting = some (.fjWait core a b)) →
    exec (.fjWaitTimeout core) s = .next (s.coreRd core St.timeout.toNat))

/-- 06 R142, R143, R148, R149; 07 R167, R168: events, CSRs, exceptions, task submission and memory accesses of a service core. -/
def Obligations.CoreEventsCsrsAndMemory : Prop :=
  (∀ (core : CoreId) (mask : Word64) (s : State), s.coreIssues core →
    (mask = 0 → exec (.fjEvwait core mask) s = .next (s.coreRd core 0))
    ∧ (mask ≠ 0 → (s.core core).evt &&& mask.toNat = 0 →
        exec (.fjEvwait core mask) s = .next (s.updCore core (fun c => { c with waiting := some (.fjEvwait core mask) })))
    ∧ (mask ≠ 0 → (s.core core).evt &&& mask.toNat ≠ 0 → Gives (.fjEvwait core mask) s fun t =>
        (t.core core).rd = BitVec.ofNat 64 ((s.core core).evt &&& mask.toNat) ∧ (t.core core).waiting = none
        ∧ (t.core core).evt = (s.core core).evt - ((s.core core).evt &&& mask.toNat))
    ∧ ((s.core core).priv ≠ 0 → exec (.fjevtClear core mask) s = .next (s.updCore core (fun c => { c with evt := c.evt - (c.evt &&& mask.toNat) }))))
  ∧ (∀ (core : CoreId) (v : Word64) (s : State), s.quiet → s.coreRuns core = true → (s.core core).priv ≠ 0 →
    exec (.xfjmCsrWrite core .fjctx v) s = .next (s.updCore core (fun c => { c with ctx := bits v.toNat 11 0 }))
    ∧ exec (.xfjmCsrWrite core .fjtwait v) s = .next (s.updCore core (fun c => { c with twait := max 100 (min v.toNat 1000000) }))
    ∧ exec (.xfjmCsrWrite core .fjevtie v) s = .next (s.updCore core (fun c => { c with evtie := v.toNat }))
    ∧ exec (.xfjmCsrWrite core .fjctl v) s = .next (s.updCore core (fun c => { c with uen := v.toNat.testBit 0 }))
    ∧ (v.toNat &&& (s.core core).evt = v.toNat → exec (.xfjmCsrWrite core .fjevt v) s = .next (s.updCore core (fun c => { c with evt := v.toNat })))
    ∧ ∀ w, (exec (.xfjmCsrWrite core .fjerr v) s = .next w → ∀ k, w.core k = s.core k))
  ∧ (∀ (core : CoreId) (w : BitVec 32) (s : State), s.quiet → s.coreRuns core = true → (s.core core).xfjmIllegal w.toNat = true →
    Gives (.illegalInstruction core w) s fun t => s.coreTrapped t core 2 w.toNat ∧ (t.core core).errDross = (s.core core).errDross ∧ t.mem = s.mem)
  ∧ (∀ (core : CoreId) (c : Instr) (a b : Word64) (s : State), s.quiet → s.coreRuns core = true → (s.core core).priv = 0 → (s.core core).uen = false →
      c ∈ [.fjSnd core a b, .fjSndnb core a b, .fjRcv core a b, .fjRcvnb core a b, .fjGrant core a b, .fjRtn core a b, .fjMbcfg core a b, .fjWait core a b,
           .fjTask core a, .fjEvwait core a] →
    Gives c s fun t => (∃ v, s.coreTrapped t core 2 v) ∧ t.egress = s.egress ∧ t.msgs = s.msgs ∧ t.schs = s.schs ∧ t.mem = s.mem)
  ∧ (∀ (core : CoreId) (s : State), s.quiet → (s.core core).inReset = false →
    Gives (.coreInterrupt core) s fun t => (t.core core).waiting = none ∧ (t.core core).again = (s.core core).waiting ∧ (t.core core).priv = 3
      ∧ (t.core core).cause = s.intCause core ∧ (t.core core).rd = (s.core core).rd ∧ (t.core core).evt = (s.core core).evt
      ∧ t.egress = s.egress ∧ t.msgs = s.msgs ∧ t.mem = s.mem)
  ∧ (∀ (core : CoreId) (addr : Word64) (pa : Nat) (s : State), let n := s.corePart core; let b := (s.ppaPeek n pa 64).1
    let task := taskOf (s.core core).ctx b (.core core)
    s.unprotected n → s.coreIssues core → (s.twin n).state ≠ 4 → s.corePlace core .load addr.toNat 64 pa → (s.ppaPeek n pa 64).2 = (false, St.ok) →
    s.taskDenied n b task = false → ((s.sch n).waiting.filter (fun x => halfOfSite x.site == halfOfSite task.site)).length < 1024 → s.ready n = true →
    s.ctxLost n (s.core core).ctx = false → (s.ctx n (s.core core).ctx).state = s.ctxStateNow n (s.core core).ctx →
    Gives (.fjTask core addr) s fun t => (t.core core).rd = 0 ∧ (t.sch n).waiting = (s.sch n).waiting ++ [task])
  ∧ (∀ (core : CoreId) (a pa len : Nat) (data : List Byte) (s : State), let n := s.corePart core
    s.unprotected n → s.coreRuns core = true → s.heldUnit (some (.cluster (core.val / 8))) = false →
    (s.corePlace core .load a len pa → s.lets n pa len (corePort core) → (s.ppaPeek n pa len).2 = (false, St.ok) →
      exec (.coreMemoryAccess core a (.load len)) s = .next ((s.ppaReport n pa len (corePort core)).emit (.coreData core (s.ppaPeek n pa len).1)))
    ∧ (s.corePlace core .store a data.length pa → s.lets n pa data.length { corePort core with store := true } → s.inPpa n pa data.length = true →
      (s.twin n).state ≠ 4 → (s.ppaStore n pa data false (corePort core)).2 = St.ok →
      exec (.coreMemoryAccess core a (.store data)) s = .next (s.ppaStore n pa data false (corePort core)).1))
  ∧ (∀ (core : CoreId) (a pa len : Nat) (data : List Byte) (s : State), let n := s.corePart core
      let faults := fun (c : Instr) (cause : Nat) => Gives c s fun t => s.coreTrapped t core cause a ∧ t.mem = s.mem
    s.quiet → s.coreRuns core = true → s.heldUnit (some (.cluster (core.val / 8))) = false →
    (s.coreTarget n pa len = .none → (s.corePlace core .load a len pa → faults (.coreMemoryAccess core a (.load len)) 5)
      ∧ (s.corePlace core .fetch a len pa → faults (.coreMemoryAccess core a (.fetch len)) 1))
    ∧ (s.coreTarget n pa data.length = .none → s.corePlace core .store a data.length pa → faults (.coreMemoryAccess core a (.store data)) 7
      ∧ faults (.coreMemoryAccess core a (.amo data)) 7))

/-- 06 R161-R163: the pool operations of a service core whose partition has the pool: joins queue, growth takes one free page of an open step, FREE
ends a slot, STEP_BEGIN opens a step and STEP_END closes it, RESERVE_SET sets the extra reserve; a reserved OP is DENIED. -/
def Obligations.PoolOperations : Prop :=
  (∀ (core : CoreId) (rs1 rs2 : Word64) (s : State), let n := s.corePart core; let p := bits rs1.toNat 1 0; let k := bits rs1.toNat 28 16; let q := s.pool n p
    s.coreIssues core → poolNames rs1 0 true → bits rs2.toNat 63 52 = 0 → bits rs2.toNat 1 0 = 0 → q.total ≠ 0 →
    (q.slot k).state = 0 → bits rs2.toNat 51 40 ≠ 0 → bits rs2.toNat 39 0 + 16384 ≤ s.ppaSize n → q.queue.length < 1024 →
    Gives (.allocJoin core rs1 rs2) s fun t => (t.pool n p).slot k = { state := 1, need := bits rs2.toNat 51 40, list := bits rs2.toNat 39 0, status := St.pending }
      ∧ (t.pool n p).queue = q.queue ++ [k] ∧ (t.pool n p).free = q.free ∧ (t.core core).rd = BitVec.ofNat 64 (poolRd St.pending q.queue.length 0) ∧ t.mem = s.mem)
  ∧ (∀ (core : CoreId) (rs1 : Word64) (s : State), let n := s.corePart core; let p := bits rs1.toNat 1 0; let k := bits rs1.toNat 28 16; let q := s.pool n p
    s.unprotected n → s.coreIssues core → poolNames rs1 0 false → q.total ≠ 0 → q.isOpen = true → (q.slot k).state = 2 →
    (q.slot k).grew = false → (q.slot k).pages.length < 4095 → q.freePages ≠ [] →
    (∀ x ∈ q.freePages, (s.tick.hubWrite n ((q.slot k).list + 4 * (q.slot k).pages.length) (leBytes 4 x)).2 = St.ok) →
    Gives (.allocGrowth core rs1 0) s fun t => ∃ x, x ∈ q.freePages ∧ ((t.pool n p).slot k).pages = (q.slot k).pages ++ [x]
      ∧ ((t.pool n p).slot k).grew = true ∧ (t.pool n p).free = q.free - 1 ∧ (t.pool n p).reserve = q.reserve - 1
      ∧ (t.core core).rd = BitVec.ofNat 64 (poolRd St.ok x ((q.slot k).pages.length + 1)))
  ∧ (∀ (core : CoreId) (rs1 : Word64) (s : State), let n := s.corePart core; let p := bits rs1.toNat 1 0; let k := bits rs1.toNat 28 16; let q := s.pool n p
    s.coreIssues core → poolNames rs1 1 false → q.total ≠ 0 → ((q.slot k).state = 1 ∨ (q.slot k).state = 2) →
    Gives (.free core rs1 0) s fun t => ((t.pool n p).slot k).state = (if (q.slot k).state = 2 ∧ q.isOpen = true then 3 else 0)
      ∧ (t.pool n p).deferPages = (if (q.slot k).state = 2 ∧ q.isOpen = false then q.deferPages ++ (q.slot k).pages else q.deferPages)
      ∧ (t.pool n p).queue = (if (q.slot k).state = 1 then q.queue.filter (fun j => j != k) else q.queue) ∧ (t.pool n p).free = q.free
      ∧ (t.core core).rd = BitVec.ofNat 64 (poolRd St.ok (q.slot k).pages.length 0) ∧ t.mem = s.mem)
  ∧ (∀ (core : CoreId) (rs1 : Word64) (s : State), let n := s.corePart core; let p := bits rs1.toNat 1 0; let q := s.pool n p
    s.coreIssues core → poolNames rs1 2 false → q.total ≠ 0 → q.isOpen = false → q.queue = [] →
    Gives (.stepBegin core rs1 0) s fun t => (t.pool n p).free = q.free + q.deferPages.length ∧ (t.pool n p).deferPages = []
      ∧ (t.pool n p).isOpen = decide (q.running + q.extra ≤ q.free + q.deferPages.length)
      ∧ (q.running + q.extra ≤ q.free + q.deferPages.length → (t.pool n p).reserve = q.running + q.extra) ∧ t.mem = s.mem)
  ∧ (∀ (core : CoreId) (rs1 : Word64) (s : State), let n := s.corePart core; let p := bits rs1.toNat 1 0; let q := s.pool n p
    s.coreIssues core → poolNames rs1 3 false → q.total ≠ 0 → q.isOpen = true → Tab.wf {} q.slots = true →
    Gives (.stepEnd core rs1 0) s fun t => (t.pool n p).isOpen = false ∧ (t.pool n p).reserve = 0 ∧ (t.pool n p).free = q.free
      ∧ (∀ k, (t.pool n p).slot k = if (q.slot k).state = 3 then {} else { q.slot k with grew := false }) ∧ t.mem = s.mem)
  ∧ (∀ (core : CoreId) (rs1 rs2 : Word64) (s : State), let n := s.corePart core; let p := bits rs1.toNat 1 0; let q := s.pool n p
    s.coreIssues core → poolNames rs1 4 false → bits rs2.toNat 63 16 = 0 → q.total ≠ 0 → q.isOpen = false →
    Gives (.reserveSet core rs1 rs2) s fun t => t.pool n p = { q with extra := bits rs2.toNat 15 0 } ∧ (t.core core).rd = BitVec.ofNat 64 (poolRd St.ok (bits rs2.toNat 15 0) 0)
      ∧ t.mem = s.mem)
  ∧ (∀ (core : CoreId) (rs1 rs2 : Word64) (c : Instr) (s : State), s.coreIssues core → 4 < bits rs1.toNat 10 8 →
      c ∈ [.allocJoin core rs1 rs2, .allocGrowth core rs1 rs2, .free core rs1 rs2, .stepBegin core rs1 rs2, .stepEnd core rs1 rs2, .reserveSet core rs1 rs2] →
    exec c s = .next (s.coreRd core St.denied.toNat))

/-- 06 R145, R146: a code load or stop that passes its checks is PENDING; the clusters stop, and where their
caches hold no line memory stands; the check of the image ends with the clusters of a valid
image running from its entry, and else with nothing loaded. -/
def Obligations.CodeLoadsRunInSteps : Prop :=
  (∀ (n : PartId) (v : Word64) (s : State), s.carries (.vf n) → v.toNat.testBit 0 = false → s.ready n = true →
      (∀ c, c < 16 → (bits v.toNat 55 40).testBit c = true → (s.slice n).clusters.testBit c = true) → (s.sec.fuses.confOnly = true → s.confidential n = true) →
      (s.twin n).state ≠ 4 → (s.code n).step = 0 → s.logRoom = true → s.sec.fwState ≠ 4 →
    Gives (.codeLoad (.vf n) n v) s fun t => (t.code n).step = 1 ∧ (t.code n).status = St.pending ∧ (t.code n).token = bits v.toNat 63 56 ∧ (t.code n).stop = false
      ∧ (t.code n).clusters = bits v.toNat 55 40 ∧ (t.code n).image = bits v.toNat 39 12 * 4096 ∧ (t.code n).running = (s.code n).running ∧ t.mem = s.mem)
  ∧ (∀ (n : PartId) (v : Word64) (s : State), s.carries (.vf n) → v.toNat.testBit 0 = true → s.ready n = true →
      (∀ c, c < 16 → (bits v.toNat 55 40).testBit c = true → (s.slice n).clusters.testBit c = true) → (s.code n).step = 0 → s.logRoom = true →
    Gives (.codeStop (.vf n) n v) s fun t => (t.code n).step = 1 ∧ (t.code n).status = St.pending ∧ (t.code n).token = bits v.toNat 63 56 ∧ (t.code n).stop = true
      ∧ (t.code n).clusters = bits v.toNat 55 40 ∧ (t.code n).running = (s.code n).running ∧ t.mem = s.mem)
  ∧ (∀ (n : PartId) (s : State), s.quiet → (s.code n).step = 1 → s.noCellWaits →
    Gives (.clustersStopped n) s fun t => (∀ k ∈ clusterCores (s.code n).clusters, (t.core k).inReset = true)
      ∧ (if (s.code n).stop then (t.code n).step = 0 ∧ (t.code n).status = St.ok else (t.code n).step = 2)
      ∧ (∀ c, c < 16 → (s.code n).clusters.testBit c = true → (t.code n).running.testBit c = false) ∧ (s.coh.copies = [] → t.mem = s.mem))
  ∧ (∀ (n : PartId) (s : State), let c := s.code n; let h := s.ppaPeek n c.image 256; let len := fld h.1 8 4
    s.quiet → c.step = 2 →
    Gives (.codeImageChecked n) s fun t => (t.code n).step = 0 ∧ t.mem = s.mem
      ∧ (s.inPpa n c.image 256 = false → (t.code n).status = St.faultBounds ∧ t.cores = s.cores)
      ∧ (s.inPpa n c.image 256 = true → codeHeaderOk h.1 = false → (t.code n).status = St.denied ∧ t.cores = s.cores)
      ∧ (s.inPpa n c.image 256 = true → h.2 = (false, St.ok) → codeHeaderOk h.1 = true → s.inPpa n c.image len = true →
          (s.ppaPeek n c.image len).2 = (false, St.ok) → if codeSigned (s.slice n).tenant (s.ppaPeek n c.image len).1 = true then
            (t.code n).status = St.ok ∧ (t.code n).running = c.running ||| c.clusters
            ∧ ∀ k ∈ clusterCores c.clusters, (t.core k).inReset = false ∧ (t.core k).pc = c.image + fld (s.ppaPeek n c.image len).1 0xC 4
          else (t.code n).status = St.denied ∧ t.cores = s.cores))

/-- 06 R153-R157; 14 R362, R364, R367: receive queues: enabling, posting, the event timer, and what a received frame does. -/
def Obligations.ReceiveQueuesTakeFrames : Prop :=
  (∀ (n : PartId) (q : EthQId) (v : Word64) (s : State), s.carries (.vf n) → s.ownerEthQ q = some n.val → v.toNat.testBit 0 = true →
      s.ownerCore (bits v.toNat 23 17) = some n.val → canEnable (s.rxq q).desc (s.rxq q).cq = true → (s.rxq q).ctrl.testBit 0 = false →
    Gives (.rxqEnable (.vf n) q v) s fun t => t.rxq q = { s.rxq q with
        ctrl := keepBits v.toNat 47 11 + 1, unsignalled := 0, dIdx := (s.rxq q).tail % ringOf (s.rxq q).desc, cIdx := (s.rxq q).cqHead % ringOf (s.rxq q).cq
        cFree := (s.rxq q).cqHead % ringOf (s.rxq q).cq } ∧ t.mem = s.mem)
  ∧ (∀ (n : PartId) (q : EthQId) (v : Word64) (s : State), s.carries (.vf n) → s.ownerEthQ q = some n.val → v.toNat.testBit 0 = false →
      ((s.rxq q).ctrl.testBit 0 = true → boundFields (s.rxq q).ctrl = boundFields v.toNat) →
    Gives (.rxqDisable (.vf n) q v) s fun t => t.rxq q = { s.rxq q with ctrl := keepBits v.toNat 47 11 } ∧ t.mem = s.mem)
  ∧ (∀ (n : PartId) (q : EthQId) (v : BitVec 32) (s : State), s.carries (.vf n) → s.ownerEthQ q = some n.val → (∀ p, p < 16 → (s.port p).held = []) →
    (Gives (.rxqPost (.vf n) q false v) s fun t => t.rxq q = { s.rxq q with tail := v.toNat % 65536 } ∧ t.mem = s.mem)
    ∧ (Gives (.rxqPost (.vf n) q true v) s fun t => (t.rxq q).cqHead = v.toNat % 65536 ∧ (t.rxq q).tail = (s.rxq q).tail ∧ t.mem = s.mem))
  ∧ (∀ (q : EthQId) (s : State), s.quiet → (s.rxq q).unsignalled ≠ 0 → bits (s.rxq q).ctrl 47 32 ≠ 0 →
      (s.core (bits (s.rxq q).ctrl 23 17)).waiting = none →
    Gives (.rxqEventTimer q) s fun t => (t.rxq q).unsignalled = 0
      ∧ (t.core (bits (s.rxq q).ctrl 23 17)).evt = setBit (s.core (bits (s.rxq q).ctrl 23 17)).evt (bits (s.rxq q).ctrl 16 11) ∧ t.mem = s.mem)
  ∧ (∀ (port : PortId) (f : Frame) (s : State), s.quiet → (s.port port).state = 2 → 64 ≤ f.bytes.length → f.bytes.length ≤ 9216 →
    (s.frameParts port f = [] → Gives (.frameReceived port f) s fun t => (t.port port).drop = satAdd 64 (s.port port).drop 1 ∧ t.rxqs = s.rxqs ∧ t.mem = s.mem)
    ∧ (∀ n : PartId, let q := s.dgramQueue n f
      s.frameParts port f = [n.val] → f.qpn = none → s.ready n = true → s.unprotected n → s.ownerEthQ q = some n.val → s.portMode port = 1 → (s.rxq q).room = true →
      (s.port port).held = [] → Gives (.frameReceived port f) s fun t => (t.rxq q).dIdx = (s.rxq q).dIdx + 1 ∧ (t.rxq q).cIdx = (s.rxq q).cIdx + 1
        ∧ (t.rxq q).drop = (s.rxq q).drop ∧ (t.port port).drop = (s.port port).drop))

/-- 07 R175, R176, R179: GANG_START starts the resident context's first waiting task on free cells; SLICE_END lets a turn go on, its debt taken off;
CONTEXT_RESIDENT ends a switch. -/
def Obligations.SchedulingStartsAndSwitches : Prop :=
  (∀ (k : SiteId) (n : PartId) (c : Nat) (x : Task) (image : List Byte) (thr : Nat) (trap : Bool) (s s1 s2 : State),
      s.unprotected n → s.ready n = true → (s.res k n).switching = false → (s.site k).state ≠ 2 → (s.twin n).phase ≠ 1 → (s.res k n).resident = some c →
      (∀ i ∈ s.siteCells n c k, (s.cell i).state ≠ 4) → (s.sch n).waiting.find? (fun t => t.ctx == c && t.site == k.val) = some x →
      (∀ p ∈ maskList 16 x.mask, (s.cell (k * 16 + p)).state = 0 ∧ s.cellTested (k * 16 + p) = false) → s.dispatchCheck n x = (s1, .ok image) →
      s1.readWords n c = (s2, .ok (thr, trap)) →
    Gives (.gangStart k n) s fun t => (t.sch n).waiting = (s.sch n).waiting.erase x
      ∧ ∀ p ∈ maskList 16 x.mask, let y := t.cell (k * 16 + p)
        y.state = 1 ∧ y.pc = fld image 8 2 ∧ y.ctx = c ∧ y.gang = some (s.sch n).nextGang ∧ y.image = image ∧ y.reg 1 = BitVec.ofNat 32 p ∧ y.loops = [])
  ∧ (∀ (k : SiteId) (n : PartId) (c : Nat) (s : State),
      s.unprotected n → s.ready n = true → (s.res k n).switching = false → (s.twin n).phase ≠ 1 → (s.res k n).gen = (s.sch n).listGen →
      (s.res k n).resident = some c → 0 < (s.res k n).left → s.qualifies k n c = true → (s.sliceUs n = 0 ∨ (s.ctx n c).debt < s.sliceUs n) →
      (∀ g ∈ (s.sch n).gangs, g.saved = false) →
    Gives (.sliceEnd k n) s fun t => (t.res k n).left = (s.res k n).left - 1 ∧ (t.res k n).resident = some c ∧ (t.ctx n c).debt = 0
      ∧ (t.res k n).shortened = (if s.sliceUs n = 0 then (s.ctx n c).debt else (s.ctx n c).debt % s.sliceUs n) ∧ t.cells = s.cells)
  ∧ (∀ (k : SiteId) (n : PartId) (s : State), s.quiet → s.ready n = true → (s.res k n).switching = false → (s.twin n).phase ≠ 1 →
      (s.res k n).gen = (s.sch n).listGen → (s.res k n).resident = none → (s.res k n).list = [] → exec (.sliceEnd k n) s = .next s)
  ∧ (∀ (k : SiteId) (n : PartId) (us d : Nat) (s : State), s.calm n d → (s.res k n).switching = true → (s.res k n).resident = none →
      (s.res k n).incoming = some d → s.injOpen (halfOfSite k) (k.val % 6) n = true →
    Gives (.contextResident k n us) s fun t => (t.res k n).switching = false ∧ (t.res k n).incoming = none
      ∧ (t.res k n).resident = if s.qualifies k n d then some d else none)

/-- 07 R178, R184, R188; 04 R108: a save that succeeds frees the cell with its state held; a restore that succeeds sets it running where it stood, both where
the site's regulator is open; a stretch beyond its bound and a failed save or restore lose the context. -/
def Obligations.SavesRestoresAndStretches : Prop :=
  (∀ (cell : CellId) (n : PartId) (g : Gang) (j : Nat) (s : State), let c := s.cell cell
    s.unprotected n → s.ownerCell cell = some n.val → c.state = 3 → c.moversIdle = true → (s.ctx n c.ctx).aborting = false →
    s.gangOf n (c.gang.getD 0) = some g → g.stopping = false → c.gang.isSome = true → j ≠ cell.val → (s.cell j).gang = c.gang → s.ownerCell j = some n.val →
    s.injOpen (halfOfSite (cell.val / 16)) (cell.val / 16 % 6) n = true →
    (((s.injCharge (halfOfSite (cell.val / 16)) (cell.val / 16 % 6) n (s.saveBytes cell)).putGuard n c.ctx).saveCell n cell).2 = St.ok →
    Gives (.cellSaveDone cell) s fun t => t.cell cell = c.freed ∧ let v := t.saved.get {} (savedKey n c.ctx cell)
      v.present = true ∧ v.pc = c.pc ∧ v.loops = c.loops ∧ v.lrt = c.yld.getD 0 ∧ v.gang = c.gang.getD 0)
  ∧ (∀ (cell : CellId) (n : PartId) (g : Gang) (image : List Byte) (thr : Nat) (trap : Bool) (s s1 s2 : State), let c := s.cell cell
    let v := s.saved.get {} (savedKey n c.ctx cell)
    s.quiet → s.ownerCell cell = some n.val → c.state = 4 → (s.ctx n c.ctx).aborting = false → s.gangOf n v.gang = some g →
    s.readImage n g.task.image = (s1, .ok image) → s1.readWords n c.ctx = (s2, .ok (thr, trap)) → s.chansOf n c.ctx = [] →
    s.injOpen (halfOfSite (cell.val / 16)) (cell.val / 16 % 6) n = true →
    (∀ p ∈ restoreReads (lrtOf image v.lrt), (s2.ppaPeek n (s2.slotAddr n c.ctx cell + p.1) p.2).2.2 = St.ok) →
    Gives (.cellRestoreDone cell) s fun t => let y := t.cell cell
      y.state = 1 ∧ y.pc = v.pc ∧ y.loops = v.loops ∧ y.ctx = c.ctx ∧ y.gang = c.gang ∧ y.image = image ∧ y.excThr = thr ∧ y.excTrap = trap
      ∧ t.saved.get {} (savedKey n c.ctx cell) = {} ∧ ((s.moverReads (cell.val / 16) n).hint = .noAlloc → t.mem = s.mem))
  ∧ (∀ (cell : CellId) (n : PartId) (s : State), let c := s.cell cell
    s.calm n c.ctx → s.ownerCell cell = some n.val → (c.state = 1 ∨ c.state = 2) → c.gang.isSome = true → (s.ctx n c.ctx).aborting = false →
    (s.ctx n c.ctx).state ≠ .lost → (s.ctx n c.ctx).fault = 0 →
    Gives (.stretchTimeout cell) s fun t => (t.ctx n c.ctx).state = .lost ∧ (t.ctx n c.ctx).status = St.timeout ∧ (t.cell cell).state = 0
      ∧ (t.ctx n c.ctx).fault = faultWord (c.pc % 8192) (opcodeOf (codeWord c.image c.pc)) 0 0 St.timeout)
  ∧ (∀ (cell : CellId) (n : PartId) (st : StatusCode) (s : State), let c := s.cell cell
    s.calm n c.ctx → s.ownerCell cell = some n.val → (c.state = 3 ∨ c.state = 4) → st ≠ St.ok → (s.ctx n c.ctx).state ≠ .lost →
    (s.gangOf n (c.gang.getD 0)).isSome = true →
    Gives (.saveRestoreFailure cell st) s fun t => (t.ctx n c.ctx).state = .lost ∧ (t.ctx n c.ctx).status = st ∧ (t.cell cell).state = 0)

/-- 07 R173, R174; 12 R331, R332: the SCH block's commands, and the end of an abort. -/
def Obligations.ContextCommands : Prop :=
  (∀ (n : PartId) (v : Word64) (s : State), s.carries (.vf n) →
    Gives (.runlistWrite (.vf n) n v) s fun t => (t.sch n).list = (s.runlistOf n v.toNat).2 ∧ (t.sch n).listGen = (s.sch n).listGen + 1
      ∧ (t.sch n).runlist = field 55 47 (bits v.toNat 55 47) + field 39 6 (bits v.toNat 39 6) ∧ (t.sch n).waiting = (s.sch n).waiting ∧ t.mem = s.mem)
  ∧ (∀ (n : PartId) (v : Word64) (s : State), let c := bits v.toNat 27 16
    s.carries (.vf n) → s.unprotected n → s.chansOf n c = [] → (s.part n).state ≠ .lost → (s.ctx n c).state = .held →
    (s.saveHeader n c 0).2 = St.ok →
    Gives (.schResume (.vf n) n v) s fun t => (t.sch n).cmdStatus = St.ok ∧ (t.sch n).cmdToken = bits v.toNat 63 56 ∧ (t.ctx n c).state ≠ .held
      ∧ (t.ctx n c).state ≠ .lost ∧ (t.sch n).gangs = (s.sch n).gangs)
  ∧ (∀ (n : PartId) (v : Word64) (s : State), let c := bits v.toNat 27 16
    s.carries (.vf n) → s.calm n c → s.ctxLost n c = false →
    Gives (.schLose (.vf n) n v) s fun t => (t.sch n).cmdStatus = St.ok ∧ (t.ctx n c).state = .lost ∧ (t.ctx n c).status = St.aborted
      ∧ (t.ctx n c).aborting = true ∧ (t.ctx n c).debt = 0)
  ∧ (∀ (n : PartId) (v : Word64) (s : State), let c := bits v.toNat 27 16
    s.carries (.vf n) → s.unprotected n → (s.ctx n c).aborting = false → ((s.ctx n c).state = .idle ∨ (s.ctx n c).state = .lost) →
    Gives (.schReset (.vf n) n v) s fun t => (t.sch n).cmdStatus = St.ok ∧ (t.ctx n c).state = .idle ∧ (t.ctx n c).fault = 0 ∧ (t.ctx n c).guard = {}
      ∧ ((s.ctx n c).state = .lost → (t.ctx n c).saveBase = (s.ctx n c).saveBase) ∧ ∀ i, i < 192 → s.ownerCell i = some n.val → t.msgSt (msgKey i c) = {})
  ∧ (∀ (n : PartId) (c : CtxId) (s : State), s.quiet → (s.ctx n c).aborting = true → s.cellsOf n c = [] →
      (∀ i ∈ s.chansOf n c, (s.chan i).state = 1 ∨ (s.chan i).state = 6) →
      (∀ g ∈ (s.sch n).gangs, g.task.ctx ≠ c) →
    Gives (.contextAbortDone n c) s fun t => (t.ctx n c).aborting = false ∧ (t.ctx n c).state = (s.ctx n c).state
      ∧ (t.vf n).ctxDone = setBit (s.vf n).ctxDone c ∧ t.mem = s.mem)
  ∧ (∀ (n : PartId) (c : CtxId) (s : State), s.unprotected n → (s.ctx n c).aborting = true →
    Gives (.abortBoundStop n c) s fun t => (∀ i ∈ s.cellsOf n c, (t.cell i).state = 0) ∧ (∀ i, i ∉ s.cellsOf n c → t.cell i = s.cell i)
      ∧ ((s.ctx n c).latched = false → t.mem = s.mem))

/-- 00 R8, R9; 01 R21, R25, R27; 02 R52, R53: a register write acts by its access code: nothing for RO, a Note for RWL and for a write past the
path's reach, the value for the rest; a reserved address answers BUS_ERROR; a staged register takes its value into the staged copy. -/
def Obligations.RegisterWritesFollowTheirAccessCode : Prop :=
  (∀ (p : Path) (addr len value : Nat) (s : State), s.quiet → s.pathLive p = true → s.pathShut p = false →
    (s.regFind p addr = .error () → exec (.registerWrite p addr len value) s = .next (s.emit (.access St.busError 0)))
    ∧ (s.regFind p addr = .ok none → exec (.registerWrite p addr len value) s = .next s)
    ∧ ∀ (r : Reg) (o : Nat), s.regFind p addr = .ok (some (r, o)) →
      (r.set = .ro → s.regSeen p r = true → exec (.registerWrite p addr len value) s = .next s)
      ∧ (r.set = .locked → s.effClass 0x110 (pathScope p) = .note →
          exec (.registerWrite p addr len value) s = .next (s.countNote 0x110 (pathScope p)))
      ∧ (∀ f, (r.set = .whole f ∨ ∃ g, r.set = .span g) → regMayWrite p r = false → s.effClass 0x110 (pathScope p) = .note →
          exec (.registerWrite p addr len value) s = .next (s.countNote 0x110 (pathScope p)))
      ∧ (∀ f, r.set = .whole f → regMayWrite p r = true → o = r.base → r.width = len →
          exec (.registerWrite p addr len value) s = closing (f p (value % 256 ^ len) s)))
  ∧ (∀ (h : HalfId) (i : Fin 64) (n : PartId) (v : Word64) (s : State), s.quiet → s.pathLive .pf0 = true → s.pathShut .pf0 = false → s.pwr.stage ≠ 0 →
      (h = 1 → s.fab.bridgeUp = true) → let a := injRegAddr h.val i.val n.val
    exec (.registerWrite .pf0 (h.val * 0x8000000 + 0x1010000 + i.val * 0x80 + n.val * 8) 8 v.toNat) s =
      .next { s with staged := s.staged.set 0 a (if v.toNat = s.reg a then 0 else v.toNat + 1) })
  ∧ (∀ (n : PartId) (v : Word64) (s : State), s.quiet → s.pathLive (.partAlias n) = true → s.pwr.stage ≠ 0 →
    exec (.registerWrite (.partAlias n) (0x3100000 + n.val * 0x100) 8 v.toNat) s =
      .next (s.updXlt n.val (fun x => { x with ctxBase := bits v.toNat 39 16 * 65536 })))

/-- 08 R202; 10 R247: a window start refills the account of a regulator, overdraft carried and surplus lost, and the committed value acts from here
on, unless its window is longer than the one that acted, which may have to wait for a start of its own; what the master holds goes on. -/
def Obligations.WindowsRefillRegulators : Prop :=
  (∀ (h : HalfId) (i : Fin 64) (n : PartId) (s : State), let k := h.val * 8 + i.val; let new := s.reg (hmcAddr k (0x100 + n.val * 0x20))
    let old := s.hbm.acting.get 0 (k * 16 + n.val)
    s.quiet → i.val < 8 → (∀ e ∈ s.hbm.held, e.1 ≠ k * 16 + n.val) →
    Gives (.regulatorWindowStart h i n true) s fun t => ∃ v, (v = new ∨ bits old 34 32 < bits new 34 32 ∧ v = old) ∧
      t.hbm.account.get 0 (k * 16 + n.val) = min (s.hbm.account.get 0 (k * 16 + n.val)) 0 + bits v 19 0 * 4096
      ∧ t.hbm.acting.get 0 (k * 16 + n.val) = v ∧ t.hbm.heldWin.get false (k * 16 + n.val) = false
      ∧ (∀ j, j ≠ k * 16 + n.val → t.hbm.account.get 0 j = s.hbm.account.get 0 j) ∧ t.fab = s.fab ∧ t.regs = s.regs ∧ t.mem = s.mem)
  ∧ (∀ (h : HalfId) (i : Fin 64) (n : PartId) (s : State), let k := injKey h.val i.val n.val; let new := s.reg (injRegAddr h.val i.val n.val)
    let old := s.fab.acting.get 0 k
    s.quiet → regulated h.val i.val = true → (i.val < 8 ∨ 24 ≤ i.val) → s.fab.held = [] → s.pcie.held = [] →
    (∀ c, i.val ≤ 5 → c < 16 → (s.cell ((h.val * 6 + i.val) * 16 + c)).movers = []) →
    Gives (.regulatorWindowStart h i n false) s fun t => ∃ v, (v = new ∨ bits old 34 32 < bits new 34 32 ∧ v = old) ∧
      t.fab.account.get 0 k = min (s.fab.account.get 0 k) 0 + bits v 19 0 * 4096 ∧ t.fab.acting.get 0 k = v ∧ t.fab.heldWin.get false k = false
      ∧ (∀ j, j ≠ k → t.fab.account.get 0 j = s.fab.account.get 0 j) ∧ t.hbm = s.hbm ∧ t.regs = s.regs ∧ t.mem = s.mem)
  ∧ (∀ (h : HalfId) (i : Fin 64) (n : PartId) (s : State), 8 ≤ i.val → i.val ≤ 23 →
    exec (.regulatorWindowStart h i n false) s = closing (State.pumpEngine (h.val * 16 + i.val - 8) 256 (s.injRefill h.val i.val n.val)))
  ∧ (∀ (h : HalfId) (i : Fin 64) (n : PartId) (s : State), s.quiet → regulated h.val i.val = false → exec (.regulatorWindowStart h i n false) s = .next s)

/-- 08 R212, R213, R196; 13 R350; 17 R441: what the fabric reports: a response that nobody waits for is counted and dropped, a request that gets no
answer ends with TIMEOUT as an error answer would (that of a caching agent or a home access: what its line's
home gives it later is dropped), a retried flit counts in RETRIES, a lane repair sets the port's code, and a chiplet that does
not take its data has a dead site. -/
def Obligations.FabricErrorsAreReported : Prop :=
  (∀ (h : HalfId) (s : State),
    exec (.unexpectedResponse h) s = .next (s.updRas h.val (fun r => { r with unexpected := min (r.unexpected + 1) (2 ^ 64 - 1) })))
  ∧ (∀ (ch : ChanId) (k : Fin 64) (b : Burst) (s : State), (s.chan ch.val).bursts[k.val]? = some b →
    (b.state = 0 → b.srcHost = false → exec (.requestTimeout (ch.val * 64 + k.val)) s = exec (.burstError ch k.val .read St.timeout) s)
    ∧ (b.state = 1 → b.dstHost = false → s.protected (s.chanPart ch.val) b.dst b.len = false →
        exec (.requestTimeout (ch.val * 64 + k.val)) s = exec (.burstError ch k.val .write St.timeout) s))
  ∧ (∀ (cell : CellId) (k : Fin 256) (s : State),
    exec (.requestTimeout (65536 + cell.val * 256 + k.val)) s = exec (.moverAccessReturn cell k.val (some St.timeout)) s)
  ∧ (∀ (h : HalfId) (l : Nat) (s : State), s.quiet → l < 2 ^ 38 →
    ((s.dirEnt h.val l).txn = none → exec (.requestTimeout (114688 + h.val * 2 ^ 38 + l)) s = .next s)
    ∧ ∀ t, (s.dirEnt h.val l).txn = some t → t.late = false → t.delivered = false → t.kind ≠ .writeBack → t.kind ≠ .evict →
        (t.requester ≠ 14 ∨ t.origin.isSome = true) →
      exec (.requestTimeout (114688 + h.val * 2 ^ 38 + l)) s = .next ((s.emit (.homeData (t.origin.getD t.requester) l St.timeout [] false)).setDir h.val l
        { s.dirEnt h.val l with txn := some { t with late := true } }))
  ∧ (∀ (h : HalfId) (router : Fin 64) (port : Fin 7) (repair : Bool) (s : State), let a := linkAddr h.val router.val
    Gives (.linkRetry h router port repair) s fun t => bits (t.reg a) 63 48 = min (bits (s.reg a) 63 48 + 1) 65535
      ∧ (∀ q : Fin 7, t.portCode h.val router.val q.val = if repair = true ∧ q = port then 2 else s.portCode h.val router.val q.val)
      ∧ (t.rasOf h.val).corrected.get 0 3 = min ((s.rasOf h.val).corrected.get 0 3 + 1) (2 ^ 64 - 1) ∧ t.mem = s.mem)
  ∧ (∀ (h : HalfId) (router : Fin 64) (port : Fin 7) (s : State), s.quiet → s.portCode h.val router.val port.val = 2 →
    (Gives (.laneRepairDone h router port true) s fun t =>
      (∀ q : Fin 7, t.portCode h.val router.val q.val = if q = port then 0 else s.portCode h.val router.val q.val) ∧ t.mem = s.mem)
    ∧ Gives (.laneRepairDone h router port false) s fun t => t.fab.halfFailed.get false h.val = true ∧ t.pwr.stage = 0 ∧ t.sec.alarmLow = true)
  ∧ (∀ (h : HalfId) (router : Fin 64) (port : Fin 7) (ok : Bool) (s : State), s.quiet → s.portCode h.val router.val port.val ≠ 2 →
    exec (.laneRepairDone h router port ok) s = .next s)
  ∧ (∀ (site : SiteId) (s : State), s.quiet → s.noCellWaits → s.flights = [] → (s.site site.val).kind = 2 → s.siteHears site.val = true →
      ((s.site site.val).state = 1 ∨ (s.site site.val).state = 5) → (∀ n ∈ allParts, s.claims n (fun x => bits x.cells (site.val * 16 + 15) (site.val * 16) != 0) = false) →
    Gives (.sinkTimeout site) s fun t => (t.site site.val).state = 2 ∧ (t.site site.val).cause = 6)

/-- 09 R225, R229: what a coherent request does at its home: an entry in I goes to X and the line is granted E; a shared line gains a sharer; an
owner is snooped; an Upgrade of a sharer invalidates the others and moves no data. -/
def Obligations.RequestsOpenTransactions : Prop :=
  ∀ (h : HalfId) (a : Fin 15) (l : Nat) (s : State), s.agentMay h.val a.val l = true →
    (s.lineOffline l = true → ∀ hint b,
      exec (.rds h a l hint b) s = .next (s.emit (.homeData a.val l St.stackOffline (zeros 64) false))
      ∧ exec (.rdu h a l hint b) s = .next (s.emit (.homeData a.val l St.stackOffline (zeros 64) false))
      ∧ exec (.upgrade h a l b) s = .next (s.emit (.homeData a.val l St.stackOffline (zeros 64) false)))
    ∧ (s.takesFrom h.val a.val l → (s.dirEnt h.val l).st = .i → (s.dirEnt h.val l).sharers = 0 → ∀ hint, (8 ≤ a.val ∧ hint = .noAlloc ∨ (s.slcLine h.val l).isSome = true) →
        (Gives (.rds h a l hint false) s fun t => ∃ x, (t.dirEnt h.val l).txn = some x ∧ (t.dirEnt h.val l).st = .x ∧ (t.dirEnt h.val l).owner = a.val
          ∧ x.delivered = true ∧ x.grantSt = .e ∧ x.data = some (s.homeData h.val l) ∧ t.coh.copies = s.coh.copies ∧ t.mem = s.mem)
        ∧ Gives (.rdu h a l hint false) s fun t => ∃ x, (t.dirEnt h.val l).txn = some x ∧ (t.dirEnt h.val l).st = .x ∧ (t.dirEnt h.val l).owner = a.val
          ∧ x.delivered = true ∧ x.grantSt = .e ∧ x.data = some (s.homeData h.val l) ∧ t.coh.copies = s.coh.copies ∧ t.mem = s.mem)
    ∧ (s.takesFrom h.val a.val l → (s.dirEnt h.val l).st = .s → ∀ hint, (8 ≤ a.val ∧ hint = .noAlloc ∨ (s.slcLine h.val l).isSome = true) →
        Gives (.rds h a l hint false) s fun t => ∃ x, (t.dirEnt h.val l).txn = some x ∧ (t.dirEnt h.val l).st = .s
          ∧ (t.dirEnt h.val l).sharers = setBit (s.dirEnt h.val l).sharers a.val ∧ x.delivered = true ∧ x.grantSt = .s
          ∧ x.data = some (s.homeData h.val l) ∧ t.coh.copies = s.coh.copies ∧ t.mem = s.mem)
    ∧ (s.takesFrom h.val a.val l → ((s.dirEnt h.val l).st = .x ∨ (s.dirEnt h.val l).st = .o) → (s.dirEnt h.val l).owner ≠ a.val → ∀ hint,
        (Gives (.rds h a l hint false) s fun t => ∃ x, (t.dirEnt h.val l).txn = some x ∧ (t.dirEnt h.val l).owner = (s.dirEnt h.val l).owner
          ∧ x.delivered = false ∧ x.shared = 1 <<< (s.dirEnt h.val l).owner ∧ x.waits = x.shared ∧ t.coh.copies = s.coh.copies ∧ t.mem = s.mem)
        ∧ ((s.dirEnt h.val l).sharers = 0 →
          Gives (.rdu h a l hint false) s fun t => ∃ x, (t.dirEnt h.val l).txn = some x ∧ (t.dirEnt h.val l).st = .x ∧ (t.dirEnt h.val l).owner = a.val
            ∧ x.delivered = false ∧ x.unique = 1 <<< (s.dirEnt h.val l).owner ∧ x.inv = 0 ∧ t.coh.copies = s.coh.copies ∧ t.mem = s.mem))
    ∧ (s.takesFrom h.val a.val l → (s.dirEnt h.val l).st = .s → (s.dirEnt h.val l).sharers.testBit a.val = true → (s.copyOf h.val a.val l).st ≠ .i →
        Gives (.upgrade h a l false) s fun t => ∃ x, (t.dirEnt h.val l).txn = some x ∧ (t.dirEnt h.val l).st = .x ∧ (t.dirEnt h.val l).owner = a.val
          ∧ x.noData = true ∧ x.inv = clearBit (s.dirEnt h.val l).sharers a.val
          ∧ x.delivered = (clearBit (s.dirEnt h.val l).sharers a.val == 0) ∧ t.coh.copies = s.coh.copies ∧ t.mem = s.mem)

/-- 09 R229: a request behind an open transaction of its line is refused with a tally; the Retry and its grant mark the tally that they carry.
09 R225, R230, R233: the last answer to a read delivers the line with the owner's data; the acknowledgement gives the requester its copy, in M
where a chiplet asked to own it, and closes the transaction; a silent cluster is isolated and its lines are reclaimed, and the proxy's silence is the failure of its half. -/
def Obligations.RetriesAndAnswersCloseTransactions : Prop :=
  ((∀ (h : HalfId) (a : Fin 15) (l : Nat) (hint : Hint) (s : State), let n := (s.ownerPch (pchOfLine l)).getD 16
    s.agentMay h.val a.val l = true → s.lineOffline l = false → (s.dirEnt h.val l).txn.isSome = true →
    s.coh.tallies.any (fun x => x.half == h.val && x.requester == a.val && x.line == l && !x.granted) = false →
    s.wbOf h.val a.val l = none → s.outstandingAt h.val a.val l < 16 →
    let r := ({ half := h.val, requester := a.val, line := l } : RTally)
    (Gives (.rds h a l hint false) s fun t => t.coh.tallies = s.coh.tallies ++ [r] ∧ t.coh.dir = s.coh.dir ∧ t.mem = s.mem
      ∧ t.reg (slcPartAddr h.val n 0x18) = min (s.reg (slcPartAddr h.val n 0x18) + 1) (2 ^ 64 - 1))
    ∧ (Gives (.rdu h a l hint false) s fun t => t.coh.tallies = s.coh.tallies ++ [r] ∧ t.coh.dir = s.coh.dir ∧ t.mem = s.mem)
    ∧ Gives (.upgrade h a l false) s fun t => t.coh.tallies = s.coh.tallies ++ [r] ∧ t.coh.dir = s.coh.dir ∧ t.mem = s.mem)
  ∧ (∀ (h : HalfId) (a : Fin 79) (l : Nat) (x : RTally) (pre post : List RTally) (s : State), s.coh.tallies = pre ++ x :: post →
      x.half = h.val → x.requester = a.val → x.line = l → (∀ y ∈ pre, ¬(y.half = h.val ∧ y.requester = a.val ∧ y.line = l)) →
    (x.delivered = false → exec (.retry h a l) s = .next { s with coh := { s.coh with tallies := pre ++ { x with delivered := true } :: post } })
    ∧ (x.delivered = true → x.sent = true →
        exec (.retryGrant h a l) s = .next { s with coh := { s.coh with tallies := pre ++ { x with granted := true } :: post } })))
  ∧ ((∀ (h : HalfId) (a : Fin 15) (l : Nat) (x : Txn) (d : List Byte) (s : State), let e := s.dirEnt h.val l
    e.txn = some x → x.kind = .rds → x.due.testBit a.val = true → clearBit x.due a.val = 0 → x.shared = 0 → x.unique = 0 → x.inv = 0 → x.cur = 0 →
    x.delivered = false → x.waitsEntry = false → x.waitsHome = false → x.forLine = none → x.noData = false → x.late = false → x.data = some d →
    (e.st = .x ∨ e.st = .o) → e.owner ≠ x.requester →
    Gives (.snoopAnswer h a l) s fun t => ∃ y, (t.dirEnt h.val l).txn = some y ∧ y.delivered = true ∧ y.data = some d ∧ y.grantSt = x.grantSt
      ∧ (t.dirEnt h.val l).st = (if x.ownerKept then .o else .s) ∧ (t.dirEnt h.val l).sharers.testBit x.requester = true ∧ t.mem = s.mem)
  ∧ (∀ (h : HalfId) (a : Fin 15) (l : Nat) (x : Txn) (s : State), (s.dirEnt h.val l).txn = some x → x.due.testBit a.val = true →
      ({ x with due := clearBit x.due a.val } : Txn).waits ≠ 0 →
    exec (.snoopAnswer h a l) s = .next (s.setDir h.val l { s.dirEnt h.val l with txn := some { x with due := clearBit x.due a.val } }))
  ∧ (∀ (h : HalfId) (a : Fin 15) (l : Nat) (x : Txn) (d : List Byte) (s : State), (s.dirEnt h.val l).txn = some x → x.delivered = true →
      x.requester = a.val → a.val < 14 → x.data = some d → x.grantSt ≠ .i →
    Gives (.completionAck h a l) s fun t => (if a.val < 8 ∨ x.kind = .rds then t.copyOf h.val a.val l = { st := x.grantSt, data := d, dross := x.dross }
          else (t.copyOf h.val a.val l).st = .m ∧ (t.copyOf h.val a.val l).dross = x.dross)
      ∧ (t.dirEnt h.val l).txn = none ∧ (t.dirEnt h.val l).st = (s.dirEnt h.val l).st ∧ t.mem = s.mem)
  ∧ (∀ (h : HalfId) (a : Fin 15) (l : Nat) (x : Txn) (s : State), s.quiet → s.flights = [] → (s.dirEnt h.val l).txn = some x → x.waits.testBit a.val = true →
    (a.val < 8 → Gives (.snoopTimeout h a l) s fun t => (t.coh.dead.get 0 h.val).testBit a.val = true ∧ t.coh.reclaimActive.get false h.val = true
      ∧ t.coh.reclaimAgent.get 0 h.val = a.val)
    ∧ (a.val = 14 → Gives (.snoopTimeout h a l) s fun t => t.fab.halfFailed.get false (1 - h.val) = true ∧ t.pwr.stage = 0 ∧ t.sec.alarmLow = true)
    ∧ (8 ≤ a.val → a.val < 14 → s.siteHears ((a.val - 8) + 6 * h.val) = true → exec (.snoopTimeout h a l) s = closing ((s.siteDead ((a.val - 8) + 6 * h.val) 7).wakeCells)))
  ∧ (∀ (h : HalfId) (s : State),
    exec (.reclaimWalkDone h) s = .next { s with coh := { s.coh with reclaimActive := s.coh.reclaimActive.set false h.val false } }))

/-- 09 R224, R228: what a snoop does at an agent: the state it leaves, the data it forwards or copies, and its answer, from the agent's cache or
from its write-back buffer. -/
def Obligations.SnoopsMoveCopies : Prop :=
  ∀ (h : HalfId) (a : Fin 15) (l : Nat) (x : Txn) (s : State), (s.dirEnt h.val l).txn = some x → a.val < 14 →
    let c := s.copyOf h.val a.val l
    (s.wbOf h.val a.val l = none → c.st ≠ .i →
      (x.shared.testBit a.val = true → Gives (.snpShared h a l) s fun t => ∃ y, (t.dirEnt h.val l).txn = some y
        ∧ t.copyOf h.val a.val l = { c with st := match c.st with | .m => .o | .o => .o | _ => .s }
        ∧ y.shared = clearBit x.shared a.val ∧ y.due = setBit x.due a.val ∧ y.data = (if c.st = .s then x.data else some c.data) ∧ t.mem = s.mem)
      ∧ (x.unique.testBit a.val = true → Gives (.snpUnique h a l) s fun t => ∃ y, (t.dirEnt h.val l).txn = some y ∧ (t.copyOf h.val a.val l).st = .i
        ∧ y.unique = clearBit x.unique a.val ∧ y.due = setBit x.due a.val ∧ y.data = (if c.st = .s then x.data else some c.data) ∧ t.mem = s.mem)
      ∧ (x.inv.testBit a.val = true → Gives (.snpInv h a l) s fun t => ∃ y, (t.dirEnt h.val l).txn = some y ∧ (t.copyOf h.val a.val l).st = .i
        ∧ y.inv = clearBit x.inv a.val ∧ y.due = setBit x.due a.val ∧ y.data = x.data ∧ t.mem = s.mem)
      ∧ (x.cur.testBit a.val = true → Gives (.snpCur h a l) s fun t => ∃ y, (t.dirEnt h.val l).txn = some y ∧ t.copyOf h.val a.val l = c
        ∧ y.cur = clearBit x.cur a.val ∧ y.due = setBit x.due a.val ∧ y.data = (if c.st = .s then x.data else some c.data) ∧ t.mem = s.mem))
    ∧ (∀ w, s.wbOf h.val a.val l = some w → w.dead = false → (w.st = .m ∨ w.st = .o) → x.unique.testBit a.val = true →
        Gives (.snpUnique h a l) s fun t => ∃ y, (t.dirEnt h.val l).txn = some y ∧ t.wbOf h.val a.val l = some { w with dead := true }
          ∧ y.data = some w.data ∧ y.dirty = true ∧ y.due = setBit x.due a.val ∧ t.copyOf h.val a.val l = c ∧ t.mem = s.mem)

/-- 09 R225, R228: write-backs and eviction notices: an owner that the directory names is granted and sends its data, another's is stale; an owner
in E that gives up its line empties the entry. -/
def Obligations.WriteBacksReturnLines : Prop :=
  (∀ (h : HalfId) (a : Fin 15) (l : Nat) (s : State), let c := s.copyOf h.val a.val l; let e := s.dirEnt h.val l
    a.val < 14 → s.wbOf h.val a.val l = none → (c.st = .m ∨ c.st = .o) → e.txn = none → s.coh.tallies = [] →
    (e.owner = a.val → e.st = .x → Gives (.writeBack h a l) s fun t => (t.copyOf h.val a.val l).st = .i
      ∧ t.wbOf h.val a.val l = some { st := c.st, data := c.data, dross := c.dross, phase := 1 }
      ∧ (t.dirEnt h.val l).st = .i ∧ (t.dirEnt h.val l).txn = some { kind := .writeBack, requester := a.val } ∧ t.mem = s.mem)
    ∧ (e.owner ≠ a.val → Gives (.writeBack h a l) s fun t => (t.copyOf h.val a.val l).st = .i
      ∧ t.wbOf h.val a.val l = some { st := c.st, data := c.data, dross := c.dross, phase := 2 } ∧ t.dirEnt h.val l = e ∧ t.mem = s.mem))
  ∧ (∀ (h : HalfId) (a : Fin 15) (l : Nat) (w : WbEnt) (s : State), let n := (s.ownerPch (pchOfLine l)).getD 16
    s.wbOf h.val a.val l = some w → w.phase = 1 → s.isRetired l = false → s.lineOffline l = false → s.roomAt h.val l n = true → a.val < 14 →
    Gives (.writeBackGrant h a l) s fun t => t.wbOf h.val a.val l = none ∧ (t.dirEnt h.val l).txn = none
      ∧ ∃ c, t.slcLine h.val l = some c ∧ c.data = w.data ∧ c.dross = w.dross ∧ c.dirty = true)
  ∧ (∀ (h : HalfId) (a : Fin 15) (l : Nat) (w : WbEnt) (s : State), s.wbOf h.val a.val l = some w → w.phase = 2 → (s.dirEnt h.val l).txn = none →
    exec (.stale h a l) s = .next (s.setWb h.val a.val l none))
  ∧ (∀ (h : HalfId) (a : Fin 15) (l : Nat) (s : State), a.val < 14 → (s.copyOf h.val a.val l).st = .e → (s.dirEnt h.val l).owner = a.val →
      (s.dirEnt h.val l).st = .x → (s.dirEnt h.val l).txn = none →
    Gives (.evictionNotice h a l) s fun t => (t.copyOf h.val a.val l).st = .i ∧ (t.dirEnt h.val l).st = .i ∧ (t.dirEnt h.val l).txn = none
      ∧ t.coh.slc = s.coh.slc ∧ t.mem = s.mem)

/-- 09 R226: a home access: a read is answered with the line, a full write replaces it, and a partial write merges into it; an owner is copied
from first. -/
def Obligations.HomeAccessesReadAndWrite : Prop :=
  ∀ (h : HalfId) (m : Fin 64) (l n : Nat) (s : State), s.ownerPch (pchOfLine l) = some n → s.takesIn h.val (15 + m.val) l →
    ((s.dirEnt h.val l).st ≠ .x → (s.dirEnt h.val l).st ≠ .o → ∀ hint, (hint = .noAlloc ∨ (s.slcLine h.val l).isSome = true) → s.isRetired l = false →
      (s.slcLine h.val l = none → (s.hbmPeek l).dross = false) →
      Gives (.homeRead h m l hint false) s fun t =>
        (∃ x, t.out = s.out ++ [.homeData (h.val * 64 + m.val) l St.ok (s.homeData h.val l) x]) ∧ (t.dirEnt h.val l).txn = none ∧ t.mem = s.mem)
    ∧ ((s.dirEnt h.val l).st = .x → ∀ hint, Gives (.homeRead h m l hint false) s fun t =>
        ∃ x, (t.dirEnt h.val l).txn = some x ∧ x.cur = 1 <<< (s.dirEnt h.val l).owner ∧ (t.dirEnt h.val l).owner = (s.dirEnt h.val l).owner
          ∧ t.out = s.out ∧ t.mem = s.mem)
    ∧ ((s.dirEnt h.val l).st = .i → (s.dirEnt h.val l).sharers = 0 → s.isRetired l = false → ∀ (data : List Byte) (dross : Bool),
        (s.slcLine h.val l = none → Gives (.homeFullWrite h m l data dross .noAlloc false) s fun t => t.memLine l = bslice data 0 64 ∧ (t.lineMeta l).dross = dross
          ∧ t.slcLine 0 l = none ∧ t.slcLine 1 l = none
          ∧ t.out = s.out ++ [.homeData (h.val * 64 + m.val) l St.ok [] false] ∧ (∀ a, a / 64 ≠ l → t.byteAt a = s.byteAt a))
        ∧ (s.roomAt h.val l n = true → Gives (.homeFullWrite h m l data dross .alloc false) s fun t =>
          ∃ c, t.slcLine h.val l = some c ∧ c.data = bslice data 0 64 ∧ c.dross = dross ∧ c.dirty = true))
    ∧ ((s.dirEnt h.val l).st = .i → (s.dirEnt h.val l).sharers = 0 → s.isRetired l = false → ∀ (mask : BitVec 64) (data : List Byte) (c : SlcLine),
        s.slcLine h.val l = some c → Gives (.homePartialWrite h m l mask data .noAlloc false) s fun t =>
          (∃ c', t.slcLine h.val l = some c' ∧ c'.data = overlay mask.toNat 0 c.data (bslice data 0 64) ∧ c'.dirty = true)
          ∧ t.out = s.out ++ [.homeData (h.val * 64 + m.val) l St.ok [] false] ∧ t.mem = s.mem)

/-- 10 R242, R243, R247, R251, R257, R259: a request at a stack's controller waits behind its owner's closed regulator or an earlier request of its
line; else a read is answered with the
stored line, with zeros for a cleared region, as dross where the integrity check fails and STACK_OFFLINE from an offline stack. -/
def Obligations.ControllersServeOrHold : Prop :=
  (∀ (l n : Nat) (c : Instr) (s : State), s.hmcHolds l = some n →
      (c = .hmcRead l ∨ (∃ d x, c = .hmcFullWrite l d x) ∨ ∃ m d, c = .hmcPartialWrite l m d) →
    Gives c s fun t => t.hbm.held = s.hbm.held ++ [(stackOfLine l * 16 + n, c)] ∧ t.out = s.out ∧ t.hbm.pchs = s.hbm.pchs
      ∧ t.hbm.heldWin.get false (stackOfLine l * 16 + n) = true ∧ t.mem = s.mem)
  ∧ (∀ (l n : Nat) (c : Instr) (s : State), s.hmcHolds l = none → s.lineHeld l = true → s.ownerPch (pchOfLine l) = some n →
      (c = .hmcRead l ∨ (∃ d x, c = .hmcFullWrite l d x) ∨ ∃ m d, c = .hmcPartialWrite l m d) →
    exec c s = .next { s with hbm := { s.hbm with held := s.hbm.held ++ [(stackOfLine l * 16 + n, c)] } })
  ∧ (∀ (l : Nat) (s : State), s.hmcHolds l = none → s.lineHeld l = false →
    (s.lineOffline l = true → exec (.hmcRead l) s = .next (s.emit (.homeData 255 l St.stackOffline (zeros 64) false)))
    ∧ (s.lineOffline l = false → s.lineCleared l = true → s.isRetired l = false → s.wcbOf l = none →
        exec (.hmcRead l) s = .next (s.emit (.homeData 255 l St.ok (zeros 64) false)))
    ∧ (s.lineOffline l = false → s.lineCleared l = false → s.isRetired l = false → s.lineFails l = false → s.wcbOf l = none →
        exec (.hmcRead l) s = .next ((s.charge l).emit (.homeData 255 l St.ok (s.memLine l) (s.lineMeta l).dross)))
    ∧ (s.lineOffline l = false → s.isRetired l = true → exec (.hmcRead l) s = .next ((if s.lineCleared l then s else s.charge l).emit (.homeData 255 l St.ok (zeros 64) true)))
    ∧ (s.lineOffline l = false → s.lineCleared l = false → s.isRetired l = false → s.lineFails l = true → s.wcbOf l = none →
        Gives (.hmcRead l) s fun t => (t.pch (pchOfLine l)).fails = min ((s.pch (pchOfLine l)).fails + 1) (2 ^ 32 - 1)
          ∧ (∃ o, t.out = o ++ [.homeData 255 l St.ok (zeros 64) true]) ∧ t.mem = s.mem))
  ∧ (∀ (l : Nat) (data : List Byte) (dross : Bool) (s : State), s.hmcHolds l = none → s.lineHeld l = false → s.lineOffline l = false → s.isRetired l = false →
    Gives (.hmcFullWrite l data dross) s fun t => t.memLine l = bslice data 0 64 ∧ (t.lineMeta l).dross = dross ∧ (t.lineMeta l).badTag = false
      ∧ t.wcbOf l = none ∧ t.out = s.out ++ [.homeData 255 l St.ok [] false] ∧ ∀ a, a / 64 ≠ l → t.byteAt a = s.byteAt a)
  ∧ (∀ (l : Nat) (mask : BitVec 64) (data : List Byte) (s : State), s.hmcHolds l = none → s.lineHeld l = false → s.lineOffline l = false → s.isRetired l = false →
      s.wcbOf l = none → (mask ≠ BitVec.allOnes 64 → (s.pch (pchOfLine l)).wcb.length < 64) →
    Gives (.hmcPartialWrite l mask data) s fun t => t.out = s.out ++ [.homeData 255 l St.ok [] false] ∧
      if mask = BitVec.allOnes 64 then t.memLine l = bslice (overlay mask.toNat 0 (zeros 64) data) 0 64 ∧ ∀ a, a / 64 ≠ l → t.byteAt a = s.byteAt a
      else (t.pch (pchOfLine l)).wcb = (s.pch (pchOfLine l)).wcb ++ [{ line := l, mask := mask.toNat, data := overlay mask.toNat 0 (zeros 64) data, dross := false }]
        ∧ t.mem = s.mem)

/-- 10 R243, R244, R257: a region that is zeroed reads zeros where nothing has written it and keeps what has been written, and its bit clears; the
background pass takes the lowest region still cleared; the oldest write-combining entry goes into its line by read-modify-write.
10 R254, R256: a rotation puts fresh keys into the other slot, which becomes current; the sweep writes each line under them with its bytes
unchanged, and its last step destroys the former keys. -/
def Obligations.RegionsZeroAndKeysRotate : Prop :=
  ((∀ (pch : PchId) (r : Nat) (s : State), s.regionCleared pch.val r = true → r < 18432 → s.lineOffline (regionLine pch.val r) = false →
    Gives (.regionZeroed pch r) s fun t => t.regionCleared pch.val r = false ∧ ∀ a, t.byteAt a =
      if regionLine pch.val r ≤ a / 64 ∧ a / 64 < regionLine pch.val r + 1024 ∧ (s.pch pch.val).written.get false (a / 64) = false then 0 else s.byteAt a)
  ∧ (∀ (pch : PchId) (r : Nat) (s : State), s.regionCleared pch.val r = false → exec (.regionZeroed pch r) s = .next s)
  ∧ (∀ (pch : PchId) (s : State), let r := firstGap (s.pch pch.val).zeroed 0
    r < 18432 → s.regionCleared pch.val r = true → exec (.zeroFillPassStep pch) s = exec (.regionZeroed pch r) s)
  ∧ (∀ (pch : PchId) (s : State), (s.pch pch.val).clearedAll = false → exec (.zeroFillPassStep pch) s = .next s)
  ∧ (∀ (pch : PchId) (e : Wcb) (rest : List Wcb) (s : State), (s.pch pch.val).wcb = e :: rest → pchOfLine e.line = pch.val → s.lineOffline e.line = false →
      s.isRetired e.line = false → s.lineCleared e.line = false → s.lineFails e.line = false →
    Gives (.wcbAgeTimeout pch) s fun t => t.memLine e.line = bslice (overlay e.mask 0 (s.memLine e.line) e.data) 0 64
      ∧ (t.lineMeta e.line).dross = ((s.lineMeta e.line).dross || e.dross) ∧ (t.pch pch.val).wcb = rest.filter (fun x => !(x.line == e.line))
      ∧ (t.pch pch.val).rmws = min ((s.pch pch.val).rmws + 1) (2 ^ 32 - 1) ∧ ∀ a, a / 64 ≠ e.line → t.byteAt a = s.byteAt a)
  ∧ (∀ (pch : PchId) (e : Wcb) (rest : List Wcb) (s : State), (s.pch pch.val).wcb = e :: rest → pchOfLine e.line = pch.val → s.lineOffline e.line = false →
      s.isRetired e.line = false → s.lineCleared e.line = false → s.lineFails e.line = true →
    Gives (.wcbAgeTimeout pch) s fun t => t.memLine e.line = bslice (overlay e.mask 0 (zeros 64) e.data) 0 64
      ∧ (t.lineMeta e.line).dross = true ∧ (t.lineMeta e.line).badTag = false ∧ (t.pch pch.val).wcb = rest.filter (fun x => !(x.line == e.line))
      ∧ (t.pch pch.val).fails = min ((s.pch pch.val).fails + 1) (2 ^ 32 - 1) ∧ ∀ a, a / 64 ≠ e.line → t.byteAt a = s.byteAt a)
  ∧ (∀ (pch : PchId) (s : State), (s.pch pch.val).wcb = [] → exec (.wcbAgeTimeout pch) s = .next s))
  ∧ ((∀ (n : PartId) (v : Word64) (s : State), let k := s.keys n.val
    s.hubCarries (.partAlias n) → v.toNat % 4 = 1 → s.ready n.val = true → k.other ≠ 1 → s.logRoom = true → k.status ≠ St.pending → s.sec.fwState ≠ 4 →
    s.sec.drbgHealthy = true → k.current ≤ 1 →
    Gives (.rotate (.partAlias n) n v) s fun t => (t.keys n.val).current = 1 - k.current ∧ (t.keys n.val).other = 1
      ∧ (if k.current = 0 then (t.keys n.val).gen1 = some s.hbm.keyGen ∧ (t.keys n.val).gen0 = k.gen0
         else (t.keys n.val).gen0 = some s.hbm.keyGen ∧ (t.keys n.val).gen1 = k.gen1)
      ∧ (t.keys n.val).token = bits v.toNat 63 56 ∧ (t.keys n.val).status = St.ok ∧ (t.keys n.val).rotations = min (k.rotations + 1) 65535
      ∧ (t.keys n.val).oldLines = (s.slice n.val).order.length * pchLines ∧ t.mem = s.mem)
  ∧ (∀ (n : PartId) (v : Word64) (s : State), s.hubCarries (.partAlias n) → v.toNat % 4 ≠ 1 →
    Gives (.rotate (.partAlias n) n v) s fun t => (t.keys n.val) = { s.keys n.val with token := bits v.toNat 63 56, status := St.denied } ∧ t.mem = s.mem)
  ∧ (∀ (n : PartId) (pch : PchId) (s : State), let i := (s.pch pch.val).sweep; let l := pch.val * pchLines + i; let k := s.keys n.val
    k.other = 1 → s.ready n.val = true → (s.slice n.val).pchs.testBit pch.val = true → s.ownerPch pch.val = some n.val → i < pchLines →
    s.lineOffline l = false → s.isRetired l = false → s.lineCleared l = false → s.lineFails l = false → (s.lineMeta l).epoch ≠ k.current → k.oldLines ≠ 0 →
    Gives (.keySweepStep n pch) s fun t => t.lineMeta l = { epoch := k.current, dross := (s.lineMeta l).dross, badTag := false }
      ∧ (t.pch pch.val).sweep = i + 1 ∧ (∀ a, t.byteAt a = s.byteAt a)
      ∧ (if k.oldLines = 1 then (t.keys n.val).other = 2 ∧ (if k.current = 0 then (t.keys n.val).gen1 = none else (t.keys n.val).gen0 = none)
         else (t.keys n.val).oldLines = k.oldLines - 1 ∧ (t.keys n.val).other = 1))
  ∧ (∀ (n : PartId) (pch : PchId) (s : State), (s.keys n.val).other ≠ 1 → exec (.keySweepStep n pch) s = .next s))

/-- 10 R258, R259: a temperature sample sets a stack's level, each level left 2 degrees below its threshold; at 105 degrees the stack goes offline
with its contents; a command brings it back once it is cool, unless it has reached 105 degrees again. -/
def Obligations.StacksFollowTemperature : Prop :=
  (∀ (k : StackId) (temp : Nat) (s : State), let old := (s.stack k.val).level
    s.quiet → old ≤ 3 → temp < 105 → Gives (.stackTempSample k temp) s fun t =>
      (t.stack k.val).level = (if 100 ≤ temp ∨ (old = 3 ∧ 98 < temp) then 3 else if 95 ≤ temp ∨ (2 ≤ old ∧ 93 < temp) then 2
        else if 85 ≤ temp ∨ (1 ≤ old ∧ 83 < temp) then 1 else 0)
      ∧ (t.stack k.val).temp = temp ∧ (t.stack k.val).state = (s.stack k.val).state ∧ t.regs = s.regs ∧ t.mem = s.mem)
  ∧ (∀ (k : StackId) (temp : Nat) (s : State), s.quiet → (s.stack k.val).level ≤ 3 → 105 ≤ temp → s.stackOwners k.val = [] → (∀ e ∈ s.hbm.held, e.1 / 16 ≠ k.val) →
    Gives (.stackTempSample k temp) s fun t => (t.stack k.val).state = 4 ∧ (t.stack k.val).level = 4
      ∧ t.isolated (halfOfStack k.val) (8 + k.val % 8) = true ∧ ∀ a, t.byteAt a = if stackOfLine (a / 64) = k.val then 0 else s.byteAt a)
  ∧ (∀ (p : Path) (k : StackId) (value : BitVec 32) (cool : Bool) (s : State), s.hubCarries p → (isOper p = true ∨ isFirmware p = true) →
    exec (.stackOnline p k value cool) s = .next
      (if value.toNat % 4 = 1 ∧ (s.stack k.val).state = 4 ∧ cool = true ∧ (s.stack k.val).temp < 85
       then s.updStack k.val (fun t => { t with state := 1 }) else s))
  ∧ (∀ (k : StackId) (s : State), s.quiet → (s.stack k.val).state = 1 → s.isolated (halfOfStack k.val) (8 + k.val % 8) = true →
    (105 ≤ (s.stack k.val).temp → exec (.stackOnlineDone k) s = .next (s.updStack k.val (fun t => { t with state := 4 }))) ∧
    ((s.stack k.val).temp < 105 → Gives (.stackOnlineDone k) s fun t => (t.stack k.val).state = 2 ∧ t.isolated (halfOfStack k.val) (8 + k.val % 8) = false
      ∧ (∀ j, j ≠ k.val → t.stack j = s.stack j) ∧ t.mem = s.mem))


/-- 11 R265, R266, R273, R276-R278, R283, R284: what a write of a channel's registers does: EN takes HEAD from TAIL and the state IDLE; a channel without
an owner or without a ring it may have is not enabled, and the 33rd channel of a context gets LIMIT and nothing else; clearing it forgets the cursor; PAUSE pauses, and a channel with nothing outstanding is PAUSED; a doorbell starts
an idle channel that has work. -/
def Obligations.DmaChannelsFollowTheirRegisters : Prop :=
  (∀ (p : Path) (ch : ChanId) (value : Word64) (s : State), let i := ch.val; let c := s.chan i; let n := s.chanPart i; let v := setBit value.toNat 0
    s.chanCarries p i → c.en = false →
    (bits c.ring 59 56 < 4 ∨ (isPriv i = true ∧ c.ringDva = true) ∨ s.ownerChan i = none → exec (.dmaChEnable p ch value) s = .next (s.chanBecomes i
      { c with ctx := bits v 55 44, prio := min (bits v 10 8) (s.partPrio n), pause := v.testBit 2 }))
    ∧ (4 ≤ bits c.ring 59 56 → (isPriv i = true → c.ringDva = false) → s.ownerChan i ≠ none →
    (isPriv i = true ∨ s.enabledFor n (bits v 55 44) < 32 → Gives (.dmaChEnable p ch value) s fun t => (t.chan i).en = true ∧ (t.chan i).state = 1
      ∧ (t.chan i).head = c.tailIdx ∧ (t.chan i).tail = c.tail ∧ (t.chan i).ctx = bits v 55 44 ∧ (t.chan i).status = St.ok
      ∧ (t.chan i).prio = min (bits v 10 8) (s.partPrio n) ∧ (t.chan i).desc = none ∧ (∀ j, j ≠ i → t.chan j = s.chan j) ∧ t.mem = s.mem)
    ∧ (isPriv i = false → 32 ≤ s.enabledFor n (bits v 55 44) → exec (.dmaChEnable p ch value) s = .next (s.chanBecomes i { c with limit := true }))))
  ∧ (∀ (p : Path) (ch : ChanId) (value : Word64) (s : State), let i := ch.val; let c := s.chan i
    s.chanCarries p i → c.en = true → (isPriv i = true ∨ bits (clearBit value.toNat 0) 55 44 = c.ctx) →
    ((c.state = 1 ∨ c.state = 6) → Gives (.dmaChDisable p ch value) s fun t => (t.chan i).en = false ∧ (t.chan i).state = 0 ∧ (t.chan i).desc = none
      ∧ (t.chan i).faultId = 0xFFFF ∧ (t.chan i).status = St.ok ∧ (∀ j, j ≠ i → t.chan j = s.chan j) ∧ t.mem = s.mem)
    ∧ (c.state ≠ 1 → c.state ≠ 6 → exec (.dmaChDisable p ch value) s = .next s))
  ∧ (∀ (p : Path) (ch : ChanId) (value : Word64) (s : State), let i := ch.val; let c := s.chan i; let v := value.toNat
    s.chanCarries p i → c.en = true → v.testBit 0 = true → bits v 55 44 = c.ctx →
    (c.pause = false → c.state = 2 → c.stop = .none → exec (.dmaChPause p ch value) s = .next (s.chanBecomes i
        { c with prio := min (bits v 10 8) (s.partPrio (s.chanPart i)), pause := true, state := 3, stop := .pause }))
    ∧ (c.pause = true → c.state = 4 → c.desc = none → s.engineFree i → (isPriv i = true ∨ s.savesChans (s.chanPart i) c.ctx = false) →
        Gives (.dmaChUnpause p ch value) s fun t => (t.chan i).pause = false ∧ (t.chan i).state = (if c.head = c.tailIdx then 1 else 2) ∧ t.mem = s.mem))
  ∧ (∀ (ch : ChanId) (s : State), let i := ch.val; let c := s.chan i; let n := s.chanPart i
    c.state = 3 → c.bursts = [] →
    (s.quiet → c.stop = .pause → (isPriv i = true ∨ s.savesChans n c.ctx = false) → Gives (.dmaPauseDrained ch) s fun t =>
      (t.chan i).state = 4 ∧ (t.chan i).status = St.ok ∧ (t.chan i).desc = c.desc ∧ (t.chan i).done = c.done ∧ t.mem = s.mem)
    ∧ (s.unprotected n → c.stop = .save →
      let x := s.ctx n c.ctx
      let r := s.hubWrite n (x.saveBase + 0x800 + x.savedChans.length * 64) (resumeRecord n i { c with seq := c.seq + 1 } (if c.pause then 0 else 2))
      let w := r.1.saveHeader n c.ctx (x.savedChans.length + 1)
      r.2 = St.ok → w.2 = St.ok → Gives (.dmaPauseDrained ch) s fun t => (t.chan i).state = 8 ∧ (t.chan i).seq = c.seq + 1
        ∧ (t.ctx n c.ctx).savedChans = x.savedChans ++ [i] ∧ t.mem = w.1.mem))
  ∧ (∀ (p : Path) (ch : ChanId) (value : BitVec 32) (s : State), let i := ch.val; let c := s.chan i; let tail := value.toNat % 65536
    s.chanCarries p i → (isPriv i = true ∨ c.en = false ∨ s.savesChans (s.chanPart i) c.ctx = false) →
    exec (.dmaDoorbell p ch value) s = .next (s.chanBecomes i
      { c with tail := tail, state := if c.en = true ∧ c.state = 1 ∧ c.pause = false ∧ c.head ≠ tail % c.ringLen then 2 else c.state }))

/-- 11 R269-R274, R285, R289: a channel takes the descriptor at HEAD, or halts where it is dross; a burst reads its source and its bytes are
rearranged; its write is acknowledged and the cursor passes it; an error halts the channel at the failing address; a walk gives the runs of the
next segment, or of the one after it while that one issues. -/
def Obligations.DescriptorsMoveInBursts : Prop :=
  (∀ (ch : ChanId) (host : List Byte) (s : State), let i := ch.val; let c := s.chan i; let n := s.chanPart i; let r := s.ppaPeek n (c.descAt c.head) 64
    c.en = true → c.state = 2 → c.stop = .none → c.pause = false → c.desc = none → c.head ≠ c.tailIdx → c.ringDva = false → s.ready n = true →
    (isPriv i = true ∨ s.ctxLost n c.ctx = false) → r.2.2 = St.ok →
    (r.2.1 = false → exec (.descriptorFetch ch host) s =
        closing (((s.ppaReport n (c.descAt c.head) 64).updChan i (fun c => startDesc c r.1)).pump i))
    ∧ (r.2.1 = false → s.quiet → s.engineFree i → c.bursts = [] → ((descOf r.1).srcDva = true ∨ (descOf r.1).dstDva = true) → isPriv i = false →
        (descOf r.1).ok false (fun _ => false) = true →
        Gives (.descriptorFetch ch host) s fun t => (t.chan i).desc = some r.1 ∧ (t.chan i).needWalk = true ∧ (t.chan i).bursts = c.bursts
          ∧ (t.chan i).state = 2 ∧ t.mem = s.mem)
    ∧ (r.2.1 = true → s.quiet → s.engineFree i → isPriv i = true → c.bursts = [] → Gives (.descriptorFetch ch host) s fun t => (t.chan i).state = 6
        ∧ (t.chan i).status = St.dross ∧ (t.chan i).faultAddr = c.descAt c.head ∧ (t.chan i).spacePpa = true ∧ t.mem = s.mem))
  ∧ (∀ (ch : ChanId) (k : Nat) (b : Burst) (s : State), let i := ch.val; let n := s.chanPart i; let code := ((s.chan i).descOfBurst b).swap
    s.quiet → (s.chan i).bursts[k]? = some b → b.state = 0 → b.srcHost = false → (s.ppaPeek n b.src b.len).2.2 = St.ok →
    let via := s.dmaVia i n ((s.chan i).descOfBurst b).hint
    s.lets n b.src b.len via → exec (.burstReadReturn ch k) s = .next ((s.ppaReport n b.src b.len via).updChan i (fun c => setBurst c
      { b with state := 1, data := swapBytes 0 code (s.ppaPeek n b.src b.len).1, marks := swapBytes false code (s.ppaMarks n b.src b.len), parts := [] })))
  ∧ (∀ (ch : ChanId) (k latency : Nat) (b : Burst) (s : State), let i := ch.val; let c := s.chan i; let n := s.chanPart i
      let d := c.descOfBurst b; let via := s.dmaVia i n d.hint; let r := s.ppaStore n b.dst b.data (b.marks.any (fun m => m)) via
    s.quiet → s.lets n b.dst b.len via → c.bursts = [b] → k = 0 → b.state = 1 → b.dstHost = false → b.next = false → b.start = c.done → 0 < b.len → b.data.length = b.len →
    b.marks.length = b.len → b.dst % 64 + b.len ≤ 64 → d.rowsOver b = [] → c.done + b.len < d.total → s.protected n b.dst b.len = false → r.2 = St.ok →
    (c.state = 3 ∨ (c.state = 2 ∧ c.needWalk = true)) → (c.stop = .none ∨ c.stop = .pause) → c.wbWait = false → s.engineFree i →
    Gives (.burstAck ch k latency) s fun t => (t.chan i).done = c.done + b.len ∧ (t.chan i).bursts = [] ∧ (t.chan i).desc = c.desc ∧ t.mem = r.1.mem)
  ∧ (∀ (ch : ChanId) (k : Nat) (b : Burst) (status : StatusCode) (s : State), let i := ch.val; let c := s.chan i
    s.quiet → c.bursts = [b] → k = 0 → b.state = 0 → b.next = false → isPriv i = true → c.state = 2 → c.stop = .none →
    (c.desc ≠ none → b.start ≤ c.total) → s.engineFree i → Gives (.burstError ch k .read status) s fun t => (t.chan i).state = 6 ∧ (t.chan i).status = status ∧ (t.chan i).faultAddr = b.srcName
      ∧ (t.chan i).dir = false ∧ (t.chan i).spacePpa = !b.srcDva ∧ (t.chan i).bursts = [] ∧ (t.chan i).done = c.done ∧ t.mem = s.mem)
  ∧ (∀ (ch : ChanId) (s : State), let i := ch.val; let c := s.chan i; let n := s.chanPart i
    s.quiet → c.needWalk = true →
    (c.front = none → (c.state = 2 ∨ c.state = 3) → exec (.walkDone ch) s = .next (s.chanBecomes i { c with needWalk := false }))
    ∧ (∀ next d e, c.front = some (next, d, e) → c.state = 3 → c.stop = .pause → c.bursts = [] → s.engineFree i →
        (∀ b, c.desc = some b → c.done < (descOf b).total ∧ (0 < c.done ∨ (descOf b).ok (isPriv i) (fun k => s.ownerCore k == some n) = true)) →
        c.ahead = none →
        let g := s.segment (i / 32) n c.ctx d (d.total + 1) { upTo := e, src := [], dst := [] }
        Gives (.walkDone ch) s fun t => (t.chan i).needWalk = false ∧ (t.chan i).segEnd = g.upTo ∧ (t.chan i).srcRuns = g.src ∧ (t.chan i).dstRuns = g.dst
          ∧ (t.chan i).segStop = g.stop ∧ t.mem = s.mem))
  ∧ (∀ (ch : ChanId) (d : Desc) (next : Bool) (e : Nat) (s : State), let i := ch.val; let c := s.chan i; let n := s.chanPart i
    s.quiet → c.needWalk = false → (c.state = 2 ∨ c.state = 3) → c.front = some (next, d, e) → c.mayLookAhead d = true →
    let g := s.segment (i / 32) n c.ctx d (d.total + 1) { upTo := c.segEnd, src := [], dst := [] }
    Gives (.walkDone ch) s fun t => t.chan i = { c with ahead := some { upTo := g.upTo, src := g.src, dst := g.dst, stop := g.stop } } ∧ t.mem = s.mem)

/-- 11 R280; 07 R186: the commands of a channel: ABORT of an enabled channel is PENDING until its writes are done and then leaves it IDLE with HEAD
at TAIL; RESUME of a halted one runs it again; SAVE of one that stands writes its resume record; each of the rest is DENIED, while it aborts too. -/
def Obligations.DmaCommandsActOnStandingChannels : Prop :=
  (∀ (p : Path) (ch : ChanId) (value : Word64) (s : State), let i := ch.val; let c := s.chan i; let token := bits value.toNat 63 56
    s.chanCarries p i →
    (c.state ≠ 0 → c.state ≠ 8 → exec (.dmaAbort p ch value) s = .next (s.chanBecomes i { c with
        cmdToken := token, cmdStatus := St.pending, state := 7, stop := .abort, nDesc := none, segStop := none, needWalk := false
        bursts := c.bursts.filter (fun b => b.state != 0) }))
    ∧ ((c.state = 0 ∨ c.state = 8) → exec (.dmaAbort p ch value) s = .next (s.chanBecomes i { c with cmdToken := token, cmdStatus := St.denied }))
    ∧ (c.state ≠ 6 → exec (.dmaResume p ch value) s = .next (s.chanBecomes i { c with cmdToken := token, cmdStatus := St.denied }))
    ∧ (c.state = 6 → isPriv i = true → c.desc = none → s.engineFree i → Gives (.dmaResume p ch value) s fun t => (t.chan i).cmdStatus = St.ok
        ∧ (t.chan i).cmdToken = token ∧ (t.chan i).state = (if c.head = c.tailIdx then 1 else 2) ∧ (t.chan i).status = St.ok ∧ t.mem = s.mem)
    ∧ ((c.state < 4 ∨ 6 < c.state) → exec (.dmaSave p ch value) s = .next (s.chanBecomes i { c with cmdToken := token, cmdStatus := St.denied })))
  ∧ (∀ (p : Path) (ch : ChanId) (value : Word64) (s : State), let i := ch.val; let c := s.chan i
    s.chanCarries p i → c.state = 7 → c.cmdStatus = St.pending →
    Gives (.dmaAbort p ch value) s (fun t => (t.chan i).cmdToken = bits value.toNat 63 56 ∧ (t.chan i).cmdStatus = St.pending ∧ (t.chan i).state = 7)
    ∧ exec (.dmaResume p ch value) s = .next (s.chanBecomes i { c with cmdToken := bits value.toNat 63 56, cmdStatus := St.denied })
    ∧ exec (.dmaSave p ch value) s = .next (s.chanBecomes i { c with cmdToken := bits value.toNat 63 56, cmdStatus := St.denied }))
  ∧ (∀ (p : Path) (ch : ChanId) (value : Word64) (s : State), let i := ch.val; let c := s.chan i; let n := s.chanPart i
      let a := bits c.record 39 6 * 64; let rec_ := resumeRecord n i { c with seq := c.seq + 1 } (if c.state = 4 then 0 else 1)
    s.chanCarries p i → s.unprotected n → (c.state = 4 ∨ c.state = 5 ∨ c.state = 6) → s.inPpa n a rec_.length = true →
    (s.ppaStore n a rec_ false).2 = St.ok → Gives (.dmaSave p ch value) s fun t => (t.chan i).cmdStatus = St.ok ∧ (t.chan i).seq = c.seq + 1
      ∧ (t.chan i).state = c.state ∧ t.mem = (s.ppaStore n a rec_ false).1.mem)
  ∧ (∀ (ch : ChanId) (s : State), let i := ch.val; let c := s.chan i
    s.quiet → c.state = 7 → (∀ b ∈ c.bursts, b.state = 2) → (isPriv i = true ∨ (c.desc = none ∧ s.savesChans (s.chanPart i) c.ctx = false)) →
    Gives (.dmaAbortDone ch) s fun t => (t.chan i).state = 1 ∧ (t.chan i).status = St.aborted ∧ (t.chan i).head = c.tailIdx ∧ (t.chan i).desc = none
      ∧ (t.chan i).bursts = [] ∧ (t.chan i).cmdStatus = (if c.cmdStatus = St.pending then St.ok else c.cmdStatus) ∧ t.mem = s.mem)

/-- 11 R293-R295, R298-R301: a fault opens a record or joins the one of its key; the driver's HEAD frees the ring; a resolved or overdue record is
told to its engines, and its slot is free when all are told; an invalidation is OK when every engine has purged and drained the range. -/
def Obligations.FaultsResolveAndRangesInvalidate : Prop :=
  (∀ (ch : ChanId) (s : State), let i := ch.val; let c := s.chan i; let n := s.chanPart i
    s.unprotected n → c.state = 5 → c.taken = false → (∀ k, k < 64 → (s.xlt n).recs.get none k = none) → fqLen (s.xlt n) = 0 →
    Gives (.faultTaken ch) s fun t => (∃ r, (t.xlt n).recs.get none 0 = some r ∧ r.ctx = c.ctx ∧ r.block = c.faultAddr / 65536 ∧ r.dva = c.faultAddr
        ∧ r.access = (if c.dir then 2 else 1) ∧ r.waiters = 1 <<< (i / 32) ∧ r.chans = [i])
      ∧ (t.chan i).faultId = n * 64 ∧ (t.chan i).taken = true ∧ (t.xlt n).unwritten = (s.xlt n).unwritten ++ [0] ∧ t.mem = s.mem)
  ∧ (∀ (ch : ChanId) (r : FaultRec) (s : State), let i := ch.val; let c := s.chan i; let n := s.chanPart i
    s.quiet → c.state = 5 → c.taken = false → s.recOpen n 0 = some r → r.ctx = c.ctx → r.block = c.faultAddr / 65536 →
    Gives (.faultTaken ch) s fun t => (t.xlt n).recs.get none 0 = some { r with
        waiters := setBit r.waiters (i / 32), access := r.access ||| (if c.dir then 2 else 1), chans := r.chans ++ [i] }
      ∧ (t.chan i).faultId = n * 64 ∧ (t.chan i).taken = true ∧ t.mem = s.mem)
  ∧ (∀ (p : Path) (n : PartId) (value : BitVec 32) (s : State), let x := s.xlt n.val; let len := fqLen x
    s.carries p → reaches p n.val = true → len ≠ 0 → x.unwritten = [] → exec (.fqHeadWrite p n value) s = .next (s.updXlt n.val (fun x => { x with
      fqHead := min x.fqCount (x.fqHead + (value.toNat % 4096 % len + len - x.fqHead % len) % len) })))
  ∧ (∀ (p : Path) (n : PartId) (value : Word64) (s : State), let id := value.toNat % 65536; let slot := id % 64
    s.carries p → reaches p n.val = true →
    (∀ r, id / 64 = n.val → s.recOpen n.val slot = some r → r.waiters ≠ 0 → Gives (.xltFaultResolve p n value) s fun t =>
      t.pageReady = s.pageReady ++ [{ id := id, status := BitVec.ofNat 8 (bits value.toNat 23 16), engines := r.waiters, chans := r.chans }]
      ∧ (t.xlt n.val).recs = (s.xlt n.val).recs ∧ t.chans = s.chans ∧ t.mem = s.mem)
    ∧ ((id / 64 ≠ n.val ∨ s.recOpen n.val slot = none) → s.effClass 0x114 n.val = .note →
        exec (.xltFaultResolve p n value) s = .next (s.countNote 0x114 n.val)))
  ∧ (∀ (id : Fin 1024) (s : State), let n := id.val / 64
    (∀ r, s.recOpen n (id.val % 64) = some r → r.waiters ≠ 0 → Gives (.faultRecordTimeout id) s fun t =>
      t.pageReady = s.pageReady ++ [{ id := id.val, status := St.timeout, engines := r.waiters, chans := r.chans, forced := some St.timeout }] ∧ t.mem = s.mem)
    ∧ (s.recOpen n (id.val % 64) = none → exec (.faultRecordTimeout id) s = .next s))
  ∧ (∀ (e : EngineId) (id : Fin 1024) (i : ChanId) (r : PageReady) (s : State), let n := id.val / 64
    s.quiet → s.pageReady = [r] → r.id = id.val → r.engines = 1 <<< e.val → r.status = St.ok → r.chans = [i.val] → i.val / 32 = e.val →
    (s.chan i.val).faultId = id.val → (s.chan i.val).state = 5 → (s.chan i.val).pause = true → (s.xlt n).waitRec = [] →
    Gives (.pageReady e id) s fun t => (t.chan i.val).resolved = true ∧ (t.xlt n).recs.get none (id.val % 64) = none ∧ t.pageReady = [] ∧ t.mem = s.mem)
  ∧ (∀ (p : Path) (n : PartId) (value : Word64) (s : State), let x := s.xlt n.val; let c := bits value.toNat 43 32
      let entry := s.tableWord n.val (x.ctxBase + c * 16)
    s.carries p → reaches p n.val = true → x.invStatus ≠ St.pending →
    (entry.1.testBit 0 = false → Gives (.xltInvCmd p n value) s fun t =>
      (t.xlt n.val).invStatus = St.denied ∧ (t.xlt n.val).invToken = bits value.toNat 63 56 ∧ t.chans = s.chans ∧ t.mem = s.mem)
    ∧ (entry.1.testBit 0 = true → entry.2 = St.ok → bits value.toNat 55 44 = 0 → s.chansOf n.val c = [] → Gives (.xltInvCmd p n value) s fun t =>
      (t.xlt n.val).invStatus = St.ok ∧ (t.xlt n.val).invMask = 2 ^ 32 - 1 ∧ (t.xlt n.val).invToken = bits value.toNat 63 56 ∧ t.chans = s.chans ∧ t.mem = s.mem))
  ∧ (∀ (n : PartId) (e : EngineId) (s : State), let x := s.xlt n.val
    s.quiet → x.invStatus = St.pending → x.invMask.testBit e.val = false → s.engineQuiet n.val e.val = true →
    Gives (.invEngineAck n e) s fun t => (t.xlt n.val).invMask = setBit x.invMask e.val
      ∧ (t.xlt n.val).invStatus = (if setBit x.invMask e.val = 2 ^ 32 - 1 then St.ok else St.pending) ∧ t.mem = s.mem)

/-- 01 R28; 12 R305-R307, R310, R315; 17 R451: BAR2 accesses reach the partition's PPA through the aperture, all ones and a count beyond it, all ones from a VF
that is disabled, UR from a TDI in ERROR; a completion fills the burst it belongs to; an answer nobody awaits is counted; a tag that times out is quarantined. -/
def Obligations.EndpointCarriesTransfers : Prop :=
  (∀ (n : PartId) (off len : Nat) (tbit : Bool) (s : State), let a := s.aperture n.val off; let s0 := s.injCharge 0 26 n.val len
    s.quiet → s.vfLive n.val = true →
    ((s.slice n.val).vf = false → exec (.bar2Read n off len tbit) s = .next (s.emit (.completion n.val false false (List.replicate len 0xFF))))
    ∧ ((s.slice n.val).vf = true → (s.vf n.val).tdi = 3 → exec (.bar2Read n off len tbit) s = .next (s.emit (.completion n.val true false [])))
    ∧ ((s.slice n.val).vf = true → s.vfRefuses n.val tbit = false → s.pcie.held = [] → s.injOpen 0 26 n.val = true →
        (s.inPpa n.val a len = true → (s.ppaPeek n.val a len).2.2 = St.ok → Gives (.bar2Read n off len tbit) s fun t =>
          (∃ o, t.out = o ++ [.completion n.val false (s.ppaPeek n.val a len).2.1 (s.ppaPeek n.val a len).1]) ∧ t.mem = (s0.ppaReport n.val a len (s.bar2Via n.val)).mem)
        ∧ (s.inPpa n.val a len = false → Gives (.bar2Read n off len tbit) s fun t => t.out = s.out ++ [.completion n.val false false (List.replicate len 0xFF)]
          ∧ (t.vf n.val).bounds = min ((s.vf n.val).bounds + 1) 65535 ∧ t.mem = s.mem)))
  ∧ (∀ (n : PartId) (off : Nat) (data : List Byte) (tbit : Bool) (s : State), let a := s.aperture n.val off; let s0 := s.injCharge 0 26 n.val data.length
    s.quiet → s.vfLive n.val = true →
    ((s.slice n.val).vf = false → exec (.bar2Write n off data tbit) s = .next s)
    ∧ ((s.slice n.val).vf = true → (s.vf n.val).tdi = 3 → exec (.bar2Write n off data tbit) s = .next s)
    ∧ ((s.slice n.val).vf = true → s.vfRefuses n.val tbit = false → s.pcie.held = [] → s.injOpen 0 26 n.val = true →
        (s.inPpa n.val a data.length = true → s.protected n.val a data.length = false → (s.twin n.val).state ≠ 4 →
          exec (.bar2Write n off data tbit) s = .next (s0.ppaStore n.val a data false (s.bar2Via n.val)).1)
        ∧ (s.inPpa n.val a data.length = false → exec (.bar2Write n off data tbit) s = .next (s0.countBounds n.val)))
    ∧ ((s.slice n.val).vf = true → s.vfRefuses n.val tbit = false → s.pcie.held = [] → s.injOpen 0 26 n.val = false → Gives (.bar2Write n off data tbit) s fun t =>
        t.pcie.held = [.bar2Write n a data tbit] ∧ t.mem = s.mem))
  ∧ (∀ (tag lower count : Nat) (data : List Byte) (s : State), s.quiet → s.pcie.up = true →
    (s.pcie.reqs = [] → exec (.hostCompletion tag lower count data false) s = .next (s.updPcie (fun p => { p with dropped := min (p.dropped + 1) (2 ^ 32 - 1) })))
    ∧ (∀ r, s.pcie.reqs = [r] → r.tag = tag → lower % 128 = r.addr % 128 → count = r.left → data ≠ [] →
        (data.length < r.left → exec (.hostCompletion tag lower count data false) s = .next (s.updPcie (fun p => { p with
            reqs := [{ r with addr := r.addr + data.length, left := r.left - data.length, data := r.data ++ data }] })))
        ∧ (∀ ch b, data.length = r.left → s.burstOf r.user = some (ch, b) → Gives (.hostCompletion tag lower count data false) s fun t =>
            t.pcie.reqs = [] ∧ (t.chan ch).bursts = (s.chan ch).bursts.map (fun x => if x.id == b.id then { b with parts := b.parts.set [] r.off (r.data ++ data) } else x)
            ∧ t.mem = s.mem)))
  ∧ (∀ (tag : Nat) (r : HostReq) (s : State), s.quiet → s.pcie.reqs = [r] → r.tag = tag →
    (s.burstOf r.user = none → Gives (.completionTimeout tag) s fun t => t.pcie.reqs = [] ∧ t.pcie.quarantine = s.pcie.quarantine ++ [tag]
      ∧ t.pcie.timeouts = min (s.pcie.timeouts + 1) (2 ^ 64 - 1) ∧ t.mem = s.mem)
    ∧ (∀ i b, s.burstOf r.user = some (i, b) → isPriv i = true → (s.chan i).bursts = [b] → b.next = false → (s.chan i).state = 2 → (s.chan i).stop = .none →
        ((s.chan i).desc ≠ none → b.start ≤ (s.chan i).total) → s.engineFree i → Gives (.completionTimeout tag) s fun t => (t.chan i).state = 6 ∧ (t.chan i).status = St.timeout ∧ (t.chan i).faultAddr = b.srcName + (r.off + r.data.length)
          ∧ t.pcie.reqs = [] ∧ t.pcie.quarantine = s.pcie.quarantine ++ [tag] ∧ t.mem = s.mem))
  ∧ (∀ (tag : Nat) (s : State), exec (.tagQuarantineEnd tag) s = .next (s.updPcie (fun p => { p with quarantine := p.quarantine.erase tag })))
  ∧ (∀ (p : Path) (n : PartId) (value : Word64) (s : State), s.carries p → reaches p n.val = true →
    exec (.vfApertureWrite p n value) s = .next (if bits value.toNat 39 30 * 2 ^ 30 < s.ppaSize n.val
      then s.updVf n.val (fun x => { x with aperture := bits value.toNat 39 30 * 2 ^ 30 }) else s))

/-- 12 R302, R308-R310, R317; 15 R395: the link, resets of functions and the states of a TDI: sessions end with the link and with a function's reset, which
clears the function's registers; a TDI is locked, runs and is unlocked in turn, and a change of its configuration is an error; a pending vector is
delivered when it is unmasked. -/
def Obligations.FunctionsResetLockAndSignal : Prop :=
  (∀ s : State, s.quiet → s.pcie.up = true → s.pcie.reqs = [] → (∀ e ∈ s.queues, e.2.en = true → queueInHost e.2 = false) →
    Gives .pcieLinkDown s fun t => t.pcie.up = false ∧ t.pcie.rate = 0 ∧ t.pcie.width = 0 ∧ t.pcie.downs = min (s.pcie.downs + 1) 65535
      ∧ t.pcie.held = [] ∧ (∀ f, f < 17 → t.sec.sessions.get {} f = {}) ∧ t.mem = s.mem)
  ∧ (∀ (rate : Fin 16) (width : Fin 64) (flit : Bool) (s : State), s.quiet → s.pcie.up = false → s.pwr.perstHigh = true → s.pwr.powered = true →
    linkTrains rate.val width.val flit = true →
    Gives (.pcieLinkUp rate width flit) s fun t => t.pcie.up = true ∧ t.pcie.rate = rate.val ∧ t.pcie.width = width.val ∧ t.pcie.flit = flit
      ∧ (∀ n, n < 16 → (t.vf n).tdi = 0) ∧ t.mem = s.mem)
  ∧ (∀ (rate : Fin 16) (width : Fin 64) (flit : Bool) (s : State), s.quiet → (s.pcie.up = true ∨ s.pwr.perstHigh = false ∨ linkTrains rate.val width.val flit = false) →
    exec (.pcieLinkUp rate width flit) s = .next s)
  ∧ (∀ (n : PartId) (s : State), s.quiet → s.pcie.up = true → (∀ e ∈ s.queues, e.1 / 128 = n.val → e.2.en = false) →
    Gives (.vfFlr n) s fun t => (t.vf n.val).aperture = 0 ∧ (t.vf n.val).winSel = [] ∧ (t.vf n.val).dmaVec = [] ∧ (t.vf n.val).dmaHalt = 0
      ∧ (t.vf n.val).ctxLost = 0 ∧ (t.vf n.val).ctxDone = 0 ∧ (t.vf n.val).tdi = (s.vf n.val).tdi ∧ (∀ q, q < 128 → t.queue n.val q = {})
      ∧ t.sec.sessions.get {} n.val = {} ∧ (∀ m, m ≠ n.val → t.vf m = s.vf m) ∧ t.mem = s.mem)
  ∧ (∀ (n : PartId) (s : State), s.quiet → s.pcie.up = false → exec (.vfFlr n) s = .next s)
  ∧ (∀ s : State, Gives .pf0Flr s fun t => (∀ v, v < 2048 → t.pcie.msix.get {} (16 * 2048 + v) = {}) ∧ t.pcie.mrrs = 512 ∧ t.pcie.mps = 128 ∧ t.pcie.cto = 900
      ∧ t.sec.sessions.get {} 16 = {} ∧ t.vfs = s.vfs ∧ t.mem = s.mem)
  ∧ (∀ (n : PartId) (s : State), let tdi := (s.vf n.val).tdi
    s.quiet →
    (tdi = 1 ∨ tdi = 2 → Gives (.tdiConfigViolation n) s fun t => (t.vf n.val).tdi = 3 ∧ t.mem = s.mem)
    ∧ (tdi ≠ 1 → tdi ≠ 2 → exec (.tdiConfigViolation n) s = .next s)
    ∧ (s.inSession n.val = true →
        (tdi = 0 → Gives (.lockInterface n) s fun t => (t.vf n.val).tdi = 1 ∧ t.mem = s.mem)
        ∧ (tdi = 1 → Gives (.startInterface n) s fun t => (t.vf n.val).tdi = 2 ∧ t.mem = s.mem)
        ∧ (tdi ≠ 0 → exec (.lockInterface n) s = .next s) ∧ (tdi ≠ 1 → exec (.startInterface n) s = .next s)
        ∧ Gives (.stopInterface n) s fun t => (t.vf n.val).tdi = 0 ∧ (t.sec.sessions.get {} n.val).ideKeys = false ∧ t.mem = s.mem)
    ∧ (s.inSession n.val = false → exec (.lockInterface n) s = .next s ∧ exec (.startInterface n) s = .next s ∧ exec (.stopInterface n) s = .next s))
  ∧ (∀ (fn : Fin 17) (vec : Nat) (s : State), let k := fn.val * 2048 + vec
    ((s.pcie.msix.get {} k).pending = true → s.pcie.msixOff.testBit fn.val = false → s.pcie.up = true → Gives (.msixUnmask fn vec) s fun t =>
      t.out = s.out ++ [.msix fn.val vec] ∧ (t.pcie.msix.get {} k).pending = false ∧ (t.pcie.msix.get {} k).masked = false)
    ∧ ((s.pcie.msix.get {} k).pending = false → Gives (.msixUnmask fn vec) s fun t => t.out = s.out ∧ (t.pcie.msix.get {} k).masked = false))
  ∧ (∀ s : State, exec .perstRelease s = .next { s with pwr := { s.pwr with perstHigh := true } })

/-- 12 R322-R326: queues and fences: EN takes HEAD from TAIL, the state IDLE; a doorbell runs an idle queue; an entry completes in its ring and HEAD passes it;
a WAIT holds the queue until its fence is there; a task enters the scheduler; a signal raises a fence to the greater value and keeps ERROR. -/
def Obligations.QueuesRunEntriesAndFences : Prop :=
  (∀ (p : Path) (n : PartId) (q : QueueId) (value : Word64) (s : State), let x := s.queue n.val q.val; let v := value.toNat
    s.carries p → reaches p n.val = true →
    (x.en = false → x.len ≠ 0 → 8 ≤ bits v 21 16 → exec (.queueEnable p n q value) s = .next (s.updQueue n.val q.val (fun x => { x with
        en := true, ctx := bits v 55 44, vector := bits v 21 16, head := x.tail % x.len, state := 1, status := St.ok })))
    ∧ (x.en = true → (x.state = 1 ∨ x.state = 4) → bits v 55 44 = x.ctx → bits v 21 16 = x.vector →
      exec (.queueDisable p n q value) s = .next (s.updQueue n.val q.val (fun x => { x with en := false, state := 0, status := St.ok })))
    ∧ (x.en = true → x.state ≠ 1 → x.state ≠ 4 → Gives (.queueDisable p n q value) s fun t => (∀ m r, t.queue m r = s.queue m r) ∧ t.mem = s.mem))
  ∧ (∀ (p : Path) (n : PartId) (q : QueueId) (value : BitVec 32) (s : State), let x := s.queue n.val q.val
    s.carries p → reaches p n.val = true → (x.en = true → (s.part n.val).state ≠ .building ∧ s.ctxLost n.val x.ctx = false) → x.len ≠ 0 →
    let t := value.toNat % 4096 % x.len
    exec (.queueDoorbell p n q value) s = .next (s.updQueue n.val q.val (fun x => { x with
      tail := t, state := if x.en = true ∧ x.state = 1 ∧ x.head ≠ t then 2 else x.state })))
  ∧ (∀ (n : PartId) (q : QueueId) (b host : List Byte) (c : Instr) (s : State), let x := s.queue n.val q.val; let s0 := s.fetched n.val q.val b
      let a := queueAddr x x.head; let ctrl := fld b 0 4
      let w1 := s0.ppaStore n.val (a + 0x38) (leBytes 8 0) false; let w2 := w1.1.ppaStore n.val a (leBytes 4 (ctrl % 2 ^ 31)) false
    s.fetches n.val q.val b → s.noWaits n.val → ctrl.testBit 29 = false → s.inPpa n.val a 128 = true → w1.2 = St.ok → w2.2 = St.ok →
    ((bits ctrl 7 0 = 0 ∧ c = .queueNop n q host) ∨ (bits ctrl 7 0 = 3 ∧ c = .queueSignal n q host)
      ∨ (bits ctrl 7 0 = 2 ∧ c = .queueWait n q host ∧ s.waitOutcome n.val { idx := x.head, bytes := b } = some St.ok)) →
    Gives c s fun t => (t.queue n.val q.val).head = (x.head + 1) % x.len ∧ (t.queue n.val q.val).entries = []
      ∧ (t.queue n.val q.val).state = (if (x.head + 1) % x.len = x.tail then 1 else 2) ∧ t.mem = w2.1.mem
      ∧ t.fence n.val (bits ctrl 23 12) = (if bits ctrl 7 0 = 3 then signalWord (s.fence n.val (bits ctrl 23 12)) (fld b 8 8 % 2 ^ 63) false
          else s.fence n.val (bits ctrl 23 12)))
  ∧ (∀ (n : PartId) (q : QueueId) (b host : List Byte) (s : State), let x := s.queue n.val q.val; let e : QEnt := { idx := x.head, bytes := b }
    s.fetches n.val q.val b → bits (fld b 0 4) 7 0 = 2 → s.waitOutcome n.val e = none →
    Gives (.queueWait n q host) s fun t => (t.queue n.val q.val).state = 3 ∧ (t.queue n.val q.val).entries = [e]
      ∧ (t.queue n.val q.val).head = (x.head + 1) % x.len ∧ t.fences = s.fences ∧ t.mem = s.mem)
  ∧ (∀ (n : PartId) (q : QueueId) (b host : List Byte) (s : State), let x := s.queue n.val q.val; let tb := bslice b 0x40 64
      let task := taskOf x.ctx tb (.queue q.val x.head)
    s.fetches n.val q.val b → bits (fld b 0 4) 7 0 = 1 → (s.fetched n.val q.val b).taskDenied n.val tb task = false →
    ((s.sch n.val).waiting.filter (fun y => halfOfSite y.site == halfOfSite task.site)).length < 1024 →
    Gives (.queueTask n q host) s fun t => (t.sch n.val).waiting = (s.sch n.val).waiting ++ [task]
      ∧ (t.queue n.val q.val).entries = [{ idx := x.head, bytes := b, running := true }] ∧ (t.queue n.val q.val).head = (x.head + 1) % x.len)
  ∧ (∀ (p : Path) (n : PartId) (f : FenceId) (value : Word64) (s : State), let w := s.fence n.val f.val; let v := value.toNat % 2 ^ 63
    s.carries p → reaches p n.val = true → s.noWaits n.val →
    (Gives (.fenceSignal p n f value) s fun t => t.fence n.val f.val % 2 ^ 63 = max (w % 2 ^ 63) (min v 0x7FFFFFFFFFFFFFFE)
      ∧ (t.fence n.val f.val).testBit 63 = (w.testBit 63 || value.toNat.testBit 63) ∧ (∀ g, g < 4096 → g ≠ f.val → t.fence n.val g = s.fence n.val g)
      ∧ t.queues = s.queues ∧ t.mem = s.mem)
    ∧ (Gives (.fenceReset p n f value) s fun t => t.fence n.val f.val = min v 0x7FFFFFFFFFFFFFFE + (if value.toNat.testBit 63 then 2 ^ 63 else 0)
      ∧ (∀ g, g < 4096 → g ≠ f.val → t.fence n.val g = s.fence n.val g) ∧ t.queues = s.queues ∧ t.mem = s.mem))

/-- 13 R338-R342, R345, R349-R351, R359: a site's bring-up: the words of the exchange are taken and acknowledged and the profile negotiated from them, with the clock the site is given; the protocol and
the main band follow; the identity is measured, and the site is up or dead. -/
def Obligations.SitesComeUpInSteps : Prop :=
  (∀ (site : SiteId) (idx : Fin 4) (word : Word64) (s : State), let k := site.val
      let s1 := s.updSite k (fun t => { t with capPeer := t.capPeer.set 0 idx.val word.toNat, capGot := setBit t.capGot idx.val }); let t1 := s1.site k
    s.quiet → s.noCellWaits → (s.site k).step = 1 →
    ((t1.capGot ≠ 15 ∨ t1.capAcked ≠ 15) → Gives (.ospCap site idx word) s fun t => t.site k = t1 ∧ t.out = s.out ++ [.osp k 2 idx.val])
    ∧ (t1.capGot = 15 → t1.capAcked = 15 → s1.negRefused k = false → (t1.cap 1).testBit 51 = true → bits (t1.cap 2) 63 56 ≤ 110 →
        50 ≤ bits (t1.cap 2) 23 16 → bits (t1.cap 2) 23 16 ≤ 100 → Gives (.ospCap site idx word) s fun t => (t.site k).power = 2 ∧ (t.site k).step = 2
          ∧ (t.site k).kind = 1 ∧ (t.site k).clock = 1 ∧ (t.site k).level = min s.siteLevel (bits (t1.cap 0) 15 0) ∧ t.out = s.out ++ [.osp k 2 idx.val, .osp k 4 2])
    ∧ (t1.capGot = 15 → t1.capAcked = 15 → s1.negRefused k = false → (t1.cap 1).testBit 51 = false → s.sec.fuses.integration = none →
        Gives (.ospCap site idx word) s fun t => (t.site k).power = 0 ∧ (t.site k).step = 0 ∧ (t.site k).state = 3 ∧ (t.site k).kind = 2
          ∧ (t.site k).clock = s1.siteClock k ∧ t.out = s.out ++ [.osp k 2 idx.val])
    ∧ (s.spareSite k → t1.state ≠ 2 → t1.capGot = 15 → t1.capAcked = 15 → s1.negRefused k = true → Kills (.ospCap site idx word) s k 1))
  ∧ (∀ (site : SiteId) (idx : Fin 4) (s : State), let k := site.val; let t1 : Site := { s.site k with capAcked := setBit (s.site k).capAcked idx.val }
    s.quiet → s.noCellWaits → (s.site k).step = 1 → (t1.capGot ≠ 15 ∨ t1.capAcked ≠ 15) → Gives (.ospCapAck site idx) s fun t => t.site k = t1 ∧ t.out = s.out)
  ∧ (∀ (site : SiteId) (s : State), let k := site.val
    ((s.site k).step = 2 → exec (.siteProtocolReady site) s = .next (s.updSite k (fun t => { t with step := 3 })))
    ∧ ((s.site k).step ≠ 2 → exec (.siteProtocolReady site) s = .next s))
  ∧ (∀ (site : SiteId) (widths : List (Fin 3)) (agree : Bool) (s : State), let k := site.val; let x := s.site k
    x.step = 3 → s.quiet →
    (agree = true → widthsOk x widths = true → Gives (.siteMainbandTrained site widths agree) s fun t => (t.site k).step = 4 ∧ (t.site k).state = x.state
      ∧ (∀ u, u < 4 → (bits (x.cap 1) 63 60).testBit u = true → (t.umod k u).width = (widths.getD u 0).val) ∧ t.mem = s.mem)
    ∧ (s.spareSite k → x.state ≠ 2 → (agree = false ∨ widthsOk x widths = false) → Kills (.siteMainbandTrained site widths agree) s k 4))
  ∧ (∀ (site : SiteId) (chunk : Fin 6) (data : Word64) (s : State), let k := site.val
      let s1 := s.updSite k (fun t => { t with ident := t.ident.set 0 chunk.val data.toNat, identGot := setBit t.identGot chunk.val })
    (s.site k).step = 4 → s.spareSite k → (s.site k).state ≠ 2 →
    ((s1.site k).identGot ≠ 63 → exec (.ospIdentity site chunk data) s = .next s1)
    ∧ ((s1.site k).identGot = 63 → Gives (.ospIdentity site chunk data) s fun t => (t.site k).step = 0
        ∧ if s1.identOk k then (t.site k).state = 1 ∧ (t.site k).failures = 0 else (t.site k).state = 2 ∧ (t.site k).cause = 2))
  ∧ (∀ (site : SiteId) (code : BitVec 16) (s : State), let k := site.val
    (s.quiet → (s.site k).power ≠ 0 → (s.site k).state ≠ 2 → exec (.ospError site false code) s =
      .next (s.updSite k (fun t => { t with correctable := min (t.correctable + 1) (2 ^ 32 - 1) })))
    ∧ (s.spareSite k → (s.site k).power ≠ 0 → (s.site k).state ≠ 2 → Kills (.ospError site true code) s k 10))
  ∧ (∀ (site : SiteId) (code : Byte) (s : State),
    exec (.ospUnknownCode site code) s = .next (s.updSite site.val (fun t => { t with droppedOsp := min (t.droppedOsp + 1) 65535 })))

/-- 13 R337, R343, R347, R348, R350-R352; 16 R426: the operator resets, retrains or powers off a site that serves no partition; a module that retrains carries nothing
until both sides' check words agree, the narrower width being taken once; a second disagreement, a lost route or a failed rail is the site's death.
08 R202; 13 R340, R346: a foreign chiplet's request passes its site's regulator or waits there; a read through a window is answered with its bytes, and a write
stores them, marked dross where the chiplet cannot mark them itself. -/
def Obligations.SitesFailAndForeignRequestsPassWindows : Prop :=
  ((∀ (p : Path) (site : SiteId) (value : Word64) (s : State), let k := site.val; let token := bits value.toNat 63 56
    s.carries p → (isOper p = true ∨ isFirmware p = true) → s.pwr.stage ≠ 0 →
    ((s.site k).fitted = 0 → s.resetAllowed k = true → ((s.site k).step = 0 ∨ ((s.site k).state ≠ 4 ∧ (s.site k).state ≠ 6)) →
      exec (.siteReset p site value) s = .next (s.updSite k (fun t => { t with state := 3, cmdStatus := St.ok, cmdToken := token })))
    ∧ ((s.site k).fitted ≠ 0 → s.resetAllowed k = true → ((s.site k).step = 0 ∨ ((s.site k).state ≠ 4 ∧ (s.site k).state ≠ 6)) →
      Gives (.siteReset p site value) s fun t => (t.site k).state = 6 ∧ (t.site k).power = 1 ∧ (t.site k).step = 1 ∧ (t.site k).cmdStatus = St.pending
        ∧ (t.site k).cmdToken = token ∧ (t.site k).capGot = 0 ∧ (t.site k).capAcked = 0
        ∧ t.out = s.out ++ (List.range 4).map (fun i => .osp k 1 (i * 2 ^ 64 + s.hubCapWord i)) ∧ t.mem = s.mem)
    ∧ (s.siteOwned k = true → exec (.siteOff p site value) s = .next (s.updSite k (fun t => { t with cmdToken := token, cmdStatus := St.denied }))
        ∧ exec (.siteRetrain p site value) s = .next (s.updSite k (fun t => { t with cmdToken := token, cmdStatus := St.denied })))
    ∧ (s.siteOwned k = false → Gives (.siteOff p site value) s fun t => (t.site k).state = 7 ∧ (t.site k).power = 0 ∧ (t.site k).cmdStatus = St.ok
        ∧ t.out = s.out ++ [.osp k 4 0] ∧ t.mem = s.mem)
    ∧ (s.siteOwned k = false → s.siteRuns k = true → ∀ u, u < 4 → bits value.toNat 11 8 = 1 <<< u → (s.umod k u).width ≠ 0 →
        Gives (.siteRetrain p site value) s fun t => (t.umod k u).busy = true ∧ (t.umod k u).width = 0 ∧ (t.site k).state = 5
          ∧ (t.site k).cmdStatus = St.pending ∧ t.mem = s.mem))
  ∧ (∀ (site : SiteId) (u : Fin 4) (s : State), let k := site.val
    s.quiet → exec (.ospReset site (BitVec.ofNat 4 (1 <<< u.val)) false) s = exec (.ucieLinkRecovery site u) s
    ∧ (s.siteRuns k = true → (s.umod k u.val).width ≠ 0 → Gives (.ucieLinkRecovery site u) s fun t => (t.umod k u.val).busy = true
        ∧ (t.umod k u.val).width = 0 ∧ (t.umod k u.val).disagree = (s.umod k u.val).disagree ∧ (t.site k).state = 5
        ∧ (t.site k).retrains = min ((s.site k).retrains + 1) 65535 ∧ t.mem = s.mem))
  ∧ (∀ (site : SiteId) (u : Fin 4) (width : Fin 3) (s : State), let k := site.val; let m := s.umod k u.val
    s.quiet → s.noCellWaits → m.busy = true → m.trained = 0 → (width.val = 1 → (s.site k).features.testBit 6 = true) →
    (width ≠ 0 → m.peer = none → Gives (.moduleRetrainDone site u width) s fun t => (t.umod k u.val).trained = width.val
      ∧ (t.umod k u.val).seq = (m.seq + 1) % 256 ∧ (t.umod k u.val).busy = true
      ∧ t.out = s.out ++ [.osp k 3 (checkWord ((m.seq + 1) % 256) width.val ((s.site k).features.testBit 0) u.val (s.negWord k))])
    ∧ (m.disagree = 0 → Gives (.moduleRetrainDone site u 0) s fun t => (t.umod k u.val).disagree = 1 ∧ (t.umod k u.val).scratch = true
        ∧ (t.umod k u.val).busy = true ∧ (t.site k).state = (s.site k).state))
  ∧ (∀ (site : SiteId) (word : Word64) (s : State), let k := site.val; let u := bits word.toNat 52 50; let m := s.umod k u
    s.quiet → s.noCellWaits → u < 4 → m.busy = true → m.trained ≠ 0 → m.narrowed = false → (s.site k).features.testBit 6 = true → Gives (.ospCheck site word) s fun t =>
      if word.toNat = checkWord m.seq m.trained m.rate u (s.negWord k) then
        (t.umod k u).width = m.trained ∧ (t.umod k u).busy = false ∧ (t.umod k u).disagree = 0
      else (t.umod k u).narrowed = true ∧ (t.umod k u).busy = true ∧ (t.umod k u).seq = (m.seq + 1) % 256
        ∧ (t.umod k u).trained = if bits word.toNat 55 54 = 1 ∨ bits word.toNat 55 54 = 2 then min m.trained (bits word.toNat 55 54) else m.trained)
  ∧ (∀ (site : SiteId) (u : Fin 4) (s : State), let k := site.val; let m := s.umod k u.val
    s.spareSite k → (s.site k).state ≠ 2 → m.busy = true →
    (m.disagree = 0 → Gives (.retrainTimeout site u) s fun t => (t.umod k u.val).disagree = 1 ∧ (t.umod k u.val).scratch = true ∧ (t.site k).state = (s.site k).state)
    ∧ (1 ≤ m.disagree → Kills (.retrainTimeout site u) s k 5)
    ∧ (s.onRoute k u.val = true → Kills (.routeModuleTimeout site u) s k 9)
    ∧ (s.onRoute k u.val = false → exec (.routeModuleTimeout site u) s = .next s))
  ∧ (∀ (site : SiteId) (mask : BitVec 4) (s : State), let k := site.val
    s.spareSite k → (s.site k).state ≠ 2 →
    ((s.site k).power ≠ 0 → Kills (.ospReset site mask true) s k 10) ∧ ((s.site k).power = 2 → Kills (.vsiteRailFault site) s k 3)
    ∧ ((s.site k).power ≠ 2 → exec (.vsiteRailFault site) s = .next s)))
  ∧ (∀ (site : SiteId) (n : Nat) (s : State), let k := site.val
    s.quiet → s.ownerCell (k * 16) = some n → s.foreignOpen k n = true → s.fab.held = [] →
    (s.injOpen (halfOfSite k) (k % 6) n = false → ∀ r, Gives (.foreignMemoryRequest site r) s fun t => t.fab.held = [(k, r)] ∧ t.out = s.out ∧ t.mem = s.mem)
    ∧ (s.injOpen (halfOfSite k) (k % 6) n = true →
        (∀ (pos w : Fin 16) (off len : Nat), let a := (s.window (k * 16 + pos.val) w.val).1 + off
          s.streamCheck k pos.val w.val false off len = none → s.inPpa n a len = true → (s.ppaPeek n a len).2.2 = St.ok →
          Gives (.foreignMemoryRequest site (.streamRead pos w off len)) s fun t =>
            (∃ o, t.out = o ++ [.homeData (k % 6) (a / 64) St.ok (s.ppaPeek n a len).1 (s.ppaPeek n a len).2.1]) ∧ t.mem = s.mem)
        ∧ (∀ (pos w : Fin 16) (off : Nat) (data : List Byte) (dross : Bool), let a := (s.window (k * 16 + pos.val) w.val).1 + off
            let r := (s.injCharge (halfOfSite k) (k % 6) n data.length).ppaStore n a data (dross || !((s.site k).features.testBit 3))
          s.streamCheck k pos.val w.val true off data.length = none → s.inPpa n a data.length = true → s.protected n a data.length = false →
          (s.twin n).state ≠ 4 → exec (.foreignMemoryRequest site (.streamWrite pos w off data dross)) s =
            .next (r.1.emit (.homeData (k % 6) (a / 64) r.2 [] false)))
        ∧ (∀ (ppa hpa : Nat) (unique : Bool) (hint : Hint), s.ppaToHpa n ppa = some hpa →
          exec (.foreignMemoryRequest site (.cxl ppa unique hint)) s = closing ((s.injCharge (halfOfSite k) (k % 6) n 64).agentRequest
            (halfOfSite k) (8 + k % 6) (hpa / 64) false (if unique then .rdu else .rds) hint))))


/-- 14 R362, R365, R366, R371: a port trains, natively or under IEEE 802.3dj, is up, and trains again when a lane fails; a pause stops a priority of a dedicated port;
a frame that may leave goes out and its descriptor completes.
14 R364, R368, R369, R371, R374; 06 R153, R154: transmit queues: EN takes the indices of the rings; a descriptor is taken in turn: a raw frame joins its port's
frames, a request of a queue pair that sends leaves with its data and awaits its answer; a queue pair is loaded from its table or put into ERROR. -/
def Obligations.PortsAndTransmitQueuesSend : Prop :=
  ((∀ (port : PortId) (s : State), let x := s.port port.val
    s.quiet →
    (x.state = 1 → exec (.portNativeTimeout port) s = .next (s.updPort port.val (fun t => { t with ieee := true })))
    ∧ (x.state = 1 → exec (.portUp port) s = .next (s.updPort port.val (fun t => { t with state := 2, rate := if x.ieee then 2 else 1 })))
    ∧ (x.state ≠ 1 → exec (.portNativeTimeout port) s = .next s ∧ exec (.portUp port) s = .next s)
    ∧ (x.state ≠ 0 → exec (.portLaneDown port) s = .next (s.updPort port.val (fun t =>
        { t with state := 1, rate := 0, ieee := false, rxPaused := 0, txPaused := 0 })))
    ∧ (x.state = 0 → exec (.portLaneDown port) s = .next s)
    ∧ (∀ (prio : Fin 8), x.state = 2 → s.portMode port.val = 1 →
        (Gives (.pauseFrameRx port prio true) s fun t => (t.port port.val).rxPaused = setBit x.rxPaused prio.val
          ∧ (t.port port.val).pauseRx = min (x.pauseRx + 1) 65535 ∧ t.canSend port.val prio.val = false)
        ∧ Gives (.pauseFrameRx port prio false) s fun t => (t.port port.val).rxPaused = clearBit x.rxPaused prio.val
          ∧ (t.port port.val).pauseRx = x.pauseRx)
    ∧ (∀ (prio : Fin 8) (on : Bool), s.portMode port.val ≠ 1 → exec (.pauseFrameRx port prio on) s = .next s))
  ∧ (∀ (port : PortId) (k : Nat) (f : TxFrame) (s : State), let p := port.val
    s.unprotected f.part → (s.net.txWait.get [] p)[k]? = some f →
    (s.mayLeavePort p k f = true → f.qp = none → Gives (.frameLeavesPort port k) s fun t => (∃ l, t.out = s.out ++ .frame p f.bytes :: l)
      ∧ t.net.txWait.get [] p = dropNth (s.net.txWait.get [] p) k ∧ (t.txq f.q).cIdx = (s.txq f.q).cIdx + 1)
    ∧ (s.mayLeavePort p k f = false → exec (.frameLeavesPort port k) s = .next s))
  ∧ (∀ (port : PortId) (s : State), s.quiet → (s.port port.val).state ≠ 2 →
    (∀ f, exec (.frameReceived port f) s = .next s) ∧ (∀ k, exec (.frameLeavesPort port k) s = .next s)
    ∧ (∀ (n : PartId) (k : QpId), (s.qp n.val k.val).port = port.val → ∀ psn rkey addr len data imm ce,
        exec (.roceSendRx n k psn data imm ce) s = .next s ∧ exec (.roceRdmaWriteRx n k psn rkey addr data imm ce) s = .next s
        ∧ exec (.roceRdmaReadRx n k psn rkey addr len ce) s = .next s ∧ exec (.roceAckRx n k psn) s = .next s ∧ exec (.roceNakRx n k psn) s = .next s
        ∧ exec (.roceReadResponseRx n k psn data) s = .next s ∧ exec (.cnpRx n k) s = .next s)
    ∧ (∀ (q : EthQId) (n op : Nat) (c : Instr), let d := s.txDesc n q.val; let x := s.qp n d.k
        ((op = 1 ∧ c = .txSend q) ∨ (op = 2 ∧ c = .txSendImm q) ∨ (op = 3 ∧ c = .txWrite q) ∨ (op = 4 ∧ c = .txWriteImm q) ∨ (op = 5 ∧ c = .txRead q)) →
        s.ownerEthQ q.val = some n → s.txReady n q.val op = true → d.status = St.ok → x.state = 3 → x.ud = false → x.port = port.val →
        Gives c s fun t => t.net = s.net ∧ t.mem = s.mem)
    ∧ ∀ (q : EthQId) (n : Nat), let d := s.txDesc n q.val
      s.ownerEthQ q.val = some n → s.txReady n q.val 0 = true → d.op = 0 → d.status = St.ok → s.hasPort n d.k = true → d.k = port.val → 64 ≤ d.len → d.len ≤ 9216 →
      Gives (.txRawFrame q) s fun t => t.net = s.net ∧ t.mem = s.mem))
  ∧ ((∀ (p : Path) (q : EthQId) (n : Nat) (value : Word64) (s : State), let r := s.txq q.val; let v := value.toNat
    s.carries p → s.ownerEthQ q.val = some n → reaches p n = true →
    (r.ctrl.testBit 0 = false → s.ownerCore (bits v 23 17) = some n → canEnable r.desc r.cq = true →
      exec (.txqEnable p q value) s = .next (s.updTxq q.val (fun r => { r with
        ctrl := keepBits v 47 11 + 1, dIdx := r.tail % ringOf r.desc, cIdx := r.cqHead % ringOf r.cq, cFree := r.cqHead % ringOf r.cq, unsignalled := 0 })))
    ∧ ((r.ctrl.testBit 0 = true → boundFields r.ctrl = boundFields v) → exec (.txqDisable p q value) s = .next (s.updTxq q.val (fun r => { r with ctrl := keepBits v 47 11 }))))
  ∧ (∀ (p : Path) (q : EthQId) (n : Nat) (value : BitVec 32) (s : State), s.carries p → s.ownerEthQ q.val = some n → reaches p n = true →
    exec (.txqDoorbell p q false value) s = .next (s.updTxq q.val (fun r => { r with tail := value.toNat % 65536 }))
    ∧ Gives (.txqDoorbell p q true value) s fun t => (t.txq q.val).cqHead = value.toNat % 65536 ∧ (t.txq q.val).tail = (s.txq q.val).tail
        ∧ (t.txq q.val).dIdx = (s.txq q.val).dIdx ∧ t.mem = s.mem)
  ∧ (∀ (q : EthQId) (n op : Nat) (c : Instr) (s : State), let d := s.txDesc n q.val; let x := s.qp n d.k
      ((op = 1 ∧ c = .txSend q) ∨ (op = 2 ∧ c = .txSendImm q) ∨ (op = 3 ∧ c = .txWrite q) ∨ (op = 4 ∧ c = .txWriteImm q) ∨ (op = 5 ∧ c = .txRead q)) →
    s.quiet → s.ownerEthQ q.val = some n → s.txReady n q.val op = true → d.status = St.ok → x.state = 3 → x.ud = false → s.canSend x.port x.prio = true → s.hasRate x.port n = true →
    (op ≠ 5 → s.injOpen (q.val / 2048) 25 n = true ∧ (s.ppaPeek n d.buf d.len).2 = (false, St.ok)) →
    Gives c s fun t => (t.txq q.val).dIdx = (s.txq q.val).dIdx + 1 ∧ (t.qp n d.k).sqPsn = psnOf (x.sqPsn + x.packets d.len)
      ∧ (∃ o, (t.qp n d.k).sends = x.sends ++ [o] ∧ o.psn = x.sqPsn ∧ o.q = q.val ∧ o.op = op ∧ o.user = d.user ∧ o.len = d.len)
      ∧ (∃ l, t.out = l ++ [.roce n d.k 5 x.sqPsn (requestBytes op d.imm d.raddr d.rkey d.len (if op = 5 then [] else (s.ppaPeek n d.buf d.len).1))])
      ∧ t.mem = s.mem)
  ∧ (∀ (q : EthQId) (n : Nat) (s : State), let d := s.txDesc n q.val
    s.quiet → s.ownerEthQ q.val = some n → s.txReady n q.val 0 = true → d.op = 0 → d.status = St.ok → s.hasPort n d.k = true → 64 ≤ d.len → d.len ≤ 9216 →
    (s.port d.k).state = 2 → s.injOpen (q.val / 2048) 25 n = true → (s.ppaPeek n d.buf d.len).2 = (false, St.ok) →
    Gives (.txRawFrame q) s fun t => (t.txq q.val).dIdx = (s.txq q.val).dIdx + 1 ∧ (∃ f, t.net.txWait.get [] d.k = s.net.txWait.get [] d.k ++ [f]
        ∧ f.part = n ∧ f.q = q.val ∧ f.qp = none ∧ f.user = d.user
        ∧ f.bytes = (if s.portMode d.k = 2 then putSource (s.ppaPeek n d.buf d.len).1 (s.partMac d.k n % 2 ^ 48) else (s.ppaPeek n d.buf d.len).1))
      ∧ t.mem = s.mem)
  ∧ (∀ (p : Path) (n : PartId) (value : Word64) (s : State), let k := bits value.toNat 25 16
      let b := (s.ppaPeek n.val (bits (s.eth n.val).qpBase 39 7 * 128 + k * 128) 128).1
    s.carries p → reaches p n.val = true →
    (Gives (.qpError p n value) s fun t => (t.qp n.val k).state = 4 ∧ (t.eth n.val).cmdStatus = St.ok ∧ (t.eth n.val).cmdToken = bits value.toNat 63 56
      ∧ (t.eth n.val).cmdQp = k ∧ t.mem = s.mem)
    ∧ ((s.ppaPeek n.val (bits (s.eth n.val).qpBase 39 7 * 128 + k * 128) 128).2 = (false, St.ok) → s.ownerEthQ (fld b 4 2) = some n.val → fld b 4 2 < 4096 →
        s.qpContextOk n.val b = true → Gives (.qpLoad p n value) s fun t => (t.qp n.val k).state = fld b 0 1 ∧ (t.qp n.val k).rxq = fld b 4 2
          ∧ (t.qp n.val k).port = fld b 2 1 ∧ (t.qp n.val k).prio = fld b 3 1 ∧ (t.qp n.val k).destQpn = fld b 8 4 ∧ (t.qp n.val k).destMac = fld b 0x10 8
          ∧ (t.qp n.val k).sqPsn = fld b 0x38 4 % 2 ^ 24 ∧ (t.qp n.val k).rqPsn = fld b 0x3C 4 % 2 ^ 24 ∧ (t.eth n.val).cmdStatus = St.ok
          ∧ (t.eth n.val).cmdToken = bits value.toNat 63 56 ∧ t.mem = s.mem)))

/-- 14 R368-R370; 17 R451: a request of the expected PSN is served and acknowledged: a SEND takes a descriptor, a WRITE stores where a region allows it, a READ is
answered with data; one ahead of the expected PSN, or that no region allows, is answered with a NAK. -/
def Obligations.RoceServesRequests : Prop :=
  ∀ (n : PartId) (k : QpId) (psn : Nat) (s : State), let x := s.qp n.val k.val
    s.unprotected n.val → s.ready n.val = true → (s.port x.port).state = 2 → (x.state = 2 ∨ x.state = 3) → x.ud = false → s.rxBehind x.port x.rxq = false →
    (psnOf psn ≠ x.rqPsn → psnLe x.rqPsn psn = true → ∀ data imm,
      exec (.roceSendRx n k psn data imm false) s = .next (s.emit (.roce n.val k.val 2 (psnOf x.rqPsn) [])))
    ∧ (psnOf psn = x.rqPsn → (s.rxq x.rxq).room = true → ∀ data imm, Gives (.roceSendRx n k psn data imm false) s fun t =>
        (t.rxq x.rxq).dIdx = (s.rxq x.rxq).dIdx + 1 ∧ (t.rxq x.rxq).cIdx = (s.rxq x.rxq).cIdx + 1
        ∧ (t.qp n.val k.val).rqPsn = psnOf (psn + x.packets data.length)
        ∧ ∃ o, t.out = o ++ [.roce n.val k.val 0 (psnOf (psn + x.packets data.length - 1)) []])
    ∧ (psnOf psn = x.rqPsn → ∀ (rkey : BitVec 32) (addr : Nat) (data : List Byte), let s0 := s.noteRegion n.val rkey.toNat
        let w := s0.ppaStore n.val addr data false (s.netVia (s.qpHalf n.val k.val) n.val)
        (s0.regionOk n.val rkey.toNat addr data.length 1 = true → s0.inPpa n.val addr data.length = true → (s.twin n.val).state ≠ 4 →
          w.2 = St.ok → Gives (.roceRdmaWriteRx n k psn rkey addr data none false) s fun t =>
            t.mem = w.1.mem ∧ (t.qp n.val k.val).rqPsn = psnOf (psn + x.packets data.length)
            ∧ ∃ o, t.out = o ++ [.roce n.val k.val 0 (psnOf (psn + x.packets data.length - 1)) []])
        ∧ (s0.regionOk n.val rkey.toNat addr data.length 1 = false → Gives (.roceRdmaWriteRx n k psn rkey addr data none false) s fun t =>
            (t.eth n.val).rerr = min ((s.eth n.val).rerr + 1) (2 ^ 64 - 1) ∧ (∃ o, t.out = o ++ [.roce n.val k.val 1 (psnOf psn) []]) ∧ t.mem = s.mem))
    ∧ (psnOf psn = x.rqPsn → ∀ (rkey : BitVec 32) (addr len : Nat), let s0 := s.noteRegion n.val rkey.toNat
        s0.regionOk n.val rkey.toNat addr len 0 = true → (s0.ppaPeek n.val addr len).2 = (false, St.ok) → s.injOpen (s.qpHalf n.val k.val) 25 n.val = true →
        Gives (.roceRdmaReadRx n k psn rkey addr len false) s fun t => (t.qp n.val k.val).rqPsn = psnOf (psn + x.packets len)
          ∧ (∃ o, t.out = o ++ [.roce n.val k.val 3 (psnOf psn) (s0.ppaPeek n.val addr len).1]) ∧ t.mem = s.mem)

/-- 14 R368, R371-R373: what a sender's queue pair does with answers: an acknowledgement completes the sends it reaches, a READ's data is written in order, a NAK or a
timeout sends again until the retries are used up, and a CNP halves the rate, which grows again in steps. -/
def Obligations.RoceCompletesRequests : Prop :=
  ∀ (n : PartId) (k : QpId) (s : State), let x := s.qp n.val k.val
    s.ready n.val = true →
    (∀ (psn : Nat) (o : SendOp), s.unprotected n.val → (s.port x.port).state = 2 → x.ud = false → x.sends = [o] → o.op ≠ 5 → psnLe o.last psn = true → psnLe psn (x.sqPsn + 2 ^ 24 - 1) = true →
      Gives (.roceAckRx n k psn) s fun t => (t.qp n.val k.val).sends = [] ∧ (t.qp n.val k.val).retries = 0 ∧ (t.txq o.q).cIdx = (s.txq o.q).cIdx + 1)
    ∧ (∀ (psn : Nat) (o : SendOp) (data : List Byte), let b := data.take (o.len - o.got); let w := s.ppaStore n.val (o.addr + o.got) b false (s.netVia (s.qpHalf n.val k.val) n.val)
        s.unprotected n.val → (s.port x.port).state = 2 → x.sends = [o] → o.op = 5 → psnLe o.psn psn = true → psnLe psn o.last = true → psnOf (psn + 2 ^ 24 - o.psn) * x.mtu = o.got →
        s.inPpa n.val (o.addr + o.got) b.length = true → (s.twin n.val).state ≠ 4 → w.2 = St.ok →
        (o.got + b.length < o.len → Gives (.roceReadResponseRx n k psn data) s fun t =>
          (t.qp n.val k.val).sends = [{ o with got := o.got + b.length }] ∧ t.mem = w.1.mem)
        ∧ (o.len ≤ o.got + b.length → Gives (.roceReadResponseRx n k psn data) s fun t =>
          (t.qp n.val k.val).sends = [] ∧ (t.txq o.q).cIdx = (s.txq o.q).cIdx + 1))
    ∧ (∀ (psn : Nat) (o : SendOp), let req := requestBytes o.op o.imm o.raddr o.rkey o.len
          let ask := .roce n.val k.val 5 (psnOf (o.psn + o.got / x.mtu)) (requestBytes o.op o.imm (o.raddr + o.got) o.rkey (o.len - o.got) [])
        s.quiet → s.canSend x.port x.prio = true → s.hasRate x.port n.val = true → x.ud = false → x.state = 3 → x.sends = [o] →
        (o.op = 5 → exec (.roceNakRx n k psn) s = .next (s.emit ask))
        ∧ (o.op ≠ 5 → (s.ppaPeek n.val o.addr o.len).2 = (false, St.ok) → s.injOpen (s.qpHalf n.val k.val) 25 n.val = true → Gives (.roceNakRx n k psn) s fun t =>
            (∃ l, t.out = l ++ [.roce n.val k.val 5 o.psn (req (s.ppaPeek n.val o.addr o.len).1)]) ∧ (t.qp n.val k.val).sends = [o] ∧ t.mem = s.mem)
        ∧ (o.op = 5 → x.retries < x.retry % 8 → Gives (.roceRetryTimeout n k) s fun t => (t.qp n.val k.val).retries = x.retries + 1
            ∧ (t.qp n.val k.val).state = 3 ∧ t.out = s.out ++ [ask] ∧ t.mem = s.mem))
    ∧ (∀ (o : SendOp), s.unprotected n.val → x.ud = false → x.sends = [o] → (x.state ≠ 3 ∨ x.retry % 8 ≤ x.retries) →
        Gives (.roceRetryTimeout n k) s fun t => (t.qp n.val k.val).state = 4 ∧ (t.qp n.val k.val).sends = [] ∧ (t.txq o.q).cIdx = (s.txq o.q).cIdx + 1)
    ∧ (s.quiet → x.sends = [] → exec (.roceRetryTimeout n k) s = .next s)
    ∧ (s.quiet → ((s.port x.port).state = 2 → x.state = 3 → Gives (.cnpRx n k) s fun t => (t.qp n.val k.val) = { x with
          rate := let cur := if x.rate = 0 then s.startRate n.val x.port else x.rate; min cur (max 1000 (cur / 2)) } ∧ t.mem = s.mem)
        ∧ (x.state ≠ 3 → exec (.cnpRx n k) s = .next s)
        ∧ (x.rate ≠ 0 → Gives (.cnpRateIncrease n k) s fun t => (t.qp n.val k.val) = { x with
            rate := min (s.startRate n.val x.port) (x.rate + s.portRate x.port / 20) } ∧ t.mem = s.mem)
        ∧ (x.rate = 0 → exec (.cnpRateIncrease n k) s = .next s))



/-- 14 R375-R378: a port takes the frame in sequence, acknowledges it and sends it on where it is addressed to another position; a gap or a bad CRC is answered with
a NAK; a NAK or a timeout replays what is not acknowledged; a port of fewer than 4 lanes is dark and loses nothing; beacons make the members; the adit switches.
RING_FRAME_RX, RING_NAK_RX, RING_ACK_TIMEOUT, BEACON_RX, RING_LANE_FAIL, RING_LINK_UP, BEACON_TIMER, POSITION_ABSENT, ADIT_THROUGH, ADIT_OPEN and
ADIT_SWITCH_DONE each complete with the effect stated. -/
def Obligations.RingPortsSendAndReplay : Prop :=
  (∀ (h : HalfId) (s : State), let p := s.ringPort h.val
    s.quiet → s.ringUp h.val = true →
    (∀ cls seq dest ok b, (ok = false ∨ p.expect < seq) → exec (.ringFrameRx h cls seq dest ok b) s = .next (s.emit (.ringCtl h.val p.expect true)))
    ∧ (∀ cls seq dest b, seq < p.expect → b ≠ [] → exec (.ringFrameRx h cls seq dest true b) s = .next (s.emit (.ringCtl h.val p.expect false)))
    ∧ (∀ cls (dest : Fin 64) b, b ≠ [] → let r := s.updRingPort h.val (fun x => { x with expect := p.expect + 1 })
        if dest.val = s.ring.position then exec (.ringFrameRx h cls p.expect dest true b) s = .next (r.emit (.ringCtl h.val (p.expect + 1) false))
        else Gives (.ringFrameRx h cls p.expect dest true b) s fun t => (t.ringPort h.val).expect = p.expect + 1
          ∧ t.ringHas (1 - h.val) cls.val dest.val b ∧ t.mem = s.mem)
    ∧ (∀ cls seq dest, p.waiting = [] → seq ≤ p.expect → exec (.ringFrameRx h cls seq dest true []) s
        = .next (s.updRingPort h.val (fun x => { x with retry := x.retry.filter (fun f => decide (seq ≤ f.seq)) })))
    ∧ (∀ seq, p.waiting = [] → Gives (.ringNakRx h seq) s fun t => (t.ringPort h.val).retry = p.retry.filter (fun f => decide (seq ≤ f.seq))
        ∧ t.out = s.out ++ (p.retry.filter (fun f => decide (seq ≤ f.seq))).map (fun f => .ring h.val f.cls f.dest f.payload))
    ∧ (Gives (.ringAckTimeout h) s fun t => t.out = s.out ++ p.retry.map (fun f => .ring h.val f.cls f.dest f.payload)
        ∧ (t.ringPort h.val).retry = p.retry ∧ (t.ringPort h.val).waiting = p.waiting)
    ∧ (∀ pos : Fin 64, Gives (.beaconRx h pos) s fun t => t.ring.members.get 0 pos.val = 10 ∧ t.ring.absent = clearBit s.ring.absent pos.val
        ∧ (∀ k, k ≠ pos.val → t.ring.members.get 0 k = s.ring.members.get 0 k) ∧ t.mem = s.mem
        ∧ (pos.val ≠ s.ring.position → s.ringUp (1 - h.val) = true → t.ringHas (1 - h.val) 0 64 (leBytes 1 pos.val))))
  ∧ (∀ (h : HalfId) (s : State), let p := s.ringPort h.val
    s.quiet →
    (∀ lane : Fin 8, (popCount 8 (clearBit p.lanes lane.val) < 4 → p.link ≠ 0 → Tab.wf {} s.twins = true → Gives (.ringLaneFail h lane) s fun t =>
        (t.ringPort h.val) = { p with lanes := clearBit p.lanes lane.val, link := 0, dark := true }
        ∧ (∀ n, (s.twin n).phase = 2 → (t.twin n).phase = 0 ∧ ∀ r ∈ (s.twin n).frozen ++ (s.twin n).dirty, r ∈ (t.twin n).dirty) ∧ t.mem = s.mem)
      ∧ (4 ≤ popCount 8 (clearBit p.lanes lane.val) ∨ p.link = 0 →
        exec (.ringLaneFail h lane) s = .next (s.updRingPort h.val (fun x => { x with lanes := clearBit x.lanes lane.val }))))
    ∧ (∀ lanes : BitVec 8, 4 ≤ popCount 8 lanes.toNat → s.ring.adit = 1 → Gives (.ringLinkUp h lanes) s fun t =>
        (t.ringPort h.val).link = 2 ∧ (t.ringPort h.val).lanes = lanes.toNat ∧ (t.ringPort h.val).dark = false
        ∧ (∃ l, t.out = s.out ++ p.retry.map (fun f => .ring h.val f.cls f.dest f.payload) ++ l)
        ∧ ∀ f ∈ p.waiting, t.ringHas h.val f.cls f.dest f.payload))
  ∧ (∀ s : State, s.quiet → s.ring.adit = 1 → Tab.wf 0 s.ring.members = true →
    (Gives .beaconTimer s fun t => (∀ k, t.ring.members.get 0 k = s.ring.members.get 0 k - 1) ∧ t.mem = s.mem
      ∧ ∀ h, h < 2 → s.ringUp h = true → t.ringHas h 0 64 (leBytes 1 s.ring.position))
    ∧ (∀ pos : Fin 64, pos.val ≠ s.ring.position → Gives (.positionAbsent pos) s fun t =>
      t.ring.absent = setBit s.ring.absent pos.val ∧ t.ring.members.get 0 pos.val = 0 ∧ t.mem = s.mem
      ∧ (s.twinAt pos.val = true → ∀ n, n < 16 → ((s.twin n).state = 4 → (t.twin n).state = 5)
          ∧ ((s.twin n).state = 1 ∨ (s.twin n).state = 2 → s.ringUp 0 = true → (t.twin n).state = 3))))
  ∧ (∀ (p : Path) (v : BitVec 32) (s : State), s.carries p → isOper p = true → s.pwr.stage ≠ 0 →
    (s.ring.adit ≠ 0 → Tab.wf {} s.twins = true → Gives (.aditThrough p v) s fun t => t.ring.adit = 2 ∧ t.ring.aditTo = 0 ∧ (t.ringPort 0).link = 0
      ∧ (t.ringPort 1).link = 0 ∧ (∀ n, (s.twin n).phase = 2 → (t.twin n).phase = 0) ∧ t.mem = s.mem)
    ∧ (3 ≤ s.pwr.stage → s.ring.adit ≠ 1 → Gives (.aditOpen p v true) s fun t => t.ring.adit = 2 ∧ t.ring.aditTo = 1 ∧ (t.ringPort 0).link = 0
      ∧ (t.ringPort 1).link = 0 ∧ t.mem = s.mem)
    ∧ exec (.aditOpen p v false) s = .next s)
  ∧ (∀ s : State, s.quiet → s.ring.adit = 2 → Gives .aditSwitchDone s fun t => t.ring.adit = s.ring.aditTo ∧ t.mem = s.mem
      ∧ if s.ring.aditTo = 1 then (t.ringPort 0).link = 1 ∧ (t.ringPort 1).link = 1 else t.ring.members = [])

/-- 14 R381-R386: a group is keyed and retired; a posted descriptor is refused with a record, or begins; a frame of a collective is summed or copied as its step says;
the watchdog and an abort token end the collective, and the token goes on. -/
def Obligations.CollectivesRunInSteps : Prop :=
  (∀ (p : Path) (n : PartId) (v : Word64) (s : State), let g := bits v.toNat 11 8; let b := (s.ppaPeek n.val (bits (s.coll n.val).groupBase 39 10 * 1024 + g * 64) 64).1
    s.carries p → reaches p n.val = true → s.unprotected n.val →
    (s.ready n.val = true → s.sec.fwState ≠ 4 → (s.group n.val g).state ≠ 1 →
      (s.ppaPeek n.val (bits (s.coll n.val).groupBase 39 10 * 1024 + g * 64) 64).2.2 = St.ok → Gives (.groupActivate p n v) s fun t =>
        (t.coll n.val).cmdToken = bits v.toNat 63 56 ∧ (t.coll n.val).cmdGroup = g
        ∧ if (fld b 0 8).testBit s.ring.position then (t.coll n.val).cmdStatus = St.pending ∧ (t.group n.val g).state = 1 ∧ (t.group n.val g).members = fld b 0 8
            ∧ (t.group n.val g).parts = bslice b 0x20 32
          else (t.coll n.val).cmdStatus = St.denied ∧ (t.group n.val g) = s.group n.val g ∧ t.mem = s.mem)
    ∧ (Gives (.groupRetire p n v) s fun t => (t.coll n.val).cmdStatus = St.ok ∧ (t.group n.val g).state = 0
        ∧ (t.coll n.val).cmdToken = bits v.toNat 63 56))
  ∧ (∀ (n : PartId) (g : Fin 16) (ok : Bool) (s : State), s.unprotected n.val → (s.group n.val g.val).state = 1 →
      s.sec.keyWaits.contains (.group n.val g.val) = false → Gives (.groupKeyed n g ok) s fun t =>
        (t.group n.val g.val).state = (if ok then 2 else 0)
        ∧ ((s.coll n.val).cmdGroup = g.val → (t.coll n.val).cmdStatus = if ok then St.ok else St.denied))
  ∧ (∀ (p : Path) (n : PartId) (v : BitVec 32) (s : State), let c := { s.coll n.val with tail := bits v.toNat 11 0 }
      let b := (s.ppaPeek n.val (c.entry (c.head % c.len)) 64).1; let d := collDesc b; let g := s.group n.val d.group; let x := s.collGeo g d
      s.carries p → reaches p n.val = true → s.unprotected n.val → s.ready n.val = true → c.len ≠ 0 → c.tail % c.len = (c.head + 1) % c.len →
      (s.ppaPeek n.val (c.entry (c.head % c.len)) 64).2 = (false, St.ok) → d.group < 16 → g.running = none →
      (∀ st, s.collRefused n.val d = some st → Gives (.collectivePost p n v) s fun t =>
        (t.coll n.val).head = c.tail % c.len ∧ (t.group n.val d.group).seq = g.seq + 1 ∧ (t.group n.val d.group).running = none
        ∧ (t.coll n.val).recSeq = c.recSeq + 1
        ∧ ∀ h, h < 2 → t.ringHas h 0 64 (leBytes 1 n.val ++ leBytes 1 d.group ++ leBytes 4 g.seq ++ leBytes 1 s.ring.position))
      ∧ (s.collRefused n.val d = none → g.early = [] → g.ahead = [] → 1 < x.n → d.op ≠ 2 →
        (∀ aft, (s.readChunk n.val x d.src d.srcScale (x.elem aft (x.first aft))).2.2.2.2 = St.ok) → Gives (.collectivePost p n v) s fun t =>
        (t.coll n.val).head = c.tail % c.len ∧ (t.group n.val d.group).seq = g.seq + 1
        ∧ (t.group n.val d.group).running = some { seq := g.seq, desc := b } ∧ t.mem = s.mem))
  ∧ (∀ (n : PartId) (g : Fin 16) (aft : Bool) (step us : Nat) (data scales : List Byte) (dross : Bool) (c : Coll) (s : State),
      let d := collDesc c.desc; let x := s.collGeo (s.group n.val g.val) d; let i := x.recv aft step
      let after := fun (dr : Bool) => { c with foreGot := if aft then c.foreGot else step + 1, aftGot := if aft then step + 1 else c.aftGot, dross := c.dross || dr }
      s.unprotected n.val → s.ready n.val = true → (s.group n.val g.val).state = 2 → s.collIdle n.val → (s.group n.val g.val).running = some c →
      step = (if aft then c.aftGot else c.foreGot) → step < x.steps → data.length = collBytes d.fmt x.chunk →
      scales.length = (if isMx d.fmt then x.chunk / 32 else 0) →
      (x.reduces step = false → step + 1 < x.steps → (s.writeChunk n.val x (x.elem aft i) data scales dross).2 = St.ok →
        Gives (.collectiveFrame n g aft c.seq step data scales dross us) s fun t =>
          (t.group n.val g.val).running = some (after dross) ∧ t.mem = (s.writeChunk n.val x (x.elem aft i) data scales dross).1.mem)
      ∧ (x.reduces step = true → let r := s.readChunk n.val x d.src d.srcScale (x.elem aft i); let q := chunkAdd d.fmt x.chunk data scales r.2.1 r.2.2.1
          r.2.2.2.2 = St.ok →
          (step + 1 < x.n - 1 → Gives (.collectiveFrame n g aft c.seq step data scales dross us) s fun t =>
            (t.group n.val g.val).running = some (after (r.2.2.2.1 || dross)) ∧ t.mem = s.mem)
          ∧ (x.n - 1 ≤ step + 1 → step + 1 < x.steps → let w := r.1.writeChunk n.val x (if d.op = 3 then x.elem aft i else x.elem aft 0) q.1 q.2 (r.2.2.2.1 || dross)
              w.2 = St.ok → Gives (.collectiveFrame n g aft c.seq step data scales dross us) s fun t =>
                (t.group n.val g.val).running = some (after (r.2.2.2.1 || dross)) ∧ t.mem = w.1.mem)))
  ∧ (∀ (n : PartId) (g : Fin 16) (us : Nat) (s : State), let x := s.group n.val g.val
      let tok := fun (q o : Nat) => leBytes 1 n.val ++ leBytes 1 g.val ++ leBytes 4 q ++ leBytes 1 o
      s.unprotected n.val → s.collIdle n.val →
      (x.running = none → exec (.collectiveWatchdog n g us) s = .next s)
      ∧ (∀ c, x.running = some c → Gives (.collectiveWatchdog n g us) s fun t => (t.group n.val g.val).running = none ∧ (t.group n.val g.val).state = x.state
          ∧ (t.coll n.val).recSeq = (s.coll n.val).recSeq + 1 ∧ ∀ h, h < 2 → t.ringHas h 0 64 (tok c.seq s.ring.position))
      ∧ (∀ (q : Nat) (o : Fin 64) (aft : Bool), x.state ≠ 2 → o.val ≠ s.ring.position → Gives (.abortToken n g q o aft us) s fun t =>
          t.ringHas (if aft then 1 else 0) 0 64 (tok q o.val) ∧ t.colls = s.colls ∧ t.mem = s.mem)
      ∧ (∀ (q : Nat) (o : Fin 64) (aft : Bool), x.state = 2 →
        (o.val = s.ring.position → exec (.abortToken n g q o aft us) s = .next s)
        ∧ (o.val ≠ s.ring.position → (∀ c, x.running = some c → c.seq = q → Gives (.abortToken n g q o aft us) s fun t =>
              (t.group n.val g.val).running = none ∧ (t.group n.val g.val).state = 2 ∧ t.ringHas (if aft then 1 else 0) 0 64 (tok q o.val))
            ∧ (x.running = none → x.seq ≤ q → x.early = [] → Gives (.abortToken n g q o aft us) s fun t =>
              (t.group n.val g.val).early = [(q, o.val)] ∧ t.ringHas (if aft then 1 else 0) 0 64 (tok q o.val) ∧ t.mem = s.mem))))

/-- 14 R388-R392; 15 R399: twins: START, CHECKPOINT and STOP; the boundary freezes the map and its end advances CHECKPOINT; the standby places what the stream and the
log bring, and takes over on an authenticated token; two dark ports fence. -/
def Obligations.TwinsMirrorAndTakeOver : Prop :=
  (∀ (p : Path) (n : PartId) (v : Word64) (s : State), let x := s.twin n.val; let k := bits v.toNat 63 56
    s.carries p → reaches p n.val = true → s.stillPart n.val →
    (∀ ok, s.sec.fwState ≠ 4 →
      if s.ready n.val && (s.slice n.val).mirror && s.sec.keys.pair && ok && x.state == 0 then Gives (.twinStart p n v ok) s fun t =>
        (t.twin n.val).state = 1 ∧ (t.twin n.val).phase = 1 ∧ (t.twin n.val).allDirty = true ∧ (t.twin n.val).cmdStatus = St.ok
        ∧ (t.twin n.val).token = k ∧ (t.twin n.val).checkpoint = 0 ∧ t.mem = s.mem
      else exec (.twinStart p n v ok) s = .next (s.updTwin n.val (fun y => { y with token := k, cmdStatus := St.denied })))
    ∧ (exec (.twinCheckpoint p n v) s = .next (s.updTwin n.val (fun y =>
        if x.phase != 0 || s.privRuns n.val then { y with token := k, cmdStatus := St.busy }
        else if x.state != 2 then { y with token := k, cmdStatus := St.denied }
        else { y with token := k, cmdStatus := St.pending, phase := 1 })))
    ∧ (Gives (.twinStop p n v) s fun t => (t.twin n.val).state = 0 ∧ (t.twin n.val).phase = 0 ∧ (t.twin n.val).dirty = []
        ∧ (t.twin n.val).cmdStatus = St.ok ∧ (t.twin n.val).token = k ∧ t.mem = s.mem))
  ∧ (∀ (n : PartId) (s : State), let x := s.twin n.val
      let map := if x.allDirty then List.range (s.regions n.val) else (List.range (s.regions n.val)).filter (fun r => x.dirty.contains r)
      s.stillPart n.val →
      (x.phase = 1 → s.ready n.val = true → s.atBoundary n.val = true → Gives (.checkpointBoundary n) s fun t => t.mem = s.mem
        ∧ if !x.allDirty && decide (Config.twinStage n.val * 1048576 < map.length * 65536) then
            (t.twin n.val).phase = 0 ∧ (t.twin n.val).cmdStatus = St.noMemory ∧ (t.twin n.val).dirty = x.dirty
          else (t.twin n.val).phase = 2 ∧ (t.twin n.val).frozen = (if x.allDirty then [] else map) ∧ (t.twin n.val).allFrozen = x.allDirty
            ∧ (t.twin n.val).dirty = [] ∧ (t.twin n.val).allDirty = false ∧ (t.twin n.val).boundLog = x.logTail)
      ∧ (x.phase = 2 → Gives (.checkpointComplete n) s fun t => (t.twin n.val).phase = 0 ∧ (t.twin n.val).cmdStatus = St.ok
          ∧ (t.twin n.val).checkpoint = (x.checkpoint + 1) % 2 ^ 32 ∧ (t.twin n.val).relLog = x.boundLog ∧ (t.twin n.val).frozen = []
          ∧ (t.twin n.val).state = (if x.state = 1 then 2 else x.state) ∧ t.mem = s.mem)
      ∧ (x.phase = 0 → exec (.checkpointBoundary n) s = .next s ∧ exec (.checkpointComplete n) s = .next s))
  ∧ (∀ (n : PartId) (s : State), let x := s.twin n.val
      s.unprotected n.val →
      (x.state = 4 → ∀ r (data : List Byte) (dr : List Nat) k i, r < s.regions n.val →
        (x.checkpoint = 0 → exec (.twinStreamRx n r data dr false k i) s = .next (s.placeRegion n.val r data dr))
        ∧ (x.checkpoint ≠ 0 → exec (.twinStreamRx n r data dr false k i) s = .next (s.stageRegion n.val r data dr))
        ∧ (x.staged = [] → x.checkpoint = 0 → Gives (.twinStreamRx n r data dr true k i) s fun t =>
            (t.twin n.val).checkpoint = k % 2 ^ 32 ∧ (t.twin n.val).boundLog = i ∧ t.mem = (s.placeRegion n.val r data dr).mem))
      ∧ (x.state = 0 → s.mayStandBy n.val = true → ∀ r (data : List Byte) (dr : List Nat) k i, r < s.regions n.val →
          Gives (.twinStreamRx n r data dr false k i) s fun t => (t.twin n.val).state = 4 ∧ (t.twin n.val).checkpoint = 0)
      ∧ (∀ (p : Path) (v : BitVec 32), let m := x.logLen; let used := (x.logTail + m - x.relLog % m) % m
          let want := (v.toNat % 65536 % m + m - x.relLog % m) % m
          s.carries p → reaches p n.val = true →
          (m = 0 ∨ (x.state ≠ 1 ∧ x.state ≠ 2) → exec (.twinLogAppend p n v) s = .next (s.updTwin n.val (fun y => { y with logTail := v.toNat % 65536 })))
          ∧ (m ≠ 0 → (x.state = 1 ∨ x.state = 2) → (want < used → exec (.twinLogAppend p n v) s = .next s)
          ∧ (used ≤ want → Gives (.twinLogAppend p n v) s fun t => (t.twin n.val).logTail = v.toNat % 65536 % m ∧ t.mem = s.mem)))
      ∧ (∀ ppa (data : List Byte) idx, x.state = 4 → s.inPpa n.val ppa data.length = true → (s.ppaStore n.val ppa data false).2 = St.ok →
          Gives (.twinLogRx n ppa data idx) s fun t => t.mem = (s.ppaStore n.val ppa data false).1.mem ∧ (t.twin n.val).logTail = idx % 65536)
      ∧ (∀ idx, let m := x.logLen
          (x.state = 1 ∨ x.state = 2) → m ≠ 0 → exec (.twinLogAckRx n idx) s =
            if (idx % m + m - x.logAck % m) % m ≤ (x.logTail + m - x.logAck % m) % m then .next (s.updTwin n.val (fun y => { y with logAck := idx % m })) else .next s)
      ∧ (x.state = 4 → exec (.downToken n false) s = .next s
          ∧ Gives (.downToken n true) s fun t => (t.twin n.val).state = 5 ∧ (t.twin n.val).staged = [] ∧ t.mem = s.mem)
      ∧ (x.state = 5 → s.ready n.val = true → Gives (.takeoverDone n) s fun t => (t.twin n.val).state = 3
          ∧ ∀ k, k < 128 → (t.code n.val).running.testBit (k / 8) = true →
            (t.core k).inReset = false ∧ (t.core k).a0 = 1 ∧ (t.core k).a1 = x.checkpoint ∧ (t.core k).a2 = x.boundLog))
  ∧ (∀ s : State, s.quiet → (s.ringPort 0).dark = true → (s.ringPort 1).dark = true → s.codes = [] → s.ctxs = [] → s.queues = [] → s.schs = [] →
      s.pat.cand = none → s.flights = [] → s.noCellWaits →
      Gives .ringDarkFence s fun t => ∀ n, n < 16 → (s.slice n).mirror = true → (s.twin n).state ≠ 0 → (s.twin n).state ≠ 6 → (s.part n).state = .ready →
        (t.twin n).state = 6 ∧ (t.twin n).status = St.timeout ∧ (t.part n).state = .lost ∧ (t.part n).status = St.timeout)
  ∧ (∀ s : State, s.quiet → s.sec.fuses.twinActive = true → 3 ≤ s.pwr.stage → s.ring.adit = 1 →
      exec (.pairKeyExchange false) s = .next s
      ∧ (s.sec.drbgHealthy = true → Gives (.pairKeyExchange true) s fun t => t.sec.keys.pair = true ∧ t.sec.keys.pairGen = s.sec.keys.pairGen + 1 ∧ t.mem = s.mem)
      ∧ (s.sec.drbgHealthy = false → exec (.pairKeyExchange true) s = .next { s with sec := { s.sec with keyWaits := s.sec.keyWaits ++ [.pair] } }))


/-- 15 R397, R398, R407-R409, R394, R420: a signed request is checked in order: form, binding, signer and signature, condition, room in the log; it then writes the
records of its kind, which take effect when they are complete (the idle step, log entry 11). The wipes of a transition end in its final record; a request that waits for a key gets it or ends BUSY. -/
def Obligations.SignedRequestsAreChecked : Prop :=
  (∀ (p : Path) (token : Byte) (len : Nat) (kind : Nat) (c : Instr) (s : State), let b := Tab.getList 0 s.sec.reqBuf 0 (min (len % 2048) 1024)
    (kind, c) ∈ [(1, .lcsTransition p token len), (2, .provisionOpkey p token len), (3, .revokeOpkey p token len), (4, .bindTwin p token len),
      (5, .unbindTwin p token len), (6, .integrationRecord p token len), (7, .raiseAlarmFloor p token len), (8, .setConfOnly p token len),
      (9, .commitFwSvn p token len), (10, .restoreOpkey p token len)] →
    s.carries p → isOper p = true → s.sec.reqBuf.get 0 6 = BitVec.ofNat 8 kind → s.sec.fuses.pending = false → s.reqRuns = false → s.pwr.pwrFail = false →
    s.sec.closed.contains 0x115 = false → s.sec.fwState ≠ 4 → s.effClass 0x115 255 = .note →
    Gives c s fun t => t.sec.reqToken = token.toNat ∧
      (if formOk b (len % 2048) = false then t.sec.reqStatus = St.cfgMismatch ∧ t.sec.reqPhase = 3 ∧ t.sec.fuses = s.sec.fuses
       else if s.bindsOk b = false ∨ s.sigOk b = false then t.sec.reqStatus = St.denied ∧ t.sec.reqPhase = 3 ∧ t.sec.fuses = s.sec.fuses
       else if s.reqCond b ≠ St.ok then t.sec.reqStatus = s.reqCond b ∧ t.sec.reqPhase = 3 ∧ t.sec.fuses = s.sec.fuses
       else if s.logRoom = false then t.sec.reqStatus = St.busy ∧ t.sec.reqPhase = 3 ∧ t.sec.fuses = s.sec.fuses
       else s.requestDid t b))
  ∧ (∀ (j : FuseJob) (s : State), s.quiet → s.pending = [] → s.sec.fuseJob = some j → ∃ t, step s = .next t ∧ s.fusesDid t j)
  ∧ (∀ s : State, let f := s.sec.fuses
    s.quiet →
    (f.pending = true → s.pwr.stage = 0 → s.pwr.powered = true → s.pwr.pwrFail = false → Gives .lcsWipeDone s fun t =>
      t.sec.fuses.lcs = (Lcs.ofCode f.intent).getD f.lcs ∧ t.sec.fuses.pending = false ∧ t.sec.fuses.lcsRecords = f.lcsRecords + 1 ∧ t.pwr.lcsHold = false
      ∧ (f.intent = 5 → t.sec.fuses.uds = false ∧ t.sec.fuses.integration = none ∧ t.pat.slot0 = none ∧ t.pat.slot1 = none ∧ t.pwr.fail = 6)
      ∧ (f.intent = 4 → t.pat.slot0 = none ∧ t.pat.slot1 = none ∧ t.sec.sessions = [])
      ∧ (s.sec.reqPhase = 2 → t.sec.reqStatus = St.ok ∧ t.sec.reqPhase = 3))
    ∧ (f.pending = false → exec .lcsWipeDone s = .next s)
    ∧ (s.sec.keyWaits = [] → exec .keyWaitTimeout s = .next s)
    ∧ (∀ w rest, s.sec.keyWaits = w :: rest → (∀ n, (s.code n).images = []) → Gives .keyWaitTimeout s fun t => t.sec.keyWaits = rest ∧ match w with
        | .request => t.sec.reqStatus = St.busy ∧ t.sec.reqPhase = 3
        | .rotate n => (t.keys n).status = St.busy
        | .group n g => (t.group n g).state = 0
        | .pair => t.sec.keys = s.sec.keys
        | .session fn => t.out = s.out ++ [.spdm fn 5 false []])
    ∧ (exec (.entropyHealthChange false) s = .next (s.updSec (fun c => { c with drbgHealthy := false })))
    ∧ (s.pat.parts = [] → (∀ n, (s.code n).images = []) → (s.sec.keyWaits = [] ∨ s.sec.keyWaits = [.pair]) → Gives (.entropyHealthChange true) s fun t =>
        t.sec.drbgHealthy = true ∧ t.sec.keyWaits = [] ∧ (s.sec.keyWaits = [.pair] → t.sec.keys.pair = true)))

/-- 15 R400-R404; 13 R355, R356: an image is staged if it qualifies, activated or discarded; CONF is set under its conditions; partition debug opens when both sides
want it; a test access instruction acts, or the die is a bypass. -/
def Obligations.FirmwareDebugAndTestAccess : Prop :=
  (∀ (version : BitVec 32) (svn : Fin 129) (signed : Bool) (m : BitVec 384) (s : State),
      let i : FwImage := { version := version.toNat, svn := svn.val, manifest := m, signed := signed }
      s.quiet → s.pwr.powered = true → s.pwr.pwrFail = false → s.sec.fwState ≠ 4 → s.logRoom = true → s.sec.fuses.pending = false → Gives (.fwTransferEnd version svn signed m) s fun t =>
        t.sec.fwRunning = s.sec.fwRunning ∧ if s.imageQualifies i then t.sec.fwStaged = some i ∧ t.sec.fwStandby = some i ∧ t.sec.fwState = 3
          else t.sec.fwStaged = none ∧ t.sec.fwStandby = none ∧ t.sec.fwState = 0)
  ∧ (∀ (p : Path) (v : BitVec 32) (s : State), let k := bits v.toNat 31 24
      s.carries p → isOper p = true →
      exec (.fwActivate p v) s = .next (
        if s.sec.fwState = 4 then s.fwOut k St.busy else if s.sec.fwStaged = none then s.fwOut k St.denied
        else if (1 ≤ s.pat.phase ∧ s.pat.phase ≤ 3) ∨ s.reqRuns = true ∨ s.logRoom = false then s.fwOut k St.busy
        else (s.fwOut k St.pending).updSec (fun c => { c with fwState := 4 }))
      ∧ exec (.fwDiscard p v) s = .next (
        if s.sec.fwState = 4 then s.fwOut k St.busy else if s.sec.fwStaged = none then s.fwOut k St.denied
        else (s.fwOut k St.ok).updSec (fun c => { c with fwStaged := none, fwStandby := none, fwState := 0 })))
  ∧ (∀ s : State, s.quiet →
      (s.sec.fwState ≠ 4 → exec .fwActivated s = .next s ∧ exec .fwActivateTimeout s = .next s)
      ∧ (s.sec.fwState = 4 → (∀ i, s.sec.fwStaged = some i → Gives .fwActivated s fun t => t.sec.fwRunning = i ∧ t.sec.fwStandby = some s.sec.fwRunning
            ∧ t.sec.fwBank = 1 - s.sec.fwBank ∧ t.sec.fwStaged = none ∧ t.sec.fwState = 0 ∧ t.sec.fwCmdStatus = St.ok ∧ t.sec.keys.aliasGen = s.sec.keys.aliasGen + 1)
          ∧ Gives .fwActivateTimeout s fun t => t.sec.fwRunning = s.sec.fwRunning ∧ t.sec.fwBank = s.sec.fwBank ∧ t.sec.fwStaged = none
            ∧ t.sec.fwCmdStatus = St.denied))
  ∧ (∀ (p : Path) (n : PartId) (s : State), s.carries p → reaches p n.val = true →
      (s.confOk n.val = false → exec (.confSet p n) s = .next s)
      ∧ (s.confOk n.val = true → Gives (.confSet p n) s fun t => (t.part n.val).conf = true ∧ (t.part n.val).debugOpen = false ∧ t.mem = s.mem)
      ∧ (Gives (.debugAuth p n false) s fun t => (t.part n.val).debugAuth = false ∧ (t.part n.val).debugOpen = false ∧ t.mem = s.mem)
      ∧ (Gives (.debugAuth p n true) s fun t => (t.part n.val).debugAuth = true ∧ t.mem = s.mem
          ∧ (s.sec.fuses.lcs = .deployed → (s.part n.val).conf = false → s.sec.debugGrant.testBit n.val = true → s.logRoom = true →
              (t.part n.val).debugOpen = true ∧ ((s.part n.val).debugOpen = false → (t.part n.val).debugged = true))))
  ∧ (∀ (p : Path) (v : BitVec 32) (s : State), s.carries p → isOper p = true → Gives (.debugGrant p v) s fun t => t.sec.debugGrant = v.toNat % 65536 ∧ t.mem = s.mem
      ∧ ∀ n, n < 16 → (v.toNat.testBit n = false → (t.part n).debugOpen = false)
        ∧ (v.toNat.testBit n = true → s.sec.fuses.lcs = .deployed → (s.part n).conf = false → (s.part n).debugAuth = true → (s.part n).debugged = true →
            (t.part n).debugOpen = true))
  ∧ (∀ (die : TapDie) (i : TapInstr) (s : State), s.quiet →
      (s.tapBypassed die = true → exec (.testAccessInstruction die i) s = .next (s.emit (.tap false)))
      ∧ (s.tapBypassed die = false → (i ≠ .other → exec (.testAccessInstruction die i) s = .next (s.emit (.tap true)))
        ∧ (i = .other → s.sec.closed.contains 0x116 = false → (s.tapOpen die = true → exec (.testAccessInstruction die i) s = .next (s.emit (.tap true)))
          ∧ (s.tapOpen die = false → s.effClass 0x116 255 = .note → exec (.testAccessInstruction die i) s = .next ((s.emit (.tap false)).countNote 0x116 255)))))

/-- 15 R395, R396, R405, R406: a hallmark takes a snapshot of the measurement blocks over a nonce and is written to its area; SPDM requests are answered, sessions open,
are established and end; no identity key, or an activation in progress, makes the answer an error. -/
def Obligations.AttestationAnswers : Prop :=
  (∀ (p : Path) (n : PartId) (v : Word64) (s : State), let k := bits v.toNat 63 56; let a := bits v.toNat 39 6 * 64; let q := s.ppaPeek n.val a 32
      s.carries p → reaches p n.val = true →
      ((s.part n.val).hmRun ≠ none → exec (.hallmarkRequest p n v) s = .next (s.hallmarkOut n.val k 0 St.busy))
      ∧ ((s.part n.val).hmRun = none →
        (s.hallmarkAt n.val ≠ St.ok → exec (.hallmarkRequest p n v) s = .next (s.hallmarkOut n.val k 0 (s.hallmarkAt n.val)))
        ∧ (s.hallmarkAt n.val = St.ok → q.2 = (false, St.ok) → let r := s.ppaReport n.val a 32
            exec (.hallmarkRequest p n v) s = .next ((r.hallmarkOut n.val k 0 St.pending).updPart n.val (fun x =>
              { x with hmRun := some { token := k, area := a, nonce := q.1, blocks := r.moduleBlocks ++ r.partBlocks n.val } })))
        ∧ (s.hallmarkAt n.val = St.ok → q.2 = (true, St.ok) → exec (.hallmarkRequest p n v) s = .next ((s.ppaReport n.val a 32).hallmarkOut n.val k 0 St.dross))))
  ∧ (∀ (n : PartId) (len : Nat) (s : State), s.unprotected n.val →
      ((s.part n.val).hmRun = none → exec (.hallmarkDone n len) s = .next s)
      ∧ (∀ r, (s.part n.val).hmRun = some r → (s.part n.val).state = .building →
          exec (.hallmarkDone n len) s = .next (s.updPart n.val (fun x => { x with hmRun := none })))
      ∧ (∀ r, (s.part n.val).hmRun = some r → (s.part n.val).state ≠ .building → let s0 := s.tick.updPart n.val (fun x => { x with hmRun := none })
          let w := s0.hubWrite n.val r.area (bslice (Config.spdm 4 n.val (r.nonce ++ r.blocks ++ s.aliasSigned (r.nonce ++ r.blocks))) 0 (min len 8192))
          exec (.hallmarkDone n len) s = .next (w.1.hallmarkOut n.val r.token (if w.2 = St.ok then min len 8192 else 0) w.2)))
  ∧ (∀ (fn : Fin 17) (nonce : BitVec 256) (ok : Bool) (s : State), let f := fn.val; let x := s.sec.sessions.get {} f
      s.quiet → s.spdmLive f = true →
      (∀ code c, (code, c) ∈ [(0, .spdmDiscovery fn), (1, .getDigests fn), (2, .getCertificate fn), (3, .challenge fn nonce), (4, .getMeasurements fn nonce),
          (5, .keyExchange fn), (6, .finish fn ok), (7, .endSession fn), (8, .keyProg fn)] →
        (s.sec.fwState = 4 ∨ (code ≠ 0 ∧ s.sec.keys.alias_ = false)) → exec c s = .next (s.emit (.spdm f code false [])))
      ∧ (s.sec.fwState ≠ 4 → exec (.spdmDiscovery fn) s = .next (s.emit (.spdm f 0 true (Config.spdm 0 f [])))
        ∧ (s.sec.keys.alias_ = true →
          exec (.getDigests fn) s = .next (s.emit (.spdm f 1 true (Config.spdm 1 f (leBytes 8 s.sec.keys.aliasGen))))
          ∧ exec (.getCertificate fn) s = .next (s.emit (.spdm f 2 true (Config.spdm 2 f (leBytes 8 s.sec.keys.aliasGen))))
          ∧ exec (.challenge fn nonce) s = .next (s.spdmSigned f 3 (leBytes 32 nonce.toNat))
          ∧ exec (.getMeasurements fn nonce) s = .next (if f < 16 ∧ s.hallmarkAt f ≠ St.ok then s.emit (.spdm f 4 false [])
              else s.spdmSigned f 4 (leBytes 32 nonce.toNat ++ s.moduleBlocks ++ if f < 16 then s.partBlocks f else []))
          ∧ (s.sec.drbgHealthy = true → Gives (.keyExchange fn) s fun t => (t.sec.sessions.get {} f) = { open_ := true }
              ∧ ∃ b, t.out = s.out ++ [.spdm f 5 true b])
          ∧ (s.sec.drbgHealthy = false → exec (.keyExchange fn) s = .next (s.updSec (fun c => { c with keyWaits := c.keyWaits ++ [.session f] })))
          ∧ (ok = true → x.open_ = true → Gives (.finish fn ok) s fun t => (t.sec.sessions.get {} f) = { x with established := true })
          ∧ (ok = false ∨ x.open_ = false → exec (.finish fn ok) s = .next (s.emit (.spdm f 6 false [])))
          ∧ (x.open_ = true → Gives (.endSession fn) s fun t => (t.sec.sessions.get {} f) = { x with open_ := false, established := false })
          ∧ (x.open_ = false → exec (.endSession fn) s = .next (s.emit (.spdm f 7 false [])))
          ∧ (s.inSession f = true → Gives (.keyProg fn) s fun t => (t.sec.sessions.get {} f) = { x with ideKeys := true })
          ∧ (s.inSession f = false → exec (.keyProg fn) s = .next (s.emit (.spdm f 8 false []))))))

/-- 15 R411, R413-R416; 02 R64, R65: a canary quenches the module once; Notes are summed into the log; a tenant's raise only sets bits; the log is read in windows and
acknowledged by the operator. -/
def Obligations.AlarmsQuenchAndTheLogIsRead : Prop :=
  (∀ (src rail : Nat) (h : HalfId) (c : Instr) (s : State), s.quiet →
      (src, c) ∈ [(1, .railCanary ⟨h, rail⟩), (2, .clockCanary), (3, .tempCanary), (4, .tamper), (5, .glitch), (6, .rngHealth)] →
      (src = 1 → rail < 9 ∧ railOf h.val rail = true ∧ s.railOn rail = true) → (src = 6 → s.sec.drbgHealthy = false) → s.pwr.powered = true → s.sec.canaries.contains src = false →
      s.sec.fuseJob = none → s.sec.fuses.pending = false → Gives c s fun t => s.wiped t 3 ∧ t.sec.canaries = s.sec.canaries ++ [src] ∧ t.sec.seenQuench = true ∧ t.sec.lastSource = src
        ∧ t.sec.lastScope = 255 ∧ t.sec.alarmLow = true)
  ∧ (∀ (h : HalfId) (rail : Nat) (s : State), s.quiet →
      ((9 ≤ rail ∨ railOf h.val rail = false ∨ s.railOn rail = false) → exec (.railCanary ⟨h, rail⟩) s = .next s)
      ∧ (rail < 9 → railOf h.val rail = true → s.railOn rail = true → s.pwr.powered = false ∨ s.sec.canaries.contains 1 = true →
          exec (.railCanary ⟨h, rail⟩) s = .next { s with pwr := { s.pwr with railsOut := (h.val * 32 + rail) :: s.pwr.railsOut.erase (h.val * 32 + rail) } }))
  ∧ (∀ (src : Nat) (c : Instr) (s : State), s.quiet →
      (src, c) ∈ [(2, .clockCanary), (3, .tempCanary), (4, .tamper), (5, .glitch), (6, .rngHealth)] →
      s.pwr.powered = false ∨ s.sec.canaries.contains src = true → exec c s = .next s)
  ∧ (∀ (source scope n : Nat) (s : State), s.quiet → s.sec.notesNew.get 0 (source * 256 + scope) = n →
      (n = 0 → exec (.noteSummary source scope) s = .next s)
      ∧ (n ≠ 0 → s.pwr.powered = true → s.pwr.pwrFail = false → s.sec.log.next - s.sec.log.acked < 65536 → Gives (.noteSummary source scope) s fun t =>
          t.sec.notesNew.get 0 (source * 256 + scope) = 0 ∧ t.sec.log.next = s.sec.log.next + 1
          ∧ t.sec.log.recs.getLast?.map (fun r => (r.event, r.scope, r.detail)) = some (0x20, scope, bslice (alarmDetail source 0 n) 0 16)))
  ∧ (∀ (p : Path) (n : PartId) (v : Word64) (s : State), let new := (s.part n.val).raise ||| (v.toNat &&& 0x1F003F)
      s.carries p → reaches p n.val = true →
      (new = (s.part n.val).raise → exec (.tenantRaise p n v) s = .next s)
      ∧ (new ≠ (s.part n.val).raise → Gives (.tenantRaise p n v) s fun t => (t.part n.val).raise = new ∧ t.mem = s.mem
          ∧ (s.sec.log.next - s.sec.log.acked < 65536 → t.sec.log.next = s.sec.log.next + 1)))
  ∧ (∀ (p : Path) (v : Word64) (s : State), let r := readerOf p; let l := s.sec.log; let x := s.reader r; let k := bits v.toNat 63 56; let m := bits v.toNat 14 8
      let oldest := l.next - l.recs.length
      s.carries p → bits v.toNat 55 15 = 0 → bits v.toNat 7 2 = 0 →
      (m = 0 ∨ 64 < m ∨ l.next ≤ x.seq ∨ x.seq < oldest → exec (.logRead p v) s = .next (s.logOut r k 0 St.denied))
      ∧ (1 ≤ m → m ≤ 64 → oldest ≤ x.seq → x.seq < l.next → let recs := (l.recs.drop (x.seq - oldest)).take m
          Gives (.logRead p v) s fun t => (t.reader r).delivered = recs.length ∧ (t.reader r).token = k ∧ (t.reader r).status = St.ok
            ∧ (t.reader r).win = (recs.map (fun y => y.seenBy r)).flatten ∧ t.sec.log.recs = l.recs ∧ t.mem = s.mem)
      ∧ (r = 16 → l.next ≤ x.seq → exec (.logAck p v) s = .next (s.logOut 16 k 0 St.denied))
      ∧ (r = 16 → x.seq < l.next → Gives (.logAck p v) s fun t => max l.acked (x.seq + 1) = t.sec.log.acked ∧ (t.reader 16).status = St.ok ∧ t.mem = s.mem))
  ∧ (∀ s : State, exec .alarmOutPulseEnd s = .next (s.updSec (fun c => { c with alarmPulse := false })))


/-- 16 R422-R427, R438: feeds come and go and B carries the load only while A is not good; the loss of both fails the power, whose end is a brown-out; the limiter
and the die temperature move DUTY; PWR_CAP keeps 1,000-2,400 W. -/
def Obligations.FeedsAndPowerLimit : Prop :=
  (∀ (f : Feed) (v : Fin 1024) (s : State), s.quiet →
      (v.val < 395 ∨ 610 < v.val → exec (.feedGood f v) s = .next s)
      ∧ (395 ≤ v.val → v.val ≤ 610 → Gives (.feedGood f v) s fun t => t.pwr.feed f = .good ∧ t.pwr.powered = true
          ∧ t.pwr.activeB = !(t.pwr.feedA == .good) ∧ t.mem = s.mem
          ∧ (s.pwr.powered = true → t.pwr.pwrFail = false ∧ t.pwr.boot = s.pwr.boot)
          ∧ (s.pwr.powered = false → t.pwr.boot = (s.pwr.boot + 1) % 2 ^ 32))
      ∧ (∀ c, (c = .feedLeavesGood f v ∧ s.pwr.feed f = .good ∧ (v.val < 385 ∨ 620 < v.val)) ∨ (c = .feedOver f v ∧ 620 < v.val) → Gives c s fun t =>
          t.pwr.feed f = (if 620 < v.val then .overVolt else if v.val < 100 then .absent else .under) ∧ t.mem = s.mem
          ∧ (s.pwr.feed f = .good → f = .a → s.pwr.feedB = .good → t.pwr.activeB = true ∧ t.pwr.switches = min (s.pwr.switches + 1) 65535))
      ∧ (s.pwr.feed f ≠ .good ∨ (385 ≤ v.val ∧ v.val ≤ 620) → exec (.feedLeavesGood f v) s = .next s)
      ∧ (v.val ≤ 620 → exec (.feedOver f v) s = .next s))
  ∧ (∀ s : State, s.quiet →
      (s.pwr.powered = true → s.pwr.pwrFail = false → s.pwr.feedA ≠ .good → s.pwr.feedB ≠ .good → s.sec.fuses.pending = false →
        (s.sec.fuseJob = none → Gives .pwrFail s fun t => s.wiped t 5 ∧ t.pwr.pwrFail = true ∧ t.sec.log.recs = s.sec.log.recs)
        ∧ (∀ j, s.sec.fuseJob = some j → Gives .pwrFail s fun t => t.sec.fuses = s.sec.fuses.spend j.kind ∧ t.sec.fuseJob = none ∧ t.pwr.pwrFail = true))
      ∧ (s.pwr.feedA = .good ∨ s.pwr.feedB = .good → exec .pwrFail s = .next s)
      ∧ (s.pwr.powered = true → s.sec.fuseJob = none → s.sec.fuses.pending = false → Gives .brownOut s fun t => t.pwr.powered = false ∧ t.pwr.stage = 0 ∧ t.mem = [] ∧ t.pat.parts = [] ∧ t.sec.canaries = []
          ∧ t.sec.fuses = s.sec.fuses ∧ t.sec.log.recs = s.sec.log.recs ∧ t.pwr.boot = s.pwr.boot ∧ t.pwr.cause = if s.pwr.pwrFail then 5 else 6)
      ∧ (s.pwr.powered = false → exec .brownOut s = .next s))
  ∧ (∀ (watts : Nat) (s : State), let w := min watts 65535; let p := s.pwr
      s.quiet → p.powered = true → p.pithead = true → Gives (.powerLimitTick watts) s fun t => t.mem = s.mem ∧ t.pwr.watts = (w :: p.watts).take 1000
        ∧ t.pwr.duty = (if p.cap < w then max 8 (p.duty - 1) else if w * 100 < p.cap * 95 ∧ p.thermal = false then min 16 (p.duty + 1) else p.duty)
        ∧ t.pwr.gatedMs = min (p.gatedMs + if p.duty < 16 then 1 else 0) (2 ^ 32 - 1))
  ∧ (∀ (h : HalfId) (temp : Int) (s : State), s.quiet → s.pwr.powered = true → s.pwr.pithead = true → s.sec.fuseJob = none →
      (∀ b, (temp < 115 ∨ b = false) → Gives (.dieTempSample h temp b) s fun t => t.pwr.temp h.val = temp ∧ t.mem = s.mem
        ∧ t.pwr.thermal = (decide (105 ≤ temp) || decide (105 ≤ s.pwr.temp (1 - h.val))) ∧ t.pwr.duty = (if t.pwr.thermal then 8 else s.pwr.duty))
      ∧ (115 ≤ temp → Gives (.dieTempSample h temp true) s fun t => s.wiped t 7))
  ∧ (∀ (p : Path) (v : BitVec 32) (s : State), s.carries p → isOper p = true → exec (.pwrCapWrite p v) s
      = .next { s with pwr := { s.pwr with cap := max 1000 (min 2400 (v.toNat % 4096)) } })

/-- 16 R432-R435; 15 R402, R409, R415; 01 R14: the staged start and the resets: pithead, stages 1 to 3, full function; a failed stage stays with its FAIL; a reset of the
module wipes it, one of a partition builds it again, and a release starts anew. -/
def Obligations.StartGoesByStagesAndResetsWipe : Prop :=
  (∀ s : State, s.quiet →
      (s.pwr.powered = true → s.pwr.pithead = false → s.pwr.pwrFail = false → Gives .pithead s fun t => t.pwr.pithead = true ∧ t.pwr.lcsHold = s.sec.fuses.pending
        ∧ t.pwr.fail = (if s.sec.fuses.lcs = .scrapped then 6 else if s.sec.canaries = [] then 0 else 5) ∧ t.pwr.stage = s.pwr.stage ∧ t.mem = s.mem)
      ∧ (∀ ok l0 l1, s.mayStart = false → exec (.stage1 ok l0 l1) s = .next s)
      ∧ (s.mayStart = true → (∀ l0 l1, exec (.stage1 false l0 l1) s = .next (s.stay 4)) ∧ exec (.stageBoundMissed 1) s = .next (s.stay 7)
        ∧ (s.bootImage = none → ∀ l0 l1, exec (.stage1 true l0 l1) s = .next (s.stay 1))
        ∧ (∀ r l0 l1, s.bootImage = some r → Gives (.stage1 true l0 l1) s fun t => t.sec.keys.alias_ = true ∧ t.sec.keys.aliasGen = r.sec.keys.aliasGen + 1
            ∧ t.sec.fwRunning = r.sec.fwRunning ∧ t.fab.bridgeUp = true
            ∧ if l0.toNat / 256 = l1.toNat / 256 then t.pwr.stage = 1 ∧ t.pwr.rootLock = true ∧ ∀ k, k < 12 → (s.site k).fitted ≠ 0 → (t.site k).state = 4
              else t.pwr.stage = 0 ∧ t.pwr.fail = 2))
      ∧ (s.pwr.stage = 1 → s.noCellWaits → (∀ k, k < 12 → s.siteSettled k = true) → (Gives .stage2 s fun t => t.pwr.stage = 2
            ∧ (∀ k, k < 16 → (t.stack k).state = 2) ∧ ((∀ k, k < 16 → ∀ r ∈ (s.stack k).repairs, r.suspect = false) → t.mem = s.mem))
          ∧ Gives (.stageBoundMissed 2) s fun t => t.pwr.stage = 2 ∧ (∀ k, k < 16 → (t.stack k).state = 2 ∨ (t.stack k).state = 4)
            ∧ ((∀ k, k < 16 → ∀ r ∈ (s.stack k).repairs, r.suspect = false) → t.mem = s.mem))
      ∧ (s.pwr.stage ≠ 1 → exec .stage2 s = .next s ∧ exec (.stageBoundMissed 2) s = .next s)
      ∧ exec (.stageBoundMissed 0) s = .next s ∧ exec (.stageBoundMissed 3) s = .next s
      ∧ (let slot := if s.pat.selected then s.pat.slot1 else s.pat.slot0
        s.pwr.stage = 2 → (slot = none ∨ s.pat.storedEpoch = 0) → (∀ n, (s.part n).state = .undefined ∨ (s.part n).state = .lost) → Gives .stage3 s fun t =>
          t.pwr.stage = 3 ∧ ∀ n, n < 16 → (t.part n).state = .undefined)
      ∧ (∀ b, s.pwr.stage = 2 → (if s.pat.selected then s.pat.slot1 else s.pat.slot0) = some b → s.pat.storedEpoch ≠ 0 → (∀ n, s.part n = {}) → s.bare →
          s.pat.running = none → s.pat.cand = none → Gives .stage3 s fun t => t.pwr.stage = 3)
      ∧ (s.pwr.stage = 3 → Gives .fullFunction s fun t => t.mem = s.mem
          ∧ (∀ q, q < 16 → (s.port q).state = 1 → (s.port q).ieee = true → (t.port q).state = 2 ∧ (t.port q).rate = 2)
          ∧ (s.ring.adit = 1 → ∀ h, h < 2 → (s.ringPort h).link = 1 → (t.ringPort h).link = 2 ∧ (t.ringPort h).dark = false)))
  ∧ (∀ s : State, s.quiet → s.pwr.powered = true → s.sec.fuseJob = none →
      (Gives .resetPin s fun t => s.wiped t 1 ∧ t.pwr.resetLow = true ∧ t.sec.alarmLow = false)
      ∧ (∀ p v, s.carries p → isOper p = true → Gives (.moduleReset p v) s fun t => s.wiped t 2 ∧ t.sec.alarmLow = false)
      ∧ (∀ h : HalfId, s.mayStart = false → Gives (.halfFailure h) s fun t => s.wiped t 4 ∧ t.fab.halfFailed.get false h.val = true ∧ t.sec.alarmLow = true)
      ∧ (s.pwr.inReset = true → s.pwr.pwrFail = false → Gives .resetRelease s fun t => t.pwr.inReset = false ∧ t.pwr.resetLow = false
          ∧ t.pwr.boot = (s.pwr.boot + 1) % 2 ^ 32 ∧ t.mem = s.mem)
      ∧ (s.pwr.inReset = false → exec .resetRelease s = .next s)
      ∧ (∀ (p : Path) (v : Word64), let n := bits v.toNat 19 16; let k := bits v.toNat 63 56
          s.carries p → isOper p = true → s.noCellWaits →
          ((s.part n).state = .undefined → exec (.partitionReset p v) s = .next (s.resetOut k St.denied))
          ∧ ((s.part n).state ≠ .undefined → (s.pat.running = none ∨ (s.part n).state = .building ∨ s.pwr.rstPart ≠ none) →
              exec (.partitionReset p v) s = .next (s.resetOut k St.busy))
          ∧ (∀ r, s.bare → s.pat.running = some r → s.pat.cand = none → (r.slice n).defined = true → (s.part n).state = .ready → (s.pat.phase = 0 ∨ s.pat.phase = 4) →
              s.pwr.rstPart = none → s.logRoom = true → Gives (.partitionReset p v) s fun t => (t.part n).state = .building ∧ (t.part n).byReset = true
                ∧ t.pwr.rstPart = some n ∧ t.pwr.rstStatus = St.pending ∧ t.pwr.rstToken = k)))

/-- 17 R441, R444, R448-R450, R452: an error of each class is counted, recorded, marked as dross, or ends what it touches; an assay test is started in its order, and a
transient or a lasting fault leads to what the rules give. -/
def Obligations.ErrorsByClassAndAssay : Prop :=
  (∀ (h : HalfId) (str : RasStruct) (index : BitVec 32) (addr scope : Nat) (st : StatusCode) (s : State), let k := h.val
      s.quiet →
      (exec (.eccError h .corrected str index addr scope st) s = .next (s.corrected k (rasCode str) 1))
      ∧ (str ≠ .agent → (s.rasOf k).log = [] → Gives (.eccError h .contained str index addr scope st) s fun t =>
          (∃ e, (t.rasOf k).log = [e] ∧ e.cls = 2 ∧ e.str = rasCode str ∧ e.scope = scope ∧ e.status = st ∧ e.index = index.toNat ∧ e.addr = rasAddr str addr)
          ∧ (str = .hbmRow → addr ≠ 0 → s.lineCleared (addr / 64) = false → (t.lines.get {} (addr / 64)).dross = true) ∧ t.mem = s.mem)
      ∧ (str = .scratchBank → scope < 16 → index.toNat / 256 < 192 → (s.cell (index.toNat / 256)).state ≠ 0 → s.calm scope (s.cell (index.toNat / 256)).ctx →
          s.noCellWaits → Gives (.eccError h .context str index addr scope st) s fun t => (t.ctx scope (s.cell (index.toNat / 256)).ctx).state = .lost)
      ∧ (str ≠ .siteLink → scope < 16 → (s.part scope).state = .ready → s.bare → s.pat.cand = none →
          Gives (.eccError h .partition str index addr scope st) s fun t => (t.part scope).state = .lost ∧ (t.part scope).status = st)
      ∧ (str ≠ .half → s.sec.fuseJob = none → Gives (.eccError h .module str index addr scope st) s fun t => s.wiped t 4 ∧ t.fab.halfFailed.get false k = true)
      ∧ (let n := (s.rasOf k).correctedNew.get 0 (rasCode str)
        (n = 0 → exec (.correctedSummary h str) s = .next s)
        ∧ (n ≠ 0 → Gives (.correctedSummary h str) s fun t => (t.rasOf k).correctedNew.get 0 (rasCode str) = 0 ∧ t.mem = s.mem
            ∧ (t.rasOf k).corrected = (s.rasOf k).corrected ∧ (t.rasOf k).next = (s.rasOf k).next + 1)))
  ∧ (∀ (h : HalfId) (s : State), let k := h.val
      s.quiet → s.noCellWaits →
      ((s.rasOf k).nextTest = none → exec (.assayTestStart h) s = .next s)
      ∧ (∀ e, (s.rasOf k).nextTest = some e → e.str = 3 → (s.rasOf k).transients.get [] (transientKey e) = [] → Gives (.assayTestStart h) s fun t =>
          (t.rasOf k).testing = (s.rasOf k).testing ++ [e] ∧ (t.rasOf k).queue = (s.rasOf k).queue.erase e ∧ t.mem = s.mem)
      ∧ (∀ str index, (s.rasOf k).testing = [] → ∀ lasting, exec (.assayTestDone h str index lasting) s = .next s)
      ∧ (∀ (e : Assay) (str : RasStruct) (index : BitVec 32), (s.rasOf k).testing = [e] → e.str = rasCode str → e.index = index.toNat →
          (str = .fabricLink → (Gives (.assayTestDone h str index false) s fun t => (t.rasOf k).testing = [] ∧ t.mem = s.mem
              ∧ (t.rasOf k).transient = min ((s.rasOf k).transient + 1) 65535 ∧ (t.rasOf k).next = (s.rasOf k).next + 1
              ∧ t.portCode k (e.index / 256 % 256) (e.index % 8) = 0)
            ∧ Gives (.assayTestDone h str index true) s fun t => (t.rasOf k).testing = [e] ∧ t.mem = s.mem
              ∧ (t.rasOf k).lasting = min ((s.rasOf k).lasting + 1) 65535 ∧ t.portCode k (e.index / 256 % 256) (e.index % 8) = 2)
          ∧ (str = .slcSet → s.coh.slc = [] → (∀ n ∈ allParts, s.claims n (fun x => (x.ways >>> (k * 32)).testBit (e.detail % 32)) = false) →
              Gives (.assayTestDone h str index true) s fun t => (t.coh.waysOff.get 0 k).testBit (e.detail % 32) = true ∧ (t.rasOf k).next = (s.rasOf k).next + 1 ∧ t.mem = s.mem)
          ∧ (str = .scratchBank → let i := e.index / 256 % 192
              s.ownerCell i = none → ((List.range 16).filter (fun p => (s.cell (i / 16 * 16 + p)).retired)).length < 3 → s.flights = [] →
              Gives (.assayTestDone h str index true) s fun t => (t.cell i).retired = true ∧ (t.rasOf k).next = (s.rasOf k).next + 1)))


/-- The state after reset: no command waits, memory is canonical and lists nothing, nothing is powered, no partition is defined (02 R33), every cell, channel, queue,
context and twin is at its reset state, the adit is THROUGH, PWR_CAP reads 2,400 W and DUTY 16 (14 R378, R392; 16 R436, R438). -/
def Obligations.ResetState : Prop :=
  let s := State.reset
  s.pending = [] ∧ s.safe ∧ s.mem = [] ∧ s.regs = [] ∧ s.pwr.stage = 0 ∧ s.pwr.powered = false ∧ s.pwr.cap = 2400 ∧ s.pwr.duty = 16 ∧ s.ring.adit = 0
    ∧ s.out = [] ∧ (∀ a, s.byteAt a = 0) ∧ (∀ n, (s.part n).state = .undefined) ∧ (∀ i, (s.cell i).state = 0 ∧ (s.cell i).retired = false)
    ∧ (∀ i, (s.chan i).state = 0 ∧ (s.chan i).en = false) ∧ (∀ n q, (s.queue n q).state = 0 ∧ (s.queue n q).en = false)
    ∧ (∀ n c, (s.ctx n c).state = .idle) ∧ (∀ n, (s.twin n).state = 0) ∧ (∀ k, (s.site k).state = 0) ∧ (∀ k, (s.stack k).state = 0)

/-- Every step keeps HBM in its canonical form: addresses strictly rising, no listed byte that an unlisted address reads as (log entry 5); so equal contents of HBM
are equal data. -/
def Obligations.MemoryStaysCanonical : Prop := ∀ s t : State, Memory.wf s.mem = true → step s = .next t → Memory.wf t.mem = true
end

