-- ==== Sys2Proof/Laws/Exec.lean ====
section
/-!
SUPPORT. The meaning of each command, one lemma per constructor: no proof unfolds the dispatch.
-/

namespace Sys2Proof.Machine

theorem exec_registerWrite (p : Path) (addr len value : Nat) (s : State) : exec (.registerWrite p addr len value) s = execRegisterWrite p addr len value s := rfl
theorem exec_patApply (p : Path) (value : BitVec 32) (s : State) : exec (.patApply p value) s = execPatApply p value s := rfl
theorem exec_buildDrainDone (n : PartId) (s : State) : exec (.buildDrainDone n) s = execBuildDrainDone n s := rfl
theorem exec_zeroFillComplete (n : PartId) (s : State) : exec (.zeroFillComplete n) s = execZeroFillComplete n s := rfl
theorem exec_buildFlushDone (n : PartId) (s : State) : exec (.buildFlushDone n) s = execBuildFlushDone n s := rfl
theorem exec_partitionBuilt (n : PartId) (s : State) : exec (.partitionBuilt n) s = execPartitionBuilt n s := rfl
theorem exec_patternStoreWritten (s : State) : exec (.patternStoreWritten) s = execPatternStoreWritten s := rfl
theorem exec_patCommit (p : Path) (value : BitVec 32) (s : State) : exec (.patCommit p value) s = execPatCommit p value s := rfl
theorem exec_commitComplete (scope : Fin 17) (s : State) : exec (.commitComplete scope) s = execCommitComplete scope s := rfl
theorem exec_messageIngress (m : Presented) (s : State) : exec (.messageIngress m) s = execMessageIngress m s := rfl
theorem exec_messageArrival (k cycles : Nat) (s : State) : exec (.messageArrival k cycles) s = execMessageArrival k cycles s := rfl
theorem exec_grantArrival (k : Nat) (s : State) : exec (.grantArrival k) s = execGrantArrival k s := rfl
theorem exec_tallyReturnArrival (k : Nat) (s : State) : exec (.tallyReturnArrival k) s = execTallyReturnArrival k s := rfl
theorem exec_tallyWaitTimeout (cell : CellId) (s : State) : exec (.tallyWaitTimeout cell) s = execTallyWaitTimeout cell s := rfl
theorem exec_nop (cell : CellId) (s : State) : exec (.nop cell) s = execNop cell s := rfl
theorem exec_mma (cell : CellId) (f : MmaF) (s : State) : exec (.mma cell f) s = execMma cell f s := rfl
theorem exec_zac (cell : CellId) (td : Fin 4) (int32 : Bool) (s : State) : exec (.zac cell td int32) s = execZac cell td int32 s := rfl
theorem exec_lda (cell : CellId) (td : Fin 4) (f : Fin 4) (ra : Fin 32) (s : State) : exec (.lda cell td f ra) s = execLda cell td f ra s := rfl
theorem exec_sta (cell : CellId) (ts : Fin 4) (f : Fin 4) (ra : Fin 32) (s : State) : exec (.sta cell ts f ra) s = execSta cell ts f ra s := rfl
theorem exec_qnt (cell : CellId) (f : QntF) (s : State) : exec (.qnt cell f) s = execQnt cell f s := rfl
theorem exec_qnts (cell : CellId) (f : QntF) (rc : Fin 32) (s : State) : exec (.qnts cell f rc) s = execQnts cell f rc s := rfl
theorem exec_eadd (cell : CellId) (td ts : Fin 4) (s : State) : exec (.eadd cell td ts) s = execEadd cell td ts s := rfl
theorem exec_emul (cell : CellId) (td ts : Fin 4) (s : State) : exec (.emul cell td ts) s = execEmul cell td ts s := rfl
theorem exec_emax (cell : CellId) (td ts : Fin 4) (s : State) : exec (.emax cell td ts) s = execEmax cell td ts s := rfl
theorem exec_ecpy (cell : CellId) (td ts : Fin 4) (s : State) : exec (.ecpy cell td ts) s = execEcpy cell td ts s := rfl
theorem exec_escl (cell : CellId) (td : Fin 4) (ra : Fin 32) (axis : Bool) (s : State) : exec (.escl cell td ra axis) s = execEscl cell td ra axis s := rfl
theorem exec_ebias (cell : CellId) (td : Fin 4) (ra : Fin 32) (axis : Bool) (s : State) : exec (.ebias cell td ra axis) s = execEbias cell td ra axis s := rfl
theorem exec_eact (cell : CellId) (td : Fin 4) (ra : Fin 32) (s : State) : exec (.eact cell td ra) s = execEact cell td ra s := rfl
theorem exec_erow (cell : CellId) (ts : Fin 4) (ra : Fin 32) (axis : Bool) (fn : BitVec 2) (s : State) : exec (.erow cell ts ra axis fn) s = execErow cell ts ra axis fn s := rfl
theorem exec_ecvt (cell : CellId) (td : Fin 4) (ra : Fin 32) (axis : Bool) (dir : Bool) (s : State) : exec (.ecvt cell td ra axis dir) s = execEcvt cell td ra axis dir s := rfl
theorem exec_snd (cell : CellId) (f : SndF) (s : State) : exec (.snd cell f) s = execSnd cell f s := rfl
theorem exec_rcv (cell : CellId) (ra : Fin 32) (mailbox : Fin 16) (nb : Bool) (rd : Fin 32) (s : State) : exec (.rcv cell ra mailbox nb rd) s = execRcv cell ra mailbox nb rd s := rfl
theorem exec_grant (cell : CellId) (rb : Fin 32) (mailbox : Fin 16) (n : Fin 64) (s : State) : exec (.grant cell rb mailbox n) s = execGrant cell rb mailbox n s := rfl
theorem exec_rtn (cell : CellId) (rb : Fin 32) (mailbox : Fin 16) (n : Fin 64) (s : State) : exec (.rtn cell rb mailbox n) s = execRtn cell rb mailbox n s := rfl
theorem exec_mbcfg (cell : CellId) (rb : Fin 32) (mailbox : Fin 16) (standing urgent : Bool) (s : State) : exec (.mbcfg cell rb mailbox standing urgent) s = execMbcfg cell rb mailbox standing urgent s := rfl
theorem exec_movr (cell : CellId) (f : MovF) (s : State) : exec (.movr cell f) s = execMovr cell f s := rfl
theorem exec_movw (cell : CellId) (f : MovF) (s : State) : exec (.movw cell f) s = execMovw cell f s := rfl
theorem exec_movr2 (cell : CellId) (f : MovF) (rd re : Fin 32) (s : State) : exec (.movr2 cell f rd re) s = execMovr2 cell f rd re s := rfl
theorem exec_movw2 (cell : CellId) (f : MovF) (rd re : Fin 32) (s : State) : exec (.movw2 cell f rd re) s = execMovw2 cell f rd re s := rfl
theorem exec_moverAccessReturn (cell : CellId) (k : Nat) (err : Option StatusCode) (s : State) : exec (.moverAccessReturn cell k err) s = execMoverAccessReturn cell k err s := rfl
theorem exec_mwait (cell : CellId) (qid : Fin 4) (n : Fin 64) (ra : Fin 32) (s : State) : exec (.mwait cell qid n ra) s = execMwait cell qid n ra s := rfl
theorem exec_wait (cell : CellId) (rb : Fin 32) (mailbox : Fin 16) (n : Fin 64) (s : State) : exec (.wait cell rb mailbox n) s = execWait cell rb mailbox n s := rfl
theorem exec_bar (cell : CellId) (mask : BitVec 16) (bid : Fin 16) (s : State) : exec (.bar cell mask bid) s = execBar cell mask bid s := rfl
theorem exec_fence (cell : CellId) (s : State) : exec (.fence cell) s = execFence cell s := rfl
theorem exec_yld (cell : CellId) (lrt : BitVec 16) (s : State) : exec (.yld cell lrt) s = execYld cell lrt s := rfl
theorem exec_cellSaveDone (cell : CellId) (s : State) : exec (.cellSaveDone cell) s = execCellSaveDone cell s := rfl
theorem exec_cellRestoreDone (cell : CellId) (s : State) : exec (.cellRestoreDone cell) s = execCellRestoreDone cell s := rfl
theorem exec_li (cell : CellId) (rd : Fin 32) (imm : Word32) (s : State) : exec (.li cell rd imm) s = execLi cell rd imm s := rfl
theorem exec_addi (cell : CellId) (rd ra : Fin 32) (imm : Word32) (s : State) : exec (.addi cell rd ra imm) s = execAddi cell rd ra imm s := rfl
theorem exec_andi (cell : CellId) (rd ra : Fin 32) (imm : Word32) (s : State) : exec (.andi cell rd ra imm) s = execAndi cell rd ra imm s := rfl
theorem exec_add (cell : CellId) (rd ra rb : Fin 32) (s : State) : exec (.add cell rd ra rb) s = execAdd cell rd ra rb s := rfl
theorem exec_sub (cell : CellId) (rd ra rb : Fin 32) (s : State) : exec (.sub cell rd ra rb) s = execSub cell rd ra rb s := rfl
theorem exec_mul (cell : CellId) (rd ra rb : Fin 32) (s : State) : exec (.mul cell rd ra rb) s = execMul cell rd ra rb s := rfl
theorem exec_shli (cell : CellId) (rd ra : Fin 32) (sh : Fin 32) (s : State) : exec (.shli cell rd ra sh) s = execShli cell rd ra sh s := rfl
theorem exec_shri (cell : CellId) (rd ra : Fin 32) (sh : Fin 32) (s : State) : exec (.shri cell rd ra sh) s = execShri cell rd ra sh s := rfl
theorem exec_loop (cell : CellId) (ra : Fin 32) (end_ : BitVec 16) (s : State) : exec (.loop cell ra end_) s = execLoop cell ra end_ s := rfl
theorem exec_br (cell : CellId) (off : Word32) (s : State) : exec (.br cell off) s = execBr cell off s := rfl
theorem exec_brc (cell : CellId) (ra rb : Fin 32) (cond : BitVec 3) (off : Word32) (s : State) : exec (.brc cell ra rb cond off) s = execBrc cell ra rb cond off s := rfl
theorem exec_halt (cell : CellId) (status : StatusCode) (s : State) : exec (.halt cell status) s = execHalt cell status s := rfl
theorem exec_reservedOpcode (cell : CellId) (word : Word64) (s : State) : exec (.reservedOpcode cell word) s = execReservedOpcode cell word s := rfl
theorem exec_fjSnd (core : CoreId) (addr desc : Word64) (s : State) : exec (.fjSnd core addr desc) s = execFjSnd core addr desc s := rfl
theorem exec_fjSndnb (core : CoreId) (addr desc : Word64) (s : State) : exec (.fjSndnb core addr desc) s = execFjSndnb core addr desc s := rfl
theorem exec_fjRcv (core : CoreId) (addr rs2 : Word64) (s : State) : exec (.fjRcv core addr rs2) s = execFjRcv core addr rs2 s := rfl
theorem exec_fjRcvnb (core : CoreId) (addr rs2 : Word64) (s : State) : exec (.fjRcvnb core addr rs2) s = execFjRcvnb core addr rs2 s := rfl
theorem exec_fjGrant (core : CoreId) (rs1 rs2 : Word64) (s : State) : exec (.fjGrant core rs1 rs2) s = execFjGrant core rs1 rs2 s := rfl
theorem exec_fjRtn (core : CoreId) (rs1 rs2 : Word64) (s : State) : exec (.fjRtn core rs1 rs2) s = execFjRtn core rs1 rs2 s := rfl
theorem exec_fjMbcfg (core : CoreId) (rs1 rs2 : Word64) (s : State) : exec (.fjMbcfg core rs1 rs2) s = execFjMbcfg core rs1 rs2 s := rfl
theorem exec_fjWait (core : CoreId) (rs1 rs2 : Word64) (s : State) : exec (.fjWait core rs1 rs2) s = execFjWait core rs1 rs2 s := rfl
theorem exec_fjTask (core : CoreId) (addr : Word64) (s : State) : exec (.fjTask core addr) s = execFjTask core addr s := rfl
theorem exec_fjEvwait (core : CoreId) (rs1 : Word64) (s : State) : exec (.fjEvwait core rs1) s = execFjEvwait core rs1 s := rfl
theorem exec_fjWaitTimeout (core : CoreId) (s : State) : exec (.fjWaitTimeout core) s = execFjWaitTimeout core s := rfl
theorem exec_illegalInstruction (core : CoreId) (word : BitVec 32) (s : State) : exec (.illegalInstruction core word) s = execIllegalInstruction core word s := rfl
theorem exec_coreInterrupt (core : CoreId) (s : State) : exec (.coreInterrupt core) s = execCoreInterrupt core s := rfl
theorem exec_coreMemoryAccess (core : CoreId) (addr : Nat) (a : CoreAccess) (s : State) : exec (.coreMemoryAccess core addr a) s = execCoreMemoryAccess core addr a s := rfl
theorem exec_fjevtClear (core : CoreId) (mask : Word64) (s : State) : exec (.fjevtClear core mask) s = execFjevtClear core mask s := rfl
theorem exec_allocJoin (core : CoreId) (rs1 rs2 : Word64) (s : State) : exec (.allocJoin core rs1 rs2) s = execAllocJoin core rs1 rs2 s := rfl
theorem exec_allocGrowth (core : CoreId) (rs1 rs2 : Word64) (s : State) : exec (.allocGrowth core rs1 rs2) s = execAllocGrowth core rs1 rs2 s := rfl
theorem exec_free (core : CoreId) (rs1 rs2 : Word64) (s : State) : exec (.free core rs1 rs2) s = execFree core rs1 rs2 s := rfl
theorem exec_stepBegin (core : CoreId) (rs1 rs2 : Word64) (s : State) : exec (.stepBegin core rs1 rs2) s = execStepBegin core rs1 rs2 s := rfl
theorem exec_stepEnd (core : CoreId) (rs1 rs2 : Word64) (s : State) : exec (.stepEnd core rs1 rs2) s = execStepEnd core rs1 rs2 s := rfl
theorem exec_reserveSet (core : CoreId) (rs1 rs2 : Word64) (s : State) : exec (.reserveSet core rs1 rs2) s = execReserveSet core rs1 rs2 s := rfl
theorem exec_codeLoad (p : Path) (n : PartId) (value : Word64) (s : State) : exec (.codeLoad p n value) s = execCodeLoad p n value s := rfl
theorem exec_codeStop (p : Path) (n : PartId) (value : Word64) (s : State) : exec (.codeStop p n value) s = execCodeStop p n value s := rfl
theorem exec_clustersStopped (n : PartId) (s : State) : exec (.clustersStopped n) s = execClustersStopped n s := rfl
theorem exec_codeImageChecked (n : PartId) (s : State) : exec (.codeImageChecked n) s = execCodeImageChecked n s := rfl
theorem exec_frameReceived (port : PortId) (f : Frame) (s : State) : exec (.frameReceived port f) s = execFrameReceived port f s := rfl
theorem exec_rxqEventTimer (q : EthQId) (s : State) : exec (.rxqEventTimer q) s = execRxqEventTimer q s := rfl
theorem exec_rxqEnable (p : Path) (q : EthQId) (value : Word64) (s : State) : exec (.rxqEnable p q value) s = execRxqEnable p q value s := rfl
theorem exec_rxqDisable (p : Path) (q : EthQId) (value : Word64) (s : State) : exec (.rxqDisable p q value) s = execRxqDisable p q value s := rfl
theorem exec_rxqPost (p : Path) (q : EthQId) (cqhead : Bool) (value : BitVec 32) (s : State) : exec (.rxqPost p q cqhead value) s = execRxqPost p q cqhead value s := rfl
theorem exec_gangStart (site : SiteId) (n : PartId) (s : State) : exec (.gangStart site n) s = execGangStart site n s := rfl
theorem exec_sliceEnd (site : SiteId) (n : PartId) (s : State) : exec (.sliceEnd site n) s = execSliceEnd site n s := rfl
theorem exec_contextResident (site : SiteId) (n : PartId) (overrun : Nat) (s : State) : exec (.contextResident site n overrun) s = execContextResident site n overrun s := rfl
theorem exec_stretchTimeout (cell : CellId) (s : State) : exec (.stretchTimeout cell) s = execStretchTimeout cell s := rfl
theorem exec_saveRestoreFailure (cell : CellId) (status : StatusCode) (s : State) : exec (.saveRestoreFailure cell status) s = execSaveRestoreFailure cell status s := rfl
theorem exec_runlistWrite (p : Path) (n : PartId) (value : Word64) (s : State) : exec (.runlistWrite p n value) s = execRunlistWrite p n value s := rfl
theorem exec_schResume (p : Path) (n : PartId) (value : Word64) (s : State) : exec (.schResume p n value) s = execSchResume p n value s := rfl
theorem exec_schLose (p : Path) (n : PartId) (value : Word64) (s : State) : exec (.schLose p n value) s = execSchLose p n value s := rfl
theorem exec_schReset (p : Path) (n : PartId) (value : Word64) (s : State) : exec (.schReset p n value) s = execSchReset p n value s := rfl
theorem exec_contextAbortDone (n : PartId) (c : CtxId) (s : State) : exec (.contextAbortDone n c) s = execContextAbortDone n c s := rfl
theorem exec_regulatorWindowStart (h : HalfId) (i : Fin 64) (n : PartId) (stack : Bool) (s : State) : exec (.regulatorWindowStart h i n stack) s = execRegulatorWindowStart h i n stack s := rfl
theorem exec_requestTimeout (id : Nat) (s : State) : exec (.requestTimeout id) s = execRequestTimeout id s := rfl
theorem exec_unexpectedResponse (h : HalfId) (s : State) : exec (.unexpectedResponse h) s = execUnexpectedResponse h s := rfl
theorem exec_linkRetry (h : HalfId) (router : Fin 64) (port : Fin 7) (repair : Bool) (s : State) : exec (.linkRetry h router port repair) s = execLinkRetry h router port repair s := rfl
theorem exec_laneRepairDone (h : HalfId) (router : Fin 64) (port : Fin 7) (ok : Bool) (s : State) : exec (.laneRepairDone h router port ok) s = execLaneRepairDone h router port ok s := rfl
theorem exec_sinkTimeout (site : SiteId) (s : State) : exec (.sinkTimeout site) s = execSinkTimeout site s := rfl
theorem exec_rds (h : HalfId) (agent : Fin 15) (line : Nat) (hint : Hint) (tally : Bool) (s : State) : exec (.rds h agent line hint tally) s = execRds h agent line hint tally s := rfl
theorem exec_rdu (h : HalfId) (agent : Fin 15) (line : Nat) (hint : Hint) (tally : Bool) (s : State) : exec (.rdu h agent line hint tally) s = execRdu h agent line hint tally s := rfl
theorem exec_upgrade (h : HalfId) (agent : Fin 15) (line : Nat) (tally : Bool) (s : State) : exec (.upgrade h agent line tally) s = execUpgrade h agent line tally s := rfl
theorem exec_writeBack (h : HalfId) (agent : Fin 15) (line : Nat) (s : State) : exec (.writeBack h agent line) s = execWriteBack h agent line s := rfl
theorem exec_evictionNotice (h : HalfId) (agent : Fin 15) (line : Nat) (s : State) : exec (.evictionNotice h agent line) s = execEvictionNotice h agent line s := rfl
theorem exec_homeRead (h : HalfId) (master : Fin 64) (line : Nat) (hint : Hint) (tally : Bool) (s : State) : exec (.homeRead h master line hint tally) s = execHomeRead h master line hint tally s := rfl
theorem exec_homeFullWrite (h : HalfId) (master : Fin 64) (line : Nat) (data : List Byte) (dross : Bool) (hint : Hint) (tally : Bool) (s : State) : exec (.homeFullWrite h master line data dross hint tally) s = execHomeFullWrite h master line data dross hint tally s := rfl
theorem exec_homePartialWrite (h : HalfId) (master : Fin 64) (line : Nat) (mask : BitVec 64) (data : List Byte) (hint : Hint) (tally : Bool) (s : State) : exec (.homePartialWrite h master line mask data hint tally) s = execHomePartialWrite h master line mask data hint tally s := rfl
theorem exec_snpShared (h : HalfId) (agent : Fin 15) (line : Nat) (s : State) : exec (.snpShared h agent line) s = execSnpShared h agent line s := rfl
theorem exec_snpUnique (h : HalfId) (agent : Fin 15) (line : Nat) (s : State) : exec (.snpUnique h agent line) s = execSnpUnique h agent line s := rfl
theorem exec_snpInv (h : HalfId) (agent : Fin 15) (line : Nat) (s : State) : exec (.snpInv h agent line) s = execSnpInv h agent line s := rfl
theorem exec_snpCur (h : HalfId) (agent : Fin 15) (line : Nat) (s : State) : exec (.snpCur h agent line) s = execSnpCur h agent line s := rfl
theorem exec_snoopAnswer (h : HalfId) (agent : Fin 15) (line : Nat) (s : State) : exec (.snoopAnswer h agent line) s = execSnoopAnswer h agent line s := rfl
theorem exec_writeBackGrant (h : HalfId) (agent : Fin 15) (line : Nat) (s : State) : exec (.writeBackGrant h agent line) s = execWriteBackGrant h agent line s := rfl
theorem exec_stale (h : HalfId) (agent : Fin 15) (line : Nat) (s : State) : exec (.stale h agent line) s = execStale h agent line s := rfl
theorem exec_retry (h : HalfId) (agent : Fin 79) (line : Nat) (s : State) : exec (.retry h agent line) s = execRetry h agent line s := rfl
theorem exec_retryGrant (h : HalfId) (agent : Fin 79) (line : Nat) (s : State) : exec (.retryGrant h agent line) s = execRetryGrant h agent line s := rfl
theorem exec_completionAck (h : HalfId) (agent : Fin 15) (line : Nat) (s : State) : exec (.completionAck h agent line) s = execCompletionAck h agent line s := rfl
theorem exec_snoopTimeout (h : HalfId) (agent : Fin 15) (line : Nat) (s : State) : exec (.snoopTimeout h agent line) s = execSnoopTimeout h agent line s := rfl
theorem exec_reclaimWalkDone (h : HalfId) (s : State) : exec (.reclaimWalkDone h) s = execReclaimWalkDone h s := rfl
theorem exec_hmcRead (line : Nat) (s : State) : exec (.hmcRead line) s = execHmcRead line s := rfl
theorem exec_hmcFullWrite (line : Nat) (data : List Byte) (dross : Bool) (s : State) : exec (.hmcFullWrite line data dross) s = execHmcFullWrite line data dross s := rfl
theorem exec_hmcPartialWrite (line : Nat) (mask : BitVec 64) (data : List Byte) (s : State) : exec (.hmcPartialWrite line mask data) s = execHmcPartialWrite line mask data s := rfl
theorem exec_regionZeroed (pch : PchId) (region : Nat) (s : State) : exec (.regionZeroed pch region) s = execRegionZeroed pch region s := rfl
theorem exec_zeroFillPassStep (pch : PchId) (s : State) : exec (.zeroFillPassStep pch) s = execZeroFillPassStep pch s := rfl
theorem exec_wcbAgeTimeout (pch : PchId) (s : State) : exec (.wcbAgeTimeout pch) s = execWcbAgeTimeout pch s := rfl
theorem exec_stackTempSample (stack : StackId) (temp : Nat) (s : State) : exec (.stackTempSample stack temp) s = execStackTempSample stack temp s := rfl
theorem exec_stackOnline (p : Path) (stack : StackId) (value : BitVec 32) (cool : Bool) (s : State) : exec (.stackOnline p stack value cool) s = execStackOnline p stack value cool s := rfl
theorem exec_stackOnlineDone (stack : StackId) (s : State) : exec (.stackOnlineDone stack) s = execStackOnlineDone stack s := rfl
theorem exec_rotate (p : Path) (n : PartId) (value : Word64) (s : State) : exec (.rotate p n value) s = execRotate p n value s := rfl
theorem exec_keySweepStep (n : PartId) (pch : PchId) (s : State) : exec (.keySweepStep n pch) s = execKeySweepStep n pch s := rfl
theorem exec_dmaChEnable (p : Path) (ch : ChanId) (value : Word64) (s : State) : exec (.dmaChEnable p ch value) s = execDmaChEnable p ch value s := rfl
theorem exec_dmaChDisable (p : Path) (ch : ChanId) (value : Word64) (s : State) : exec (.dmaChDisable p ch value) s = execDmaChDisable p ch value s := rfl
theorem exec_dmaChPause (p : Path) (ch : ChanId) (value : Word64) (s : State) : exec (.dmaChPause p ch value) s = execDmaChPause p ch value s := rfl
theorem exec_dmaChUnpause (p : Path) (ch : ChanId) (value : Word64) (s : State) : exec (.dmaChUnpause p ch value) s = execDmaChUnpause p ch value s := rfl
theorem exec_dmaPauseDrained (ch : ChanId) (s : State) : exec (.dmaPauseDrained ch) s = execDmaPauseDrained ch s := rfl
theorem exec_dmaDoorbell (p : Path) (ch : ChanId) (value : BitVec 32) (s : State) : exec (.dmaDoorbell p ch value) s = execDmaDoorbell p ch value s := rfl
theorem exec_descriptorFetch (ch : ChanId) (host : List Byte) (s : State) : exec (.descriptorFetch ch host) s = execDescriptorFetch ch host s := rfl
theorem exec_burstAck (ch : ChanId) (k latency : Nat) (s : State) : exec (.burstAck ch k latency) s = execBurstAck ch k latency s := rfl
theorem exec_burstError (ch : ChanId) (k : Nat) (side : BurstSide) (status : StatusCode) (s : State) : exec (.burstError ch k side status) s = execBurstError ch k side status s := rfl
theorem exec_dmaResume (p : Path) (ch : ChanId) (value : Word64) (s : State) : exec (.dmaResume p ch value) s = execDmaResume p ch value s := rfl
theorem exec_dmaAbort (p : Path) (ch : ChanId) (value : Word64) (s : State) : exec (.dmaAbort p ch value) s = execDmaAbort p ch value s := rfl
theorem exec_dmaAbortDone (ch : ChanId) (s : State) : exec (.dmaAbortDone ch) s = execDmaAbortDone ch s := rfl
theorem exec_dmaSave (p : Path) (ch : ChanId) (value : Word64) (s : State) : exec (.dmaSave p ch value) s = execDmaSave p ch value s := rfl
theorem exec_walkDone (ch : ChanId) (s : State) : exec (.walkDone ch) s = execWalkDone ch s := rfl
theorem exec_faultTaken (ch : ChanId) (s : State) : exec (.faultTaken ch) s = execFaultTaken ch s := rfl
theorem exec_fqHeadWrite (p : Path) (n : PartId) (value : BitVec 32) (s : State) : exec (.fqHeadWrite p n value) s = execFqHeadWrite p n value s := rfl
theorem exec_xltFaultResolve (p : Path) (n : PartId) (value : Word64) (s : State) : exec (.xltFaultResolve p n value) s = execXltFaultResolve p n value s := rfl
theorem exec_pageReady (e : EngineId) (id : Fin 1024) (s : State) : exec (.pageReady e id) s = execPageReady e id s := rfl
theorem exec_faultRecordTimeout (id : Fin 1024) (s : State) : exec (.faultRecordTimeout id) s = execFaultRecordTimeout id s := rfl
theorem exec_xltInvCmd (p : Path) (n : PartId) (value : Word64) (s : State) : exec (.xltInvCmd p n value) s = execXltInvCmd p n value s := rfl
theorem exec_invEngineAck (n : PartId) (e : EngineId) (s : State) : exec (.invEngineAck n e) s = execInvEngineAck n e s := rfl
theorem exec_bar2Read (n : PartId) (off len : Nat) (tbit : Bool) (s : State) : exec (.bar2Read n off len tbit) s = execBar2Read n off len tbit s := rfl
theorem exec_bar2Write (n : PartId) (off : Nat) (data : List Byte) (tbit : Bool) (s : State) : exec (.bar2Write n off data tbit) s = execBar2Write n off data tbit s := rfl
theorem exec_hostCompletion (tag lower count : Nat) (data : List Byte) (bad : Bool) (s : State) : exec (.hostCompletion tag lower count data bad) s = execHostCompletion tag lower count data bad s := rfl
theorem exec_completionTimeout (tag : Nat) (s : State) : exec (.completionTimeout tag) s = execCompletionTimeout tag s := rfl
theorem exec_tagQuarantineEnd (tag : Nat) (s : State) : exec (.tagQuarantineEnd tag) s = execTagQuarantineEnd tag s := rfl
theorem exec_pcieLinkDown (s : State) : exec (.pcieLinkDown) s = execPcieLinkDown s := rfl
theorem exec_pcieLinkUp (rate : Fin 16) (width : Fin 64) (flit : Bool) (s : State) : exec (.pcieLinkUp rate width flit) s = execPcieLinkUp rate width flit s := rfl
theorem exec_vfFlr (n : PartId) (s : State) : exec (.vfFlr n) s = execVfFlr n s := rfl
theorem exec_pf0Flr (s : State) : exec (.pf0Flr) s = execPf0Flr s := rfl
theorem exec_tdiConfigViolation (n : PartId) (s : State) : exec (.tdiConfigViolation n) s = execTdiConfigViolation n s := rfl
theorem exec_stopInterface (n : PartId) (s : State) : exec (.stopInterface n) s = execStopInterface n s := rfl
theorem exec_vfApertureWrite (p : Path) (n : PartId) (value : Word64) (s : State) : exec (.vfApertureWrite p n value) s = execVfApertureWrite p n value s := rfl
theorem exec_msixUnmask (fn : Fin 17) (vec : Nat) (s : State) : exec (.msixUnmask fn vec) s = execMsixUnmask fn vec s := rfl
theorem exec_queueEnable (p : Path) (n : PartId) (q : QueueId) (value : Word64) (s : State) : exec (.queueEnable p n q value) s = execQueueEnable p n q value s := rfl
theorem exec_queueDisable (p : Path) (n : PartId) (q : QueueId) (value : Word64) (s : State) : exec (.queueDisable p n q value) s = execQueueDisable p n q value s := rfl
theorem exec_queueDoorbell (p : Path) (n : PartId) (q : QueueId) (value : BitVec 32) (s : State) : exec (.queueDoorbell p n q value) s = execQueueDoorbell p n q value s := rfl
theorem exec_queueNop (n : PartId) (q : QueueId) (host : List Byte) (s : State) : exec (.queueNop n q host) s = execQueueNop n q host s := rfl
theorem exec_queueTask (n : PartId) (q : QueueId) (host : List Byte) (s : State) : exec (.queueTask n q host) s = execQueueTask n q host s := rfl
theorem exec_queueWait (n : PartId) (q : QueueId) (host : List Byte) (s : State) : exec (.queueWait n q host) s = execQueueWait n q host s := rfl
theorem exec_queueSignal (n : PartId) (q : QueueId) (host : List Byte) (s : State) : exec (.queueSignal n q host) s = execQueueSignal n q host s := rfl
theorem exec_fenceSignal (p : Path) (n : PartId) (f : FenceId) (value : Word64) (s : State) : exec (.fenceSignal p n f value) s = execFenceSignal p n f value s := rfl
theorem exec_fenceReset (p : Path) (n : PartId) (f : FenceId) (value : Word64) (s : State) : exec (.fenceReset p n f value) s = execFenceReset p n f value s := rfl
theorem exec_ospCap (site : SiteId) (idx : Fin 4) (word : Word64) (s : State) : exec (.ospCap site idx word) s = execOspCap site idx word s := rfl
theorem exec_ospCapAck (site : SiteId) (idx : Fin 4) (s : State) : exec (.ospCapAck site idx) s = execOspCapAck site idx s := rfl
theorem exec_ospCheck (site : SiteId) (word : Word64) (s : State) : exec (.ospCheck site word) s = execOspCheck site word s := rfl
theorem exec_ospReset (site : SiteId) (mask : BitVec 4) (core : Bool) (s : State) : exec (.ospReset site mask core) s = execOspReset site mask core s := rfl
theorem exec_ospIdentity (site : SiteId) (chunk : Fin 6) (data : Word64) (s : State) : exec (.ospIdentity site chunk data) s = execOspIdentity site chunk data s := rfl
theorem exec_ospError (site : SiteId) (fatal : Bool) (code : BitVec 16) (s : State) : exec (.ospError site fatal code) s = execOspError site fatal code s := rfl
theorem exec_ospUnknownCode (site : SiteId) (code : Byte) (s : State) : exec (.ospUnknownCode site code) s = execOspUnknownCode site code s := rfl
theorem exec_siteReset (p : Path) (site : SiteId) (value : Word64) (s : State) : exec (.siteReset p site value) s = execSiteReset p site value s := rfl
theorem exec_siteProtocolReady (site : SiteId) (s : State) : exec (.siteProtocolReady site) s = execSiteProtocolReady site s := rfl
theorem exec_siteMainbandTrained (site : SiteId) (widths : List (Fin 3)) (agree : Bool) (s : State) : exec (.siteMainbandTrained site widths agree) s = execSiteMainbandTrained site widths agree s := rfl
theorem exec_siteRetrain (p : Path) (site : SiteId) (value : Word64) (s : State) : exec (.siteRetrain p site value) s = execSiteRetrain p site value s := rfl
theorem exec_siteOff (p : Path) (site : SiteId) (value : Word64) (s : State) : exec (.siteOff p site value) s = execSiteOff p site value s := rfl
theorem exec_moduleRetrainDone (site : SiteId) (u : Fin 4) (width : Fin 3) (s : State) : exec (.moduleRetrainDone site u width) s = execModuleRetrainDone site u width s := rfl
theorem exec_retrainTimeout (site : SiteId) (u : Fin 4) (s : State) : exec (.retrainTimeout site u) s = execRetrainTimeout site u s := rfl
theorem exec_routeModuleTimeout (site : SiteId) (u : Fin 4) (s : State) : exec (.routeModuleTimeout site u) s = execRouteModuleTimeout site u s := rfl
theorem exec_portNativeTimeout (port : PortId) (s : State) : exec (.portNativeTimeout port) s = execPortNativeTimeout port s := rfl
theorem exec_portUp (port : PortId) (s : State) : exec (.portUp port) s = execPortUp port s := rfl
theorem exec_portLaneDown (port : PortId) (s : State) : exec (.portLaneDown port) s = execPortLaneDown port s := rfl
theorem exec_pauseFrameRx (port : PortId) (prio : Fin 8) (on : Bool) (s : State) : exec (.pauseFrameRx port prio on) s = execPauseFrameRx port prio on s := rfl
theorem exec_roceSendRx (n : PartId) (k : QpId) (psn : Nat) (data : List Byte) (imm : Option (BitVec 32)) (ce : Bool) (s : State) : exec (.roceSendRx n k psn data imm ce) s = execRoceSendRx n k psn data imm ce s := rfl
theorem exec_roceRdmaWriteRx (n : PartId) (k : QpId) (psn : Nat) (rkey : BitVec 32) (addr : Nat) (data : List Byte) (imm : Option (BitVec 32)) (ce : Bool) (s : State) : exec (.roceRdmaWriteRx n k psn rkey addr data imm ce) s = execRoceRdmaWriteRx n k psn rkey addr data imm ce s := rfl
theorem exec_roceRdmaReadRx (n : PartId) (k : QpId) (psn : Nat) (rkey : BitVec 32) (addr len : Nat) (ce : Bool) (s : State) : exec (.roceRdmaReadRx n k psn rkey addr len ce) s = execRoceRdmaReadRx n k psn rkey addr len ce s := rfl
theorem exec_roceReadResponseRx (n : PartId) (k : QpId) (psn : Nat) (data : List Byte) (s : State) : exec (.roceReadResponseRx n k psn data) s = execRoceReadResponseRx n k psn data s := rfl
theorem exec_roceAckRx (n : PartId) (k : QpId) (psn : Nat) (s : State) : exec (.roceAckRx n k psn) s = execRoceAckRx n k psn s := rfl
theorem exec_roceNakRx (n : PartId) (k : QpId) (psn : Nat) (s : State) : exec (.roceNakRx n k psn) s = execRoceNakRx n k psn s := rfl
theorem exec_cnpRx (n : PartId) (k : QpId) (s : State) : exec (.cnpRx n k) s = execCnpRx n k s := rfl
theorem exec_cnpRateIncrease (n : PartId) (k : QpId) (s : State) : exec (.cnpRateIncrease n k) s = execCnpRateIncrease n k s := rfl
theorem exec_roceRetryTimeout (n : PartId) (k : QpId) (s : State) : exec (.roceRetryTimeout n k) s = execRoceRetryTimeout n k s := rfl
theorem exec_txqEnable (p : Path) (q : EthQId) (value : Word64) (s : State) : exec (.txqEnable p q value) s = execTxqEnable p q value s := rfl
theorem exec_txqDisable (p : Path) (q : EthQId) (value : Word64) (s : State) : exec (.txqDisable p q value) s = execTxqDisable p q value s := rfl
theorem exec_txqDoorbell (p : Path) (q : EthQId) (cqhead : Bool) (value : BitVec 32) (s : State) : exec (.txqDoorbell p q cqhead value) s = execTxqDoorbell p q cqhead value s := rfl
theorem exec_txRawFrame (q : EthQId) (s : State) : exec (.txRawFrame q) s = execTxRawFrame q s := rfl
theorem exec_txSend (q : EthQId) (s : State) : exec (.txSend q) s = execTxSend q s := rfl
theorem exec_txSendImm (q : EthQId) (s : State) : exec (.txSendImm q) s = execTxSendImm q s := rfl
theorem exec_txWrite (q : EthQId) (s : State) : exec (.txWrite q) s = execTxWrite q s := rfl
theorem exec_txWriteImm (q : EthQId) (s : State) : exec (.txWriteImm q) s = execTxWriteImm q s := rfl
theorem exec_txRead (q : EthQId) (s : State) : exec (.txRead q) s = execTxRead q s := rfl
theorem exec_qpLoad (p : Path) (n : PartId) (value : Word64) (s : State) : exec (.qpLoad p n value) s = execQpLoad p n value s := rfl
theorem exec_qpError (p : Path) (n : PartId) (value : Word64) (s : State) : exec (.qpError p n value) s = execQpError p n value s := rfl
theorem exec_ringFrameRx (h : HalfId) (cls : Fin 4) (seq : Nat) (dest : Fin 64) (crcOk : Bool) (payload : List Byte) (s : State) : exec (.ringFrameRx h cls seq dest crcOk payload) s = execRingFrameRx h cls seq dest crcOk payload s := rfl
theorem exec_ringNakRx (h : HalfId) (seq : Nat) (s : State) : exec (.ringNakRx h seq) s = execRingNakRx h seq s := rfl
theorem exec_ringAckTimeout (h : HalfId) (s : State) : exec (.ringAckTimeout h) s = execRingAckTimeout h s := rfl
theorem exec_ringLaneFail (h : HalfId) (lane : Fin 8) (s : State) : exec (.ringLaneFail h lane) s = execRingLaneFail h lane s := rfl
theorem exec_ringLinkUp (h : HalfId) (lanes : BitVec 8) (s : State) : exec (.ringLinkUp h lanes) s = execRingLinkUp h lanes s := rfl
theorem exec_beaconTimer (s : State) : exec (.beaconTimer) s = execBeaconTimer s := rfl
theorem exec_beaconRx (h : HalfId) (pos : Fin 64) (s : State) : exec (.beaconRx h pos) s = execBeaconRx h pos s := rfl
theorem exec_positionAbsent (pos : Fin 64) (s : State) : exec (.positionAbsent pos) s = execPositionAbsent pos s := rfl
theorem exec_aditThrough (p : Path) (value : BitVec 32) (s : State) : exec (.aditThrough p value) s = execAditThrough p value s := rfl
theorem exec_aditOpen (p : Path) (value : BitVec 32) (loopback : Bool) (s : State) : exec (.aditOpen p value loopback) s = execAditOpen p value loopback s := rfl
theorem exec_aditSwitchDone (s : State) : exec (.aditSwitchDone) s = execAditSwitchDone s := rfl
theorem exec_groupActivate (p : Path) (n : PartId) (value : Word64) (s : State) : exec (.groupActivate p n value) s = execGroupActivate p n value s := rfl
theorem exec_groupKeyed (n : PartId) (g : Fin 16) (ok : Bool) (s : State) : exec (.groupKeyed n g ok) s = execGroupKeyed n g ok s := rfl
theorem exec_groupRetire (p : Path) (n : PartId) (value : Word64) (s : State) : exec (.groupRetire p n value) s = execGroupRetire p n value s := rfl
theorem exec_collectivePost (p : Path) (n : PartId) (value : BitVec 32) (s : State) : exec (.collectivePost p n value) s = execCollectivePost p n value s := rfl
theorem exec_collectiveFrame (n : PartId) (g : Fin 16) (aft : Bool) (seq step : Nat) (data scales : List Byte) (dross : Bool) (us : Nat) (s : State) : exec (.collectiveFrame n g aft seq step data scales dross us) s = execCollectiveFrame n g aft seq step data scales dross us s := rfl
theorem exec_collectiveWatchdog (n : PartId) (g : Fin 16) (us : Nat) (s : State) : exec (.collectiveWatchdog n g us) s = execCollectiveWatchdog n g us s := rfl
theorem exec_abortToken (n : PartId) (g : Fin 16) (seq : Nat) (origin : Fin 64) (aft : Bool) (us : Nat) (s : State) : exec (.abortToken n g seq origin aft us) s = execAbortToken n g seq origin aft us s := rfl
theorem exec_twinStart (p : Path) (n : PartId) (value : Word64) (twinOk : Bool) (s : State) : exec (.twinStart p n value twinOk) s = execTwinStart p n value twinOk s := rfl
theorem exec_twinCheckpoint (p : Path) (n : PartId) (value : Word64) (s : State) : exec (.twinCheckpoint p n value) s = execTwinCheckpoint p n value s := rfl
theorem exec_twinStop (p : Path) (n : PartId) (value : Word64) (s : State) : exec (.twinStop p n value) s = execTwinStop p n value s := rfl
theorem exec_checkpointBoundary (n : PartId) (s : State) : exec (.checkpointBoundary n) s = execCheckpointBoundary n s := rfl
theorem exec_checkpointComplete (n : PartId) (s : State) : exec (.checkpointComplete n) s = execCheckpointComplete n s := rfl
theorem exec_twinStreamRx (n : PartId) (region : Nat) (data : List Byte) (drossLines : List Nat) (last : Bool) (number logIdx : Nat) (s : State) : exec (.twinStreamRx n region data drossLines last number logIdx) s = execTwinStreamRx n region data drossLines last number logIdx s := rfl
theorem exec_twinLogAppend (p : Path) (n : PartId) (value : BitVec 32) (s : State) : exec (.twinLogAppend p n value) s = execTwinLogAppend p n value s := rfl
theorem exec_twinLogRx (n : PartId) (ppa : Nat) (data : List Byte) (idx : Nat) (s : State) : exec (.twinLogRx n ppa data idx) s = execTwinLogRx n ppa data idx s := rfl
theorem exec_twinLogAckRx (n : PartId) (idx : Nat) (s : State) : exec (.twinLogAckRx n idx) s = execTwinLogAckRx n idx s := rfl
theorem exec_downToken (n : PartId) (auth : Bool) (s : State) : exec (.downToken n auth) s = execDownToken n auth s := rfl
theorem exec_ringDarkFence (s : State) : exec (.ringDarkFence) s = execRingDarkFence s := rfl
theorem exec_takeoverDone (n : PartId) (s : State) : exec (.takeoverDone n) s = execTakeoverDone n s := rfl
theorem exec_pairKeyExchange (ok : Bool) (s : State) : exec (.pairKeyExchange ok) s = execPairKeyExchange ok s := rfl
theorem exec_lcsTransition (p : Path) (token : Byte) (len : Nat) (s : State) : exec (.lcsTransition p token len) s = execLcsTransition p token len s := rfl
theorem exec_lcsWipeDone (s : State) : exec (.lcsWipeDone) s = execLcsWipeDone s := rfl
theorem exec_provisionOpkey (p : Path) (token : Byte) (len : Nat) (s : State) : exec (.provisionOpkey p token len) s = execProvisionOpkey p token len s := rfl
theorem exec_revokeOpkey (p : Path) (token : Byte) (len : Nat) (s : State) : exec (.revokeOpkey p token len) s = execRevokeOpkey p token len s := rfl
theorem exec_bindTwin (p : Path) (token : Byte) (len : Nat) (s : State) : exec (.bindTwin p token len) s = execBindTwin p token len s := rfl
theorem exec_unbindTwin (p : Path) (token : Byte) (len : Nat) (s : State) : exec (.unbindTwin p token len) s = execUnbindTwin p token len s := rfl
theorem exec_integrationRecord (p : Path) (token : Byte) (len : Nat) (s : State) : exec (.integrationRecord p token len) s = execIntegrationRecord p token len s := rfl
theorem exec_raiseAlarmFloor (p : Path) (token : Byte) (len : Nat) (s : State) : exec (.raiseAlarmFloor p token len) s = execRaiseAlarmFloor p token len s := rfl
theorem exec_setConfOnly (p : Path) (token : Byte) (len : Nat) (s : State) : exec (.setConfOnly p token len) s = execSetConfOnly p token len s := rfl
theorem exec_commitFwSvn (p : Path) (token : Byte) (len : Nat) (s : State) : exec (.commitFwSvn p token len) s = execCommitFwSvn p token len s := rfl
theorem exec_restoreOpkey (p : Path) (token : Byte) (len : Nat) (s : State) : exec (.restoreOpkey p token len) s = execRestoreOpkey p token len s := rfl
theorem exec_keyWaitTimeout (s : State) : exec (.keyWaitTimeout) s = execKeyWaitTimeout s := rfl
theorem exec_fwTransferEnd (version : BitVec 32) (svn : Fin 129) (signed : Bool) (manifest : BitVec 384) (s : State) : exec (.fwTransferEnd version svn signed manifest) s = execFwTransferEnd version svn signed manifest s := rfl
theorem exec_fwActivate (p : Path) (value : BitVec 32) (s : State) : exec (.fwActivate p value) s = execFwActivate p value s := rfl
theorem exec_fwDiscard (p : Path) (value : BitVec 32) (s : State) : exec (.fwDiscard p value) s = execFwDiscard p value s := rfl
theorem exec_fwActivated (s : State) : exec (.fwActivated) s = execFwActivated s := rfl
theorem exec_fwActivateTimeout (s : State) : exec (.fwActivateTimeout) s = execFwActivateTimeout s := rfl
theorem exec_confSet (p : Path) (n : PartId) (s : State) : exec (.confSet p n) s = execConfSet p n s := rfl
theorem exec_debugAuth (p : Path) (n : PartId) (auth : Bool) (s : State) : exec (.debugAuth p n auth) s = execDebugAuth p n auth s := rfl
theorem exec_debugGrant (p : Path) (value : BitVec 32) (s : State) : exec (.debugGrant p value) s = execDebugGrant p value s := rfl
theorem exec_testAccessInstruction (die : TapDie) (instr : TapInstr) (s : State) : exec (.testAccessInstruction die instr) s = execTestAccessInstruction die instr s := rfl
theorem exec_hallmarkRequest (p : Path) (n : PartId) (value : Word64) (s : State) : exec (.hallmarkRequest p n value) s = execHallmarkRequest p n value s := rfl
theorem exec_hallmarkDone (n : PartId) (len : Nat) (s : State) : exec (.hallmarkDone n len) s = execHallmarkDone n len s := rfl
theorem exec_spdmDiscovery (fn : Fin 17) (s : State) : exec (.spdmDiscovery fn) s = execSpdmDiscovery fn s := rfl
theorem exec_getDigests (fn : Fin 17) (s : State) : exec (.getDigests fn) s = execGetDigests fn s := rfl
theorem exec_getCertificate (fn : Fin 17) (s : State) : exec (.getCertificate fn) s = execGetCertificate fn s := rfl
theorem exec_challenge (fn : Fin 17) (nonce : BitVec 256) (s : State) : exec (.challenge fn nonce) s = execChallenge fn nonce s := rfl
theorem exec_getMeasurements (fn : Fin 17) (nonce : BitVec 256) (s : State) : exec (.getMeasurements fn nonce) s = execGetMeasurements fn nonce s := rfl
theorem exec_keyExchange (fn : Fin 17) (s : State) : exec (.keyExchange fn) s = execKeyExchange fn s := rfl
theorem exec_finish (fn : Fin 17) (ok : Bool) (s : State) : exec (.finish fn ok) s = execFinish fn ok s := rfl
theorem exec_endSession (fn : Fin 17) (s : State) : exec (.endSession fn) s = execEndSession fn s := rfl
theorem exec_keyProg (fn : Fin 17) (s : State) : exec (.keyProg fn) s = execKeyProg fn s := rfl
theorem exec_railCanary (rail : RailAt) (s : State) : exec (.railCanary rail) s = execRailCanary rail s := rfl
theorem exec_clockCanary (s : State) : exec (.clockCanary) s = execClockCanary s := rfl
theorem exec_tempCanary (s : State) : exec (.tempCanary) s = execTempCanary s := rfl
theorem exec_tamper (s : State) : exec (.tamper) s = execTamper s := rfl
theorem exec_glitch (s : State) : exec (.glitch) s = execGlitch s := rfl
theorem exec_rngHealth (s : State) : exec (.rngHealth) s = execRngHealth s := rfl
theorem exec_noteSummary (source : Nat) (scope : Nat) (s : State) : exec (.noteSummary source scope) s = execNoteSummary source scope s := rfl
theorem exec_tenantRaise (p : Path) (n : PartId) (value : Word64) (s : State) : exec (.tenantRaise p n value) s = execTenantRaise p n value s := rfl
theorem exec_logRead (p : Path) (value : Word64) (s : State) : exec (.logRead p value) s = execLogRead p value s := rfl
theorem exec_logAck (p : Path) (value : Word64) (s : State) : exec (.logAck p value) s = execLogAck p value s := rfl
theorem exec_feedGood (f : Feed) (decivolts : Fin 1024) (s : State) : exec (.feedGood f decivolts) s = execFeedGood f decivolts s := rfl
theorem exec_feedLeavesGood (f : Feed) (decivolts : Fin 1024) (s : State) : exec (.feedLeavesGood f decivolts) s = execFeedLeavesGood f decivolts s := rfl
theorem exec_feedOver (f : Feed) (decivolts : Fin 1024) (s : State) : exec (.feedOver f decivolts) s = execFeedOver f decivolts s := rfl
theorem exec_pwrFail (s : State) : exec (.pwrFail) s = execPwrFail s := rfl
theorem exec_brownOut (s : State) : exec (.brownOut) s = execBrownOut s := rfl
theorem exec_powerLimitTick (watts : Nat) (s : State) : exec (.powerLimitTick watts) s = execPowerLimitTick watts s := rfl
theorem exec_dieTempSample (h : HalfId) (temp : Int) (lasted1ms : Bool) (s : State) : exec (.dieTempSample h temp lasted1ms) s = execDieTempSample h temp lasted1ms s := rfl
theorem exec_pwrCapWrite (p : Path) (value : BitVec 32) (s : State) : exec (.pwrCapWrite p value) s = execPwrCapWrite p value s := rfl
theorem exec_pithead (s : State) : exec (.pithead) s = execPithead s := rfl
theorem exec_stage1 (ok : Bool) (level0 level1 : BitVec 16) (s : State) : exec (.stage1 ok level0 level1) s = execStage1 ok level0 level1 s := rfl
theorem exec_stage2 (s : State) : exec (.stage2) s = execStage2 s := rfl
theorem exec_stage3 (s : State) : exec (.stage3) s = execStage3 s := rfl
theorem exec_fullFunction (s : State) : exec (.fullFunction) s = execFullFunction s := rfl
theorem exec_stageBoundMissed (stage : Fin 4) (s : State) : exec (.stageBoundMissed stage) s = execStageBoundMissed stage s := rfl
theorem exec_resetPin (s : State) : exec (.resetPin) s = execResetPin s := rfl
theorem exec_moduleReset (p : Path) (value : Word64) (s : State) : exec (.moduleReset p value) s = execModuleReset p value s := rfl
theorem exec_partitionReset (p : Path) (value : Word64) (s : State) : exec (.partitionReset p value) s = execPartitionReset p value s := rfl
theorem exec_halfFailure (h : HalfId) (s : State) : exec (.halfFailure h) s = execHalfFailure h s := rfl
theorem exec_eccError (h : HalfId) (cls : ErrClass) (str : RasStruct) (index : BitVec 32) (addr : Nat) (scope : Nat) (status : StatusCode) (s : State) : exec (.eccError h cls str index addr scope status) s = execEccError h cls str index addr scope status s := rfl
theorem exec_correctedSummary (h : HalfId) (str : RasStruct) (s : State) : exec (.correctedSummary h str) s = execCorrectedSummary h str s := rfl
theorem exec_assayTestStart (h : HalfId) (s : State) : exec (.assayTestStart h) s = execAssayTestStart h s := rfl
theorem exec_assayTestDone (h : HalfId) (str : RasStruct) (index : BitVec 32) (lasting : Bool) (s : State) : exec (.assayTestDone h str index lasting) s = execAssayTestDone h str index lasting s := rfl
theorem exec_burstReadReturn (ch : ChanId) (k : Nat) (s : State) : exec (.burstReadReturn ch k) s = execBurstReadReturn ch k s := rfl
theorem exec_abortBoundStop (n : PartId) (c : CtxId) (s : State) : exec (.abortBoundStop n c) s = execAbortBoundStop n c s := rfl
theorem exec_foreignMemoryRequest (site : SiteId) (r : ForeignReq) (s : State) : exec (.foreignMemoryRequest site r) s = execForeignMemoryRequest site r s := rfl
theorem exec_ucieLinkRecovery (site : SiteId) (u : Fin 4) (s : State) : exec (.ucieLinkRecovery site u) s = execUcieLinkRecovery site u s := rfl
theorem exec_vsiteRailFault (site : SiteId) (s : State) : exec (.vsiteRailFault site) s = execVsiteRailFault site s := rfl
theorem exec_frameLeavesPort (port : PortId) (k : Nat) (s : State) : exec (.frameLeavesPort port k) s = execFrameLeavesPort port k s := rfl
theorem exec_lockInterface (n : PartId) (s : State) : exec (.lockInterface n) s = execLockInterface n s := rfl
theorem exec_startInterface (n : PartId) (s : State) : exec (.startInterface n) s = execStartInterface n s := rfl
theorem exec_entropyHealthChange (healthy : Bool) (s : State) : exec (.entropyHealthChange healthy) s = execEntropyHealthChange healthy s := rfl
theorem exec_alarmOutPulseEnd (s : State) : exec (.alarmOutPulseEnd) s = execAlarmOutPulseEnd s := rfl
theorem exec_resetRelease (s : State) : exec (.resetRelease) s = execResetRelease s := rfl
theorem exec_perstRelease (s : State) : exec (.perstRelease) s = execPerstRelease s := rfl
theorem exec_xfjmCsrWrite (core : CoreId) (csr : Csr) (value : Word64) (s : State) : exec (.xfjmCsrWrite core csr value) s = execXfjmCsrWrite core csr value s := rfl

end Sys2Proof.Machine
end

