-- ==== Sys2Proof/Laws/Tab.lean ====
section
/-!
SUPPORT. What sparse tables do: reading after writing, and the canonical form that every operation keeps (log entry 5).
-/

namespace Sys2Proof.Machine

variable {α : Type}

theorem Tab.get_erase_same (d : α) (t : Tab α) (k : Nat) : Tab.get d (Tab.erase k t) k = d := by
  induction t with
  | nil => rfl
  | cons e t ih => obtain ⟨k', v⟩ := e; by_cases h : k' = k <;> simp [Tab.erase, Tab.get, h, ih]

theorem Tab.get_erase_ne (d : α) (t : Tab α) {k j : Nat} (h : j ≠ k) : Tab.get d (Tab.erase k t) j = Tab.get d t j := by
  induction t with
  | nil => rfl
  | cons e t ih =>
    obtain ⟨k', v⟩ := e
    by_cases h' : k' = k
    · have : k ≠ j := fun e => h e.symm
      simp [Tab.erase, Tab.get, h', ih, this]
    · simp [Tab.erase, Tab.get, h', ih]

theorem Tab.get_insert_same (d : α) (k : Nat) (v : α) (t : Tab α) (h : ∀ e ∈ t, e.1 ≠ k) : Tab.get d (Tab.insert k v t) k = v := by
  induction t with
  | nil => simp [Tab.insert, Tab.get]
  | cons e t ih =>
    obtain ⟨k', v'⟩ := e
    have h1 : k' ≠ k := h (k', v') (by simp)
    have h2 := ih (fun e he => h e (by simp [he]))
    by_cases hk : k < k' <;> simp [Tab.insert, Tab.get, hk, h1, h2]

theorem Tab.get_insert_ne (d : α) {k j : Nat} (v : α) (t : Tab α) (h : j ≠ k) : Tab.get d (Tab.insert k v t) j = Tab.get d t j := by
  have h' : k ≠ j := fun e => h e.symm
  induction t with
  | nil => simp [Tab.insert, Tab.get, h']
  | cons e t ih =>
    obtain ⟨k', v'⟩ := e
    by_cases hk : k < k' <;> simp [Tab.insert, Tab.get, hk, h', ih]

theorem Tab.mem_erase {k : Nat} {t : Tab α} {e : Nat × α} (h : e ∈ Tab.erase k t) : e ∈ t ∧ e.1 ≠ k := by
  induction t with
  | nil => simp [Tab.erase] at h
  | cons x t ih =>
    obtain ⟨k', v⟩ := x
    by_cases hk : k' = k
    · simp only [Tab.erase, hk, if_true] at h
      exact ⟨List.mem_cons_of_mem _ (ih h).1, (ih h).2⟩
    · simp only [Tab.erase, hk, if_false, List.mem_cons] at h
      rcases h with rfl | h
      · exact ⟨List.mem_cons_self, hk⟩
      · exact ⟨List.mem_cons_of_mem _ (ih h).1, (ih h).2⟩

section Eq
variable [DecidableEq α]

/-- Reading the key that was set gives the value. -/
@[simp] theorem Tab.get_set_same (d : α) (t : Tab α) (k : Nat) (v : α) : Tab.get d (Tab.set d t k v) k = v := by
  unfold Tab.set
  split
  · rename_i h; rw [h]; exact Tab.get_erase_same d t k
  · exact Tab.get_insert_same d k v _ (fun e he => (Tab.mem_erase he).2)

/-- Setting a key leaves every other key. -/
theorem Tab.get_set_ne (d : α) (t : Tab α) {k j : Nat} (v : α) (h : j ≠ k) : Tab.get d (Tab.set d t k v) j = Tab.get d t j := by
  unfold Tab.set
  split
  · exact Tab.get_erase_ne d t h
  · rw [Tab.get_insert_ne d v _ h, Tab.get_erase_ne d t h]

theorem Tab.get_set (d : α) (t : Tab α) (k j : Nat) (v : α) : Tab.get d (Tab.set d t k v) j = if j = k then v else Tab.get d t j := by
  split
  · rename_i h; rw [h]; exact Tab.get_set_same d t k v
  · rename_i h; exact Tab.get_set_ne d t v h

@[simp] theorem Tab.get_upd_same (d : α) (t : Tab α) (k : Nat) (f : α → α) : Tab.get d (Tab.upd d t k f) k = f (Tab.get d t k) :=
  Tab.get_set_same d t k _

theorem Tab.get_upd_ne (d : α) (t : Tab α) {k j : Nat} (f : α → α) (h : j ≠ k) : Tab.get d (Tab.upd d t k f) j = Tab.get d t j :=
  Tab.get_set_ne d t _ h

theorem Tab.get_upd (d : α) (t : Tab α) (k j : Nat) (f : α → α) :
    Tab.get d (Tab.upd d t k f) j = if j = k then f (Tab.get d t k) else Tab.get d t j := Tab.get_set d t k j _

end Eq

@[simp] theorem Tab.get_nil (d : α) (k : Nat) : Tab.get d ([] : Tab α) k = d := rfl

/-- Keeping the keys of p leaves their values and forgets the others. -/
theorem Tab.get_keep (d : α) (p : Nat → Bool) (t : Tab α) (k : Nat) :
    Tab.get d (Tab.keep p t) k = if p k then Tab.get d t k else d := by
  induction t with
  | nil => simp [Tab.keep, Tab.get]
  | cons e t ih =>
    obtain ⟨k', v⟩ := e
    unfold Tab.keep at ih ⊢
    by_cases hp : p k' = true
    · simp only [List.filter_cons, hp, if_true, Tab.get, ih]
      by_cases hk : k' = k
      · subst hk; simp [hp]
      · simp [hk]
    · simp only [List.filter_cons, hp, Tab.get]
      by_cases hk : k' = k
      · subst hk; simpa [hp] using ih
      · simpa [hk] using ih

/-- A table whose keys lie above b reads as the default at b and below. -/
theorem Tab.get_of_above {d : α} {t : Tab α} {b k : Nat} (h : Tab.above b t = true) (hk : k ≤ b) : Tab.get d t k = d := by
  induction t with
  | nil => rfl
  | cons e t ih =>
    obtain ⟨k', v⟩ := e
    simp only [Tab.above, List.all_cons, Bool.and_eq_true, decide_eq_true_eq] at h
    have hne : k' ≠ k := by omega
    simp only [Tab.get, hne, if_false]
    exact ih (by simpa [Tab.above] using h.2)

theorem Tab.above_mono {t : Tab α} {a b : Nat} (hab : a ≤ b) (h : Tab.above b t = true) : Tab.above a t = true := by
  simp only [Tab.above, List.all_eq_true, decide_eq_true_eq] at h ⊢
  intro e he
  have := h e he
  omega

theorem Tab.above_erase {t : Tab α} {b k : Nat} (h : Tab.above b t = true) : Tab.above b (Tab.erase k t) = true := by
  simp only [Tab.above, List.all_eq_true, decide_eq_true_eq] at h ⊢
  exact fun e he => h e (Tab.mem_erase he).1

theorem Tab.mem_insert {k : Nat} {v : α} {t : Tab α} {e : Nat × α} (h : e ∈ Tab.insert k v t) : e = (k, v) ∨ e ∈ t := by
  induction t with
  | nil => simpa [Tab.insert] using h
  | cons x t ih =>
    obtain ⟨k', v'⟩ := x
    by_cases hk : k < k'
    · simpa [Tab.insert, hk] using h
    · simp only [Tab.insert, hk, if_false, List.mem_cons] at h
      rcases h with rfl | h
      · exact Or.inr List.mem_cons_self
      · rcases ih h with h | h
        · exact Or.inl h
        · exact Or.inr (List.mem_cons_of_mem _ h)

theorem Tab.above_insert {t : Tab α} {b k : Nat} {v : α} (hb : b < k) (h : Tab.above b t = true) : Tab.above b (Tab.insert k v t) = true := by
  simp only [Tab.above, List.all_eq_true, decide_eq_true_eq] at h ⊢
  intro e he
  rcases Tab.mem_insert he with rfl | he
  · exact hb
  · exact h e he

section Wf
variable [DecidableEq α]

theorem Tab.wf_erase {d : α} {t : Tab α} (k : Nat) (h : Tab.wf d t = true) : Tab.wf d (Tab.erase k t) = true := by
  induction t with
  | nil => rfl
  | cons e t ih =>
    obtain ⟨k', v⟩ := e
    simp only [Tab.wf, Bool.and_eq_true] at h
    by_cases hk : k' = k
    · simpa [Tab.erase, hk] using ih h.2
    · simp only [Tab.erase, hk, if_false, Tab.wf, Bool.and_eq_true]
      exact ⟨⟨h.1.1, Tab.above_erase h.1.2⟩, ih h.2⟩

theorem Tab.wf_insert {d v : α} {t : Tab α} {k : Nat} (hv : v ≠ d) (hk : ∀ e ∈ t, e.1 ≠ k) (h : Tab.wf d t = true) :
    Tab.wf d (Tab.insert k v t) = true := by
  induction t with
  | nil => simp [Tab.insert, Tab.wf, Tab.above, hv]
  | cons e t ih =>
    obtain ⟨k', v'⟩ := e
    have h' := h
    simp only [Tab.wf, Bool.and_eq_true] at h
    by_cases hlt : k < k'
    · have ha : Tab.above k ((k', v') :: t) = true := by
        have h2 := Tab.above_mono (a := k) (by omega) h.1.2
        simp only [Tab.above, List.all_cons, Bool.and_eq_true, decide_eq_true_eq] at h2 ⊢
        exact ⟨hlt, h2⟩
      simp only [Tab.insert, hlt, if_true]
      rw [Tab.wf, ha, h']
      simpa using hv
    · have hne : k' ≠ k := hk (k', v') (by simp)
      simp only [Tab.insert, hlt, if_false, Tab.wf, Bool.and_eq_true]
      exact ⟨⟨h.1.1, Tab.above_insert (by omega) h.1.2⟩, ih (fun e he => hk e (by simp [he])) h.2⟩

/-- Setting keeps the canonical form. -/
theorem Tab.wf_set {d : α} {t : Tab α} (k : Nat) (v : α) (h : Tab.wf d t = true) : Tab.wf d (Tab.set d t k v) = true := by
  unfold Tab.set
  split
  · exact Tab.wf_erase k h
  · rename_i hv
    exact Tab.wf_insert hv (fun e he => (Tab.mem_erase he).2) (Tab.wf_erase k h)

theorem Tab.wf_upd {d : α} {t : Tab α} (k : Nat) (f : α → α) (h : Tab.wf d t = true) : Tab.wf d (Tab.upd d t k f) = true := Tab.wf_set k _ h

omit [DecidableEq α] in
theorem Tab.above_filter {t : Tab α} {b : Nat} (p : Nat × α → Bool) (h : Tab.above b t = true) : Tab.above b (t.filter p) = true := by
  simp only [Tab.above, List.all_eq_true, decide_eq_true_eq] at h ⊢
  exact fun e he => h e (List.mem_filter.1 he).1

/-- Filtering keeps the canonical form. -/
theorem Tab.wf_filter {d : α} {t : Tab α} (p : Nat × α → Bool) (h : Tab.wf d t = true) : Tab.wf d (t.filter p) = true := by
  induction t with
  | nil => rfl
  | cons e t ih =>
    obtain ⟨k', v⟩ := e
    simp only [Tab.wf, Bool.and_eq_true] at h
    by_cases hp : p (k', v) = true
    · simp only [List.filter_cons, hp, if_true, Tab.wf, Bool.and_eq_true]
      exact ⟨⟨h.1.1, Tab.above_filter p h.1.2⟩, ih h.2⟩
    · simpa [List.filter_cons, hp] using ih h.2

theorem Tab.wf_keep {d : α} {t : Tab α} (p : Nat → Bool) (h : Tab.wf d t = true) : Tab.wf d (Tab.keep p t) = true := Tab.wf_filter _ h

/-- Writing a list keeps the canonical form. -/
theorem Tab.wf_setList {d : α} {t : Tab α} (k : Nat) (l : List α) (h : Tab.wf d t = true) : Tab.wf d (Tab.setList d t k l) = true := by
  induction l generalizing t k with
  | nil => exact h
  | cons v l ih => exact ih (k + 1) (Tab.wf_set k v h)

/-- A written list is what its keys read, and every other key is left. -/
theorem Tab.get_setList (d : α) (t : Tab α) (k : Nat) (l : List α) (j : Nat) :
    Tab.get d (Tab.setList d t k l) j = if k ≤ j ∧ j < k + l.length then l.getD (j - k) d else Tab.get d t j := by
  induction l generalizing t k with
  | nil => simp only [Tab.setList, List.length_nil]; rw [if_neg (by omega)]
  | cons v l ih =>
    simp only [Tab.setList, ih, List.length_cons]
    by_cases h1 : k + 1 ≤ j ∧ j < k + 1 + l.length
    · rw [if_pos h1, if_pos (by omega)]
      have : j - k = (j - (k + 1)) + 1 := by omega
      rw [this, List.getD_cons_succ]
    · rw [if_neg h1]
      by_cases h2 : j = k
      · subst h2; rw [Tab.get_set_same, if_pos (by omega)]; simp
      · rw [Tab.get_set_ne d t v h2, if_neg (by omega)]

end Wf

theorem Tab.getList_length (d : α) (t : Tab α) (k n : Nat) : (Tab.getList d t k n).length = n := by
  induction n generalizing k with
  | zero => rfl
  | succ n ih => simp [Tab.getList, ih]

end Sys2Proof.Machine
end

