-- ==== Sys2Proof/Laws/Memory.lean ====
section
/-!
SUPPORT. What the shared operations change, one lemma each: everything not named in the right side stands. And the canonical form of HBM,
which every operation on it keeps (log entry 5).
-/

namespace Sys2Proof.Machine

theorem State.raise_shape (s : State) (fn vec : Nat) : ∃ p o, s.raise fn vec = { s with pcie := p, out := o } := by
  unfold State.raise
  dsimp only
  split
  · exact ⟨_, s.out, rfl⟩
  · split
    · exact ⟨s.pcie, _, rfl⟩
    · exact ⟨s.pcie, s.out, rfl⟩

theorem State.log_shape (s : State) (event scope : Nat) (st : StatusCode) (role : Nat) (detail : List Byte) :
    ∃ l c p o, s.log event scope st role detail = { s with sec := { s.sec with log := l }, freeCtr := c, pcie := p, out := o } := by
  unfold State.log
  dsimp only
  split
  · split
    · obtain ⟨p, o, h⟩ := State.raise_shape ({ s.tick with sec := { s.sec with log := _ } } : State) 16 6
      exact ⟨_, _, p, o, h⟩
    · exact ⟨_, s.freeCtr + 1, s.pcie, s.out, rfl⟩
  · exact ⟨_, s.freeCtr, s.pcie, s.out, rfl⟩

/-- What reporting an event can touch: the RAS log, vectors, the free-value counter. -/
def State.Noted (s t : State) : Prop := ∃ r c p o, t = { s with ras := r, freeCtr := c, pcie := p, out := o }

theorem State.Noted.refl (s : State) : s.Noted s := ⟨_, _, _, _, rfl⟩
theorem State.Noted.trans {s t u : State} : s.Noted t → t.Noted u → s.Noted u := by
  rintro ⟨_, _, _, _, rfl⟩ ⟨_, _, _, _, rfl⟩; exact ⟨_, _, _, _, rfl⟩

theorem State.raise_noted (s : State) (fn vec : Nat) : s.Noted (s.raise fn vec) := by
  obtain ⟨p, o, h⟩ := State.raise_shape s fn vec
  exact ⟨s.ras, s.freeCtr, p, o, h⟩

theorem State.tickRas_noted (s : State) (h : Nat) (f : Ras → Ras) : s.Noted (s.tick.updRas h f) := ⟨_, s.freeCtr + 1, s.pcie, s.out, rfl⟩

theorem State.rasWrite_noted (s : State) (h cls str scope : Nat) (st : StatusCode) (index addr action count detail : Nat) :
    s.Noted (s.rasWrite h cls str scope st index addr action count detail) := by
  unfold State.rasWrite
  dsimp only
  split
  · refine State.Noted.trans ?_ (State.raise_noted ..)
    split
    · exact State.tickRas_noted ..
    · exact (State.tickRas_noted ..).trans (State.raise_noted ..)
  · split
    · exact State.tickRas_noted ..
    · exact (State.tickRas_noted ..).trans (State.raise_noted ..)

theorem State.rasRecord_noted (s : State) (h cls str scope : Nat) (st : StatusCode) (index addr action count detail : Nat) :
    s.Noted (s.rasRecord h cls str scope st index addr action count detail) := by
  unfold State.rasRecord
  dsimp only
  split
  · exact State.tickRas_noted ..
  · exact State.rasWrite_noted ..

theorem State.queueAssay_noted (s : State) (h : Nat) (e : Assay) : s.Noted (s.queueAssay h e) := by
  unfold State.queueAssay
  dsimp only
  split
  · exact State.Noted.refl s
  · split <;> exact ⟨_, s.freeCtr, s.pcie, s.out, rfl⟩

theorem State.rasError_noted (s : State) (h cls str scope : Nat) (st : StatusCode) (index addr detail : Nat) :
    s.Noted (s.rasError h cls str scope st index addr detail) := by
  unfold State.rasError
  dsimp only
  split
  · exact (State.rasRecord_noted ..).trans (State.queueAssay_noted ..)
  · exact State.rasRecord_noted ..

/-- What a read of HBM can touch: metering, error reports, and nothing a program reads. -/
def State.Metered (s t : State) : Prop := ∃ h g r c p o, t = { s with hbm := h, regs := g, ras := r, freeCtr := c, pcie := p, out := o }

theorem State.Metered.refl (s : State) : s.Metered s := ⟨_, _, _, _, _, _, rfl⟩
theorem State.Metered.trans {s t u : State} : s.Metered t → t.Metered u → s.Metered u := by
  rintro ⟨_, _, _, _, _, _, rfl⟩ ⟨_, _, _, _, _, _, rfl⟩
  exact ⟨_, _, _, _, _, _, rfl⟩
theorem State.Metered.mem {s t : State} : s.Metered t → t.mem = s.mem := by rintro ⟨_, _, _, _, _, _, rfl⟩; rfl
theorem State.Metered.dues {s t : State} : s.Metered t → t.dues = s.dues := by rintro ⟨_, _, _, _, _, _, rfl⟩; rfl

theorem State.reportFail_metered (s : State) (l : Nat) : s.Metered (s.reportFail l) := by
  unfold State.reportFail
  obtain ⟨r, c, p, o, h⟩ := State.rasError_noted (s.updPch (pchOfLine l) (fun p => { p with fails := satAdd 32 p.fails 1 })) (homeOf l) 2 1
    ((s.ownerPch (pchOfLine l)).getD 255) St.dross (rowIndex (l * 64)) (l * 64) 0
  exact ⟨_, s.regs, r, c, p, o, h⟩

theorem State.charge_metered (s : State) (l : Nat) : s.Metered (s.charge l) := by
  unfold State.charge
  split
  · exact ⟨_, _, s.ras, s.freeCtr, s.pcie, s.out, rfl⟩
  · exact State.Metered.refl s

/-- A fold whose every step is related to its start keeps the relation. -/
theorem foldl_rel {α β : Type} {R : α → α → Prop} (hr : ∀ a, R a a) (ht : ∀ {a b c}, R a b → R b c → R a c) (f : α → β → α)
    (hf : ∀ a b, R a (f a b)) (l : List β) (a : α) : R a (l.foldl f a) := by
  induction l generalizing a with
  | nil => exact hr a
  | cons b l ih => exact ht (hf a b) (ih (f a b))

/-- What a write to HBM can touch beside what a read can: bytes, their lines, the caches, a twin's map of dirty regions. -/
def State.Stored (s t : State) : Prop :=
  (Memory.wf s.mem = true → Memory.wf t.mem = true)
    ∧ ∃ m l k w h g r c p o, t = { s with mem := m, lines := l, coh := k, twins := w, hbm := h, regs := g, ras := r, freeCtr := c, pcie := p, out := o }

theorem State.Stored.refl (s : State) : s.Stored s := ⟨id, _, _, _, _, _, _, _, _, _, _, rfl⟩
theorem State.Stored.trans {s t u : State} : s.Stored t → t.Stored u → s.Stored u := by
  rintro ⟨f, _, _, _, _, _, _, _, _, _, _, rfl⟩ ⟨g, _, _, _, _, _, _, _, _, _, _, rfl⟩
  exact ⟨fun h => g (f h), _, _, _, _, _, _, _, _, _, _, rfl⟩
theorem State.Stored.wf {s t : State} (h : s.Stored t) : Memory.wf s.mem = true → Memory.wf t.mem = true := h.1
theorem State.Stored.dues {s t : State} : s.Stored t → t.dues = s.dues := by rintro ⟨_, _, _, _, _, _, _, _, _, _, _, rfl⟩; rfl
theorem State.Stored.pat {s t : State} : s.Stored t → t.pat = s.pat := by rintro ⟨_, _, _, _, _, _, _, _, _, _, _, rfl⟩; rfl
theorem State.Stored.codes {s t : State} : s.Stored t → t.codes = s.codes := by rintro ⟨_, _, _, _, _, _, _, _, _, _, _, rfl⟩; rfl
theorem State.Metered.stored {s t : State} : s.Metered t → s.Stored t := by
  rintro ⟨_, _, _, _, _, _, rfl⟩; exact ⟨id, s.mem, s.lines, s.coh, s.twins, _, _, _, _, _, _, rfl⟩

theorem State.updPch_stored (s : State) (i : Nat) (f : Pch → Pch) : s.Stored (s.updPch i f) :=
  ⟨id, s.mem, s.lines, s.coh, s.twins, _, s.regs, s.ras, s.freeCtr, s.pcie, s.out, rfl⟩

theorem State.storeLine_stored (s : State) (l : Nat) (data : List Byte) (dross : Bool) : s.Stored (s.storeLine l data dross) :=
  ⟨fun h => Tab.wf_setList _ _ h, _, _, s.coh, s.twins, _, s.regs, s.ras, s.freeCtr, s.pcie, s.out, rfl⟩

theorem State.hbmWrite_stored (s : State) (l : Nat) (data : List Byte) (dross : Bool) : s.Stored (s.hbmWrite l data dross) := by
  unfold State.hbmWrite
  dsimp only
  have h := State.updPch_stored s (pchOfLine l) (fun p => { p with wcb := p.wcb.filter (fun e => !(e.line == l)) })
  split
  · exact h
  · exact (h.trans (State.charge_metered _ l).stored).trans (State.storeLine_stored _ l data dross)

theorem State.hbmRead_metered (s : State) (l : Nat) : s.Metered (s.hbmRead l).1 := by
  unfold State.hbmRead
  dsimp only
  split
  · exact State.reportFail_metered s l
  · exact State.Metered.refl s

theorem State.rmw_stored (s : State) (e : Wcb) : s.Stored (s.rmw e) := by
  unfold State.rmw
  dsimp only
  exact ((State.updPch_stored _ _ _).trans (State.hbmRead_metered _ _).stored).trans (State.hbmWrite_stored _ _ _ _)

theorem State.hbmPartial_stored (s : State) (l mask : Nat) (data : List Byte) (dross : Bool) : s.Stored (s.hbmPartial l mask data dross) := by
  unfold State.hbmPartial
  dsimp only
  split
  · exact State.Stored.refl s
  · split
    · exact (State.hbmWrite_stored _ _ _ _).trans (State.updPch_stored _ _ _)
    · split
      · exact State.updPch_stored _ _ _
      · refine State.Stored.trans ?_ (State.updPch_stored _ _ _)
        split
        · split
          · exact State.Stored.refl s
          · exact State.rmw_stored s _
        · exact State.Stored.refl s

/-- The caches of the module alone have changed. -/
theorem State.coh_stored (s : State) (k : Coh) : s.Stored { s with coh := k } :=
  ⟨id, s.mem, s.lines, k, s.twins, s.hbm, s.regs, s.ras, s.freeCtr, s.pcie, s.out, rfl⟩

theorem State.setSlc_stored (s : State) (h l : Nat) (c : Option SlcLine) : s.Stored (s.setSlc h l c) := State.coh_stored ..
theorem State.setDir_stored (s : State) (h l : Nat) (e : DirEnt) : s.Stored (s.setDir h l e) := State.coh_stored ..
theorem State.setCopy_stored (s : State) (h a l : Nat) (c : Copy) : s.Stored (s.setCopy h a l c) := State.coh_stored ..
theorem State.setWb_stored (s : State) (h a l : Nat) (w : Option WbEnt) : s.Stored (s.setWb h a l w) := State.coh_stored ..
theorem State.cohTick_stored (s : State) : s.Stored s.cohTick := State.coh_stored ..
theorem State.dropCopies_stored (s : State) (l : Nat) : s.Stored (s.dropCopies l) := State.coh_stored ..
theorem State.sendGrants_stored (s : State) (h l n : Nat) : s.Stored (s.sendGrants h l n) := State.coh_stored ..
theorem State.closeTxn_stored (s : State) (h l : Nat) : s.Stored (s.closeTxn h l) :=
  (State.setDir_stored ..).trans (State.sendGrants_stored ..)

theorem State.addReg_stored (s : State) (a w k : Nat) : s.Stored (s.addReg a w k) :=
  ⟨id, s.mem, s.lines, s.coh, s.twins, s.hbm, _, s.ras, s.freeCtr, s.pcie, s.out, rfl⟩
theorem State.emit_stored (s : State) (o : Out) : s.Stored (s.emit o) :=
  ⟨id, s.mem, s.lines, s.coh, s.twins, s.hbm, s.regs, s.ras, s.freeCtr, s.pcie, _, rfl⟩
theorem State.tick_stored (s : State) : s.Stored s.tick :=
  ⟨id, s.mem, s.lines, s.coh, s.twins, s.hbm, s.regs, s.ras, _, s.pcie, s.out, rfl⟩
theorem State.strayResponse_stored (s : State) (h : Nat) : s.Stored (s.strayResponse h) :=
  ⟨id, s.mem, s.lines, s.coh, s.twins, s.hbm, s.regs, _, s.freeCtr, s.pcie, s.out, rfl⟩
theorem State.countLook_stored (s : State) (h n : Nat) (b : Bool) : s.Stored (s.countLook h n b) := State.addReg_stored ..

theorem State.refuse_stored (s : State) (h r l n : Nat) (full : Bool) : s.Stored (s.refuse h r l n full) := by
  unfold State.refuse
  split
  · exact State.Stored.refl s
  · exact (State.coh_stored ..).trans (State.addReg_stored ..)

theorem State.answer_stored (s : State) (t : Txn) (l : Nat) (r : Rd) : s.Stored (s.answer t l r) := by
  unfold State.answer
  split
  · split
    · exact State.strayResponse_stored ..
    · exact State.emit_stored ..
  · exact State.Stored.refl s

/-- What a fold over a list of numbers leaves: any relation that each act keeps. -/
theorem forAll_rel {R : State → State → Prop} (hr : ∀ a, R a a) (ht : ∀ {a b c}, R a b → R b c → R a c) (f : Nat → State → State)
    (hf : ∀ k a, R a (f k a)) (l : List Nat) (a : State) : R a (forAll l f a) :=
  foldl_rel hr ht (fun s k => f k s) (fun a b => hf b a) l a

theorem State.clearHalf_stored (s : State) (h l : Nat) : s.Stored (s.clearHalf h l) := by
  refine State.Stored.trans ?_ (State.setDir_stored ..)
  exact forAll_rel State.Stored.refl State.Stored.trans _ (fun _ _ => (State.setCopy_stored ..).trans (State.setWb_stored ..)) _ s

theorem State.evictProxy_stored (s : State) (l : Nat) (got : Option Copy) : s.Stored (s.evictProxy l got) := by
  have h := ((State.clearHalf_stored s (1 - homeOf l) l).trans (State.setSlc_stored _ (1 - homeOf l) l none)).trans
    (State.setCopy_stored _ (homeOf l) 14 l {})
  unfold State.evictProxy
  dsimp only
  split
  · split
    · exact h.trans (State.setWb_stored ..)
    · split
      · exact h.trans (State.setWb_stored ..)
      · exact h
  · exact h

theorem State.evictSlc_stored (s : State) (h l : Nat) : s.Stored (s.evictSlc h l) := by
  unfold State.evictSlc
  dsimp only
  split
  · exact State.Stored.refl s
  · split
    · split
      · exact (State.setSlc_stored ..).trans (State.hbmWrite_stored ..)
      · exact State.setSlc_stored ..
    · exact State.evictProxy_stored ..

theorem State.fillSlc_stored (s : State) (h l n : Nat) (data : List Byte) (dross dirty : Bool) (hint : Hint) :
    s.Stored (s.fillSlc h l n data dross dirty hint) := by
  unfold State.fillSlc
  dsimp only
  split
  · rename_i place s' way he
    refine State.Stored.trans ?_ ((State.cohTick_stored _).trans (State.setSlc_stored ..))
    split at he
    · cases he; exact State.setSlc_stored ..
    · simp only [Option.map_eq_some_iff, Prod.mk.injEq] at he
      obtain ⟨v, -, rfl, -⟩ := he
      exact (State.setSlc_stored ..).trans (State.evictSlc_stored ..)
  · exact State.setSlc_stored ..

theorem State.touchSlc_stored (s : State) (h l n : Nat) (hint : Hint) : s.Stored (s.touchSlc h l n hint) := by
  unfold State.touchSlc
  split
  · exact State.Stored.refl s
  · split
    · exact State.Stored.refl s
    · exact (State.cohTick_stored _).trans (State.setSlc_stored ..)

theorem State.Stored.ite {s a b : State} {c : Prop} [Decidable c] (ha : s.Stored a) (hb : s.Stored b) : s.Stored (if c then a else b) := by
  split <;> assumption

/-- A lookup of a line at a half: it may move lines of the half's cache and write a victim home. -/
theorem State.lineData_stored (s : State) (h l n : Nat) (hint : Hint) : s.Stored (s.lineData h l n hint).1 := by
  unfold State.lineData
  generalize (if s.isRetired l = true then none else s.slcLine h l) = o
  cases o with
  | some c => exact (State.touchSlc_stored ..).trans (State.countLook_stored ..)
  | none =>
    have h0 := State.countLook_stored s h n false
    by_cases hh : homeOf l = h
    · simp only [hh, if_true]
      have h1 := State.Stored.ite (c := ((s.countLook h n false).hbmPeek l).fails = true) (h0.trans (State.reportFail_metered _ l).stored) h0
      refine State.Stored.ite (State.Stored.trans ?_ (State.fillSlc_stored ..)) ?_ <;>
        exact State.Stored.ite h1 (h1.trans (State.charge_metered _ l).stored)
    · simp only [hh, if_false]; exact h0

theorem State.putLine_stored (s : State) (h l n : Nat) (data : List Byte) (dross : Bool) (hint : Hint) :
    s.Stored (s.putLine h l n data dross hint) := by
  unfold State.putLine
  split
  · exact (State.setSlc_stored ..).trans (State.hbmWrite_stored ..)
  · split
    · exact (State.setSlc_stored ..).trans (State.touchSlc_stored ..)
    · split
      · exact State.fillSlc_stored ..
      · split
        · exact State.hbmWrite_stored ..
        · exact State.Stored.refl s

theorem State.keepAtProxy_stored (s : State) (h l n : Nat) (t : Txn) (r : Rd) : s.Stored (s.keepAtProxy h l n t r) := by
  unfold State.keepAtProxy
  split
  · exact (State.coh_stored ..).trans (State.fillSlc_stored ..)
  · exact State.Stored.refl s

theorem State.txnLine_stored (s : State) (h l n : Nat) (t : Txn) : s.Stored (s.txnLine h l n t).1 := by
  unfold State.txnLine
  split
  · exact State.Stored.refl s
  · exact State.lineData_stored ..

theorem State.finishGrant_stored (s : State) (h l n : Nat) (t : Txn) : s.Stored (s.finishGrant h l n t) := by
  unfold State.finishGrant
  have hx : s.Stored (if t.noData then ((s, { data := [], dross := false, status := St.ok, fails := false }) : State × Rd) else s.txnLine h l n t).1 := by
    split
    · exact State.Stored.refl s
    · exact State.txnLine_stored ..
  generalize (if t.noData then ((s, { data := [], dross := false, status := St.ok, fails := false }) : State × Rd) else s.txnLine h l n t) = x at hx
  dsimp only
  refine State.Stored.ite (hx.trans ?_) (hx.trans (State.setDir_stored ..))
  refine ((State.Stored.trans ?_ (State.setDir_stored ..)).trans (State.strayResponse_stored ..)).trans (State.closeTxn_stored ..)
  exact State.Stored.ite (State.putLine_stored ..) (State.Stored.refl _)

theorem State.finishRead_stored (s : State) (h l n : Nat) (t : Txn) : s.Stored (s.finishRead h l n t) :=
  (State.txnLine_stored s h l n t).trans ((((State.setDir_stored ..).trans (State.keepAtProxy_stored ..)).trans (State.answer_stored ..)).trans
    (State.closeTxn_stored ..))

theorem State.finishWrite_stored (s : State) (h l : Nat) (t : Txn) (st : StatusCode) : s.Stored (s.finishWrite h l t st) :=
  ((State.setDir_stored ..).trans (State.answer_stored ..)).trans (State.closeTxn_stored ..)

theorem State.mergeLine_stored (s : State) (h l n : Nat) (t : Txn) : s.Stored (s.mergeLine h l n t) := by
  unfold State.mergeLine
  split
  · exact (State.dropCopies_stored s l).trans (State.putLine_stored ..)
  · exact (State.dropCopies_stored s l).trans (State.hbmPartial_stored ..)

theorem State.finishEvict_stored (s : State) (h l n : Nat) (t : Txn) : s.Stored (s.finishEvict h l n t) := by
  refine State.Stored.trans ?_ ((State.setDir_stored ..).trans (State.closeTxn_stored ..))
  refine State.Stored.ite ?_ (State.evictProxy_stored ..)
  split
  · exact State.Stored.ite (State.putLine_stored ..) (State.Stored.refl s)
  · exact State.Stored.refl s

/-- A transaction whose snoops are answered is delivered or written, and changes only what a store can. -/
theorem State.finishTxn_stored (s : State) (h l : Nat) : s.Stored (s.finishTxn h l) := by
  unfold State.finishTxn
  dsimp only
  split
  · exact State.Stored.refl s
  · split
    · exact State.finishGrant_stored ..
    · exact State.finishGrant_stored ..
    · exact State.finishGrant_stored ..
    · exact State.finishRead_stored ..
    · exact (((State.dropCopies_stored s l).trans (State.putLine_stored ..)).trans (State.countLook_stored ..)).trans (State.finishWrite_stored ..)
    · exact ((State.mergeLine_stored ..).trans (State.countLook_stored ..)).trans (State.finishWrite_stored ..)
    · exact State.Stored.refl s
    · exact State.finishEvict_stored ..

theorem State.serveEntry_stored (s : State) (h l n : Nat) (t : Txn) : s.Stored (s.serveEntry h l n t) := by
  unfold State.serveEntry
  dsimp only
  have hs := fun e => (State.cohTick_stored s).trans (State.setDir_stored s.cohTick h l e)
  split
  · exact State.Stored.ite ((hs _).trans (State.finishTxn_stored ..)) (hs _)
  · exact hs _

theorem State.serve_stored (s : State) (h l n : Nat) (t : Txn) : s.Stored (s.serve h l n t) :=
  State.Stored.ite (State.serveEntry_stored ..) (State.setDir_stored ..)

theorem State.takeIn_stored (s : State) (h l n : Nat) (t : Txn) : s.Stored (s.takeIn h l n t) := by
  unfold State.takeIn
  refine State.Stored.ite (State.serve_stored ..) (State.Stored.ite (State.serve_stored ..) ?_)
  split
  · exact State.refuse_stored ..
  · have h1 := fun e k t => ((State.setDir_stored s h l e).trans (State.addReg_stored _ (slcPartAddr h n 0x20) 64 1)).trans (State.serveEntry_stored _ h k n t)
    exact State.Stored.ite ((h1 _ _ _).trans (State.serve_stored ..)) (h1 _ _ _)

/-- A request at a directory, whatever becomes of it, changes only what a store can. -/
theorem State.request_stored (s : State) (h l n : Nat) (tally : Bool) (t : Txn) : s.Stored (s.request h l n tally t) := by
  unfold State.request
  dsimp only
  have h1 : s.Stored (if tally then ({ s with coh := { s.coh with tallies := s.coh.tallies.filter (fun x =>
      !(x.half == h && x.requester == t.requester && x.line == l && x.granted)) } } : State) else s) := State.Stored.ite (State.coh_stored ..) (State.Stored.refl s)
  generalize (if tally then ({ s with coh := { s.coh with tallies := s.coh.tallies.filter (fun x =>
      !(x.half == h && x.requester == t.requester && x.line == l && x.granted)) } } : State) else s) = s1 at h1 ⊢
  exact State.Stored.ite (State.Stored.refl s) (State.Stored.ite (h1.trans (State.refuse_stored ..)) (State.Stored.ite (h1.trans (State.refuse_stored ..))
    (h1.trans (State.takeIn_stored ..))))

theorem State.afterEvict_stored (s : State) (h : Nat) (f : Option Nat) : s.Stored (s.afterEvict h f) := by
  unfold State.afterEvict
  split
  · exact State.Stored.refl s
  · split
    · exact State.Stored.ite (State.serve_stored ..) (State.Stored.refl s)
    · exact State.Stored.refl s

theorem State.advanceTxn_stored (s : State) (h l : Nat) : s.Stored (s.advanceTxn h l) := by
  unfold State.advanceTxn
  split
  · exact State.Stored.ite ((State.finishTxn_stored ..).trans (State.afterEvict_stored ..)) (State.Stored.refl s)
  · exact State.Stored.refl s

theorem State.snoopAgent_stored (s : State) (k : Snoop) (h a l : Nat) : s.Stored (s.snoopAgent k h a l).1 := by
  unfold State.snoopAgent
  split
  · split
    · exact State.Stored.refl s
    · exact State.setWb_stored ..
  · exact State.setCopy_stored ..

theorem State.snoopProxy_stored (s : State) (k : Snoop) (l : Nat) : s.Stored (s.snoopProxy k l).1 := by
  have inv : s.Stored ((s.clearHalf (1 - homeOf l) l).setSlc (1 - homeOf l) l none) := (State.clearHalf_stored ..).trans (State.setSlc_stored ..)
  unfold State.snoopProxy
  dsimp only
  split
  · exact State.Stored.refl s
  · refine State.Stored.trans ?_ (State.coh_stored ..)
    have h1 : s.Stored (forAll (List.range 14) (fun a (s : State) => s.setCopy (1 - homeOf l) a l
        { s.copyOf (1 - homeOf l) a l with st := if (s.copyOf (1 - homeOf l) a l).st == Moesi.i then Moesi.i else Moesi.s }) s) :=
      forAll_rel State.Stored.refl State.Stored.trans _ (fun _ _ => State.setCopy_stored ..) _ s
    generalize forAll (List.range 14) (fun a (s : State) => s.setCopy (1 - homeOf l) a l
        { s.copyOf (1 - homeOf l) a l with st := if (s.copyOf (1 - homeOf l) a l).st == Moesi.i then Moesi.i else Moesi.s }) s = s1 at h1 ⊢
    split
    · exact (State.Stored.ite (h1.trans (State.setDir_stored ..)) h1).trans (State.setSlc_stored ..)
    · exact State.Stored.ite (h1.trans (State.setDir_stored ..)) h1
  · exact inv.trans (State.coh_stored ..)

theorem State.snoopOther_stored (s : State) (k : Snoop) (l : Nat) : s.Stored (s.snoopOther k l).1 := by
  unfold State.snoopOther
  split
  · exact State.snoopProxy_stored ..
  · exact (State.snoopAgent_stored ..).trans (State.snoopProxy_stored ..)

theorem State.snoop_stored (s : State) (k : Snoop) (h a l : Nat) : s.Stored (s.snoop k h a l) := by
  unfold State.snoop
  dsimp only
  split
  · exact State.Stored.refl s
  · split
    · refine State.Stored.trans ?_ (State.setDir_stored ..)
      split
      · exact State.snoopOther_stored ..
      · exact State.snoopAgent_stored ..
    · exact State.Stored.refl s

theorem State.snoopAnswer_stored (s : State) (h a l : Nat) : s.Stored (s.snoopAnswer h a l) := by
  unfold State.snoopAnswer
  split
  · exact State.Stored.ite ((State.setDir_stored ..).trans (State.advanceTxn_stored ..)) (State.Stored.refl s)
  · exact State.Stored.refl s

theorem State.givenLine_stored (s : State) (h a l : Nat) (t : Txn) : s.Stored (s.givenLine h a l t).1 := by
  unfold State.givenLine
  dsimp only
  split
  · exact State.Stored.refl s
  · split
    · exact State.Stored.refl s
    · exact State.lineData_stored ..

theorem State.takeAtProxy_stored (s : State) (h l : Nat) (t : Txn) (data : List Byte) (dross : Bool) :
    s.Stored (s.takeAtProxy h l t data dross) := by
  unfold State.takeAtProxy
  dsimp only
  have h1 : ∀ k n d x b hint, s.Stored (({ s with coh := k } : State).fillSlc (1 - h) l n d x b hint) :=
    fun k n d x b hint => (State.coh_stored ..).trans (State.fillSlc_stored ..)
  split
  · exact State.Stored.ite ((h1 ..).trans (State.serveEntry_stored ..)) (h1 ..)
  · exact h1 ..

theorem State.takeAtAgent_stored (s : State) (h a l : Nat) (t : Txn) (data : List Byte) (dross : Bool) :
    s.Stored (s.takeAtAgent h a l t data dross) := by
  unfold State.takeAtAgent
  have h1 := fun c => (State.Stored.ite (c := (decide (8 ≤ a) && t.kind != .rds) = true) (State.tick_stored s) (State.Stored.refl s)).trans
    (State.setCopy_stored _ h a l c)
  exact State.Stored.ite ((h1 _).trans (State.coh_stored ..)) (h1 _)

theorem State.takeLine_stored (s : State) (h a l : Nat) (t : Txn) : s.Stored (s.takeLine h a l t) :=
  State.Stored.ite ((State.givenLine_stored ..).trans (State.takeAtProxy_stored ..)) ((State.givenLine_stored ..).trans (State.takeAtAgent_stored ..))

theorem State.complete_stored (s : State) (h a l : Nat) : s.Stored (s.complete h a l) := by
  unfold State.complete
  split
  · exact State.Stored.ite ((State.takeLine_stored ..).trans (State.closeTxn_stored ..)) (State.Stored.refl s)
  · exact State.Stored.refl s

theorem State.runSnoops_stored (s : State) (h l : Nat) : s.Stored (s.runSnoops h l) := by
  refine forAll_rel State.Stored.refl State.Stored.trans _ (fun a s => State.Stored.ite ?_ (State.Stored.refl s)) _ s
  exact (foldl_rel State.Stored.refl State.Stored.trans _ (fun _ _ => State.snoop_stored ..) _ s).trans (State.snoopAnswer_stored ..)

theorem State.runTxn_stored (s : State) (h l : Nat) : s.Stored (s.runTxn h l) := by
  unfold State.runTxn
  split
  · exact State.Stored.refl s
  · refine State.Stored.trans (State.Stored.ite ?_ (State.Stored.refl s)) (State.runSnoops_stored ..)
    split
    · exact State.runSnoops_stored ..
    · exact State.Stored.refl s

theorem State.fetchLine_stored (s : State) (h a l n : Nat) (store : Bool) : s.Stored (s.fetchLine h a l n store) := by
  unfold State.fetchLine
  refine State.Stored.ite (State.Stored.refl s) ?_
  refine State.Stored.trans ?_ (State.complete_stored ..)
  have h1 : ∀ t, s.Stored ((s.request h l n (s.granted h a l) t).runTxn h l) := fun t => (State.request_stored ..).trans (State.runTxn_stored ..)
  exact State.Stored.ite ((((h1 _).trans ((State.request_stored ..).trans (State.runTxn_stored ..))).trans (State.complete_stored ..)).trans (State.runTxn_stored ..)) (h1 _)

theorem State.homeSend_stored (s : State) (h l n : Nat) (tally : Bool) (t : Txn) : s.Stored (s.homeSend h l n tally t) := by
  unfold State.homeSend
  dsimp only
  repeat' split
  all_goals first
    | exact State.request_stored ..
    | exact (State.countLook_stored ..).trans (State.request_stored ..)

theorem State.homeRun_stored (s : State) (h l n : Nat) (t : Txn) : s.Stored (s.homeRun h l n t) :=
  (State.homeSend_stored ..).trans (State.runTxn_stored ..)

theorem State.readAtHome_stored (s : State) (l : Nat) : s.Stored (s.readAtHome l) := by
  unfold State.readAtHome
  have h1 := State.Stored.ite (c := (s.newest l).fails = true) (State.reportFail_metered s l).stored (State.Stored.refl s)
  exact State.Stored.ite (h1.trans (State.charge_metered _ l).stored) h1

theorem State.homeRead_stored (s : State) (l n : Nat) (p : Via) : s.Stored (s.homeRead l n p) :=
  State.Stored.ite (State.readAtHome_stored ..) (State.homeRun_stored ..)

/-- Reading a line may move it between caches and write a victim home, as a store does; nothing is left to judge. -/
theorem State.noteRead_stored (s : State) (l : Nat) (p : Via) : s.Stored (s.noteRead l p) := by
  unfold State.noteRead
  dsimp only
  split
  · exact State.readAtHome_stored ..
  · exact State.homeRead_stored ..
  · rename_i n c _ _
    have h1 := State.Stored.ite (c := s.lineBusy l = true) (State.Stored.refl s) (State.fetchLine_stored s (c / 8) (c % 8) l n false)
    exact State.Stored.ite h1 (h1.trans (State.homeRead_stored ..))

theorem State.writeAtHome_stored (s : State) (l n off : Nat) (bytes : List Byte) (dross : Bool) : s.Stored (s.writeAtHome l n off bytes dross) :=
  State.Stored.ite ((State.dropCopies_stored s l).trans (State.putLine_stored ..))
    (State.Stored.ite ((State.dropCopies_stored s l).trans (State.putLine_stored ..)) ((State.dropCopies_stored s l).trans (State.hbmPartial_stored ..)))

theorem State.homeWrite_stored (s : State) (l n off : Nat) (bytes : List Byte) (dross : Bool) (p : Via) : s.Stored (s.homeWrite l n off bytes dross p) :=
  State.Stored.ite (State.writeAtHome_stored ..) (State.homeRun_stored ..)

/-- A write of bytes into a line keeps the canonical form and leaves nothing to judge. -/
theorem State.writeLine_stored (s : State) (l off : Nat) (bytes : List Byte) (dross : Bool) (p : Via) : s.Stored (s.writeLine l off bytes dross p).1 := by
  unfold State.writeLine
  dsimp only
  split
  · exact State.Stored.refl s
  · split
    · exact State.writeAtHome_stored ..
    · exact State.homeWrite_stored ..
    · rename_i n c _ _
      have h1 := State.Stored.ite (c := s.lineBusy l = true) (State.Stored.refl s) (State.fetchLine_stored s (c / 8) (c % 8) l n true)
      generalize (if s.lineBusy l = true then s else s.fetchLine (c / 8) (c % 8) l n true) = t at h1 ⊢
      split
      · exact h1.trans (State.setCopy_stored ..)
      · exact h1.trans (State.homeWrite_stored ..)

theorem State.markDirty_stored (s : State) (n ppa len : Nat) : s.Stored (s.markDirty n ppa len) := by
  unfold State.markDirty
  dsimp only
  split
  · exact State.Stored.refl s
  · exact ⟨id, s.mem, s.lines, s.coh, _, s.hbm, s.regs, s.ras, s.freeCtr, s.pcie, s.out, rfl⟩

/-- Reading a range of Pn's PPA leaves nothing to judge. -/
theorem State.ppaReport_stored (s : State) (n ppa len : Nat) (p : Via) : s.Stored (s.ppaReport n ppa len p) :=
  State.Stored.ite (foldl_rel State.Stored.refl State.Stored.trans _ (fun _ _ => State.noteRead_stored ..) _ s) (State.Stored.refl s)

/-- A write of a range of Pn's PPA keeps the canonical form of HBM, and changes only what a store can. -/
theorem State.ppaStore_stored (s : State) (n ppa : Nat) (bytes : List Byte) (dross : Bool) (p : Via) : s.Stored (s.ppaStore n ppa bytes dross p).1 := by
  refine State.Stored.trans ?_ (State.markDirty_stored _ _ _ _)
  exact foldl_rel (R := fun (a b : State × List Byte × StatusCode) => a.1.Stored b.1) (fun a => State.Stored.refl a.1)
    (fun h1 h2 => h1.trans h2) (Sys2Proof.Machine.writePiece n dross p) (fun a b => State.writeLine_stored ..)
    (pieces (bytes.length / 64 + 2) ppa bytes.length) (s, bytes, St.ok)

/-- A hub write beyond the size changes nothing. -/
theorem State.hubWrite_beyond {s : State} {n ppa : Nat} {bytes : List Byte} {p : Via} (h : s.inPpa n ppa bytes.length = false) :
    s.hubWrite n ppa bytes p = (s, St.faultBounds) := by simp [State.hubWrite, h]

/-- Where Pn runs no protected image, a hub write stores, or is beyond the size and changes nothing; nothing is left to judge. -/
theorem State.hubWrite_stored {s : State} {n : Nat} (h : (s.code n).images = []) (ppa : Nat) (bytes : List Byte) (p : Via) :
    s.Stored (s.hubWrite n ppa bytes p).1 := by
  unfold State.hubWrite
  split
  · exact State.Stored.refl s
  · split
    · rename_i hp; simp [State.protected, h] at hp
    · exact State.ppaStore_stored ..

theorem State.hubWrite_wf (s : State) (n ppa : Nat) (bytes : List Byte) (p : Via) (h : Memory.wf s.mem = true) :
    Memory.wf (s.hubWrite n ppa bytes p).1.mem = true := by
  unfold State.hubWrite
  split
  · exact h
  · split
    · exact h
    · exact (State.ppaStore_stored ..).wf h

theorem State.zeroRegion_wf (s : State) (pch r : Nat) (h : Memory.wf s.mem = true) : Memory.wf (s.zeroRegion pch r).mem = true :=
  Tab.wf_filter _ h

theorem Memory.wf_reset : Memory.wf State.reset.mem = true := rfl

/-- A line written full and unfailing reads back what was written. -/
theorem State.byteAt_storeLine (s : State) (l : Nat) (data : List Byte) (dross : Bool) (a : Nat) :
    (s.storeLine l data dross).byteAt a = if l * 64 ≤ a ∧ a < l * 64 + (bslice data 0 64).length then (bslice data 0 64).getD (a - l * 64) 0
      else s.byteAt a := Tab.get_setList 0 s.mem (l * 64) (bslice data 0 64) a

/-! The ends of a meaning. -/

/-- With nothing left to judge a meaning answers its state. -/
theorem closing_quiet {s : State} (h : s.dues = []) : closing s = .next s := by simp [closing, h]

/-- A meaning always answers, with nothing left to judge. -/
theorem closing_answers (s : State) : ∃ t, closing s = .next t ∧ t.dues = [] := by
  unfold closing
  split
  · rename_i h; exact ⟨s, rfl, by simpa using h⟩
  · exact ⟨_, rfl, rfl⟩

@[simp] theorem onlyIf_true (f : State → State) (s : State) : onlyIf true f s = f s := rfl
@[simp] theorem onlyIf_false (f : State → State) (s : State) : onlyIf false f s = s := rfl

/-- A path that presents what it carries and reaches Pn's registers runs what the register does. -/
theorem State.onPart_reached {s : State} {p : Path} {n : Nat} {f : State → State} (h1 : s.pathShut p = false) (h2 : reaches p n = true) :
    s.onPart p n f = f s := by simp [State.onPart, h1, h2]

theorem State.onOper_reached {s : State} {p : Path} {f : State → State} (h1 : s.pathShut p = false) (h2 : isOper p = true) :
    s.onOper p f = f s := by simp [State.onOper, h1, h2]

/-- With no cell waiting there is no cell to wake. -/
theorem State.wakeCells_none {s : State} (h : s.noCellWaits) : s.wakeCells = s := by
  have e : s.cells.filter (fun e => e.2.waiting.isSome) = [] := by
    rw [List.filter_eq_nil_iff]; intro e he; simp [h e he]
  unfold State.wakeCells; rw [e]; rfl

/-! Two writes of one key. -/

theorem Tab.erase_erase {α : Type} (k : Nat) (t : Tab α) : Tab.erase k (Tab.erase k t) = Tab.erase k t := by
  induction t with
  | nil => rfl
  | cons e t ih => obtain ⟨k', v⟩ := e; by_cases h : k' = k <;> simp [Tab.erase, h, ih]

theorem Tab.erase_insert {α : Type} (k : Nat) (v : α) (t : Tab α) (h : Tab.erase k t = t) : Tab.erase k (Tab.insert k v t) = t := by
  induction t with
  | nil => simp [Tab.insert, Tab.erase]
  | cons e t ih =>
    obtain ⟨k', v'⟩ := e
    have hk : k' ≠ k := by
      intro hk
      have hl := congrArg List.length h
      have hle : ∀ u : Tab α, (Tab.erase k u).length ≤ u.length := by
        intro u
        induction u with
        | nil => simp [Tab.erase]
        | cons x u iu => obtain ⟨j, w⟩ := x; by_cases hj : j = k <;> simp [Tab.erase, hj] <;> omega
      have h2 := hle t
      simp only [Tab.erase, hk, if_true, List.length_cons] at hl
      omega
    have h3 : Tab.erase k t = t := by simpa [Tab.erase, hk] using h
    by_cases hlt : k < k'
    · simp [Tab.insert, hlt, Tab.erase, hk, h3]
    · simp [Tab.insert, hlt, Tab.erase, hk, ih h3]

/-- The later of two writes of one key stands. -/
theorem Tab.set_set {α : Type} [DecidableEq α] (d : α) (t : Tab α) (k : Nat) (v w : α) : Tab.set d (Tab.set d t k v) k w = Tab.set d t k w := by
  have e : Tab.erase k (Tab.set d t k v) = Tab.erase k t := by
    unfold Tab.set
    split
    · exact Tab.erase_erase k t
    · exact Tab.erase_insert k v _ (Tab.erase_erase k t)
  unfold Tab.set at e ⊢
  rw [e]

/-- Mapping the values of a canonical table maps what each key reads as, where the default stays. -/
theorem Tab.get_mapVals {α : Type} [DecidableEq α] (d : α) (g : Nat → α → α) (hg : ∀ k, g k d = d) (t : Tab α) (h : Tab.wf d t = true) (k : Nat) :
    Tab.get d (Tab.mapVals d g t) k = g k (Tab.get d t k) := by
  induction t with
  | nil => simp [Tab.mapVals, Tab.get, hg]
  | cons e t ih =>
    obtain ⟨k', v⟩ := e
    simp only [Tab.wf, Bool.and_eq_true] at h
    have ih' := ih h.2
    by_cases hk : k' = k
    · subst hk
      have hd : Tab.get d t k' = d := Tab.get_of_above h.1.2 (Nat.le_refl _)
      by_cases hv : g k' v = d
      · simp [Tab.mapVals, Tab.get, hv, ih', hd, hg]
      · simp [Tab.mapVals, Tab.get, hv]
    · by_cases hv : g k' v = d <;> simp [Tab.mapVals, Tab.get, hv, hk, ih']

end Sys2Proof.Machine
end

