-- ==== Sys2Proof/WellFormed.lean ====
section
/-!
DEFINITION. Which commands are well formed: the ranges of operands that their types do not give already. A command's meaning
is total: these checks state what a sender of commands may present.
-/

namespace Sys2Proof

/-- The operands of a command lie in the ranges of the spec. -/
def Instr.wf : Instr → Bool
  | .registerWrite _ addr len _ => decide (addr < 2 ^ 44) && decide (1 ≤ len)
  | .messageIngress (.message _ _ pl) => pl.length == 64
  | .regionZeroed _ r => decide (r < 18432)
  | .hmcFullWrite line d _ => decide (line < 0x240000000) && d.length == 64
  | .hmcPartialWrite line _ d => decide (line < 0x240000000) && d.length == 64
  | .hmcRead line => decide (line < 0x240000000)
  | .homeFullWrite _ _ line d _ _ _ => decide (line < 0x240000000) && d.length == 64
  | .homePartialWrite _ _ line _ d _ _ => decide (line < 0x240000000) && d.length == 64
  | .homeRead _ _ line _ _ => decide (line < 0x240000000)
  | .rds _ _ line _ _ => decide (line < 0x240000000)
  | .rdu _ _ line _ _ => decide (line < 0x240000000)
  | .upgrade _ _ line _ => decide (line < 0x240000000)
  | .writeBack _ _ line => decide (line < 0x240000000)
  | .evictionNotice _ _ line => decide (line < 0x240000000)
  | .snpShared _ _ line => decide (line < 0x240000000)
  | .snpUnique _ _ line => decide (line < 0x240000000)
  | .snpInv _ _ line => decide (line < 0x240000000)
  | .snpCur _ _ line => decide (line < 0x240000000)
  | .snoopAnswer _ _ line => decide (line < 0x240000000)
  | .writeBackGrant _ _ line => decide (line < 0x240000000)
  | .stale _ _ line => decide (line < 0x240000000)
  | .retry _ _ line => decide (line < 0x240000000)
  | .retryGrant _ _ line => decide (line < 0x240000000)
  | .completionAck _ _ line => decide (line < 0x240000000)
  | .snoopTimeout _ _ line => decide (line < 0x240000000)
  | .bar2Read _ off len _ => decide (off < 2 ^ 36) && decide (1 ≤ len)
  | .bar2Write _ off d _ => decide (off < 2 ^ 36) && decide (1 ≤ d.length)
  | .msixUnmask fn v => decide (v < (if fn.val = 16 then 2048 else 64))
  | .railCanary r => decide (r.rail < 26)
  | _ => true

end Sys2Proof
end

