-- ==== Sys2Proof/Laws/PerInstr.lean ====
section
/-!
SUPPORT. What holds of every command as syntax, one lemma for each constructor: a well-formed command names only lines of HBM.
-/

namespace Sys2Proof

/-- The HBM line that a command names (09 R221; 10 R240), its line address. -/
def Instr.lineOf : Instr → Option Nat
  | .rds _ _ line _ _ => some line
  | .rdu _ _ line _ _ => some line
  | .upgrade _ _ line _ => some line
  | .writeBack _ _ line => some line
  | .evictionNotice _ _ line => some line
  | .homeRead _ _ line _ _ => some line
  | .homeFullWrite _ _ line _ _ _ _ => some line
  | .homePartialWrite _ _ line _ _ _ _ => some line
  | .snpShared _ _ line => some line
  | .snpUnique _ _ line => some line
  | .snpInv _ _ line => some line
  | .snpCur _ _ line => some line
  | .snoopAnswer _ _ line => some line
  | .writeBackGrant _ _ line => some line
  | .stale _ _ line => some line
  | .retry _ _ line => some line
  | .retryGrant _ _ line => some line
  | .completionAck _ _ line => some line
  | .snoopTimeout _ _ line => some line
  | .hmcRead line => some line
  | .hmcFullWrite line _ _ => some line
  | .hmcPartialWrite line _ _ => some line
  | _ => none

end Sys2Proof

open Sys2Proof

/-- Every line that a well-formed command names lies in HBM: 0x240000000 lines of 64 bytes (01 R22; 10 R240). -/
def Sys2Proof.Laws.Lines.Statement (i : Sys2Proof.Instr) : Prop := i.wf = true → ∀ l, i.lineOf = some l → l < 0x240000000

theorem Sys2Proof.Laws.Lines.registerWrite (p : Path) (addr len value : Nat) : Sys2Proof.Laws.Lines.Statement (.registerWrite p addr len value) :=
  fun _ _ e => nomatch e
theorem Sys2Proof.Laws.Lines.patApply (p : Path) (value : BitVec 32) : Sys2Proof.Laws.Lines.Statement (.patApply p value) :=
  fun _ _ e => nomatch e
theorem Sys2Proof.Laws.Lines.buildDrainDone (n : PartId) : Sys2Proof.Laws.Lines.Statement (.buildDrainDone n) :=
  fun _ _ e => nomatch e
theorem Sys2Proof.Laws.Lines.zeroFillComplete (n : PartId) : Sys2Proof.Laws.Lines.Statement (.zeroFillComplete n) :=
  fun _ _ e => nomatch e
theorem Sys2Proof.Laws.Lines.buildFlushDone (n : PartId) : Sys2Proof.Laws.Lines.Statement (.buildFlushDone n) :=
  fun _ _ e => nomatch e
theorem Sys2Proof.Laws.Lines.partitionBuilt (n : PartId) : Sys2Proof.Laws.Lines.Statement (.partitionBuilt n) :=
  fun _ _ e => nomatch e
theorem Sys2Proof.Laws.Lines.patternStoreWritten : Sys2Proof.Laws.Lines.Statement .patternStoreWritten :=
  fun _ _ e => nomatch e
theorem Sys2Proof.Laws.Lines.patCommit (p : Path) (value : BitVec 32) : Sys2Proof.Laws.Lines.Statement (.patCommit p value) :=
  fun _ _ e => nomatch e
theorem Sys2Proof.Laws.Lines.commitComplete (scope : Fin 17) : Sys2Proof.Laws.Lines.Statement (.commitComplete scope) :=
  fun _ _ e => nomatch e
theorem Sys2Proof.Laws.Lines.messageIngress (m : Presented) : Sys2Proof.Laws.Lines.Statement (.messageIngress m) :=
  fun _ _ e => nomatch e
theorem Sys2Proof.Laws.Lines.messageArrival (k cycles : Nat) : Sys2Proof.Laws.Lines.Statement (.messageArrival k cycles) :=
  fun _ _ e => nomatch e
theorem Sys2Proof.Laws.Lines.grantArrival (k : Nat) : Sys2Proof.Laws.Lines.Statement (.grantArrival k) :=
  fun _ _ e => nomatch e
theorem Sys2Proof.Laws.Lines.tallyReturnArrival (k : Nat) : Sys2Proof.Laws.Lines.Statement (.tallyReturnArrival k) :=
  fun _ _ e => nomatch e
theorem Sys2Proof.Laws.Lines.tallyWaitTimeout (cell : CellId) : Sys2Proof.Laws.Lines.Statement (.tallyWaitTimeout cell) :=
  fun _ _ e => nomatch e
theorem Sys2Proof.Laws.Lines.nop (cell : CellId) : Sys2Proof.Laws.Lines.Statement (.nop cell) :=
  fun _ _ e => nomatch e
theorem Sys2Proof.Laws.Lines.mma (cell : CellId) (f : MmaF) : Sys2Proof.Laws.Lines.Statement (.mma cell f) :=
  fun _ _ e => nomatch e
theorem Sys2Proof.Laws.Lines.zac (cell : CellId) (td : Fin 4) (int32 : Bool) : Sys2Proof.Laws.Lines.Statement (.zac cell td int32) :=
  fun _ _ e => nomatch e
theorem Sys2Proof.Laws.Lines.lda (cell : CellId) (td : Fin 4) (f : Fin 4) (ra : Fin 32) : Sys2Proof.Laws.Lines.Statement (.lda cell td f ra) :=
  fun _ _ e => nomatch e
theorem Sys2Proof.Laws.Lines.sta (cell : CellId) (ts : Fin 4) (f : Fin 4) (ra : Fin 32) : Sys2Proof.Laws.Lines.Statement (.sta cell ts f ra) :=
  fun _ _ e => nomatch e
theorem Sys2Proof.Laws.Lines.qnt (cell : CellId) (f : QntF) : Sys2Proof.Laws.Lines.Statement (.qnt cell f) :=
  fun _ _ e => nomatch e
theorem Sys2Proof.Laws.Lines.qnts (cell : CellId) (f : QntF) (rc : Fin 32) : Sys2Proof.Laws.Lines.Statement (.qnts cell f rc) :=
  fun _ _ e => nomatch e
theorem Sys2Proof.Laws.Lines.eadd (cell : CellId) (td ts : Fin 4) : Sys2Proof.Laws.Lines.Statement (.eadd cell td ts) :=
  fun _ _ e => nomatch e
theorem Sys2Proof.Laws.Lines.emul (cell : CellId) (td ts : Fin 4) : Sys2Proof.Laws.Lines.Statement (.emul cell td ts) :=
  fun _ _ e => nomatch e
theorem Sys2Proof.Laws.Lines.emax (cell : CellId) (td ts : Fin 4) : Sys2Proof.Laws.Lines.Statement (.emax cell td ts) :=
  fun _ _ e => nomatch e
theorem Sys2Proof.Laws.Lines.ecpy (cell : CellId) (td ts : Fin 4) : Sys2Proof.Laws.Lines.Statement (.ecpy cell td ts) :=
  fun _ _ e => nomatch e
theorem Sys2Proof.Laws.Lines.escl (cell : CellId) (td : Fin 4) (ra : Fin 32) (axis : Bool) : Sys2Proof.Laws.Lines.Statement (.escl cell td ra axis) :=
  fun _ _ e => nomatch e
theorem Sys2Proof.Laws.Lines.ebias (cell : CellId) (td : Fin 4) (ra : Fin 32) (axis : Bool) : Sys2Proof.Laws.Lines.Statement (.ebias cell td ra axis) :=
  fun _ _ e => nomatch e
theorem Sys2Proof.Laws.Lines.eact (cell : CellId) (td : Fin 4) (ra : Fin 32) : Sys2Proof.Laws.Lines.Statement (.eact cell td ra) :=
  fun _ _ e => nomatch e
theorem Sys2Proof.Laws.Lines.erow (cell : CellId) (ts : Fin 4) (ra : Fin 32) (axis : Bool) (fn : BitVec 2) : Sys2Proof.Laws.Lines.Statement (.erow cell ts ra axis fn) :=
  fun _ _ e => nomatch e
theorem Sys2Proof.Laws.Lines.ecvt (cell : CellId) (td : Fin 4) (ra : Fin 32) (axis : Bool) (dir : Bool) : Sys2Proof.Laws.Lines.Statement (.ecvt cell td ra axis dir) :=
  fun _ _ e => nomatch e
theorem Sys2Proof.Laws.Lines.snd (cell : CellId) (f : SndF) : Sys2Proof.Laws.Lines.Statement (.snd cell f) :=
  fun _ _ e => nomatch e
theorem Sys2Proof.Laws.Lines.rcv (cell : CellId) (ra : Fin 32) (mailbox : Fin 16) (nb : Bool) (rd : Fin 32) : Sys2Proof.Laws.Lines.Statement (.rcv cell ra mailbox nb rd) :=
  fun _ _ e => nomatch e
theorem Sys2Proof.Laws.Lines.grant (cell : CellId) (rb : Fin 32) (mailbox : Fin 16) (n : Fin 64) : Sys2Proof.Laws.Lines.Statement (.grant cell rb mailbox n) :=
  fun _ _ e => nomatch e
theorem Sys2Proof.Laws.Lines.rtn (cell : CellId) (rb : Fin 32) (mailbox : Fin 16) (n : Fin 64) : Sys2Proof.Laws.Lines.Statement (.rtn cell rb mailbox n) :=
  fun _ _ e => nomatch e
theorem Sys2Proof.Laws.Lines.mbcfg (cell : CellId) (rb : Fin 32) (mailbox : Fin 16) (standing urgent : Bool) : Sys2Proof.Laws.Lines.Statement (.mbcfg cell rb mailbox standing urgent) :=
  fun _ _ e => nomatch e
theorem Sys2Proof.Laws.Lines.movr (cell : CellId) (f : MovF) : Sys2Proof.Laws.Lines.Statement (.movr cell f) :=
  fun _ _ e => nomatch e
theorem Sys2Proof.Laws.Lines.movw (cell : CellId) (f : MovF) : Sys2Proof.Laws.Lines.Statement (.movw cell f) :=
  fun _ _ e => nomatch e
theorem Sys2Proof.Laws.Lines.movr2 (cell : CellId) (f : MovF) (rd re : Fin 32) : Sys2Proof.Laws.Lines.Statement (.movr2 cell f rd re) :=
  fun _ _ e => nomatch e
theorem Sys2Proof.Laws.Lines.movw2 (cell : CellId) (f : MovF) (rd re : Fin 32) : Sys2Proof.Laws.Lines.Statement (.movw2 cell f rd re) :=
  fun _ _ e => nomatch e
theorem Sys2Proof.Laws.Lines.moverAccessReturn (cell : CellId) (k : Nat) (err : Option StatusCode) : Sys2Proof.Laws.Lines.Statement (.moverAccessReturn cell k err) :=
  fun _ _ e => nomatch e
theorem Sys2Proof.Laws.Lines.mwait (cell : CellId) (qid : Fin 4) (n : Fin 64) (ra : Fin 32) : Sys2Proof.Laws.Lines.Statement (.mwait cell qid n ra) :=
  fun _ _ e => nomatch e
theorem Sys2Proof.Laws.Lines.wait (cell : CellId) (rb : Fin 32) (mailbox : Fin 16) (n : Fin 64) : Sys2Proof.Laws.Lines.Statement (.wait cell rb mailbox n) :=
  fun _ _ e => nomatch e
theorem Sys2Proof.Laws.Lines.bar (cell : CellId) (mask : BitVec 16) (bid : Fin 16) : Sys2Proof.Laws.Lines.Statement (.bar cell mask bid) :=
  fun _ _ e => nomatch e
theorem Sys2Proof.Laws.Lines.fence (cell : CellId) : Sys2Proof.Laws.Lines.Statement (.fence cell) :=
  fun _ _ e => nomatch e
theorem Sys2Proof.Laws.Lines.yld (cell : CellId) (lrt : BitVec 16) : Sys2Proof.Laws.Lines.Statement (.yld cell lrt) :=
  fun _ _ e => nomatch e
theorem Sys2Proof.Laws.Lines.cellSaveDone (cell : CellId) : Sys2Proof.Laws.Lines.Statement (.cellSaveDone cell) :=
  fun _ _ e => nomatch e
theorem Sys2Proof.Laws.Lines.cellRestoreDone (cell : CellId) : Sys2Proof.Laws.Lines.Statement (.cellRestoreDone cell) :=
  fun _ _ e => nomatch e
theorem Sys2Proof.Laws.Lines.li (cell : CellId) (rd : Fin 32) (imm : Word32) : Sys2Proof.Laws.Lines.Statement (.li cell rd imm) :=
  fun _ _ e => nomatch e
theorem Sys2Proof.Laws.Lines.addi (cell : CellId) (rd ra : Fin 32) (imm : Word32) : Sys2Proof.Laws.Lines.Statement (.addi cell rd ra imm) :=
  fun _ _ e => nomatch e
theorem Sys2Proof.Laws.Lines.andi (cell : CellId) (rd ra : Fin 32) (imm : Word32) : Sys2Proof.Laws.Lines.Statement (.andi cell rd ra imm) :=
  fun _ _ e => nomatch e
theorem Sys2Proof.Laws.Lines.add (cell : CellId) (rd ra rb : Fin 32) : Sys2Proof.Laws.Lines.Statement (.add cell rd ra rb) :=
  fun _ _ e => nomatch e
theorem Sys2Proof.Laws.Lines.sub (cell : CellId) (rd ra rb : Fin 32) : Sys2Proof.Laws.Lines.Statement (.sub cell rd ra rb) :=
  fun _ _ e => nomatch e
theorem Sys2Proof.Laws.Lines.mul (cell : CellId) (rd ra rb : Fin 32) : Sys2Proof.Laws.Lines.Statement (.mul cell rd ra rb) :=
  fun _ _ e => nomatch e
theorem Sys2Proof.Laws.Lines.shli (cell : CellId) (rd ra : Fin 32) (sh : Fin 32) : Sys2Proof.Laws.Lines.Statement (.shli cell rd ra sh) :=
  fun _ _ e => nomatch e
theorem Sys2Proof.Laws.Lines.shri (cell : CellId) (rd ra : Fin 32) (sh : Fin 32) : Sys2Proof.Laws.Lines.Statement (.shri cell rd ra sh) :=
  fun _ _ e => nomatch e
theorem Sys2Proof.Laws.Lines.loop (cell : CellId) (ra : Fin 32) (end_ : BitVec 16) : Sys2Proof.Laws.Lines.Statement (.loop cell ra end_) :=
  fun _ _ e => nomatch e
theorem Sys2Proof.Laws.Lines.br (cell : CellId) (off : Word32) : Sys2Proof.Laws.Lines.Statement (.br cell off) :=
  fun _ _ e => nomatch e
theorem Sys2Proof.Laws.Lines.brc (cell : CellId) (ra rb : Fin 32) (cond : BitVec 3) (off : Word32) : Sys2Proof.Laws.Lines.Statement (.brc cell ra rb cond off) :=
  fun _ _ e => nomatch e
theorem Sys2Proof.Laws.Lines.halt (cell : CellId) (status : StatusCode) : Sys2Proof.Laws.Lines.Statement (.halt cell status) :=
  fun _ _ e => nomatch e
theorem Sys2Proof.Laws.Lines.reservedOpcode (cell : CellId) (word : Word64) : Sys2Proof.Laws.Lines.Statement (.reservedOpcode cell word) :=
  fun _ _ e => nomatch e
theorem Sys2Proof.Laws.Lines.fjSnd (core : CoreId) (addr desc : Word64) : Sys2Proof.Laws.Lines.Statement (.fjSnd core addr desc) :=
  fun _ _ e => nomatch e
theorem Sys2Proof.Laws.Lines.fjSndnb (core : CoreId) (addr desc : Word64) : Sys2Proof.Laws.Lines.Statement (.fjSndnb core addr desc) :=
  fun _ _ e => nomatch e
theorem Sys2Proof.Laws.Lines.fjRcv (core : CoreId) (addr rs2 : Word64) : Sys2Proof.Laws.Lines.Statement (.fjRcv core addr rs2) :=
  fun _ _ e => nomatch e
theorem Sys2Proof.Laws.Lines.fjRcvnb (core : CoreId) (addr rs2 : Word64) : Sys2Proof.Laws.Lines.Statement (.fjRcvnb core addr rs2) :=
  fun _ _ e => nomatch e
theorem Sys2Proof.Laws.Lines.fjGrant (core : CoreId) (rs1 rs2 : Word64) : Sys2Proof.Laws.Lines.Statement (.fjGrant core rs1 rs2) :=
  fun _ _ e => nomatch e
theorem Sys2Proof.Laws.Lines.fjRtn (core : CoreId) (rs1 rs2 : Word64) : Sys2Proof.Laws.Lines.Statement (.fjRtn core rs1 rs2) :=
  fun _ _ e => nomatch e
theorem Sys2Proof.Laws.Lines.fjMbcfg (core : CoreId) (rs1 rs2 : Word64) : Sys2Proof.Laws.Lines.Statement (.fjMbcfg core rs1 rs2) :=
  fun _ _ e => nomatch e
theorem Sys2Proof.Laws.Lines.fjWait (core : CoreId) (rs1 rs2 : Word64) : Sys2Proof.Laws.Lines.Statement (.fjWait core rs1 rs2) :=
  fun _ _ e => nomatch e
theorem Sys2Proof.Laws.Lines.fjTask (core : CoreId) (addr : Word64) : Sys2Proof.Laws.Lines.Statement (.fjTask core addr) :=
  fun _ _ e => nomatch e
theorem Sys2Proof.Laws.Lines.fjEvwait (core : CoreId) (rs1 : Word64) : Sys2Proof.Laws.Lines.Statement (.fjEvwait core rs1) :=
  fun _ _ e => nomatch e
theorem Sys2Proof.Laws.Lines.fjWaitTimeout (core : CoreId) : Sys2Proof.Laws.Lines.Statement (.fjWaitTimeout core) :=
  fun _ _ e => nomatch e
theorem Sys2Proof.Laws.Lines.illegalInstruction (core : CoreId) (word : BitVec 32) : Sys2Proof.Laws.Lines.Statement (.illegalInstruction core word) :=
  fun _ _ e => nomatch e
theorem Sys2Proof.Laws.Lines.coreInterrupt (core : CoreId) : Sys2Proof.Laws.Lines.Statement (.coreInterrupt core) :=
  fun _ _ e => nomatch e
theorem Sys2Proof.Laws.Lines.coreMemoryAccess (core : CoreId) (addr : Nat) (a : CoreAccess) : Sys2Proof.Laws.Lines.Statement (.coreMemoryAccess core addr a) :=
  fun _ _ e => nomatch e
theorem Sys2Proof.Laws.Lines.fjevtClear (core : CoreId) (mask : Word64) : Sys2Proof.Laws.Lines.Statement (.fjevtClear core mask) :=
  fun _ _ e => nomatch e
theorem Sys2Proof.Laws.Lines.allocJoin (core : CoreId) (rs1 rs2 : Word64) : Sys2Proof.Laws.Lines.Statement (.allocJoin core rs1 rs2) :=
  fun _ _ e => nomatch e
theorem Sys2Proof.Laws.Lines.allocGrowth (core : CoreId) (rs1 rs2 : Word64) : Sys2Proof.Laws.Lines.Statement (.allocGrowth core rs1 rs2) :=
  fun _ _ e => nomatch e
theorem Sys2Proof.Laws.Lines.free (core : CoreId) (rs1 rs2 : Word64) : Sys2Proof.Laws.Lines.Statement (.free core rs1 rs2) :=
  fun _ _ e => nomatch e
theorem Sys2Proof.Laws.Lines.stepBegin (core : CoreId) (rs1 rs2 : Word64) : Sys2Proof.Laws.Lines.Statement (.stepBegin core rs1 rs2) :=
  fun _ _ e => nomatch e
theorem Sys2Proof.Laws.Lines.stepEnd (core : CoreId) (rs1 rs2 : Word64) : Sys2Proof.Laws.Lines.Statement (.stepEnd core rs1 rs2) :=
  fun _ _ e => nomatch e
theorem Sys2Proof.Laws.Lines.reserveSet (core : CoreId) (rs1 rs2 : Word64) : Sys2Proof.Laws.Lines.Statement (.reserveSet core rs1 rs2) :=
  fun _ _ e => nomatch e
theorem Sys2Proof.Laws.Lines.codeLoad (p : Path) (n : PartId) (value : Word64) : Sys2Proof.Laws.Lines.Statement (.codeLoad p n value) :=
  fun _ _ e => nomatch e
theorem Sys2Proof.Laws.Lines.codeStop (p : Path) (n : PartId) (value : Word64) : Sys2Proof.Laws.Lines.Statement (.codeStop p n value) :=
  fun _ _ e => nomatch e
theorem Sys2Proof.Laws.Lines.clustersStopped (n : PartId) : Sys2Proof.Laws.Lines.Statement (.clustersStopped n) :=
  fun _ _ e => nomatch e
theorem Sys2Proof.Laws.Lines.codeImageChecked (n : PartId) : Sys2Proof.Laws.Lines.Statement (.codeImageChecked n) :=
  fun _ _ e => nomatch e
theorem Sys2Proof.Laws.Lines.frameReceived (port : PortId) (f : Frame) : Sys2Proof.Laws.Lines.Statement (.frameReceived port f) :=
  fun _ _ e => nomatch e
theorem Sys2Proof.Laws.Lines.rxqEventTimer (q : EthQId) : Sys2Proof.Laws.Lines.Statement (.rxqEventTimer q) :=
  fun _ _ e => nomatch e
theorem Sys2Proof.Laws.Lines.rxqEnable (p : Path) (q : EthQId) (value : Word64) : Sys2Proof.Laws.Lines.Statement (.rxqEnable p q value) :=
  fun _ _ e => nomatch e
theorem Sys2Proof.Laws.Lines.rxqDisable (p : Path) (q : EthQId) (value : Word64) : Sys2Proof.Laws.Lines.Statement (.rxqDisable p q value) :=
  fun _ _ e => nomatch e
theorem Sys2Proof.Laws.Lines.rxqPost (p : Path) (q : EthQId) (cqhead : Bool) (value : BitVec 32) : Sys2Proof.Laws.Lines.Statement (.rxqPost p q cqhead value) :=
  fun _ _ e => nomatch e
theorem Sys2Proof.Laws.Lines.gangStart (site : SiteId) (n : PartId) : Sys2Proof.Laws.Lines.Statement (.gangStart site n) :=
  fun _ _ e => nomatch e
theorem Sys2Proof.Laws.Lines.sliceEnd (site : SiteId) (n : PartId) : Sys2Proof.Laws.Lines.Statement (.sliceEnd site n) :=
  fun _ _ e => nomatch e
theorem Sys2Proof.Laws.Lines.contextResident (site : SiteId) (n : PartId) (overrun : Nat) : Sys2Proof.Laws.Lines.Statement (.contextResident site n overrun) :=
  fun _ _ e => nomatch e
theorem Sys2Proof.Laws.Lines.stretchTimeout (cell : CellId) : Sys2Proof.Laws.Lines.Statement (.stretchTimeout cell) :=
  fun _ _ e => nomatch e
theorem Sys2Proof.Laws.Lines.saveRestoreFailure (cell : CellId) (status : StatusCode) : Sys2Proof.Laws.Lines.Statement (.saveRestoreFailure cell status) :=
  fun _ _ e => nomatch e
theorem Sys2Proof.Laws.Lines.runlistWrite (p : Path) (n : PartId) (value : Word64) : Sys2Proof.Laws.Lines.Statement (.runlistWrite p n value) :=
  fun _ _ e => nomatch e
theorem Sys2Proof.Laws.Lines.schResume (p : Path) (n : PartId) (value : Word64) : Sys2Proof.Laws.Lines.Statement (.schResume p n value) :=
  fun _ _ e => nomatch e
theorem Sys2Proof.Laws.Lines.schLose (p : Path) (n : PartId) (value : Word64) : Sys2Proof.Laws.Lines.Statement (.schLose p n value) :=
  fun _ _ e => nomatch e
theorem Sys2Proof.Laws.Lines.schReset (p : Path) (n : PartId) (value : Word64) : Sys2Proof.Laws.Lines.Statement (.schReset p n value) :=
  fun _ _ e => nomatch e
theorem Sys2Proof.Laws.Lines.contextAbortDone (n : PartId) (c : CtxId) : Sys2Proof.Laws.Lines.Statement (.contextAbortDone n c) :=
  fun _ _ e => nomatch e
theorem Sys2Proof.Laws.Lines.regulatorWindowStart (h : HalfId) (i : Fin 64) (n : PartId) (stack : Bool) : Sys2Proof.Laws.Lines.Statement (.regulatorWindowStart h i n stack) :=
  fun _ _ e => nomatch e
theorem Sys2Proof.Laws.Lines.requestTimeout (id : Nat) : Sys2Proof.Laws.Lines.Statement (.requestTimeout id) :=
  fun _ _ e => nomatch e
theorem Sys2Proof.Laws.Lines.unexpectedResponse (h : HalfId) : Sys2Proof.Laws.Lines.Statement (.unexpectedResponse h) :=
  fun _ _ e => nomatch e
theorem Sys2Proof.Laws.Lines.linkRetry (h : HalfId) (router : Fin 64) (port : Fin 7) (repair : Bool) : Sys2Proof.Laws.Lines.Statement (.linkRetry h router port repair) :=
  fun _ _ e => nomatch e
theorem Sys2Proof.Laws.Lines.laneRepairDone (h : HalfId) (router : Fin 64) (port : Fin 7) (ok : Bool) : Sys2Proof.Laws.Lines.Statement (.laneRepairDone h router port ok) :=
  fun _ _ e => nomatch e
theorem Sys2Proof.Laws.Lines.sinkTimeout (site : SiteId) : Sys2Proof.Laws.Lines.Statement (.sinkTimeout site) :=
  fun _ _ e => nomatch e
theorem Sys2Proof.Laws.Lines.rds (h : HalfId) (agent : Fin 15) (line : Nat) (hint : Hint) (tally : Bool) : Sys2Proof.Laws.Lines.Statement (.rds h agent line hint tally) :=
  fun h _ e => Option.some.inj e ▸ of_decide_eq_true h
theorem Sys2Proof.Laws.Lines.rdu (h : HalfId) (agent : Fin 15) (line : Nat) (hint : Hint) (tally : Bool) : Sys2Proof.Laws.Lines.Statement (.rdu h agent line hint tally) :=
  fun h _ e => Option.some.inj e ▸ of_decide_eq_true h
theorem Sys2Proof.Laws.Lines.upgrade (h : HalfId) (agent : Fin 15) (line : Nat) (tally : Bool) : Sys2Proof.Laws.Lines.Statement (.upgrade h agent line tally) :=
  fun h _ e => Option.some.inj e ▸ of_decide_eq_true h
theorem Sys2Proof.Laws.Lines.writeBack (h : HalfId) (agent : Fin 15) (line : Nat) : Sys2Proof.Laws.Lines.Statement (.writeBack h agent line) :=
  fun h _ e => Option.some.inj e ▸ of_decide_eq_true h
theorem Sys2Proof.Laws.Lines.evictionNotice (h : HalfId) (agent : Fin 15) (line : Nat) : Sys2Proof.Laws.Lines.Statement (.evictionNotice h agent line) :=
  fun h _ e => Option.some.inj e ▸ of_decide_eq_true h
theorem Sys2Proof.Laws.Lines.homeRead (h : HalfId) (master : Fin 64) (line : Nat) (hint : Hint) (tally : Bool) : Sys2Proof.Laws.Lines.Statement (.homeRead h master line hint tally) :=
  fun h _ e => Option.some.inj e ▸ of_decide_eq_true h
theorem Sys2Proof.Laws.Lines.homeFullWrite (h : HalfId) (master : Fin 64) (line : Nat) (data : List Byte) (dross : Bool) (hint : Hint) (tally : Bool) : Sys2Proof.Laws.Lines.Statement (.homeFullWrite h master line data dross hint tally) :=
  fun h _ e => Option.some.inj e ▸ of_decide_eq_true ((Bool.and_eq_true_iff.mp h).1)
theorem Sys2Proof.Laws.Lines.homePartialWrite (h : HalfId) (master : Fin 64) (line : Nat) (mask : BitVec 64) (data : List Byte) (hint : Hint) (tally : Bool) : Sys2Proof.Laws.Lines.Statement (.homePartialWrite h master line mask data hint tally) :=
  fun h _ e => Option.some.inj e ▸ of_decide_eq_true ((Bool.and_eq_true_iff.mp h).1)
theorem Sys2Proof.Laws.Lines.snpShared (h : HalfId) (agent : Fin 15) (line : Nat) : Sys2Proof.Laws.Lines.Statement (.snpShared h agent line) :=
  fun h _ e => Option.some.inj e ▸ of_decide_eq_true h
theorem Sys2Proof.Laws.Lines.snpUnique (h : HalfId) (agent : Fin 15) (line : Nat) : Sys2Proof.Laws.Lines.Statement (.snpUnique h agent line) :=
  fun h _ e => Option.some.inj e ▸ of_decide_eq_true h
theorem Sys2Proof.Laws.Lines.snpInv (h : HalfId) (agent : Fin 15) (line : Nat) : Sys2Proof.Laws.Lines.Statement (.snpInv h agent line) :=
  fun h _ e => Option.some.inj e ▸ of_decide_eq_true h
theorem Sys2Proof.Laws.Lines.snpCur (h : HalfId) (agent : Fin 15) (line : Nat) : Sys2Proof.Laws.Lines.Statement (.snpCur h agent line) :=
  fun h _ e => Option.some.inj e ▸ of_decide_eq_true h
theorem Sys2Proof.Laws.Lines.snoopAnswer (h : HalfId) (agent : Fin 15) (line : Nat) : Sys2Proof.Laws.Lines.Statement (.snoopAnswer h agent line) :=
  fun h _ e => Option.some.inj e ▸ of_decide_eq_true h
theorem Sys2Proof.Laws.Lines.writeBackGrant (h : HalfId) (agent : Fin 15) (line : Nat) : Sys2Proof.Laws.Lines.Statement (.writeBackGrant h agent line) :=
  fun h _ e => Option.some.inj e ▸ of_decide_eq_true h
theorem Sys2Proof.Laws.Lines.stale (h : HalfId) (agent : Fin 15) (line : Nat) : Sys2Proof.Laws.Lines.Statement (.stale h agent line) :=
  fun h _ e => Option.some.inj e ▸ of_decide_eq_true h
theorem Sys2Proof.Laws.Lines.retry (h : HalfId) (agent : Fin 79) (line : Nat) : Sys2Proof.Laws.Lines.Statement (.retry h agent line) :=
  fun h _ e => Option.some.inj e ▸ of_decide_eq_true h
theorem Sys2Proof.Laws.Lines.retryGrant (h : HalfId) (agent : Fin 79) (line : Nat) : Sys2Proof.Laws.Lines.Statement (.retryGrant h agent line) :=
  fun h _ e => Option.some.inj e ▸ of_decide_eq_true h
theorem Sys2Proof.Laws.Lines.completionAck (h : HalfId) (agent : Fin 15) (line : Nat) : Sys2Proof.Laws.Lines.Statement (.completionAck h agent line) :=
  fun h _ e => Option.some.inj e ▸ of_decide_eq_true h
theorem Sys2Proof.Laws.Lines.snoopTimeout (h : HalfId) (agent : Fin 15) (line : Nat) : Sys2Proof.Laws.Lines.Statement (.snoopTimeout h agent line) :=
  fun h _ e => Option.some.inj e ▸ of_decide_eq_true h
theorem Sys2Proof.Laws.Lines.reclaimWalkDone (h : HalfId) : Sys2Proof.Laws.Lines.Statement (.reclaimWalkDone h) :=
  fun _ _ e => nomatch e
theorem Sys2Proof.Laws.Lines.hmcRead (line : Nat) : Sys2Proof.Laws.Lines.Statement (.hmcRead line) :=
  fun h _ e => Option.some.inj e ▸ of_decide_eq_true h
theorem Sys2Proof.Laws.Lines.hmcFullWrite (line : Nat) (data : List Byte) (dross : Bool) : Sys2Proof.Laws.Lines.Statement (.hmcFullWrite line data dross) :=
  fun h _ e => Option.some.inj e ▸ of_decide_eq_true ((Bool.and_eq_true_iff.mp h).1)
theorem Sys2Proof.Laws.Lines.hmcPartialWrite (line : Nat) (mask : BitVec 64) (data : List Byte) : Sys2Proof.Laws.Lines.Statement (.hmcPartialWrite line mask data) :=
  fun h _ e => Option.some.inj e ▸ of_decide_eq_true ((Bool.and_eq_true_iff.mp h).1)
theorem Sys2Proof.Laws.Lines.regionZeroed (pch : PchId) (region : Nat) : Sys2Proof.Laws.Lines.Statement (.regionZeroed pch region) :=
  fun _ _ e => nomatch e
theorem Sys2Proof.Laws.Lines.zeroFillPassStep (pch : PchId) : Sys2Proof.Laws.Lines.Statement (.zeroFillPassStep pch) :=
  fun _ _ e => nomatch e
theorem Sys2Proof.Laws.Lines.wcbAgeTimeout (pch : PchId) : Sys2Proof.Laws.Lines.Statement (.wcbAgeTimeout pch) :=
  fun _ _ e => nomatch e
theorem Sys2Proof.Laws.Lines.stackTempSample (stack : StackId) (temp : Nat) : Sys2Proof.Laws.Lines.Statement (.stackTempSample stack temp) :=
  fun _ _ e => nomatch e
theorem Sys2Proof.Laws.Lines.stackOnline (p : Path) (stack : StackId) (value : BitVec 32) (cool : Bool) : Sys2Proof.Laws.Lines.Statement (.stackOnline p stack value cool) :=
  fun _ _ e => nomatch e
theorem Sys2Proof.Laws.Lines.stackOnlineDone (stack : StackId) : Sys2Proof.Laws.Lines.Statement (.stackOnlineDone stack) :=
  fun _ _ e => nomatch e
theorem Sys2Proof.Laws.Lines.rotate (p : Path) (n : PartId) (value : Word64) : Sys2Proof.Laws.Lines.Statement (.rotate p n value) :=
  fun _ _ e => nomatch e
theorem Sys2Proof.Laws.Lines.keySweepStep (n : PartId) (pch : PchId) : Sys2Proof.Laws.Lines.Statement (.keySweepStep n pch) :=
  fun _ _ e => nomatch e
theorem Sys2Proof.Laws.Lines.dmaChEnable (p : Path) (ch : ChanId) (value : Word64) : Sys2Proof.Laws.Lines.Statement (.dmaChEnable p ch value) :=
  fun _ _ e => nomatch e
theorem Sys2Proof.Laws.Lines.dmaChDisable (p : Path) (ch : ChanId) (value : Word64) : Sys2Proof.Laws.Lines.Statement (.dmaChDisable p ch value) :=
  fun _ _ e => nomatch e
theorem Sys2Proof.Laws.Lines.dmaChPause (p : Path) (ch : ChanId) (value : Word64) : Sys2Proof.Laws.Lines.Statement (.dmaChPause p ch value) :=
  fun _ _ e => nomatch e
theorem Sys2Proof.Laws.Lines.dmaChUnpause (p : Path) (ch : ChanId) (value : Word64) : Sys2Proof.Laws.Lines.Statement (.dmaChUnpause p ch value) :=
  fun _ _ e => nomatch e
theorem Sys2Proof.Laws.Lines.dmaPauseDrained (ch : ChanId) : Sys2Proof.Laws.Lines.Statement (.dmaPauseDrained ch) :=
  fun _ _ e => nomatch e
theorem Sys2Proof.Laws.Lines.dmaDoorbell (p : Path) (ch : ChanId) (value : BitVec 32) : Sys2Proof.Laws.Lines.Statement (.dmaDoorbell p ch value) :=
  fun _ _ e => nomatch e
theorem Sys2Proof.Laws.Lines.descriptorFetch (ch : ChanId) (host : List Byte) : Sys2Proof.Laws.Lines.Statement (.descriptorFetch ch host) :=
  fun _ _ e => nomatch e
theorem Sys2Proof.Laws.Lines.burstAck (ch : ChanId) (k latency : Nat) : Sys2Proof.Laws.Lines.Statement (.burstAck ch k latency) :=
  fun _ _ e => nomatch e
theorem Sys2Proof.Laws.Lines.burstError (ch : ChanId) (k : Nat) (side : BurstSide) (status : StatusCode) : Sys2Proof.Laws.Lines.Statement (.burstError ch k side status) :=
  fun _ _ e => nomatch e
theorem Sys2Proof.Laws.Lines.dmaResume (p : Path) (ch : ChanId) (value : Word64) : Sys2Proof.Laws.Lines.Statement (.dmaResume p ch value) :=
  fun _ _ e => nomatch e
theorem Sys2Proof.Laws.Lines.dmaAbort (p : Path) (ch : ChanId) (value : Word64) : Sys2Proof.Laws.Lines.Statement (.dmaAbort p ch value) :=
  fun _ _ e => nomatch e
theorem Sys2Proof.Laws.Lines.dmaAbortDone (ch : ChanId) : Sys2Proof.Laws.Lines.Statement (.dmaAbortDone ch) :=
  fun _ _ e => nomatch e
theorem Sys2Proof.Laws.Lines.dmaSave (p : Path) (ch : ChanId) (value : Word64) : Sys2Proof.Laws.Lines.Statement (.dmaSave p ch value) :=
  fun _ _ e => nomatch e
theorem Sys2Proof.Laws.Lines.walkDone (ch : ChanId) : Sys2Proof.Laws.Lines.Statement (.walkDone ch) :=
  fun _ _ e => nomatch e
theorem Sys2Proof.Laws.Lines.faultTaken (ch : ChanId) : Sys2Proof.Laws.Lines.Statement (.faultTaken ch) :=
  fun _ _ e => nomatch e
theorem Sys2Proof.Laws.Lines.fqHeadWrite (p : Path) (n : PartId) (value : BitVec 32) : Sys2Proof.Laws.Lines.Statement (.fqHeadWrite p n value) :=
  fun _ _ e => nomatch e
theorem Sys2Proof.Laws.Lines.xltFaultResolve (p : Path) (n : PartId) (value : Word64) : Sys2Proof.Laws.Lines.Statement (.xltFaultResolve p n value) :=
  fun _ _ e => nomatch e
theorem Sys2Proof.Laws.Lines.pageReady (e : EngineId) (id : Fin 1024) : Sys2Proof.Laws.Lines.Statement (.pageReady e id) :=
  fun _ _ e => nomatch e
theorem Sys2Proof.Laws.Lines.faultRecordTimeout (id : Fin 1024) : Sys2Proof.Laws.Lines.Statement (.faultRecordTimeout id) :=
  fun _ _ e => nomatch e
theorem Sys2Proof.Laws.Lines.xltInvCmd (p : Path) (n : PartId) (value : Word64) : Sys2Proof.Laws.Lines.Statement (.xltInvCmd p n value) :=
  fun _ _ e => nomatch e
theorem Sys2Proof.Laws.Lines.invEngineAck (n : PartId) (e : EngineId) : Sys2Proof.Laws.Lines.Statement (.invEngineAck n e) :=
  fun _ _ e => nomatch e
theorem Sys2Proof.Laws.Lines.bar2Read (n : PartId) (off len : Nat) (tbit : Bool) : Sys2Proof.Laws.Lines.Statement (.bar2Read n off len tbit) :=
  fun _ _ e => nomatch e
theorem Sys2Proof.Laws.Lines.bar2Write (n : PartId) (off : Nat) (data : List Byte) (tbit : Bool) : Sys2Proof.Laws.Lines.Statement (.bar2Write n off data tbit) :=
  fun _ _ e => nomatch e
theorem Sys2Proof.Laws.Lines.hostCompletion (tag lower count : Nat) (data : List Byte) (bad : Bool) : Sys2Proof.Laws.Lines.Statement (.hostCompletion tag lower count data bad) :=
  fun _ _ e => nomatch e
theorem Sys2Proof.Laws.Lines.completionTimeout (tag : Nat) : Sys2Proof.Laws.Lines.Statement (.completionTimeout tag) :=
  fun _ _ e => nomatch e
theorem Sys2Proof.Laws.Lines.tagQuarantineEnd (tag : Nat) : Sys2Proof.Laws.Lines.Statement (.tagQuarantineEnd tag) :=
  fun _ _ e => nomatch e
theorem Sys2Proof.Laws.Lines.pcieLinkDown : Sys2Proof.Laws.Lines.Statement .pcieLinkDown :=
  fun _ _ e => nomatch e
theorem Sys2Proof.Laws.Lines.pcieLinkUp (rate : Fin 16) (width : Fin 64) (flit : Bool) : Sys2Proof.Laws.Lines.Statement (.pcieLinkUp rate width flit) :=
  fun _ _ e => nomatch e
theorem Sys2Proof.Laws.Lines.vfFlr (n : PartId) : Sys2Proof.Laws.Lines.Statement (.vfFlr n) :=
  fun _ _ e => nomatch e
theorem Sys2Proof.Laws.Lines.pf0Flr : Sys2Proof.Laws.Lines.Statement .pf0Flr :=
  fun _ _ e => nomatch e
theorem Sys2Proof.Laws.Lines.tdiConfigViolation (n : PartId) : Sys2Proof.Laws.Lines.Statement (.tdiConfigViolation n) :=
  fun _ _ e => nomatch e
theorem Sys2Proof.Laws.Lines.stopInterface (n : PartId) : Sys2Proof.Laws.Lines.Statement (.stopInterface n) :=
  fun _ _ e => nomatch e
theorem Sys2Proof.Laws.Lines.vfApertureWrite (p : Path) (n : PartId) (value : Word64) : Sys2Proof.Laws.Lines.Statement (.vfApertureWrite p n value) :=
  fun _ _ e => nomatch e
theorem Sys2Proof.Laws.Lines.msixUnmask (fn : Fin 17) (vec : Nat) : Sys2Proof.Laws.Lines.Statement (.msixUnmask fn vec) :=
  fun _ _ e => nomatch e
theorem Sys2Proof.Laws.Lines.queueEnable (p : Path) (n : PartId) (q : QueueId) (value : Word64) : Sys2Proof.Laws.Lines.Statement (.queueEnable p n q value) :=
  fun _ _ e => nomatch e
theorem Sys2Proof.Laws.Lines.queueDisable (p : Path) (n : PartId) (q : QueueId) (value : Word64) : Sys2Proof.Laws.Lines.Statement (.queueDisable p n q value) :=
  fun _ _ e => nomatch e
theorem Sys2Proof.Laws.Lines.queueDoorbell (p : Path) (n : PartId) (q : QueueId) (value : BitVec 32) : Sys2Proof.Laws.Lines.Statement (.queueDoorbell p n q value) :=
  fun _ _ e => nomatch e
theorem Sys2Proof.Laws.Lines.queueNop (n : PartId) (q : QueueId) (host : List Byte) : Sys2Proof.Laws.Lines.Statement (.queueNop n q host) :=
  fun _ _ e => nomatch e
theorem Sys2Proof.Laws.Lines.queueTask (n : PartId) (q : QueueId) (host : List Byte) : Sys2Proof.Laws.Lines.Statement (.queueTask n q host) :=
  fun _ _ e => nomatch e
theorem Sys2Proof.Laws.Lines.queueWait (n : PartId) (q : QueueId) (host : List Byte) : Sys2Proof.Laws.Lines.Statement (.queueWait n q host) :=
  fun _ _ e => nomatch e
theorem Sys2Proof.Laws.Lines.queueSignal (n : PartId) (q : QueueId) (host : List Byte) : Sys2Proof.Laws.Lines.Statement (.queueSignal n q host) :=
  fun _ _ e => nomatch e
theorem Sys2Proof.Laws.Lines.fenceSignal (p : Path) (n : PartId) (f : FenceId) (value : Word64) : Sys2Proof.Laws.Lines.Statement (.fenceSignal p n f value) :=
  fun _ _ e => nomatch e
theorem Sys2Proof.Laws.Lines.fenceReset (p : Path) (n : PartId) (f : FenceId) (value : Word64) : Sys2Proof.Laws.Lines.Statement (.fenceReset p n f value) :=
  fun _ _ e => nomatch e
theorem Sys2Proof.Laws.Lines.ospCap (site : SiteId) (idx : Fin 4) (word : Word64) : Sys2Proof.Laws.Lines.Statement (.ospCap site idx word) :=
  fun _ _ e => nomatch e
theorem Sys2Proof.Laws.Lines.ospCapAck (site : SiteId) (idx : Fin 4) : Sys2Proof.Laws.Lines.Statement (.ospCapAck site idx) :=
  fun _ _ e => nomatch e
theorem Sys2Proof.Laws.Lines.ospCheck (site : SiteId) (word : Word64) : Sys2Proof.Laws.Lines.Statement (.ospCheck site word) :=
  fun _ _ e => nomatch e
theorem Sys2Proof.Laws.Lines.ospReset (site : SiteId) (mask : BitVec 4) (core : Bool) : Sys2Proof.Laws.Lines.Statement (.ospReset site mask core) :=
  fun _ _ e => nomatch e
theorem Sys2Proof.Laws.Lines.ospIdentity (site : SiteId) (chunk : Fin 6) (data : Word64) : Sys2Proof.Laws.Lines.Statement (.ospIdentity site chunk data) :=
  fun _ _ e => nomatch e
theorem Sys2Proof.Laws.Lines.ospError (site : SiteId) (fatal : Bool) (code : BitVec 16) : Sys2Proof.Laws.Lines.Statement (.ospError site fatal code) :=
  fun _ _ e => nomatch e
theorem Sys2Proof.Laws.Lines.ospUnknownCode (site : SiteId) (code : Byte) : Sys2Proof.Laws.Lines.Statement (.ospUnknownCode site code) :=
  fun _ _ e => nomatch e
theorem Sys2Proof.Laws.Lines.siteReset (p : Path) (site : SiteId) (value : Word64) : Sys2Proof.Laws.Lines.Statement (.siteReset p site value) :=
  fun _ _ e => nomatch e
theorem Sys2Proof.Laws.Lines.siteProtocolReady (site : SiteId) : Sys2Proof.Laws.Lines.Statement (.siteProtocolReady site) :=
  fun _ _ e => nomatch e
theorem Sys2Proof.Laws.Lines.siteMainbandTrained (site : SiteId) (widths : List (Fin 3)) (agree : Bool) : Sys2Proof.Laws.Lines.Statement (.siteMainbandTrained site widths agree) :=
  fun _ _ e => nomatch e
theorem Sys2Proof.Laws.Lines.siteRetrain (p : Path) (site : SiteId) (value : Word64) : Sys2Proof.Laws.Lines.Statement (.siteRetrain p site value) :=
  fun _ _ e => nomatch e
theorem Sys2Proof.Laws.Lines.siteOff (p : Path) (site : SiteId) (value : Word64) : Sys2Proof.Laws.Lines.Statement (.siteOff p site value) :=
  fun _ _ e => nomatch e
theorem Sys2Proof.Laws.Lines.moduleRetrainDone (site : SiteId) (u : Fin 4) (width : Fin 3) : Sys2Proof.Laws.Lines.Statement (.moduleRetrainDone site u width) :=
  fun _ _ e => nomatch e
theorem Sys2Proof.Laws.Lines.retrainTimeout (site : SiteId) (u : Fin 4) : Sys2Proof.Laws.Lines.Statement (.retrainTimeout site u) :=
  fun _ _ e => nomatch e
theorem Sys2Proof.Laws.Lines.routeModuleTimeout (site : SiteId) (u : Fin 4) : Sys2Proof.Laws.Lines.Statement (.routeModuleTimeout site u) :=
  fun _ _ e => nomatch e
theorem Sys2Proof.Laws.Lines.portNativeTimeout (port : PortId) : Sys2Proof.Laws.Lines.Statement (.portNativeTimeout port) :=
  fun _ _ e => nomatch e
theorem Sys2Proof.Laws.Lines.portUp (port : PortId) : Sys2Proof.Laws.Lines.Statement (.portUp port) :=
  fun _ _ e => nomatch e
theorem Sys2Proof.Laws.Lines.portLaneDown (port : PortId) : Sys2Proof.Laws.Lines.Statement (.portLaneDown port) :=
  fun _ _ e => nomatch e
theorem Sys2Proof.Laws.Lines.pauseFrameRx (port : PortId) (prio : Fin 8) (on : Bool) : Sys2Proof.Laws.Lines.Statement (.pauseFrameRx port prio on) :=
  fun _ _ e => nomatch e
theorem Sys2Proof.Laws.Lines.roceSendRx (n : PartId) (k : QpId) (psn : Nat) (data : List Byte) (imm : Option (BitVec 32)) (ce : Bool) : Sys2Proof.Laws.Lines.Statement (.roceSendRx n k psn data imm ce) :=
  fun _ _ e => nomatch e
theorem Sys2Proof.Laws.Lines.roceRdmaWriteRx (n : PartId) (k : QpId) (psn : Nat) (rkey : BitVec 32) (addr : Nat) (data : List Byte) (imm : Option (BitVec 32)) (ce : Bool) : Sys2Proof.Laws.Lines.Statement (.roceRdmaWriteRx n k psn rkey addr data imm ce) :=
  fun _ _ e => nomatch e
theorem Sys2Proof.Laws.Lines.roceRdmaReadRx (n : PartId) (k : QpId) (psn : Nat) (rkey : BitVec 32) (addr len : Nat) (ce : Bool) : Sys2Proof.Laws.Lines.Statement (.roceRdmaReadRx n k psn rkey addr len ce) :=
  fun _ _ e => nomatch e
theorem Sys2Proof.Laws.Lines.roceReadResponseRx (n : PartId) (k : QpId) (psn : Nat) (data : List Byte) : Sys2Proof.Laws.Lines.Statement (.roceReadResponseRx n k psn data) :=
  fun _ _ e => nomatch e
theorem Sys2Proof.Laws.Lines.roceAckRx (n : PartId) (k : QpId) (psn : Nat) : Sys2Proof.Laws.Lines.Statement (.roceAckRx n k psn) :=
  fun _ _ e => nomatch e
theorem Sys2Proof.Laws.Lines.roceNakRx (n : PartId) (k : QpId) (psn : Nat) : Sys2Proof.Laws.Lines.Statement (.roceNakRx n k psn) :=
  fun _ _ e => nomatch e
theorem Sys2Proof.Laws.Lines.cnpRx (n : PartId) (k : QpId) : Sys2Proof.Laws.Lines.Statement (.cnpRx n k) :=
  fun _ _ e => nomatch e
theorem Sys2Proof.Laws.Lines.cnpRateIncrease (n : PartId) (k : QpId) : Sys2Proof.Laws.Lines.Statement (.cnpRateIncrease n k) :=
  fun _ _ e => nomatch e
theorem Sys2Proof.Laws.Lines.roceRetryTimeout (n : PartId) (k : QpId) : Sys2Proof.Laws.Lines.Statement (.roceRetryTimeout n k) :=
  fun _ _ e => nomatch e
theorem Sys2Proof.Laws.Lines.txqEnable (p : Path) (q : EthQId) (value : Word64) : Sys2Proof.Laws.Lines.Statement (.txqEnable p q value) :=
  fun _ _ e => nomatch e
theorem Sys2Proof.Laws.Lines.txqDisable (p : Path) (q : EthQId) (value : Word64) : Sys2Proof.Laws.Lines.Statement (.txqDisable p q value) :=
  fun _ _ e => nomatch e
theorem Sys2Proof.Laws.Lines.txqDoorbell (p : Path) (q : EthQId) (cqhead : Bool) (value : BitVec 32) : Sys2Proof.Laws.Lines.Statement (.txqDoorbell p q cqhead value) :=
  fun _ _ e => nomatch e
theorem Sys2Proof.Laws.Lines.txRawFrame (q : EthQId) : Sys2Proof.Laws.Lines.Statement (.txRawFrame q) :=
  fun _ _ e => nomatch e
theorem Sys2Proof.Laws.Lines.txSend (q : EthQId) : Sys2Proof.Laws.Lines.Statement (.txSend q) :=
  fun _ _ e => nomatch e
theorem Sys2Proof.Laws.Lines.txSendImm (q : EthQId) : Sys2Proof.Laws.Lines.Statement (.txSendImm q) :=
  fun _ _ e => nomatch e
theorem Sys2Proof.Laws.Lines.txWrite (q : EthQId) : Sys2Proof.Laws.Lines.Statement (.txWrite q) :=
  fun _ _ e => nomatch e
theorem Sys2Proof.Laws.Lines.txWriteImm (q : EthQId) : Sys2Proof.Laws.Lines.Statement (.txWriteImm q) :=
  fun _ _ e => nomatch e
theorem Sys2Proof.Laws.Lines.txRead (q : EthQId) : Sys2Proof.Laws.Lines.Statement (.txRead q) :=
  fun _ _ e => nomatch e
theorem Sys2Proof.Laws.Lines.qpLoad (p : Path) (n : PartId) (value : Word64) : Sys2Proof.Laws.Lines.Statement (.qpLoad p n value) :=
  fun _ _ e => nomatch e
theorem Sys2Proof.Laws.Lines.qpError (p : Path) (n : PartId) (value : Word64) : Sys2Proof.Laws.Lines.Statement (.qpError p n value) :=
  fun _ _ e => nomatch e
theorem Sys2Proof.Laws.Lines.ringFrameRx (h : HalfId) (cls : Fin 4) (seq : Nat) (dest : Fin 64) (crcOk : Bool) (payload : List Byte) : Sys2Proof.Laws.Lines.Statement (.ringFrameRx h cls seq dest crcOk payload) :=
  fun _ _ e => nomatch e
theorem Sys2Proof.Laws.Lines.ringNakRx (h : HalfId) (seq : Nat) : Sys2Proof.Laws.Lines.Statement (.ringNakRx h seq) :=
  fun _ _ e => nomatch e
theorem Sys2Proof.Laws.Lines.ringAckTimeout (h : HalfId) : Sys2Proof.Laws.Lines.Statement (.ringAckTimeout h) :=
  fun _ _ e => nomatch e
theorem Sys2Proof.Laws.Lines.ringLaneFail (h : HalfId) (lane : Fin 8) : Sys2Proof.Laws.Lines.Statement (.ringLaneFail h lane) :=
  fun _ _ e => nomatch e
theorem Sys2Proof.Laws.Lines.ringLinkUp (h : HalfId) (lanes : BitVec 8) : Sys2Proof.Laws.Lines.Statement (.ringLinkUp h lanes) :=
  fun _ _ e => nomatch e
theorem Sys2Proof.Laws.Lines.beaconTimer : Sys2Proof.Laws.Lines.Statement .beaconTimer :=
  fun _ _ e => nomatch e
theorem Sys2Proof.Laws.Lines.beaconRx (h : HalfId) (pos : Fin 64) : Sys2Proof.Laws.Lines.Statement (.beaconRx h pos) :=
  fun _ _ e => nomatch e
theorem Sys2Proof.Laws.Lines.positionAbsent (pos : Fin 64) : Sys2Proof.Laws.Lines.Statement (.positionAbsent pos) :=
  fun _ _ e => nomatch e
theorem Sys2Proof.Laws.Lines.aditThrough (p : Path) (value : BitVec 32) : Sys2Proof.Laws.Lines.Statement (.aditThrough p value) :=
  fun _ _ e => nomatch e
theorem Sys2Proof.Laws.Lines.aditOpen (p : Path) (value : BitVec 32) (loopback : Bool) : Sys2Proof.Laws.Lines.Statement (.aditOpen p value loopback) :=
  fun _ _ e => nomatch e
theorem Sys2Proof.Laws.Lines.aditSwitchDone : Sys2Proof.Laws.Lines.Statement .aditSwitchDone :=
  fun _ _ e => nomatch e
theorem Sys2Proof.Laws.Lines.groupActivate (p : Path) (n : PartId) (value : Word64) : Sys2Proof.Laws.Lines.Statement (.groupActivate p n value) :=
  fun _ _ e => nomatch e
theorem Sys2Proof.Laws.Lines.groupKeyed (n : PartId) (g : Fin 16) (ok : Bool) : Sys2Proof.Laws.Lines.Statement (.groupKeyed n g ok) :=
  fun _ _ e => nomatch e
theorem Sys2Proof.Laws.Lines.groupRetire (p : Path) (n : PartId) (value : Word64) : Sys2Proof.Laws.Lines.Statement (.groupRetire p n value) :=
  fun _ _ e => nomatch e
theorem Sys2Proof.Laws.Lines.collectivePost (p : Path) (n : PartId) (value : BitVec 32) : Sys2Proof.Laws.Lines.Statement (.collectivePost p n value) :=
  fun _ _ e => nomatch e
theorem Sys2Proof.Laws.Lines.collectiveFrame (n : PartId) (g : Fin 16) (aft : Bool) (seq step : Nat) (data scales : List Byte) (dross : Bool) (us : Nat) : Sys2Proof.Laws.Lines.Statement (.collectiveFrame n g aft seq step data scales dross us) :=
  fun _ _ e => nomatch e
theorem Sys2Proof.Laws.Lines.collectiveWatchdog (n : PartId) (g : Fin 16) (us : Nat) : Sys2Proof.Laws.Lines.Statement (.collectiveWatchdog n g us) :=
  fun _ _ e => nomatch e
theorem Sys2Proof.Laws.Lines.abortToken (n : PartId) (g : Fin 16) (seq : Nat) (origin : Fin 64) (aft : Bool) (us : Nat) : Sys2Proof.Laws.Lines.Statement (.abortToken n g seq origin aft us) :=
  fun _ _ e => nomatch e
theorem Sys2Proof.Laws.Lines.twinStart (p : Path) (n : PartId) (value : Word64) (twinOk : Bool) : Sys2Proof.Laws.Lines.Statement (.twinStart p n value twinOk) :=
  fun _ _ e => nomatch e
theorem Sys2Proof.Laws.Lines.twinCheckpoint (p : Path) (n : PartId) (value : Word64) : Sys2Proof.Laws.Lines.Statement (.twinCheckpoint p n value) :=
  fun _ _ e => nomatch e
theorem Sys2Proof.Laws.Lines.twinStop (p : Path) (n : PartId) (value : Word64) : Sys2Proof.Laws.Lines.Statement (.twinStop p n value) :=
  fun _ _ e => nomatch e
theorem Sys2Proof.Laws.Lines.checkpointBoundary (n : PartId) : Sys2Proof.Laws.Lines.Statement (.checkpointBoundary n) :=
  fun _ _ e => nomatch e
theorem Sys2Proof.Laws.Lines.checkpointComplete (n : PartId) : Sys2Proof.Laws.Lines.Statement (.checkpointComplete n) :=
  fun _ _ e => nomatch e
theorem Sys2Proof.Laws.Lines.twinStreamRx (n : PartId) (region : Nat) (data : List Byte) (drossLines : List Nat) (last : Bool) (number logIdx : Nat) : Sys2Proof.Laws.Lines.Statement (.twinStreamRx n region data drossLines last number logIdx) :=
  fun _ _ e => nomatch e
theorem Sys2Proof.Laws.Lines.twinLogAppend (p : Path) (n : PartId) (value : BitVec 32) : Sys2Proof.Laws.Lines.Statement (.twinLogAppend p n value) :=
  fun _ _ e => nomatch e
theorem Sys2Proof.Laws.Lines.twinLogRx (n : PartId) (ppa : Nat) (data : List Byte) (idx : Nat) : Sys2Proof.Laws.Lines.Statement (.twinLogRx n ppa data idx) :=
  fun _ _ e => nomatch e
theorem Sys2Proof.Laws.Lines.twinLogAckRx (n : PartId) (idx : Nat) : Sys2Proof.Laws.Lines.Statement (.twinLogAckRx n idx) :=
  fun _ _ e => nomatch e
theorem Sys2Proof.Laws.Lines.downToken (n : PartId) (auth : Bool) : Sys2Proof.Laws.Lines.Statement (.downToken n auth) :=
  fun _ _ e => nomatch e
theorem Sys2Proof.Laws.Lines.ringDarkFence : Sys2Proof.Laws.Lines.Statement .ringDarkFence :=
  fun _ _ e => nomatch e
theorem Sys2Proof.Laws.Lines.takeoverDone (n : PartId) : Sys2Proof.Laws.Lines.Statement (.takeoverDone n) :=
  fun _ _ e => nomatch e
theorem Sys2Proof.Laws.Lines.pairKeyExchange (ok : Bool) : Sys2Proof.Laws.Lines.Statement (.pairKeyExchange ok) :=
  fun _ _ e => nomatch e
theorem Sys2Proof.Laws.Lines.lcsTransition (p : Path) (token : Byte) (len : Nat) : Sys2Proof.Laws.Lines.Statement (.lcsTransition p token len) :=
  fun _ _ e => nomatch e
theorem Sys2Proof.Laws.Lines.lcsWipeDone : Sys2Proof.Laws.Lines.Statement .lcsWipeDone :=
  fun _ _ e => nomatch e
theorem Sys2Proof.Laws.Lines.provisionOpkey (p : Path) (token : Byte) (len : Nat) : Sys2Proof.Laws.Lines.Statement (.provisionOpkey p token len) :=
  fun _ _ e => nomatch e
theorem Sys2Proof.Laws.Lines.revokeOpkey (p : Path) (token : Byte) (len : Nat) : Sys2Proof.Laws.Lines.Statement (.revokeOpkey p token len) :=
  fun _ _ e => nomatch e
theorem Sys2Proof.Laws.Lines.bindTwin (p : Path) (token : Byte) (len : Nat) : Sys2Proof.Laws.Lines.Statement (.bindTwin p token len) :=
  fun _ _ e => nomatch e
theorem Sys2Proof.Laws.Lines.unbindTwin (p : Path) (token : Byte) (len : Nat) : Sys2Proof.Laws.Lines.Statement (.unbindTwin p token len) :=
  fun _ _ e => nomatch e
theorem Sys2Proof.Laws.Lines.integrationRecord (p : Path) (token : Byte) (len : Nat) : Sys2Proof.Laws.Lines.Statement (.integrationRecord p token len) :=
  fun _ _ e => nomatch e
theorem Sys2Proof.Laws.Lines.raiseAlarmFloor (p : Path) (token : Byte) (len : Nat) : Sys2Proof.Laws.Lines.Statement (.raiseAlarmFloor p token len) :=
  fun _ _ e => nomatch e
theorem Sys2Proof.Laws.Lines.setConfOnly (p : Path) (token : Byte) (len : Nat) : Sys2Proof.Laws.Lines.Statement (.setConfOnly p token len) :=
  fun _ _ e => nomatch e
theorem Sys2Proof.Laws.Lines.commitFwSvn (p : Path) (token : Byte) (len : Nat) : Sys2Proof.Laws.Lines.Statement (.commitFwSvn p token len) :=
  fun _ _ e => nomatch e
theorem Sys2Proof.Laws.Lines.restoreOpkey (p : Path) (token : Byte) (len : Nat) : Sys2Proof.Laws.Lines.Statement (.restoreOpkey p token len) :=
  fun _ _ e => nomatch e
theorem Sys2Proof.Laws.Lines.keyWaitTimeout : Sys2Proof.Laws.Lines.Statement .keyWaitTimeout :=
  fun _ _ e => nomatch e
theorem Sys2Proof.Laws.Lines.fwTransferEnd (version : BitVec 32) (svn : Fin 129) (signed : Bool) (manifest : BitVec 384) : Sys2Proof.Laws.Lines.Statement (.fwTransferEnd version svn signed manifest) :=
  fun _ _ e => nomatch e
theorem Sys2Proof.Laws.Lines.fwActivate (p : Path) (value : BitVec 32) : Sys2Proof.Laws.Lines.Statement (.fwActivate p value) :=
  fun _ _ e => nomatch e
theorem Sys2Proof.Laws.Lines.fwDiscard (p : Path) (value : BitVec 32) : Sys2Proof.Laws.Lines.Statement (.fwDiscard p value) :=
  fun _ _ e => nomatch e
theorem Sys2Proof.Laws.Lines.fwActivated : Sys2Proof.Laws.Lines.Statement .fwActivated :=
  fun _ _ e => nomatch e
theorem Sys2Proof.Laws.Lines.fwActivateTimeout : Sys2Proof.Laws.Lines.Statement .fwActivateTimeout :=
  fun _ _ e => nomatch e
theorem Sys2Proof.Laws.Lines.confSet (p : Path) (n : PartId) : Sys2Proof.Laws.Lines.Statement (.confSet p n) :=
  fun _ _ e => nomatch e
theorem Sys2Proof.Laws.Lines.debugAuth (p : Path) (n : PartId) (auth : Bool) : Sys2Proof.Laws.Lines.Statement (.debugAuth p n auth) :=
  fun _ _ e => nomatch e
theorem Sys2Proof.Laws.Lines.debugGrant (p : Path) (value : BitVec 32) : Sys2Proof.Laws.Lines.Statement (.debugGrant p value) :=
  fun _ _ e => nomatch e
theorem Sys2Proof.Laws.Lines.testAccessInstruction (die : TapDie) (instr : TapInstr) : Sys2Proof.Laws.Lines.Statement (.testAccessInstruction die instr) :=
  fun _ _ e => nomatch e
theorem Sys2Proof.Laws.Lines.hallmarkRequest (p : Path) (n : PartId) (value : Word64) : Sys2Proof.Laws.Lines.Statement (.hallmarkRequest p n value) :=
  fun _ _ e => nomatch e
theorem Sys2Proof.Laws.Lines.hallmarkDone (n : PartId) (len : Nat) : Sys2Proof.Laws.Lines.Statement (.hallmarkDone n len) :=
  fun _ _ e => nomatch e
theorem Sys2Proof.Laws.Lines.spdmDiscovery (fn : Fin 17) : Sys2Proof.Laws.Lines.Statement (.spdmDiscovery fn) :=
  fun _ _ e => nomatch e
theorem Sys2Proof.Laws.Lines.getDigests (fn : Fin 17) : Sys2Proof.Laws.Lines.Statement (.getDigests fn) :=
  fun _ _ e => nomatch e
theorem Sys2Proof.Laws.Lines.getCertificate (fn : Fin 17) : Sys2Proof.Laws.Lines.Statement (.getCertificate fn) :=
  fun _ _ e => nomatch e
theorem Sys2Proof.Laws.Lines.challenge (fn : Fin 17) (nonce : BitVec 256) : Sys2Proof.Laws.Lines.Statement (.challenge fn nonce) :=
  fun _ _ e => nomatch e
theorem Sys2Proof.Laws.Lines.getMeasurements (fn : Fin 17) (nonce : BitVec 256) : Sys2Proof.Laws.Lines.Statement (.getMeasurements fn nonce) :=
  fun _ _ e => nomatch e
theorem Sys2Proof.Laws.Lines.keyExchange (fn : Fin 17) : Sys2Proof.Laws.Lines.Statement (.keyExchange fn) :=
  fun _ _ e => nomatch e
theorem Sys2Proof.Laws.Lines.finish (fn : Fin 17) (ok : Bool) : Sys2Proof.Laws.Lines.Statement (.finish fn ok) :=
  fun _ _ e => nomatch e
theorem Sys2Proof.Laws.Lines.endSession (fn : Fin 17) : Sys2Proof.Laws.Lines.Statement (.endSession fn) :=
  fun _ _ e => nomatch e
theorem Sys2Proof.Laws.Lines.keyProg (fn : Fin 17) : Sys2Proof.Laws.Lines.Statement (.keyProg fn) :=
  fun _ _ e => nomatch e
theorem Sys2Proof.Laws.Lines.railCanary (rail : RailAt) : Sys2Proof.Laws.Lines.Statement (.railCanary rail) :=
  fun _ _ e => nomatch e
theorem Sys2Proof.Laws.Lines.clockCanary : Sys2Proof.Laws.Lines.Statement .clockCanary :=
  fun _ _ e => nomatch e
theorem Sys2Proof.Laws.Lines.tempCanary : Sys2Proof.Laws.Lines.Statement .tempCanary :=
  fun _ _ e => nomatch e
theorem Sys2Proof.Laws.Lines.tamper : Sys2Proof.Laws.Lines.Statement .tamper :=
  fun _ _ e => nomatch e
theorem Sys2Proof.Laws.Lines.glitch : Sys2Proof.Laws.Lines.Statement .glitch :=
  fun _ _ e => nomatch e
theorem Sys2Proof.Laws.Lines.rngHealth : Sys2Proof.Laws.Lines.Statement .rngHealth :=
  fun _ _ e => nomatch e
theorem Sys2Proof.Laws.Lines.noteSummary (source : Nat) (scope : Nat) : Sys2Proof.Laws.Lines.Statement (.noteSummary source scope) :=
  fun _ _ e => nomatch e
theorem Sys2Proof.Laws.Lines.tenantRaise (p : Path) (n : PartId) (value : Word64) : Sys2Proof.Laws.Lines.Statement (.tenantRaise p n value) :=
  fun _ _ e => nomatch e
theorem Sys2Proof.Laws.Lines.logRead (p : Path) (value : Word64) : Sys2Proof.Laws.Lines.Statement (.logRead p value) :=
  fun _ _ e => nomatch e
theorem Sys2Proof.Laws.Lines.logAck (p : Path) (value : Word64) : Sys2Proof.Laws.Lines.Statement (.logAck p value) :=
  fun _ _ e => nomatch e
theorem Sys2Proof.Laws.Lines.feedGood (f : Feed) (decivolts : Fin 1024) : Sys2Proof.Laws.Lines.Statement (.feedGood f decivolts) :=
  fun _ _ e => nomatch e
theorem Sys2Proof.Laws.Lines.feedLeavesGood (f : Feed) (decivolts : Fin 1024) : Sys2Proof.Laws.Lines.Statement (.feedLeavesGood f decivolts) :=
  fun _ _ e => nomatch e
theorem Sys2Proof.Laws.Lines.feedOver (f : Feed) (decivolts : Fin 1024) : Sys2Proof.Laws.Lines.Statement (.feedOver f decivolts) :=
  fun _ _ e => nomatch e
theorem Sys2Proof.Laws.Lines.pwrFail : Sys2Proof.Laws.Lines.Statement .pwrFail :=
  fun _ _ e => nomatch e
theorem Sys2Proof.Laws.Lines.brownOut : Sys2Proof.Laws.Lines.Statement .brownOut :=
  fun _ _ e => nomatch e
theorem Sys2Proof.Laws.Lines.powerLimitTick (watts : Nat) : Sys2Proof.Laws.Lines.Statement (.powerLimitTick watts) :=
  fun _ _ e => nomatch e
theorem Sys2Proof.Laws.Lines.dieTempSample (h : HalfId) (temp : Int) (lasted1ms : Bool) : Sys2Proof.Laws.Lines.Statement (.dieTempSample h temp lasted1ms) :=
  fun _ _ e => nomatch e
theorem Sys2Proof.Laws.Lines.pwrCapWrite (p : Path) (value : BitVec 32) : Sys2Proof.Laws.Lines.Statement (.pwrCapWrite p value) :=
  fun _ _ e => nomatch e
theorem Sys2Proof.Laws.Lines.pithead : Sys2Proof.Laws.Lines.Statement .pithead :=
  fun _ _ e => nomatch e
theorem Sys2Proof.Laws.Lines.stage1 (ok : Bool) (level0 level1 : BitVec 16) : Sys2Proof.Laws.Lines.Statement (.stage1 ok level0 level1) :=
  fun _ _ e => nomatch e
theorem Sys2Proof.Laws.Lines.stage2 : Sys2Proof.Laws.Lines.Statement .stage2 :=
  fun _ _ e => nomatch e
theorem Sys2Proof.Laws.Lines.stage3 : Sys2Proof.Laws.Lines.Statement .stage3 :=
  fun _ _ e => nomatch e
theorem Sys2Proof.Laws.Lines.fullFunction : Sys2Proof.Laws.Lines.Statement .fullFunction :=
  fun _ _ e => nomatch e
theorem Sys2Proof.Laws.Lines.stageBoundMissed (stage : Fin 4) : Sys2Proof.Laws.Lines.Statement (.stageBoundMissed stage) :=
  fun _ _ e => nomatch e
theorem Sys2Proof.Laws.Lines.resetPin : Sys2Proof.Laws.Lines.Statement .resetPin :=
  fun _ _ e => nomatch e
theorem Sys2Proof.Laws.Lines.moduleReset (p : Path) (value : Word64) : Sys2Proof.Laws.Lines.Statement (.moduleReset p value) :=
  fun _ _ e => nomatch e
theorem Sys2Proof.Laws.Lines.partitionReset (p : Path) (value : Word64) : Sys2Proof.Laws.Lines.Statement (.partitionReset p value) :=
  fun _ _ e => nomatch e
theorem Sys2Proof.Laws.Lines.halfFailure (h : HalfId) : Sys2Proof.Laws.Lines.Statement (.halfFailure h) :=
  fun _ _ e => nomatch e
theorem Sys2Proof.Laws.Lines.eccError (h : HalfId) (cls : ErrClass) (str : RasStruct) (index : BitVec 32) (addr : Nat) (scope : Nat) (status : StatusCode) : Sys2Proof.Laws.Lines.Statement (.eccError h cls str index addr scope status) :=
  fun _ _ e => nomatch e
theorem Sys2Proof.Laws.Lines.correctedSummary (h : HalfId) (str : RasStruct) : Sys2Proof.Laws.Lines.Statement (.correctedSummary h str) :=
  fun _ _ e => nomatch e
theorem Sys2Proof.Laws.Lines.assayTestStart (h : HalfId) : Sys2Proof.Laws.Lines.Statement (.assayTestStart h) :=
  fun _ _ e => nomatch e
theorem Sys2Proof.Laws.Lines.assayTestDone (h : HalfId) (str : RasStruct) (index : BitVec 32) (lasting : Bool) : Sys2Proof.Laws.Lines.Statement (.assayTestDone h str index lasting) :=
  fun _ _ e => nomatch e
theorem Sys2Proof.Laws.Lines.burstReadReturn (ch : ChanId) (k : Nat) : Sys2Proof.Laws.Lines.Statement (.burstReadReturn ch k) :=
  fun _ _ e => nomatch e
theorem Sys2Proof.Laws.Lines.abortBoundStop (n : PartId) (c : CtxId) : Sys2Proof.Laws.Lines.Statement (.abortBoundStop n c) :=
  fun _ _ e => nomatch e
theorem Sys2Proof.Laws.Lines.foreignMemoryRequest (site : SiteId) (r : ForeignReq) : Sys2Proof.Laws.Lines.Statement (.foreignMemoryRequest site r) :=
  fun _ _ e => nomatch e
theorem Sys2Proof.Laws.Lines.ucieLinkRecovery (site : SiteId) (u : Fin 4) : Sys2Proof.Laws.Lines.Statement (.ucieLinkRecovery site u) :=
  fun _ _ e => nomatch e
theorem Sys2Proof.Laws.Lines.vsiteRailFault (site : SiteId) : Sys2Proof.Laws.Lines.Statement (.vsiteRailFault site) :=
  fun _ _ e => nomatch e
theorem Sys2Proof.Laws.Lines.frameLeavesPort (port : PortId) (k : Nat) : Sys2Proof.Laws.Lines.Statement (.frameLeavesPort port k) :=
  fun _ _ e => nomatch e
theorem Sys2Proof.Laws.Lines.lockInterface (n : PartId) : Sys2Proof.Laws.Lines.Statement (.lockInterface n) :=
  fun _ _ e => nomatch e
theorem Sys2Proof.Laws.Lines.startInterface (n : PartId) : Sys2Proof.Laws.Lines.Statement (.startInterface n) :=
  fun _ _ e => nomatch e
theorem Sys2Proof.Laws.Lines.entropyHealthChange (healthy : Bool) : Sys2Proof.Laws.Lines.Statement (.entropyHealthChange healthy) :=
  fun _ _ e => nomatch e
theorem Sys2Proof.Laws.Lines.alarmOutPulseEnd : Sys2Proof.Laws.Lines.Statement .alarmOutPulseEnd :=
  fun _ _ e => nomatch e
theorem Sys2Proof.Laws.Lines.resetRelease : Sys2Proof.Laws.Lines.Statement .resetRelease :=
  fun _ _ e => nomatch e
theorem Sys2Proof.Laws.Lines.perstRelease : Sys2Proof.Laws.Lines.Statement .perstRelease :=
  fun _ _ e => nomatch e
theorem Sys2Proof.Laws.Lines.xfjmCsrWrite (core : CoreId) (csr : Csr) (value : Word64) : Sys2Proof.Laws.Lines.Statement (.xfjmCsrWrite core csr value) :=
  fun _ _ e => nomatch e
end

