-- ==== Sys2Proof/Laws/State.lean ====
section
/-!
SUPPORT. The small lemmas of the state's updates: what each leaves, field by field, and what the value that it changes reads as.
-/

namespace Sys2Proof.Machine

variable (s : State)

@[simp] theorem State.updPart_pending (n : Nat) (f : Part → Part) : (s.updPart n f).pending = s.pending := rfl
@[simp] theorem State.updPart_freeCtr (n : Nat) (f : Part → Part) : (s.updPart n f).freeCtr = s.freeCtr := rfl
@[simp] theorem State.updPart_out (n : Nat) (f : Part → Part) : (s.updPart n f).out = s.out := rfl
@[simp] theorem State.updPart_dues (n : Nat) (f : Part → Part) : (s.updPart n f).dues = s.dues := rfl
@[simp] theorem State.updPart_mem (n : Nat) (f : Part → Part) : (s.updPart n f).mem = s.mem := rfl
@[simp] theorem State.updPart_lines (n : Nat) (f : Part → Part) : (s.updPart n f).lines = s.lines := rfl
@[simp] theorem State.updPart_regs (n : Nat) (f : Part → Part) : (s.updPart n f).regs = s.regs := rfl
@[simp] theorem State.updPart_staged (n : Nat) (f : Part → Part) : (s.updPart n f).staged = s.staged := rfl
@[simp] theorem State.updPart_fab (n : Nat) (f : Part → Part) : (s.updPart n f).fab = s.fab := rfl
@[simp] theorem State.updPart_coh (n : Nat) (f : Part → Part) : (s.updPart n f).coh = s.coh := rfl
@[simp] theorem State.updPart_hbm (n : Nat) (f : Part → Part) : (s.updPart n f).hbm = s.hbm := rfl
@[simp] theorem State.updPart_sec (n : Nat) (f : Part → Part) : (s.updPart n f).sec = s.sec := rfl
@[simp] theorem State.updPart_pwr (n : Nat) (f : Part → Part) : (s.updPart n f).pwr = s.pwr := rfl
@[simp] theorem State.updPart_ras (n : Nat) (f : Part → Part) : (s.updPart n f).ras = s.ras := rfl
@[simp] theorem State.updPart_cells (n : Nat) (f : Part → Part) : (s.updPart n f).cells = s.cells := rfl
@[simp] theorem State.updPart_msgs (n : Nat) (f : Part → Part) : (s.updPart n f).msgs = s.msgs := rfl
@[simp] theorem State.updPart_egress (n : Nat) (f : Part → Part) : (s.updPart n f).egress = s.egress := rfl
@[simp] theorem State.updPart_flights (n : Nat) (f : Part → Part) : (s.updPart n f).flights = s.flights := rfl
@[simp] theorem State.updPart_ctxs (n : Nat) (f : Part → Part) : (s.updPart n f).ctxs = s.ctxs := rfl
@[simp] theorem State.updPart_saved (n : Nat) (f : Part → Part) : (s.updPart n f).saved = s.saved := rfl
@[simp] theorem State.updPart_schs (n : Nat) (f : Part → Part) : (s.updPart n f).schs = s.schs := rfl
@[simp] theorem State.updPart_ress (n : Nat) (f : Part → Part) : (s.updPart n f).ress = s.ress := rfl
@[simp] theorem State.updPart_cores (n : Nat) (f : Part → Part) : (s.updPart n f).cores = s.cores := rfl
@[simp] theorem State.updPart_aclint (n : Nat) (f : Part → Part) : (s.updPart n f).aclint = s.aclint := rfl
@[simp] theorem State.updPart_codes (n : Nat) (f : Part → Part) : (s.updPart n f).codes = s.codes := rfl
@[simp] theorem State.updPart_rxqs (n : Nat) (f : Part → Part) : (s.updPart n f).rxqs = s.rxqs := rfl
@[simp] theorem State.updPart_pools (n : Nat) (f : Part → Part) : (s.updPart n f).pools = s.pools := rfl
@[simp] theorem State.updPart_vfs (n : Nat) (f : Part → Part) : (s.updPart n f).vfs = s.vfs := rfl
@[simp] theorem State.updPart_queues (n : Nat) (f : Part → Part) : (s.updPart n f).queues = s.queues := rfl
@[simp] theorem State.updPart_fences (n : Nat) (f : Part → Part) : (s.updPart n f).fences = s.fences := rfl
@[simp] theorem State.updPart_pcie (n : Nat) (f : Part → Part) : (s.updPart n f).pcie = s.pcie := rfl
@[simp] theorem State.updPart_chans (n : Nat) (f : Part → Part) : (s.updPart n f).chans = s.chans := rfl
@[simp] theorem State.updPart_dmaLast (n : Nat) (f : Part → Part) : (s.updPart n f).dmaLast = s.dmaLast := rfl
@[simp] theorem State.updPart_dmaWait (n : Nat) (f : Part → Part) : (s.updPart n f).dmaWait = s.dmaWait := rfl
@[simp] theorem State.updPart_walkCaches (n : Nat) (f : Part → Part) : (s.updPart n f).walkCaches = s.walkCaches := rfl
@[simp] theorem State.updPart_xlts (n : Nat) (f : Part → Part) : (s.updPart n f).xlts = s.xlts := rfl
@[simp] theorem State.updPart_pageReady (n : Nat) (f : Part → Part) : (s.updPart n f).pageReady = s.pageReady := rfl
@[simp] theorem State.updPart_sites (n : Nat) (f : Part → Part) : (s.updPart n f).sites = s.sites := rfl
@[simp] theorem State.updPart_net (n : Nat) (f : Part → Part) : (s.updPart n f).net = s.net := rfl
@[simp] theorem State.updPart_ring (n : Nat) (f : Part → Part) : (s.updPart n f).ring = s.ring := rfl
@[simp] theorem State.updPart_colls (n : Nat) (f : Part → Part) : (s.updPart n f).colls = s.colls := rfl
@[simp] theorem State.updPart_twins (n : Nat) (f : Part → Part) : (s.updPart n f).twins = s.twins := rfl

@[simp] theorem State.tick_pending : (s.tick).pending = s.pending := rfl
@[simp] theorem State.tick_out : (s.tick).out = s.out := rfl
@[simp] theorem State.tick_dues : (s.tick).dues = s.dues := rfl
@[simp] theorem State.tick_mem : (s.tick).mem = s.mem := rfl
@[simp] theorem State.tick_lines : (s.tick).lines = s.lines := rfl
@[simp] theorem State.tick_regs : (s.tick).regs = s.regs := rfl
@[simp] theorem State.tick_staged : (s.tick).staged = s.staged := rfl
@[simp] theorem State.tick_pat : (s.tick).pat = s.pat := rfl
@[simp] theorem State.tick_fab : (s.tick).fab = s.fab := rfl
@[simp] theorem State.tick_coh : (s.tick).coh = s.coh := rfl
@[simp] theorem State.tick_hbm : (s.tick).hbm = s.hbm := rfl
@[simp] theorem State.tick_sec : (s.tick).sec = s.sec := rfl
@[simp] theorem State.tick_pwr : (s.tick).pwr = s.pwr := rfl
@[simp] theorem State.tick_ras : (s.tick).ras = s.ras := rfl
@[simp] theorem State.tick_cells : (s.tick).cells = s.cells := rfl
@[simp] theorem State.tick_msgs : (s.tick).msgs = s.msgs := rfl
@[simp] theorem State.tick_egress : (s.tick).egress = s.egress := rfl
@[simp] theorem State.tick_flights : (s.tick).flights = s.flights := rfl
@[simp] theorem State.tick_ctxs : (s.tick).ctxs = s.ctxs := rfl
@[simp] theorem State.tick_saved : (s.tick).saved = s.saved := rfl
@[simp] theorem State.tick_schs : (s.tick).schs = s.schs := rfl
@[simp] theorem State.tick_ress : (s.tick).ress = s.ress := rfl
@[simp] theorem State.tick_cores : (s.tick).cores = s.cores := rfl
@[simp] theorem State.tick_aclint : (s.tick).aclint = s.aclint := rfl
@[simp] theorem State.tick_codes : (s.tick).codes = s.codes := rfl
@[simp] theorem State.tick_rxqs : (s.tick).rxqs = s.rxqs := rfl
@[simp] theorem State.tick_pools : (s.tick).pools = s.pools := rfl
@[simp] theorem State.tick_vfs : (s.tick).vfs = s.vfs := rfl
@[simp] theorem State.tick_queues : (s.tick).queues = s.queues := rfl
@[simp] theorem State.tick_fences : (s.tick).fences = s.fences := rfl
@[simp] theorem State.tick_pcie : (s.tick).pcie = s.pcie := rfl
@[simp] theorem State.tick_chans : (s.tick).chans = s.chans := rfl
@[simp] theorem State.tick_dmaLast : (s.tick).dmaLast = s.dmaLast := rfl
@[simp] theorem State.tick_dmaWait : (s.tick).dmaWait = s.dmaWait := rfl
@[simp] theorem State.tick_walkCaches : (s.tick).walkCaches = s.walkCaches := rfl
@[simp] theorem State.tick_xlts : (s.tick).xlts = s.xlts := rfl
@[simp] theorem State.tick_pageReady : (s.tick).pageReady = s.pageReady := rfl
@[simp] theorem State.tick_sites : (s.tick).sites = s.sites := rfl
@[simp] theorem State.tick_net : (s.tick).net = s.net := rfl
@[simp] theorem State.tick_ring : (s.tick).ring = s.ring := rfl
@[simp] theorem State.tick_colls : (s.tick).colls = s.colls := rfl
@[simp] theorem State.tick_twins : (s.tick).twins = s.twins := rfl

@[simp] theorem State.emit_pending (o : Out) : (s.emit o).pending = s.pending := rfl
@[simp] theorem State.emit_freeCtr (o : Out) : (s.emit o).freeCtr = s.freeCtr := rfl
@[simp] theorem State.emit_dues (o : Out) : (s.emit o).dues = s.dues := rfl
@[simp] theorem State.emit_mem (o : Out) : (s.emit o).mem = s.mem := rfl
@[simp] theorem State.emit_lines (o : Out) : (s.emit o).lines = s.lines := rfl
@[simp] theorem State.emit_regs (o : Out) : (s.emit o).regs = s.regs := rfl
@[simp] theorem State.emit_staged (o : Out) : (s.emit o).staged = s.staged := rfl
@[simp] theorem State.emit_pat (o : Out) : (s.emit o).pat = s.pat := rfl
@[simp] theorem State.emit_fab (o : Out) : (s.emit o).fab = s.fab := rfl
@[simp] theorem State.emit_coh (o : Out) : (s.emit o).coh = s.coh := rfl
@[simp] theorem State.emit_hbm (o : Out) : (s.emit o).hbm = s.hbm := rfl
@[simp] theorem State.emit_sec (o : Out) : (s.emit o).sec = s.sec := rfl
@[simp] theorem State.emit_pwr (o : Out) : (s.emit o).pwr = s.pwr := rfl
@[simp] theorem State.emit_ras (o : Out) : (s.emit o).ras = s.ras := rfl
@[simp] theorem State.emit_cells (o : Out) : (s.emit o).cells = s.cells := rfl
@[simp] theorem State.emit_msgs (o : Out) : (s.emit o).msgs = s.msgs := rfl
@[simp] theorem State.emit_egress (o : Out) : (s.emit o).egress = s.egress := rfl
@[simp] theorem State.emit_flights (o : Out) : (s.emit o).flights = s.flights := rfl
@[simp] theorem State.emit_ctxs (o : Out) : (s.emit o).ctxs = s.ctxs := rfl
@[simp] theorem State.emit_saved (o : Out) : (s.emit o).saved = s.saved := rfl
@[simp] theorem State.emit_schs (o : Out) : (s.emit o).schs = s.schs := rfl
@[simp] theorem State.emit_ress (o : Out) : (s.emit o).ress = s.ress := rfl
@[simp] theorem State.emit_cores (o : Out) : (s.emit o).cores = s.cores := rfl
@[simp] theorem State.emit_aclint (o : Out) : (s.emit o).aclint = s.aclint := rfl
@[simp] theorem State.emit_codes (o : Out) : (s.emit o).codes = s.codes := rfl
@[simp] theorem State.emit_rxqs (o : Out) : (s.emit o).rxqs = s.rxqs := rfl
@[simp] theorem State.emit_pools (o : Out) : (s.emit o).pools = s.pools := rfl
@[simp] theorem State.emit_vfs (o : Out) : (s.emit o).vfs = s.vfs := rfl
@[simp] theorem State.emit_queues (o : Out) : (s.emit o).queues = s.queues := rfl
@[simp] theorem State.emit_fences (o : Out) : (s.emit o).fences = s.fences := rfl
@[simp] theorem State.emit_pcie (o : Out) : (s.emit o).pcie = s.pcie := rfl
@[simp] theorem State.emit_chans (o : Out) : (s.emit o).chans = s.chans := rfl
@[simp] theorem State.emit_dmaLast (o : Out) : (s.emit o).dmaLast = s.dmaLast := rfl
@[simp] theorem State.emit_dmaWait (o : Out) : (s.emit o).dmaWait = s.dmaWait := rfl
@[simp] theorem State.emit_walkCaches (o : Out) : (s.emit o).walkCaches = s.walkCaches := rfl
@[simp] theorem State.emit_xlts (o : Out) : (s.emit o).xlts = s.xlts := rfl
@[simp] theorem State.emit_pageReady (o : Out) : (s.emit o).pageReady = s.pageReady := rfl
@[simp] theorem State.emit_sites (o : Out) : (s.emit o).sites = s.sites := rfl
@[simp] theorem State.emit_net (o : Out) : (s.emit o).net = s.net := rfl
@[simp] theorem State.emit_ring (o : Out) : (s.emit o).ring = s.ring := rfl
@[simp] theorem State.emit_colls (o : Out) : (s.emit o).colls = s.colls := rfl
@[simp] theorem State.emit_twins (o : Out) : (s.emit o).twins = s.twins := rfl

@[simp] theorem State.setReg_pending (a v : Nat) : (s.setReg a v).pending = s.pending := rfl
@[simp] theorem State.setReg_freeCtr (a v : Nat) : (s.setReg a v).freeCtr = s.freeCtr := rfl
@[simp] theorem State.setReg_out (a v : Nat) : (s.setReg a v).out = s.out := rfl
@[simp] theorem State.setReg_dues (a v : Nat) : (s.setReg a v).dues = s.dues := rfl
@[simp] theorem State.setReg_mem (a v : Nat) : (s.setReg a v).mem = s.mem := rfl
@[simp] theorem State.setReg_lines (a v : Nat) : (s.setReg a v).lines = s.lines := rfl
@[simp] theorem State.setReg_staged (a v : Nat) : (s.setReg a v).staged = s.staged := rfl
@[simp] theorem State.setReg_pat (a v : Nat) : (s.setReg a v).pat = s.pat := rfl
@[simp] theorem State.setReg_fab (a v : Nat) : (s.setReg a v).fab = s.fab := rfl
@[simp] theorem State.setReg_coh (a v : Nat) : (s.setReg a v).coh = s.coh := rfl
@[simp] theorem State.setReg_hbm (a v : Nat) : (s.setReg a v).hbm = s.hbm := rfl
@[simp] theorem State.setReg_sec (a v : Nat) : (s.setReg a v).sec = s.sec := rfl
@[simp] theorem State.setReg_pwr (a v : Nat) : (s.setReg a v).pwr = s.pwr := rfl
@[simp] theorem State.setReg_ras (a v : Nat) : (s.setReg a v).ras = s.ras := rfl
@[simp] theorem State.setReg_cells (a v : Nat) : (s.setReg a v).cells = s.cells := rfl
@[simp] theorem State.setReg_msgs (a v : Nat) : (s.setReg a v).msgs = s.msgs := rfl
@[simp] theorem State.setReg_egress (a v : Nat) : (s.setReg a v).egress = s.egress := rfl
@[simp] theorem State.setReg_flights (a v : Nat) : (s.setReg a v).flights = s.flights := rfl
@[simp] theorem State.setReg_ctxs (a v : Nat) : (s.setReg a v).ctxs = s.ctxs := rfl
@[simp] theorem State.setReg_saved (a v : Nat) : (s.setReg a v).saved = s.saved := rfl
@[simp] theorem State.setReg_schs (a v : Nat) : (s.setReg a v).schs = s.schs := rfl
@[simp] theorem State.setReg_ress (a v : Nat) : (s.setReg a v).ress = s.ress := rfl
@[simp] theorem State.setReg_cores (a v : Nat) : (s.setReg a v).cores = s.cores := rfl
@[simp] theorem State.setReg_aclint (a v : Nat) : (s.setReg a v).aclint = s.aclint := rfl
@[simp] theorem State.setReg_codes (a v : Nat) : (s.setReg a v).codes = s.codes := rfl
@[simp] theorem State.setReg_rxqs (a v : Nat) : (s.setReg a v).rxqs = s.rxqs := rfl
@[simp] theorem State.setReg_pools (a v : Nat) : (s.setReg a v).pools = s.pools := rfl
@[simp] theorem State.setReg_vfs (a v : Nat) : (s.setReg a v).vfs = s.vfs := rfl
@[simp] theorem State.setReg_queues (a v : Nat) : (s.setReg a v).queues = s.queues := rfl
@[simp] theorem State.setReg_fences (a v : Nat) : (s.setReg a v).fences = s.fences := rfl
@[simp] theorem State.setReg_pcie (a v : Nat) : (s.setReg a v).pcie = s.pcie := rfl
@[simp] theorem State.setReg_chans (a v : Nat) : (s.setReg a v).chans = s.chans := rfl
@[simp] theorem State.setReg_dmaLast (a v : Nat) : (s.setReg a v).dmaLast = s.dmaLast := rfl
@[simp] theorem State.setReg_dmaWait (a v : Nat) : (s.setReg a v).dmaWait = s.dmaWait := rfl
@[simp] theorem State.setReg_walkCaches (a v : Nat) : (s.setReg a v).walkCaches = s.walkCaches := rfl
@[simp] theorem State.setReg_xlts (a v : Nat) : (s.setReg a v).xlts = s.xlts := rfl
@[simp] theorem State.setReg_pageReady (a v : Nat) : (s.setReg a v).pageReady = s.pageReady := rfl
@[simp] theorem State.setReg_sites (a v : Nat) : (s.setReg a v).sites = s.sites := rfl
@[simp] theorem State.setReg_net (a v : Nat) : (s.setReg a v).net = s.net := rfl
@[simp] theorem State.setReg_ring (a v : Nat) : (s.setReg a v).ring = s.ring := rfl
@[simp] theorem State.setReg_colls (a v : Nat) : (s.setReg a v).colls = s.colls := rfl
@[simp] theorem State.setReg_twins (a v : Nat) : (s.setReg a v).twins = s.twins := rfl

@[simp] theorem State.updRas_pending (h : Nat) (f : Ras → Ras) : (s.updRas h f).pending = s.pending := rfl
@[simp] theorem State.updRas_freeCtr (h : Nat) (f : Ras → Ras) : (s.updRas h f).freeCtr = s.freeCtr := rfl
@[simp] theorem State.updRas_out (h : Nat) (f : Ras → Ras) : (s.updRas h f).out = s.out := rfl
@[simp] theorem State.updRas_dues (h : Nat) (f : Ras → Ras) : (s.updRas h f).dues = s.dues := rfl
@[simp] theorem State.updRas_mem (h : Nat) (f : Ras → Ras) : (s.updRas h f).mem = s.mem := rfl
@[simp] theorem State.updRas_lines (h : Nat) (f : Ras → Ras) : (s.updRas h f).lines = s.lines := rfl
@[simp] theorem State.updRas_regs (h : Nat) (f : Ras → Ras) : (s.updRas h f).regs = s.regs := rfl
@[simp] theorem State.updRas_staged (h : Nat) (f : Ras → Ras) : (s.updRas h f).staged = s.staged := rfl
@[simp] theorem State.updRas_pat (h : Nat) (f : Ras → Ras) : (s.updRas h f).pat = s.pat := rfl
@[simp] theorem State.updRas_fab (h : Nat) (f : Ras → Ras) : (s.updRas h f).fab = s.fab := rfl
@[simp] theorem State.updRas_coh (h : Nat) (f : Ras → Ras) : (s.updRas h f).coh = s.coh := rfl
@[simp] theorem State.updRas_hbm (h : Nat) (f : Ras → Ras) : (s.updRas h f).hbm = s.hbm := rfl
@[simp] theorem State.updRas_sec (h : Nat) (f : Ras → Ras) : (s.updRas h f).sec = s.sec := rfl
@[simp] theorem State.updRas_pwr (h : Nat) (f : Ras → Ras) : (s.updRas h f).pwr = s.pwr := rfl
@[simp] theorem State.updRas_cells (h : Nat) (f : Ras → Ras) : (s.updRas h f).cells = s.cells := rfl
@[simp] theorem State.updRas_msgs (h : Nat) (f : Ras → Ras) : (s.updRas h f).msgs = s.msgs := rfl
@[simp] theorem State.updRas_egress (h : Nat) (f : Ras → Ras) : (s.updRas h f).egress = s.egress := rfl
@[simp] theorem State.updRas_flights (h : Nat) (f : Ras → Ras) : (s.updRas h f).flights = s.flights := rfl
@[simp] theorem State.updRas_ctxs (h : Nat) (f : Ras → Ras) : (s.updRas h f).ctxs = s.ctxs := rfl
@[simp] theorem State.updRas_saved (h : Nat) (f : Ras → Ras) : (s.updRas h f).saved = s.saved := rfl
@[simp] theorem State.updRas_schs (h : Nat) (f : Ras → Ras) : (s.updRas h f).schs = s.schs := rfl
@[simp] theorem State.updRas_ress (h : Nat) (f : Ras → Ras) : (s.updRas h f).ress = s.ress := rfl
@[simp] theorem State.updRas_cores (h : Nat) (f : Ras → Ras) : (s.updRas h f).cores = s.cores := rfl
@[simp] theorem State.updRas_aclint (h : Nat) (f : Ras → Ras) : (s.updRas h f).aclint = s.aclint := rfl
@[simp] theorem State.updRas_codes (h : Nat) (f : Ras → Ras) : (s.updRas h f).codes = s.codes := rfl
@[simp] theorem State.updRas_rxqs (h : Nat) (f : Ras → Ras) : (s.updRas h f).rxqs = s.rxqs := rfl
@[simp] theorem State.updRas_pools (h : Nat) (f : Ras → Ras) : (s.updRas h f).pools = s.pools := rfl
@[simp] theorem State.updRas_vfs (h : Nat) (f : Ras → Ras) : (s.updRas h f).vfs = s.vfs := rfl
@[simp] theorem State.updRas_queues (h : Nat) (f : Ras → Ras) : (s.updRas h f).queues = s.queues := rfl
@[simp] theorem State.updRas_fences (h : Nat) (f : Ras → Ras) : (s.updRas h f).fences = s.fences := rfl
@[simp] theorem State.updRas_pcie (h : Nat) (f : Ras → Ras) : (s.updRas h f).pcie = s.pcie := rfl
@[simp] theorem State.updRas_chans (h : Nat) (f : Ras → Ras) : (s.updRas h f).chans = s.chans := rfl
@[simp] theorem State.updRas_dmaLast (h : Nat) (f : Ras → Ras) : (s.updRas h f).dmaLast = s.dmaLast := rfl
@[simp] theorem State.updRas_dmaWait (h : Nat) (f : Ras → Ras) : (s.updRas h f).dmaWait = s.dmaWait := rfl
@[simp] theorem State.updRas_walkCaches (h : Nat) (f : Ras → Ras) : (s.updRas h f).walkCaches = s.walkCaches := rfl
@[simp] theorem State.updRas_xlts (h : Nat) (f : Ras → Ras) : (s.updRas h f).xlts = s.xlts := rfl
@[simp] theorem State.updRas_pageReady (h : Nat) (f : Ras → Ras) : (s.updRas h f).pageReady = s.pageReady := rfl
@[simp] theorem State.updRas_sites (h : Nat) (f : Ras → Ras) : (s.updRas h f).sites = s.sites := rfl
@[simp] theorem State.updRas_net (h : Nat) (f : Ras → Ras) : (s.updRas h f).net = s.net := rfl
@[simp] theorem State.updRas_ring (h : Nat) (f : Ras → Ras) : (s.updRas h f).ring = s.ring := rfl
@[simp] theorem State.updRas_colls (h : Nat) (f : Ras → Ras) : (s.updRas h f).colls = s.colls := rfl
@[simp] theorem State.updRas_twins (h : Nat) (f : Ras → Ras) : (s.updRas h f).twins = s.twins := rfl

@[simp] theorem State.updCell_pending (i : Nat) (f : Cell → Cell) : (s.updCell i f).pending = s.pending := rfl
@[simp] theorem State.updCell_freeCtr (i : Nat) (f : Cell → Cell) : (s.updCell i f).freeCtr = s.freeCtr := rfl
@[simp] theorem State.updCell_out (i : Nat) (f : Cell → Cell) : (s.updCell i f).out = s.out := rfl
@[simp] theorem State.updCell_dues (i : Nat) (f : Cell → Cell) : (s.updCell i f).dues = s.dues := rfl
@[simp] theorem State.updCell_mem (i : Nat) (f : Cell → Cell) : (s.updCell i f).mem = s.mem := rfl
@[simp] theorem State.updCell_lines (i : Nat) (f : Cell → Cell) : (s.updCell i f).lines = s.lines := rfl
@[simp] theorem State.updCell_regs (i : Nat) (f : Cell → Cell) : (s.updCell i f).regs = s.regs := rfl
@[simp] theorem State.updCell_staged (i : Nat) (f : Cell → Cell) : (s.updCell i f).staged = s.staged := rfl
@[simp] theorem State.updCell_pat (i : Nat) (f : Cell → Cell) : (s.updCell i f).pat = s.pat := rfl
@[simp] theorem State.updCell_fab (i : Nat) (f : Cell → Cell) : (s.updCell i f).fab = s.fab := rfl
@[simp] theorem State.updCell_coh (i : Nat) (f : Cell → Cell) : (s.updCell i f).coh = s.coh := rfl
@[simp] theorem State.updCell_hbm (i : Nat) (f : Cell → Cell) : (s.updCell i f).hbm = s.hbm := rfl
@[simp] theorem State.updCell_sec (i : Nat) (f : Cell → Cell) : (s.updCell i f).sec = s.sec := rfl
@[simp] theorem State.updCell_pwr (i : Nat) (f : Cell → Cell) : (s.updCell i f).pwr = s.pwr := rfl
@[simp] theorem State.updCell_ras (i : Nat) (f : Cell → Cell) : (s.updCell i f).ras = s.ras := rfl
@[simp] theorem State.updCell_msgs (i : Nat) (f : Cell → Cell) : (s.updCell i f).msgs = s.msgs := rfl
@[simp] theorem State.updCell_egress (i : Nat) (f : Cell → Cell) : (s.updCell i f).egress = s.egress := rfl
@[simp] theorem State.updCell_flights (i : Nat) (f : Cell → Cell) : (s.updCell i f).flights = s.flights := rfl
@[simp] theorem State.updCell_ctxs (i : Nat) (f : Cell → Cell) : (s.updCell i f).ctxs = s.ctxs := rfl
@[simp] theorem State.updCell_saved (i : Nat) (f : Cell → Cell) : (s.updCell i f).saved = s.saved := rfl
@[simp] theorem State.updCell_schs (i : Nat) (f : Cell → Cell) : (s.updCell i f).schs = s.schs := rfl
@[simp] theorem State.updCell_ress (i : Nat) (f : Cell → Cell) : (s.updCell i f).ress = s.ress := rfl
@[simp] theorem State.updCell_cores (i : Nat) (f : Cell → Cell) : (s.updCell i f).cores = s.cores := rfl
@[simp] theorem State.updCell_aclint (i : Nat) (f : Cell → Cell) : (s.updCell i f).aclint = s.aclint := rfl
@[simp] theorem State.updCell_codes (i : Nat) (f : Cell → Cell) : (s.updCell i f).codes = s.codes := rfl
@[simp] theorem State.updCell_rxqs (i : Nat) (f : Cell → Cell) : (s.updCell i f).rxqs = s.rxqs := rfl
@[simp] theorem State.updCell_pools (i : Nat) (f : Cell → Cell) : (s.updCell i f).pools = s.pools := rfl
@[simp] theorem State.updCell_vfs (i : Nat) (f : Cell → Cell) : (s.updCell i f).vfs = s.vfs := rfl
@[simp] theorem State.updCell_queues (i : Nat) (f : Cell → Cell) : (s.updCell i f).queues = s.queues := rfl
@[simp] theorem State.updCell_fences (i : Nat) (f : Cell → Cell) : (s.updCell i f).fences = s.fences := rfl
@[simp] theorem State.updCell_pcie (i : Nat) (f : Cell → Cell) : (s.updCell i f).pcie = s.pcie := rfl
@[simp] theorem State.updCell_chans (i : Nat) (f : Cell → Cell) : (s.updCell i f).chans = s.chans := rfl
@[simp] theorem State.updCell_dmaLast (i : Nat) (f : Cell → Cell) : (s.updCell i f).dmaLast = s.dmaLast := rfl
@[simp] theorem State.updCell_dmaWait (i : Nat) (f : Cell → Cell) : (s.updCell i f).dmaWait = s.dmaWait := rfl
@[simp] theorem State.updCell_walkCaches (i : Nat) (f : Cell → Cell) : (s.updCell i f).walkCaches = s.walkCaches := rfl
@[simp] theorem State.updCell_xlts (i : Nat) (f : Cell → Cell) : (s.updCell i f).xlts = s.xlts := rfl
@[simp] theorem State.updCell_pageReady (i : Nat) (f : Cell → Cell) : (s.updCell i f).pageReady = s.pageReady := rfl
@[simp] theorem State.updCell_sites (i : Nat) (f : Cell → Cell) : (s.updCell i f).sites = s.sites := rfl
@[simp] theorem State.updCell_net (i : Nat) (f : Cell → Cell) : (s.updCell i f).net = s.net := rfl
@[simp] theorem State.updCell_ring (i : Nat) (f : Cell → Cell) : (s.updCell i f).ring = s.ring := rfl
@[simp] theorem State.updCell_colls (i : Nat) (f : Cell → Cell) : (s.updCell i f).colls = s.colls := rfl
@[simp] theorem State.updCell_twins (i : Nat) (f : Cell → Cell) : (s.updCell i f).twins = s.twins := rfl

@[simp] theorem State.updCtx_pending (n c : Nat) (f : Ctx → Ctx) : (s.updCtx n c f).pending = s.pending := rfl
@[simp] theorem State.updCtx_freeCtr (n c : Nat) (f : Ctx → Ctx) : (s.updCtx n c f).freeCtr = s.freeCtr := rfl
@[simp] theorem State.updCtx_out (n c : Nat) (f : Ctx → Ctx) : (s.updCtx n c f).out = s.out := rfl
@[simp] theorem State.updCtx_dues (n c : Nat) (f : Ctx → Ctx) : (s.updCtx n c f).dues = s.dues := rfl
@[simp] theorem State.updCtx_mem (n c : Nat) (f : Ctx → Ctx) : (s.updCtx n c f).mem = s.mem := rfl
@[simp] theorem State.updCtx_lines (n c : Nat) (f : Ctx → Ctx) : (s.updCtx n c f).lines = s.lines := rfl
@[simp] theorem State.updCtx_regs (n c : Nat) (f : Ctx → Ctx) : (s.updCtx n c f).regs = s.regs := rfl
@[simp] theorem State.updCtx_staged (n c : Nat) (f : Ctx → Ctx) : (s.updCtx n c f).staged = s.staged := rfl
@[simp] theorem State.updCtx_pat (n c : Nat) (f : Ctx → Ctx) : (s.updCtx n c f).pat = s.pat := rfl
@[simp] theorem State.updCtx_fab (n c : Nat) (f : Ctx → Ctx) : (s.updCtx n c f).fab = s.fab := rfl
@[simp] theorem State.updCtx_coh (n c : Nat) (f : Ctx → Ctx) : (s.updCtx n c f).coh = s.coh := rfl
@[simp] theorem State.updCtx_hbm (n c : Nat) (f : Ctx → Ctx) : (s.updCtx n c f).hbm = s.hbm := rfl
@[simp] theorem State.updCtx_sec (n c : Nat) (f : Ctx → Ctx) : (s.updCtx n c f).sec = s.sec := rfl
@[simp] theorem State.updCtx_pwr (n c : Nat) (f : Ctx → Ctx) : (s.updCtx n c f).pwr = s.pwr := rfl
@[simp] theorem State.updCtx_ras (n c : Nat) (f : Ctx → Ctx) : (s.updCtx n c f).ras = s.ras := rfl
@[simp] theorem State.updCtx_cells (n c : Nat) (f : Ctx → Ctx) : (s.updCtx n c f).cells = s.cells := rfl
@[simp] theorem State.updCtx_msgs (n c : Nat) (f : Ctx → Ctx) : (s.updCtx n c f).msgs = s.msgs := rfl
@[simp] theorem State.updCtx_egress (n c : Nat) (f : Ctx → Ctx) : (s.updCtx n c f).egress = s.egress := rfl
@[simp] theorem State.updCtx_flights (n c : Nat) (f : Ctx → Ctx) : (s.updCtx n c f).flights = s.flights := rfl
@[simp] theorem State.updCtx_saved (n c : Nat) (f : Ctx → Ctx) : (s.updCtx n c f).saved = s.saved := rfl
@[simp] theorem State.updCtx_schs (n c : Nat) (f : Ctx → Ctx) : (s.updCtx n c f).schs = s.schs := rfl
@[simp] theorem State.updCtx_ress (n c : Nat) (f : Ctx → Ctx) : (s.updCtx n c f).ress = s.ress := rfl
@[simp] theorem State.updCtx_cores (n c : Nat) (f : Ctx → Ctx) : (s.updCtx n c f).cores = s.cores := rfl
@[simp] theorem State.updCtx_aclint (n c : Nat) (f : Ctx → Ctx) : (s.updCtx n c f).aclint = s.aclint := rfl
@[simp] theorem State.updCtx_codes (n c : Nat) (f : Ctx → Ctx) : (s.updCtx n c f).codes = s.codes := rfl
@[simp] theorem State.updCtx_rxqs (n c : Nat) (f : Ctx → Ctx) : (s.updCtx n c f).rxqs = s.rxqs := rfl
@[simp] theorem State.updCtx_pools (n c : Nat) (f : Ctx → Ctx) : (s.updCtx n c f).pools = s.pools := rfl
@[simp] theorem State.updCtx_vfs (n c : Nat) (f : Ctx → Ctx) : (s.updCtx n c f).vfs = s.vfs := rfl
@[simp] theorem State.updCtx_queues (n c : Nat) (f : Ctx → Ctx) : (s.updCtx n c f).queues = s.queues := rfl
@[simp] theorem State.updCtx_fences (n c : Nat) (f : Ctx → Ctx) : (s.updCtx n c f).fences = s.fences := rfl
@[simp] theorem State.updCtx_pcie (n c : Nat) (f : Ctx → Ctx) : (s.updCtx n c f).pcie = s.pcie := rfl
@[simp] theorem State.updCtx_chans (n c : Nat) (f : Ctx → Ctx) : (s.updCtx n c f).chans = s.chans := rfl
@[simp] theorem State.updCtx_dmaLast (n c : Nat) (f : Ctx → Ctx) : (s.updCtx n c f).dmaLast = s.dmaLast := rfl
@[simp] theorem State.updCtx_dmaWait (n c : Nat) (f : Ctx → Ctx) : (s.updCtx n c f).dmaWait = s.dmaWait := rfl
@[simp] theorem State.updCtx_walkCaches (n c : Nat) (f : Ctx → Ctx) : (s.updCtx n c f).walkCaches = s.walkCaches := rfl
@[simp] theorem State.updCtx_xlts (n c : Nat) (f : Ctx → Ctx) : (s.updCtx n c f).xlts = s.xlts := rfl
@[simp] theorem State.updCtx_pageReady (n c : Nat) (f : Ctx → Ctx) : (s.updCtx n c f).pageReady = s.pageReady := rfl
@[simp] theorem State.updCtx_sites (n c : Nat) (f : Ctx → Ctx) : (s.updCtx n c f).sites = s.sites := rfl
@[simp] theorem State.updCtx_net (n c : Nat) (f : Ctx → Ctx) : (s.updCtx n c f).net = s.net := rfl
@[simp] theorem State.updCtx_ring (n c : Nat) (f : Ctx → Ctx) : (s.updCtx n c f).ring = s.ring := rfl
@[simp] theorem State.updCtx_colls (n c : Nat) (f : Ctx → Ctx) : (s.updCtx n c f).colls = s.colls := rfl
@[simp] theorem State.updCtx_twins (n c : Nat) (f : Ctx → Ctx) : (s.updCtx n c f).twins = s.twins := rfl

@[simp] theorem State.updCore_pending (i : Nat) (f : Core → Core) : (s.updCore i f).pending = s.pending := rfl
@[simp] theorem State.updCore_freeCtr (i : Nat) (f : Core → Core) : (s.updCore i f).freeCtr = s.freeCtr := rfl
@[simp] theorem State.updCore_out (i : Nat) (f : Core → Core) : (s.updCore i f).out = s.out := rfl
@[simp] theorem State.updCore_dues (i : Nat) (f : Core → Core) : (s.updCore i f).dues = s.dues := rfl
@[simp] theorem State.updCore_mem (i : Nat) (f : Core → Core) : (s.updCore i f).mem = s.mem := rfl
@[simp] theorem State.updCore_lines (i : Nat) (f : Core → Core) : (s.updCore i f).lines = s.lines := rfl
@[simp] theorem State.updCore_regs (i : Nat) (f : Core → Core) : (s.updCore i f).regs = s.regs := rfl
@[simp] theorem State.updCore_staged (i : Nat) (f : Core → Core) : (s.updCore i f).staged = s.staged := rfl
@[simp] theorem State.updCore_pat (i : Nat) (f : Core → Core) : (s.updCore i f).pat = s.pat := rfl
@[simp] theorem State.updCore_fab (i : Nat) (f : Core → Core) : (s.updCore i f).fab = s.fab := rfl
@[simp] theorem State.updCore_coh (i : Nat) (f : Core → Core) : (s.updCore i f).coh = s.coh := rfl
@[simp] theorem State.updCore_hbm (i : Nat) (f : Core → Core) : (s.updCore i f).hbm = s.hbm := rfl
@[simp] theorem State.updCore_sec (i : Nat) (f : Core → Core) : (s.updCore i f).sec = s.sec := rfl
@[simp] theorem State.updCore_pwr (i : Nat) (f : Core → Core) : (s.updCore i f).pwr = s.pwr := rfl
@[simp] theorem State.updCore_ras (i : Nat) (f : Core → Core) : (s.updCore i f).ras = s.ras := rfl
@[simp] theorem State.updCore_cells (i : Nat) (f : Core → Core) : (s.updCore i f).cells = s.cells := rfl
@[simp] theorem State.updCore_msgs (i : Nat) (f : Core → Core) : (s.updCore i f).msgs = s.msgs := rfl
@[simp] theorem State.updCore_egress (i : Nat) (f : Core → Core) : (s.updCore i f).egress = s.egress := rfl
@[simp] theorem State.updCore_flights (i : Nat) (f : Core → Core) : (s.updCore i f).flights = s.flights := rfl
@[simp] theorem State.updCore_ctxs (i : Nat) (f : Core → Core) : (s.updCore i f).ctxs = s.ctxs := rfl
@[simp] theorem State.updCore_saved (i : Nat) (f : Core → Core) : (s.updCore i f).saved = s.saved := rfl
@[simp] theorem State.updCore_schs (i : Nat) (f : Core → Core) : (s.updCore i f).schs = s.schs := rfl
@[simp] theorem State.updCore_ress (i : Nat) (f : Core → Core) : (s.updCore i f).ress = s.ress := rfl
@[simp] theorem State.updCore_aclint (i : Nat) (f : Core → Core) : (s.updCore i f).aclint = s.aclint := rfl
@[simp] theorem State.updCore_codes (i : Nat) (f : Core → Core) : (s.updCore i f).codes = s.codes := rfl
@[simp] theorem State.updCore_rxqs (i : Nat) (f : Core → Core) : (s.updCore i f).rxqs = s.rxqs := rfl
@[simp] theorem State.updCore_pools (i : Nat) (f : Core → Core) : (s.updCore i f).pools = s.pools := rfl
@[simp] theorem State.updCore_vfs (i : Nat) (f : Core → Core) : (s.updCore i f).vfs = s.vfs := rfl
@[simp] theorem State.updCore_queues (i : Nat) (f : Core → Core) : (s.updCore i f).queues = s.queues := rfl
@[simp] theorem State.updCore_fences (i : Nat) (f : Core → Core) : (s.updCore i f).fences = s.fences := rfl
@[simp] theorem State.updCore_pcie (i : Nat) (f : Core → Core) : (s.updCore i f).pcie = s.pcie := rfl
@[simp] theorem State.updCore_chans (i : Nat) (f : Core → Core) : (s.updCore i f).chans = s.chans := rfl
@[simp] theorem State.updCore_dmaLast (i : Nat) (f : Core → Core) : (s.updCore i f).dmaLast = s.dmaLast := rfl
@[simp] theorem State.updCore_dmaWait (i : Nat) (f : Core → Core) : (s.updCore i f).dmaWait = s.dmaWait := rfl
@[simp] theorem State.updCore_walkCaches (i : Nat) (f : Core → Core) : (s.updCore i f).walkCaches = s.walkCaches := rfl
@[simp] theorem State.updCore_xlts (i : Nat) (f : Core → Core) : (s.updCore i f).xlts = s.xlts := rfl
@[simp] theorem State.updCore_pageReady (i : Nat) (f : Core → Core) : (s.updCore i f).pageReady = s.pageReady := rfl
@[simp] theorem State.updCore_sites (i : Nat) (f : Core → Core) : (s.updCore i f).sites = s.sites := rfl
@[simp] theorem State.updCore_net (i : Nat) (f : Core → Core) : (s.updCore i f).net = s.net := rfl
@[simp] theorem State.updCore_ring (i : Nat) (f : Core → Core) : (s.updCore i f).ring = s.ring := rfl
@[simp] theorem State.updCore_colls (i : Nat) (f : Core → Core) : (s.updCore i f).colls = s.colls := rfl
@[simp] theorem State.updCore_twins (i : Nat) (f : Core → Core) : (s.updCore i f).twins = s.twins := rfl

@[simp] theorem State.updChan_pending (i : Nat) (f : Chan → Chan) : (s.updChan i f).pending = s.pending := rfl
@[simp] theorem State.updChan_freeCtr (i : Nat) (f : Chan → Chan) : (s.updChan i f).freeCtr = s.freeCtr := rfl
@[simp] theorem State.updChan_out (i : Nat) (f : Chan → Chan) : (s.updChan i f).out = s.out := rfl
@[simp] theorem State.updChan_dues (i : Nat) (f : Chan → Chan) : (s.updChan i f).dues = s.dues := rfl
@[simp] theorem State.updChan_mem (i : Nat) (f : Chan → Chan) : (s.updChan i f).mem = s.mem := rfl
@[simp] theorem State.updChan_lines (i : Nat) (f : Chan → Chan) : (s.updChan i f).lines = s.lines := rfl
@[simp] theorem State.updChan_regs (i : Nat) (f : Chan → Chan) : (s.updChan i f).regs = s.regs := rfl
@[simp] theorem State.updChan_staged (i : Nat) (f : Chan → Chan) : (s.updChan i f).staged = s.staged := rfl
@[simp] theorem State.updChan_pat (i : Nat) (f : Chan → Chan) : (s.updChan i f).pat = s.pat := rfl
@[simp] theorem State.updChan_fab (i : Nat) (f : Chan → Chan) : (s.updChan i f).fab = s.fab := rfl
@[simp] theorem State.updChan_coh (i : Nat) (f : Chan → Chan) : (s.updChan i f).coh = s.coh := rfl
@[simp] theorem State.updChan_hbm (i : Nat) (f : Chan → Chan) : (s.updChan i f).hbm = s.hbm := rfl
@[simp] theorem State.updChan_sec (i : Nat) (f : Chan → Chan) : (s.updChan i f).sec = s.sec := rfl
@[simp] theorem State.updChan_pwr (i : Nat) (f : Chan → Chan) : (s.updChan i f).pwr = s.pwr := rfl
@[simp] theorem State.updChan_ras (i : Nat) (f : Chan → Chan) : (s.updChan i f).ras = s.ras := rfl
@[simp] theorem State.updChan_cells (i : Nat) (f : Chan → Chan) : (s.updChan i f).cells = s.cells := rfl
@[simp] theorem State.updChan_msgs (i : Nat) (f : Chan → Chan) : (s.updChan i f).msgs = s.msgs := rfl
@[simp] theorem State.updChan_egress (i : Nat) (f : Chan → Chan) : (s.updChan i f).egress = s.egress := rfl
@[simp] theorem State.updChan_flights (i : Nat) (f : Chan → Chan) : (s.updChan i f).flights = s.flights := rfl
@[simp] theorem State.updChan_ctxs (i : Nat) (f : Chan → Chan) : (s.updChan i f).ctxs = s.ctxs := rfl
@[simp] theorem State.updChan_saved (i : Nat) (f : Chan → Chan) : (s.updChan i f).saved = s.saved := rfl
@[simp] theorem State.updChan_schs (i : Nat) (f : Chan → Chan) : (s.updChan i f).schs = s.schs := rfl
@[simp] theorem State.updChan_ress (i : Nat) (f : Chan → Chan) : (s.updChan i f).ress = s.ress := rfl
@[simp] theorem State.updChan_cores (i : Nat) (f : Chan → Chan) : (s.updChan i f).cores = s.cores := rfl
@[simp] theorem State.updChan_aclint (i : Nat) (f : Chan → Chan) : (s.updChan i f).aclint = s.aclint := rfl
@[simp] theorem State.updChan_codes (i : Nat) (f : Chan → Chan) : (s.updChan i f).codes = s.codes := rfl
@[simp] theorem State.updChan_rxqs (i : Nat) (f : Chan → Chan) : (s.updChan i f).rxqs = s.rxqs := rfl
@[simp] theorem State.updChan_pools (i : Nat) (f : Chan → Chan) : (s.updChan i f).pools = s.pools := rfl
@[simp] theorem State.updChan_vfs (i : Nat) (f : Chan → Chan) : (s.updChan i f).vfs = s.vfs := rfl
@[simp] theorem State.updChan_queues (i : Nat) (f : Chan → Chan) : (s.updChan i f).queues = s.queues := rfl
@[simp] theorem State.updChan_fences (i : Nat) (f : Chan → Chan) : (s.updChan i f).fences = s.fences := rfl
@[simp] theorem State.updChan_pcie (i : Nat) (f : Chan → Chan) : (s.updChan i f).pcie = s.pcie := rfl
@[simp] theorem State.updChan_dmaLast (i : Nat) (f : Chan → Chan) : (s.updChan i f).dmaLast = s.dmaLast := rfl
@[simp] theorem State.updChan_dmaWait (i : Nat) (f : Chan → Chan) : (s.updChan i f).dmaWait = s.dmaWait := rfl
@[simp] theorem State.updChan_walkCaches (i : Nat) (f : Chan → Chan) : (s.updChan i f).walkCaches = s.walkCaches := rfl
@[simp] theorem State.updChan_xlts (i : Nat) (f : Chan → Chan) : (s.updChan i f).xlts = s.xlts := rfl
@[simp] theorem State.updChan_pageReady (i : Nat) (f : Chan → Chan) : (s.updChan i f).pageReady = s.pageReady := rfl
@[simp] theorem State.updChan_sites (i : Nat) (f : Chan → Chan) : (s.updChan i f).sites = s.sites := rfl
@[simp] theorem State.updChan_net (i : Nat) (f : Chan → Chan) : (s.updChan i f).net = s.net := rfl
@[simp] theorem State.updChan_ring (i : Nat) (f : Chan → Chan) : (s.updChan i f).ring = s.ring := rfl
@[simp] theorem State.updChan_colls (i : Nat) (f : Chan → Chan) : (s.updChan i f).colls = s.colls := rfl
@[simp] theorem State.updChan_twins (i : Nat) (f : Chan → Chan) : (s.updChan i f).twins = s.twins := rfl

@[simp] theorem State.updVf_pending (n : Nat) (f : Vf → Vf) : (s.updVf n f).pending = s.pending := rfl
@[simp] theorem State.updVf_freeCtr (n : Nat) (f : Vf → Vf) : (s.updVf n f).freeCtr = s.freeCtr := rfl
@[simp] theorem State.updVf_out (n : Nat) (f : Vf → Vf) : (s.updVf n f).out = s.out := rfl
@[simp] theorem State.updVf_dues (n : Nat) (f : Vf → Vf) : (s.updVf n f).dues = s.dues := rfl
@[simp] theorem State.updVf_mem (n : Nat) (f : Vf → Vf) : (s.updVf n f).mem = s.mem := rfl
@[simp] theorem State.updVf_lines (n : Nat) (f : Vf → Vf) : (s.updVf n f).lines = s.lines := rfl
@[simp] theorem State.updVf_regs (n : Nat) (f : Vf → Vf) : (s.updVf n f).regs = s.regs := rfl
@[simp] theorem State.updVf_staged (n : Nat) (f : Vf → Vf) : (s.updVf n f).staged = s.staged := rfl
@[simp] theorem State.updVf_pat (n : Nat) (f : Vf → Vf) : (s.updVf n f).pat = s.pat := rfl
@[simp] theorem State.updVf_fab (n : Nat) (f : Vf → Vf) : (s.updVf n f).fab = s.fab := rfl
@[simp] theorem State.updVf_coh (n : Nat) (f : Vf → Vf) : (s.updVf n f).coh = s.coh := rfl
@[simp] theorem State.updVf_hbm (n : Nat) (f : Vf → Vf) : (s.updVf n f).hbm = s.hbm := rfl
@[simp] theorem State.updVf_sec (n : Nat) (f : Vf → Vf) : (s.updVf n f).sec = s.sec := rfl
@[simp] theorem State.updVf_pwr (n : Nat) (f : Vf → Vf) : (s.updVf n f).pwr = s.pwr := rfl
@[simp] theorem State.updVf_ras (n : Nat) (f : Vf → Vf) : (s.updVf n f).ras = s.ras := rfl
@[simp] theorem State.updVf_cells (n : Nat) (f : Vf → Vf) : (s.updVf n f).cells = s.cells := rfl
@[simp] theorem State.updVf_msgs (n : Nat) (f : Vf → Vf) : (s.updVf n f).msgs = s.msgs := rfl
@[simp] theorem State.updVf_egress (n : Nat) (f : Vf → Vf) : (s.updVf n f).egress = s.egress := rfl
@[simp] theorem State.updVf_flights (n : Nat) (f : Vf → Vf) : (s.updVf n f).flights = s.flights := rfl
@[simp] theorem State.updVf_ctxs (n : Nat) (f : Vf → Vf) : (s.updVf n f).ctxs = s.ctxs := rfl
@[simp] theorem State.updVf_saved (n : Nat) (f : Vf → Vf) : (s.updVf n f).saved = s.saved := rfl
@[simp] theorem State.updVf_schs (n : Nat) (f : Vf → Vf) : (s.updVf n f).schs = s.schs := rfl
@[simp] theorem State.updVf_ress (n : Nat) (f : Vf → Vf) : (s.updVf n f).ress = s.ress := rfl
@[simp] theorem State.updVf_cores (n : Nat) (f : Vf → Vf) : (s.updVf n f).cores = s.cores := rfl
@[simp] theorem State.updVf_aclint (n : Nat) (f : Vf → Vf) : (s.updVf n f).aclint = s.aclint := rfl
@[simp] theorem State.updVf_codes (n : Nat) (f : Vf → Vf) : (s.updVf n f).codes = s.codes := rfl
@[simp] theorem State.updVf_rxqs (n : Nat) (f : Vf → Vf) : (s.updVf n f).rxqs = s.rxqs := rfl
@[simp] theorem State.updVf_pools (n : Nat) (f : Vf → Vf) : (s.updVf n f).pools = s.pools := rfl
@[simp] theorem State.updVf_queues (n : Nat) (f : Vf → Vf) : (s.updVf n f).queues = s.queues := rfl
@[simp] theorem State.updVf_fences (n : Nat) (f : Vf → Vf) : (s.updVf n f).fences = s.fences := rfl
@[simp] theorem State.updVf_pcie (n : Nat) (f : Vf → Vf) : (s.updVf n f).pcie = s.pcie := rfl
@[simp] theorem State.updVf_chans (n : Nat) (f : Vf → Vf) : (s.updVf n f).chans = s.chans := rfl
@[simp] theorem State.updVf_dmaLast (n : Nat) (f : Vf → Vf) : (s.updVf n f).dmaLast = s.dmaLast := rfl
@[simp] theorem State.updVf_dmaWait (n : Nat) (f : Vf → Vf) : (s.updVf n f).dmaWait = s.dmaWait := rfl
@[simp] theorem State.updVf_walkCaches (n : Nat) (f : Vf → Vf) : (s.updVf n f).walkCaches = s.walkCaches := rfl
@[simp] theorem State.updVf_xlts (n : Nat) (f : Vf → Vf) : (s.updVf n f).xlts = s.xlts := rfl
@[simp] theorem State.updVf_pageReady (n : Nat) (f : Vf → Vf) : (s.updVf n f).pageReady = s.pageReady := rfl
@[simp] theorem State.updVf_sites (n : Nat) (f : Vf → Vf) : (s.updVf n f).sites = s.sites := rfl
@[simp] theorem State.updVf_net (n : Nat) (f : Vf → Vf) : (s.updVf n f).net = s.net := rfl
@[simp] theorem State.updVf_ring (n : Nat) (f : Vf → Vf) : (s.updVf n f).ring = s.ring := rfl
@[simp] theorem State.updVf_colls (n : Nat) (f : Vf → Vf) : (s.updVf n f).colls = s.colls := rfl
@[simp] theorem State.updVf_twins (n : Nat) (f : Vf → Vf) : (s.updVf n f).twins = s.twins := rfl

@[simp] theorem State.updSite_pending (k : Nat) (f : Site → Site) : (s.updSite k f).pending = s.pending := rfl
@[simp] theorem State.updSite_freeCtr (k : Nat) (f : Site → Site) : (s.updSite k f).freeCtr = s.freeCtr := rfl
@[simp] theorem State.updSite_out (k : Nat) (f : Site → Site) : (s.updSite k f).out = s.out := rfl
@[simp] theorem State.updSite_dues (k : Nat) (f : Site → Site) : (s.updSite k f).dues = s.dues := rfl
@[simp] theorem State.updSite_mem (k : Nat) (f : Site → Site) : (s.updSite k f).mem = s.mem := rfl
@[simp] theorem State.updSite_lines (k : Nat) (f : Site → Site) : (s.updSite k f).lines = s.lines := rfl
@[simp] theorem State.updSite_regs (k : Nat) (f : Site → Site) : (s.updSite k f).regs = s.regs := rfl
@[simp] theorem State.updSite_staged (k : Nat) (f : Site → Site) : (s.updSite k f).staged = s.staged := rfl
@[simp] theorem State.updSite_pat (k : Nat) (f : Site → Site) : (s.updSite k f).pat = s.pat := rfl
@[simp] theorem State.updSite_fab (k : Nat) (f : Site → Site) : (s.updSite k f).fab = s.fab := rfl
@[simp] theorem State.updSite_coh (k : Nat) (f : Site → Site) : (s.updSite k f).coh = s.coh := rfl
@[simp] theorem State.updSite_hbm (k : Nat) (f : Site → Site) : (s.updSite k f).hbm = s.hbm := rfl
@[simp] theorem State.updSite_sec (k : Nat) (f : Site → Site) : (s.updSite k f).sec = s.sec := rfl
@[simp] theorem State.updSite_pwr (k : Nat) (f : Site → Site) : (s.updSite k f).pwr = s.pwr := rfl
@[simp] theorem State.updSite_ras (k : Nat) (f : Site → Site) : (s.updSite k f).ras = s.ras := rfl
@[simp] theorem State.updSite_cells (k : Nat) (f : Site → Site) : (s.updSite k f).cells = s.cells := rfl
@[simp] theorem State.updSite_msgs (k : Nat) (f : Site → Site) : (s.updSite k f).msgs = s.msgs := rfl
@[simp] theorem State.updSite_egress (k : Nat) (f : Site → Site) : (s.updSite k f).egress = s.egress := rfl
@[simp] theorem State.updSite_flights (k : Nat) (f : Site → Site) : (s.updSite k f).flights = s.flights := rfl
@[simp] theorem State.updSite_ctxs (k : Nat) (f : Site → Site) : (s.updSite k f).ctxs = s.ctxs := rfl
@[simp] theorem State.updSite_saved (k : Nat) (f : Site → Site) : (s.updSite k f).saved = s.saved := rfl
@[simp] theorem State.updSite_schs (k : Nat) (f : Site → Site) : (s.updSite k f).schs = s.schs := rfl
@[simp] theorem State.updSite_ress (k : Nat) (f : Site → Site) : (s.updSite k f).ress = s.ress := rfl
@[simp] theorem State.updSite_cores (k : Nat) (f : Site → Site) : (s.updSite k f).cores = s.cores := rfl
@[simp] theorem State.updSite_aclint (k : Nat) (f : Site → Site) : (s.updSite k f).aclint = s.aclint := rfl
@[simp] theorem State.updSite_codes (k : Nat) (f : Site → Site) : (s.updSite k f).codes = s.codes := rfl
@[simp] theorem State.updSite_rxqs (k : Nat) (f : Site → Site) : (s.updSite k f).rxqs = s.rxqs := rfl
@[simp] theorem State.updSite_pools (k : Nat) (f : Site → Site) : (s.updSite k f).pools = s.pools := rfl
@[simp] theorem State.updSite_vfs (k : Nat) (f : Site → Site) : (s.updSite k f).vfs = s.vfs := rfl
@[simp] theorem State.updSite_queues (k : Nat) (f : Site → Site) : (s.updSite k f).queues = s.queues := rfl
@[simp] theorem State.updSite_fences (k : Nat) (f : Site → Site) : (s.updSite k f).fences = s.fences := rfl
@[simp] theorem State.updSite_pcie (k : Nat) (f : Site → Site) : (s.updSite k f).pcie = s.pcie := rfl
@[simp] theorem State.updSite_chans (k : Nat) (f : Site → Site) : (s.updSite k f).chans = s.chans := rfl
@[simp] theorem State.updSite_dmaLast (k : Nat) (f : Site → Site) : (s.updSite k f).dmaLast = s.dmaLast := rfl
@[simp] theorem State.updSite_dmaWait (k : Nat) (f : Site → Site) : (s.updSite k f).dmaWait = s.dmaWait := rfl
@[simp] theorem State.updSite_walkCaches (k : Nat) (f : Site → Site) : (s.updSite k f).walkCaches = s.walkCaches := rfl
@[simp] theorem State.updSite_xlts (k : Nat) (f : Site → Site) : (s.updSite k f).xlts = s.xlts := rfl
@[simp] theorem State.updSite_pageReady (k : Nat) (f : Site → Site) : (s.updSite k f).pageReady = s.pageReady := rfl
@[simp] theorem State.updSite_net (k : Nat) (f : Site → Site) : (s.updSite k f).net = s.net := rfl
@[simp] theorem State.updSite_ring (k : Nat) (f : Site → Site) : (s.updSite k f).ring = s.ring := rfl
@[simp] theorem State.updSite_colls (k : Nat) (f : Site → Site) : (s.updSite k f).colls = s.colls := rfl
@[simp] theorem State.updSite_twins (k : Nat) (f : Site → Site) : (s.updSite k f).twins = s.twins := rfl

@[simp] theorem State.updStack_pending (k : Nat) (f : Stack → Stack) : (s.updStack k f).pending = s.pending := rfl
@[simp] theorem State.updStack_freeCtr (k : Nat) (f : Stack → Stack) : (s.updStack k f).freeCtr = s.freeCtr := rfl
@[simp] theorem State.updStack_out (k : Nat) (f : Stack → Stack) : (s.updStack k f).out = s.out := rfl
@[simp] theorem State.updStack_dues (k : Nat) (f : Stack → Stack) : (s.updStack k f).dues = s.dues := rfl
@[simp] theorem State.updStack_mem (k : Nat) (f : Stack → Stack) : (s.updStack k f).mem = s.mem := rfl
@[simp] theorem State.updStack_lines (k : Nat) (f : Stack → Stack) : (s.updStack k f).lines = s.lines := rfl
@[simp] theorem State.updStack_regs (k : Nat) (f : Stack → Stack) : (s.updStack k f).regs = s.regs := rfl
@[simp] theorem State.updStack_staged (k : Nat) (f : Stack → Stack) : (s.updStack k f).staged = s.staged := rfl
@[simp] theorem State.updStack_pat (k : Nat) (f : Stack → Stack) : (s.updStack k f).pat = s.pat := rfl
@[simp] theorem State.updStack_fab (k : Nat) (f : Stack → Stack) : (s.updStack k f).fab = s.fab := rfl
@[simp] theorem State.updStack_coh (k : Nat) (f : Stack → Stack) : (s.updStack k f).coh = s.coh := rfl
@[simp] theorem State.updStack_sec (k : Nat) (f : Stack → Stack) : (s.updStack k f).sec = s.sec := rfl
@[simp] theorem State.updStack_pwr (k : Nat) (f : Stack → Stack) : (s.updStack k f).pwr = s.pwr := rfl
@[simp] theorem State.updStack_ras (k : Nat) (f : Stack → Stack) : (s.updStack k f).ras = s.ras := rfl
@[simp] theorem State.updStack_cells (k : Nat) (f : Stack → Stack) : (s.updStack k f).cells = s.cells := rfl
@[simp] theorem State.updStack_msgs (k : Nat) (f : Stack → Stack) : (s.updStack k f).msgs = s.msgs := rfl
@[simp] theorem State.updStack_egress (k : Nat) (f : Stack → Stack) : (s.updStack k f).egress = s.egress := rfl
@[simp] theorem State.updStack_flights (k : Nat) (f : Stack → Stack) : (s.updStack k f).flights = s.flights := rfl
@[simp] theorem State.updStack_ctxs (k : Nat) (f : Stack → Stack) : (s.updStack k f).ctxs = s.ctxs := rfl
@[simp] theorem State.updStack_saved (k : Nat) (f : Stack → Stack) : (s.updStack k f).saved = s.saved := rfl
@[simp] theorem State.updStack_schs (k : Nat) (f : Stack → Stack) : (s.updStack k f).schs = s.schs := rfl
@[simp] theorem State.updStack_ress (k : Nat) (f : Stack → Stack) : (s.updStack k f).ress = s.ress := rfl
@[simp] theorem State.updStack_cores (k : Nat) (f : Stack → Stack) : (s.updStack k f).cores = s.cores := rfl
@[simp] theorem State.updStack_aclint (k : Nat) (f : Stack → Stack) : (s.updStack k f).aclint = s.aclint := rfl
@[simp] theorem State.updStack_codes (k : Nat) (f : Stack → Stack) : (s.updStack k f).codes = s.codes := rfl
@[simp] theorem State.updStack_rxqs (k : Nat) (f : Stack → Stack) : (s.updStack k f).rxqs = s.rxqs := rfl
@[simp] theorem State.updStack_pools (k : Nat) (f : Stack → Stack) : (s.updStack k f).pools = s.pools := rfl
@[simp] theorem State.updStack_vfs (k : Nat) (f : Stack → Stack) : (s.updStack k f).vfs = s.vfs := rfl
@[simp] theorem State.updStack_queues (k : Nat) (f : Stack → Stack) : (s.updStack k f).queues = s.queues := rfl
@[simp] theorem State.updStack_fences (k : Nat) (f : Stack → Stack) : (s.updStack k f).fences = s.fences := rfl
@[simp] theorem State.updStack_pcie (k : Nat) (f : Stack → Stack) : (s.updStack k f).pcie = s.pcie := rfl
@[simp] theorem State.updStack_chans (k : Nat) (f : Stack → Stack) : (s.updStack k f).chans = s.chans := rfl
@[simp] theorem State.updStack_dmaLast (k : Nat) (f : Stack → Stack) : (s.updStack k f).dmaLast = s.dmaLast := rfl
@[simp] theorem State.updStack_dmaWait (k : Nat) (f : Stack → Stack) : (s.updStack k f).dmaWait = s.dmaWait := rfl
@[simp] theorem State.updStack_walkCaches (k : Nat) (f : Stack → Stack) : (s.updStack k f).walkCaches = s.walkCaches := rfl
@[simp] theorem State.updStack_xlts (k : Nat) (f : Stack → Stack) : (s.updStack k f).xlts = s.xlts := rfl
@[simp] theorem State.updStack_pageReady (k : Nat) (f : Stack → Stack) : (s.updStack k f).pageReady = s.pageReady := rfl
@[simp] theorem State.updStack_sites (k : Nat) (f : Stack → Stack) : (s.updStack k f).sites = s.sites := rfl
@[simp] theorem State.updStack_net (k : Nat) (f : Stack → Stack) : (s.updStack k f).net = s.net := rfl
@[simp] theorem State.updStack_ring (k : Nat) (f : Stack → Stack) : (s.updStack k f).ring = s.ring := rfl
@[simp] theorem State.updStack_colls (k : Nat) (f : Stack → Stack) : (s.updStack k f).colls = s.colls := rfl
@[simp] theorem State.updStack_twins (k : Nat) (f : Stack → Stack) : (s.updStack k f).twins = s.twins := rfl

@[simp] theorem State.updPch_pending (i : Nat) (f : Pch → Pch) : (s.updPch i f).pending = s.pending := rfl
@[simp] theorem State.updPch_freeCtr (i : Nat) (f : Pch → Pch) : (s.updPch i f).freeCtr = s.freeCtr := rfl
@[simp] theorem State.updPch_out (i : Nat) (f : Pch → Pch) : (s.updPch i f).out = s.out := rfl
@[simp] theorem State.updPch_dues (i : Nat) (f : Pch → Pch) : (s.updPch i f).dues = s.dues := rfl
@[simp] theorem State.updPch_mem (i : Nat) (f : Pch → Pch) : (s.updPch i f).mem = s.mem := rfl
@[simp] theorem State.updPch_lines (i : Nat) (f : Pch → Pch) : (s.updPch i f).lines = s.lines := rfl
@[simp] theorem State.updPch_regs (i : Nat) (f : Pch → Pch) : (s.updPch i f).regs = s.regs := rfl
@[simp] theorem State.updPch_staged (i : Nat) (f : Pch → Pch) : (s.updPch i f).staged = s.staged := rfl
@[simp] theorem State.updPch_pat (i : Nat) (f : Pch → Pch) : (s.updPch i f).pat = s.pat := rfl
@[simp] theorem State.updPch_fab (i : Nat) (f : Pch → Pch) : (s.updPch i f).fab = s.fab := rfl
@[simp] theorem State.updPch_coh (i : Nat) (f : Pch → Pch) : (s.updPch i f).coh = s.coh := rfl
@[simp] theorem State.updPch_sec (i : Nat) (f : Pch → Pch) : (s.updPch i f).sec = s.sec := rfl
@[simp] theorem State.updPch_pwr (i : Nat) (f : Pch → Pch) : (s.updPch i f).pwr = s.pwr := rfl
@[simp] theorem State.updPch_ras (i : Nat) (f : Pch → Pch) : (s.updPch i f).ras = s.ras := rfl
@[simp] theorem State.updPch_cells (i : Nat) (f : Pch → Pch) : (s.updPch i f).cells = s.cells := rfl
@[simp] theorem State.updPch_msgs (i : Nat) (f : Pch → Pch) : (s.updPch i f).msgs = s.msgs := rfl
@[simp] theorem State.updPch_egress (i : Nat) (f : Pch → Pch) : (s.updPch i f).egress = s.egress := rfl
@[simp] theorem State.updPch_flights (i : Nat) (f : Pch → Pch) : (s.updPch i f).flights = s.flights := rfl
@[simp] theorem State.updPch_ctxs (i : Nat) (f : Pch → Pch) : (s.updPch i f).ctxs = s.ctxs := rfl
@[simp] theorem State.updPch_saved (i : Nat) (f : Pch → Pch) : (s.updPch i f).saved = s.saved := rfl
@[simp] theorem State.updPch_schs (i : Nat) (f : Pch → Pch) : (s.updPch i f).schs = s.schs := rfl
@[simp] theorem State.updPch_ress (i : Nat) (f : Pch → Pch) : (s.updPch i f).ress = s.ress := rfl
@[simp] theorem State.updPch_cores (i : Nat) (f : Pch → Pch) : (s.updPch i f).cores = s.cores := rfl
@[simp] theorem State.updPch_aclint (i : Nat) (f : Pch → Pch) : (s.updPch i f).aclint = s.aclint := rfl
@[simp] theorem State.updPch_codes (i : Nat) (f : Pch → Pch) : (s.updPch i f).codes = s.codes := rfl
@[simp] theorem State.updPch_rxqs (i : Nat) (f : Pch → Pch) : (s.updPch i f).rxqs = s.rxqs := rfl
@[simp] theorem State.updPch_pools (i : Nat) (f : Pch → Pch) : (s.updPch i f).pools = s.pools := rfl
@[simp] theorem State.updPch_vfs (i : Nat) (f : Pch → Pch) : (s.updPch i f).vfs = s.vfs := rfl
@[simp] theorem State.updPch_queues (i : Nat) (f : Pch → Pch) : (s.updPch i f).queues = s.queues := rfl
@[simp] theorem State.updPch_fences (i : Nat) (f : Pch → Pch) : (s.updPch i f).fences = s.fences := rfl
@[simp] theorem State.updPch_pcie (i : Nat) (f : Pch → Pch) : (s.updPch i f).pcie = s.pcie := rfl
@[simp] theorem State.updPch_chans (i : Nat) (f : Pch → Pch) : (s.updPch i f).chans = s.chans := rfl
@[simp] theorem State.updPch_dmaLast (i : Nat) (f : Pch → Pch) : (s.updPch i f).dmaLast = s.dmaLast := rfl
@[simp] theorem State.updPch_dmaWait (i : Nat) (f : Pch → Pch) : (s.updPch i f).dmaWait = s.dmaWait := rfl
@[simp] theorem State.updPch_walkCaches (i : Nat) (f : Pch → Pch) : (s.updPch i f).walkCaches = s.walkCaches := rfl
@[simp] theorem State.updPch_xlts (i : Nat) (f : Pch → Pch) : (s.updPch i f).xlts = s.xlts := rfl
@[simp] theorem State.updPch_pageReady (i : Nat) (f : Pch → Pch) : (s.updPch i f).pageReady = s.pageReady := rfl
@[simp] theorem State.updPch_sites (i : Nat) (f : Pch → Pch) : (s.updPch i f).sites = s.sites := rfl
@[simp] theorem State.updPch_net (i : Nat) (f : Pch → Pch) : (s.updPch i f).net = s.net := rfl
@[simp] theorem State.updPch_ring (i : Nat) (f : Pch → Pch) : (s.updPch i f).ring = s.ring := rfl
@[simp] theorem State.updPch_colls (i : Nat) (f : Pch → Pch) : (s.updPch i f).colls = s.colls := rfl
@[simp] theorem State.updPch_twins (i : Nat) (f : Pch → Pch) : (s.updPch i f).twins = s.twins := rfl

@[simp] theorem State.updKeys_pending (n : Nat) (f : KeySlots → KeySlots) : (s.updKeys n f).pending = s.pending := rfl
@[simp] theorem State.updKeys_freeCtr (n : Nat) (f : KeySlots → KeySlots) : (s.updKeys n f).freeCtr = s.freeCtr := rfl
@[simp] theorem State.updKeys_out (n : Nat) (f : KeySlots → KeySlots) : (s.updKeys n f).out = s.out := rfl
@[simp] theorem State.updKeys_dues (n : Nat) (f : KeySlots → KeySlots) : (s.updKeys n f).dues = s.dues := rfl
@[simp] theorem State.updKeys_mem (n : Nat) (f : KeySlots → KeySlots) : (s.updKeys n f).mem = s.mem := rfl
@[simp] theorem State.updKeys_lines (n : Nat) (f : KeySlots → KeySlots) : (s.updKeys n f).lines = s.lines := rfl
@[simp] theorem State.updKeys_regs (n : Nat) (f : KeySlots → KeySlots) : (s.updKeys n f).regs = s.regs := rfl
@[simp] theorem State.updKeys_staged (n : Nat) (f : KeySlots → KeySlots) : (s.updKeys n f).staged = s.staged := rfl
@[simp] theorem State.updKeys_pat (n : Nat) (f : KeySlots → KeySlots) : (s.updKeys n f).pat = s.pat := rfl
@[simp] theorem State.updKeys_fab (n : Nat) (f : KeySlots → KeySlots) : (s.updKeys n f).fab = s.fab := rfl
@[simp] theorem State.updKeys_coh (n : Nat) (f : KeySlots → KeySlots) : (s.updKeys n f).coh = s.coh := rfl
@[simp] theorem State.updKeys_sec (n : Nat) (f : KeySlots → KeySlots) : (s.updKeys n f).sec = s.sec := rfl
@[simp] theorem State.updKeys_pwr (n : Nat) (f : KeySlots → KeySlots) : (s.updKeys n f).pwr = s.pwr := rfl
@[simp] theorem State.updKeys_ras (n : Nat) (f : KeySlots → KeySlots) : (s.updKeys n f).ras = s.ras := rfl
@[simp] theorem State.updKeys_cells (n : Nat) (f : KeySlots → KeySlots) : (s.updKeys n f).cells = s.cells := rfl
@[simp] theorem State.updKeys_msgs (n : Nat) (f : KeySlots → KeySlots) : (s.updKeys n f).msgs = s.msgs := rfl
@[simp] theorem State.updKeys_egress (n : Nat) (f : KeySlots → KeySlots) : (s.updKeys n f).egress = s.egress := rfl
@[simp] theorem State.updKeys_flights (n : Nat) (f : KeySlots → KeySlots) : (s.updKeys n f).flights = s.flights := rfl
@[simp] theorem State.updKeys_ctxs (n : Nat) (f : KeySlots → KeySlots) : (s.updKeys n f).ctxs = s.ctxs := rfl
@[simp] theorem State.updKeys_saved (n : Nat) (f : KeySlots → KeySlots) : (s.updKeys n f).saved = s.saved := rfl
@[simp] theorem State.updKeys_schs (n : Nat) (f : KeySlots → KeySlots) : (s.updKeys n f).schs = s.schs := rfl
@[simp] theorem State.updKeys_ress (n : Nat) (f : KeySlots → KeySlots) : (s.updKeys n f).ress = s.ress := rfl
@[simp] theorem State.updKeys_cores (n : Nat) (f : KeySlots → KeySlots) : (s.updKeys n f).cores = s.cores := rfl
@[simp] theorem State.updKeys_aclint (n : Nat) (f : KeySlots → KeySlots) : (s.updKeys n f).aclint = s.aclint := rfl
@[simp] theorem State.updKeys_codes (n : Nat) (f : KeySlots → KeySlots) : (s.updKeys n f).codes = s.codes := rfl
@[simp] theorem State.updKeys_rxqs (n : Nat) (f : KeySlots → KeySlots) : (s.updKeys n f).rxqs = s.rxqs := rfl
@[simp] theorem State.updKeys_pools (n : Nat) (f : KeySlots → KeySlots) : (s.updKeys n f).pools = s.pools := rfl
@[simp] theorem State.updKeys_vfs (n : Nat) (f : KeySlots → KeySlots) : (s.updKeys n f).vfs = s.vfs := rfl
@[simp] theorem State.updKeys_queues (n : Nat) (f : KeySlots → KeySlots) : (s.updKeys n f).queues = s.queues := rfl
@[simp] theorem State.updKeys_fences (n : Nat) (f : KeySlots → KeySlots) : (s.updKeys n f).fences = s.fences := rfl
@[simp] theorem State.updKeys_pcie (n : Nat) (f : KeySlots → KeySlots) : (s.updKeys n f).pcie = s.pcie := rfl
@[simp] theorem State.updKeys_chans (n : Nat) (f : KeySlots → KeySlots) : (s.updKeys n f).chans = s.chans := rfl
@[simp] theorem State.updKeys_dmaLast (n : Nat) (f : KeySlots → KeySlots) : (s.updKeys n f).dmaLast = s.dmaLast := rfl
@[simp] theorem State.updKeys_dmaWait (n : Nat) (f : KeySlots → KeySlots) : (s.updKeys n f).dmaWait = s.dmaWait := rfl
@[simp] theorem State.updKeys_walkCaches (n : Nat) (f : KeySlots → KeySlots) : (s.updKeys n f).walkCaches = s.walkCaches := rfl
@[simp] theorem State.updKeys_xlts (n : Nat) (f : KeySlots → KeySlots) : (s.updKeys n f).xlts = s.xlts := rfl
@[simp] theorem State.updKeys_pageReady (n : Nat) (f : KeySlots → KeySlots) : (s.updKeys n f).pageReady = s.pageReady := rfl
@[simp] theorem State.updKeys_sites (n : Nat) (f : KeySlots → KeySlots) : (s.updKeys n f).sites = s.sites := rfl
@[simp] theorem State.updKeys_net (n : Nat) (f : KeySlots → KeySlots) : (s.updKeys n f).net = s.net := rfl
@[simp] theorem State.updKeys_ring (n : Nat) (f : KeySlots → KeySlots) : (s.updKeys n f).ring = s.ring := rfl
@[simp] theorem State.updKeys_colls (n : Nat) (f : KeySlots → KeySlots) : (s.updKeys n f).colls = s.colls := rfl
@[simp] theorem State.updKeys_twins (n : Nat) (f : KeySlots → KeySlots) : (s.updKeys n f).twins = s.twins := rfl

@[simp] theorem State.updSch_pending (n : Nat) (f : Sch → Sch) : (s.updSch n f).pending = s.pending := rfl
@[simp] theorem State.updSch_freeCtr (n : Nat) (f : Sch → Sch) : (s.updSch n f).freeCtr = s.freeCtr := rfl
@[simp] theorem State.updSch_out (n : Nat) (f : Sch → Sch) : (s.updSch n f).out = s.out := rfl
@[simp] theorem State.updSch_dues (n : Nat) (f : Sch → Sch) : (s.updSch n f).dues = s.dues := rfl
@[simp] theorem State.updSch_mem (n : Nat) (f : Sch → Sch) : (s.updSch n f).mem = s.mem := rfl
@[simp] theorem State.updSch_lines (n : Nat) (f : Sch → Sch) : (s.updSch n f).lines = s.lines := rfl
@[simp] theorem State.updSch_regs (n : Nat) (f : Sch → Sch) : (s.updSch n f).regs = s.regs := rfl
@[simp] theorem State.updSch_staged (n : Nat) (f : Sch → Sch) : (s.updSch n f).staged = s.staged := rfl
@[simp] theorem State.updSch_pat (n : Nat) (f : Sch → Sch) : (s.updSch n f).pat = s.pat := rfl
@[simp] theorem State.updSch_fab (n : Nat) (f : Sch → Sch) : (s.updSch n f).fab = s.fab := rfl
@[simp] theorem State.updSch_coh (n : Nat) (f : Sch → Sch) : (s.updSch n f).coh = s.coh := rfl
@[simp] theorem State.updSch_hbm (n : Nat) (f : Sch → Sch) : (s.updSch n f).hbm = s.hbm := rfl
@[simp] theorem State.updSch_sec (n : Nat) (f : Sch → Sch) : (s.updSch n f).sec = s.sec := rfl
@[simp] theorem State.updSch_pwr (n : Nat) (f : Sch → Sch) : (s.updSch n f).pwr = s.pwr := rfl
@[simp] theorem State.updSch_ras (n : Nat) (f : Sch → Sch) : (s.updSch n f).ras = s.ras := rfl
@[simp] theorem State.updSch_cells (n : Nat) (f : Sch → Sch) : (s.updSch n f).cells = s.cells := rfl
@[simp] theorem State.updSch_msgs (n : Nat) (f : Sch → Sch) : (s.updSch n f).msgs = s.msgs := rfl
@[simp] theorem State.updSch_egress (n : Nat) (f : Sch → Sch) : (s.updSch n f).egress = s.egress := rfl
@[simp] theorem State.updSch_flights (n : Nat) (f : Sch → Sch) : (s.updSch n f).flights = s.flights := rfl
@[simp] theorem State.updSch_ctxs (n : Nat) (f : Sch → Sch) : (s.updSch n f).ctxs = s.ctxs := rfl
@[simp] theorem State.updSch_saved (n : Nat) (f : Sch → Sch) : (s.updSch n f).saved = s.saved := rfl
@[simp] theorem State.updSch_ress (n : Nat) (f : Sch → Sch) : (s.updSch n f).ress = s.ress := rfl
@[simp] theorem State.updSch_cores (n : Nat) (f : Sch → Sch) : (s.updSch n f).cores = s.cores := rfl
@[simp] theorem State.updSch_aclint (n : Nat) (f : Sch → Sch) : (s.updSch n f).aclint = s.aclint := rfl
@[simp] theorem State.updSch_codes (n : Nat) (f : Sch → Sch) : (s.updSch n f).codes = s.codes := rfl
@[simp] theorem State.updSch_rxqs (n : Nat) (f : Sch → Sch) : (s.updSch n f).rxqs = s.rxqs := rfl
@[simp] theorem State.updSch_pools (n : Nat) (f : Sch → Sch) : (s.updSch n f).pools = s.pools := rfl
@[simp] theorem State.updSch_vfs (n : Nat) (f : Sch → Sch) : (s.updSch n f).vfs = s.vfs := rfl
@[simp] theorem State.updSch_queues (n : Nat) (f : Sch → Sch) : (s.updSch n f).queues = s.queues := rfl
@[simp] theorem State.updSch_fences (n : Nat) (f : Sch → Sch) : (s.updSch n f).fences = s.fences := rfl
@[simp] theorem State.updSch_pcie (n : Nat) (f : Sch → Sch) : (s.updSch n f).pcie = s.pcie := rfl
@[simp] theorem State.updSch_chans (n : Nat) (f : Sch → Sch) : (s.updSch n f).chans = s.chans := rfl
@[simp] theorem State.updSch_dmaLast (n : Nat) (f : Sch → Sch) : (s.updSch n f).dmaLast = s.dmaLast := rfl
@[simp] theorem State.updSch_dmaWait (n : Nat) (f : Sch → Sch) : (s.updSch n f).dmaWait = s.dmaWait := rfl
@[simp] theorem State.updSch_walkCaches (n : Nat) (f : Sch → Sch) : (s.updSch n f).walkCaches = s.walkCaches := rfl
@[simp] theorem State.updSch_xlts (n : Nat) (f : Sch → Sch) : (s.updSch n f).xlts = s.xlts := rfl
@[simp] theorem State.updSch_pageReady (n : Nat) (f : Sch → Sch) : (s.updSch n f).pageReady = s.pageReady := rfl
@[simp] theorem State.updSch_sites (n : Nat) (f : Sch → Sch) : (s.updSch n f).sites = s.sites := rfl
@[simp] theorem State.updSch_net (n : Nat) (f : Sch → Sch) : (s.updSch n f).net = s.net := rfl
@[simp] theorem State.updSch_ring (n : Nat) (f : Sch → Sch) : (s.updSch n f).ring = s.ring := rfl
@[simp] theorem State.updSch_colls (n : Nat) (f : Sch → Sch) : (s.updSch n f).colls = s.colls := rfl
@[simp] theorem State.updSch_twins (n : Nat) (f : Sch → Sch) : (s.updSch n f).twins = s.twins := rfl

@[simp] theorem State.updRes_pending (k n : Nat) (f : Res → Res) : (s.updRes k n f).pending = s.pending := rfl
@[simp] theorem State.updRes_freeCtr (k n : Nat) (f : Res → Res) : (s.updRes k n f).freeCtr = s.freeCtr := rfl
@[simp] theorem State.updRes_out (k n : Nat) (f : Res → Res) : (s.updRes k n f).out = s.out := rfl
@[simp] theorem State.updRes_dues (k n : Nat) (f : Res → Res) : (s.updRes k n f).dues = s.dues := rfl
@[simp] theorem State.updRes_mem (k n : Nat) (f : Res → Res) : (s.updRes k n f).mem = s.mem := rfl
@[simp] theorem State.updRes_lines (k n : Nat) (f : Res → Res) : (s.updRes k n f).lines = s.lines := rfl
@[simp] theorem State.updRes_regs (k n : Nat) (f : Res → Res) : (s.updRes k n f).regs = s.regs := rfl
@[simp] theorem State.updRes_staged (k n : Nat) (f : Res → Res) : (s.updRes k n f).staged = s.staged := rfl
@[simp] theorem State.updRes_pat (k n : Nat) (f : Res → Res) : (s.updRes k n f).pat = s.pat := rfl
@[simp] theorem State.updRes_fab (k n : Nat) (f : Res → Res) : (s.updRes k n f).fab = s.fab := rfl
@[simp] theorem State.updRes_coh (k n : Nat) (f : Res → Res) : (s.updRes k n f).coh = s.coh := rfl
@[simp] theorem State.updRes_hbm (k n : Nat) (f : Res → Res) : (s.updRes k n f).hbm = s.hbm := rfl
@[simp] theorem State.updRes_sec (k n : Nat) (f : Res → Res) : (s.updRes k n f).sec = s.sec := rfl
@[simp] theorem State.updRes_pwr (k n : Nat) (f : Res → Res) : (s.updRes k n f).pwr = s.pwr := rfl
@[simp] theorem State.updRes_ras (k n : Nat) (f : Res → Res) : (s.updRes k n f).ras = s.ras := rfl
@[simp] theorem State.updRes_cells (k n : Nat) (f : Res → Res) : (s.updRes k n f).cells = s.cells := rfl
@[simp] theorem State.updRes_msgs (k n : Nat) (f : Res → Res) : (s.updRes k n f).msgs = s.msgs := rfl
@[simp] theorem State.updRes_egress (k n : Nat) (f : Res → Res) : (s.updRes k n f).egress = s.egress := rfl
@[simp] theorem State.updRes_flights (k n : Nat) (f : Res → Res) : (s.updRes k n f).flights = s.flights := rfl
@[simp] theorem State.updRes_ctxs (k n : Nat) (f : Res → Res) : (s.updRes k n f).ctxs = s.ctxs := rfl
@[simp] theorem State.updRes_saved (k n : Nat) (f : Res → Res) : (s.updRes k n f).saved = s.saved := rfl
@[simp] theorem State.updRes_schs (k n : Nat) (f : Res → Res) : (s.updRes k n f).schs = s.schs := rfl
@[simp] theorem State.updRes_cores (k n : Nat) (f : Res → Res) : (s.updRes k n f).cores = s.cores := rfl
@[simp] theorem State.updRes_aclint (k n : Nat) (f : Res → Res) : (s.updRes k n f).aclint = s.aclint := rfl
@[simp] theorem State.updRes_codes (k n : Nat) (f : Res → Res) : (s.updRes k n f).codes = s.codes := rfl
@[simp] theorem State.updRes_rxqs (k n : Nat) (f : Res → Res) : (s.updRes k n f).rxqs = s.rxqs := rfl
@[simp] theorem State.updRes_pools (k n : Nat) (f : Res → Res) : (s.updRes k n f).pools = s.pools := rfl
@[simp] theorem State.updRes_vfs (k n : Nat) (f : Res → Res) : (s.updRes k n f).vfs = s.vfs := rfl
@[simp] theorem State.updRes_queues (k n : Nat) (f : Res → Res) : (s.updRes k n f).queues = s.queues := rfl
@[simp] theorem State.updRes_fences (k n : Nat) (f : Res → Res) : (s.updRes k n f).fences = s.fences := rfl
@[simp] theorem State.updRes_pcie (k n : Nat) (f : Res → Res) : (s.updRes k n f).pcie = s.pcie := rfl
@[simp] theorem State.updRes_chans (k n : Nat) (f : Res → Res) : (s.updRes k n f).chans = s.chans := rfl
@[simp] theorem State.updRes_dmaLast (k n : Nat) (f : Res → Res) : (s.updRes k n f).dmaLast = s.dmaLast := rfl
@[simp] theorem State.updRes_dmaWait (k n : Nat) (f : Res → Res) : (s.updRes k n f).dmaWait = s.dmaWait := rfl
@[simp] theorem State.updRes_walkCaches (k n : Nat) (f : Res → Res) : (s.updRes k n f).walkCaches = s.walkCaches := rfl
@[simp] theorem State.updRes_xlts (k n : Nat) (f : Res → Res) : (s.updRes k n f).xlts = s.xlts := rfl
@[simp] theorem State.updRes_pageReady (k n : Nat) (f : Res → Res) : (s.updRes k n f).pageReady = s.pageReady := rfl
@[simp] theorem State.updRes_sites (k n : Nat) (f : Res → Res) : (s.updRes k n f).sites = s.sites := rfl
@[simp] theorem State.updRes_net (k n : Nat) (f : Res → Res) : (s.updRes k n f).net = s.net := rfl
@[simp] theorem State.updRes_ring (k n : Nat) (f : Res → Res) : (s.updRes k n f).ring = s.ring := rfl
@[simp] theorem State.updRes_colls (k n : Nat) (f : Res → Res) : (s.updRes k n f).colls = s.colls := rfl
@[simp] theorem State.updRes_twins (k n : Nat) (f : Res → Res) : (s.updRes k n f).twins = s.twins := rfl

@[simp] theorem State.updXlt_pending (n : Nat) (f : Xlt → Xlt) : (s.updXlt n f).pending = s.pending := rfl
@[simp] theorem State.updXlt_freeCtr (n : Nat) (f : Xlt → Xlt) : (s.updXlt n f).freeCtr = s.freeCtr := rfl
@[simp] theorem State.updXlt_out (n : Nat) (f : Xlt → Xlt) : (s.updXlt n f).out = s.out := rfl
@[simp] theorem State.updXlt_dues (n : Nat) (f : Xlt → Xlt) : (s.updXlt n f).dues = s.dues := rfl
@[simp] theorem State.updXlt_mem (n : Nat) (f : Xlt → Xlt) : (s.updXlt n f).mem = s.mem := rfl
@[simp] theorem State.updXlt_lines (n : Nat) (f : Xlt → Xlt) : (s.updXlt n f).lines = s.lines := rfl
@[simp] theorem State.updXlt_regs (n : Nat) (f : Xlt → Xlt) : (s.updXlt n f).regs = s.regs := rfl
@[simp] theorem State.updXlt_staged (n : Nat) (f : Xlt → Xlt) : (s.updXlt n f).staged = s.staged := rfl
@[simp] theorem State.updXlt_pat (n : Nat) (f : Xlt → Xlt) : (s.updXlt n f).pat = s.pat := rfl
@[simp] theorem State.updXlt_fab (n : Nat) (f : Xlt → Xlt) : (s.updXlt n f).fab = s.fab := rfl
@[simp] theorem State.updXlt_coh (n : Nat) (f : Xlt → Xlt) : (s.updXlt n f).coh = s.coh := rfl
@[simp] theorem State.updXlt_hbm (n : Nat) (f : Xlt → Xlt) : (s.updXlt n f).hbm = s.hbm := rfl
@[simp] theorem State.updXlt_sec (n : Nat) (f : Xlt → Xlt) : (s.updXlt n f).sec = s.sec := rfl
@[simp] theorem State.updXlt_pwr (n : Nat) (f : Xlt → Xlt) : (s.updXlt n f).pwr = s.pwr := rfl
@[simp] theorem State.updXlt_ras (n : Nat) (f : Xlt → Xlt) : (s.updXlt n f).ras = s.ras := rfl
@[simp] theorem State.updXlt_cells (n : Nat) (f : Xlt → Xlt) : (s.updXlt n f).cells = s.cells := rfl
@[simp] theorem State.updXlt_msgs (n : Nat) (f : Xlt → Xlt) : (s.updXlt n f).msgs = s.msgs := rfl
@[simp] theorem State.updXlt_egress (n : Nat) (f : Xlt → Xlt) : (s.updXlt n f).egress = s.egress := rfl
@[simp] theorem State.updXlt_flights (n : Nat) (f : Xlt → Xlt) : (s.updXlt n f).flights = s.flights := rfl
@[simp] theorem State.updXlt_ctxs (n : Nat) (f : Xlt → Xlt) : (s.updXlt n f).ctxs = s.ctxs := rfl
@[simp] theorem State.updXlt_saved (n : Nat) (f : Xlt → Xlt) : (s.updXlt n f).saved = s.saved := rfl
@[simp] theorem State.updXlt_schs (n : Nat) (f : Xlt → Xlt) : (s.updXlt n f).schs = s.schs := rfl
@[simp] theorem State.updXlt_ress (n : Nat) (f : Xlt → Xlt) : (s.updXlt n f).ress = s.ress := rfl
@[simp] theorem State.updXlt_cores (n : Nat) (f : Xlt → Xlt) : (s.updXlt n f).cores = s.cores := rfl
@[simp] theorem State.updXlt_aclint (n : Nat) (f : Xlt → Xlt) : (s.updXlt n f).aclint = s.aclint := rfl
@[simp] theorem State.updXlt_codes (n : Nat) (f : Xlt → Xlt) : (s.updXlt n f).codes = s.codes := rfl
@[simp] theorem State.updXlt_rxqs (n : Nat) (f : Xlt → Xlt) : (s.updXlt n f).rxqs = s.rxqs := rfl
@[simp] theorem State.updXlt_pools (n : Nat) (f : Xlt → Xlt) : (s.updXlt n f).pools = s.pools := rfl
@[simp] theorem State.updXlt_vfs (n : Nat) (f : Xlt → Xlt) : (s.updXlt n f).vfs = s.vfs := rfl
@[simp] theorem State.updXlt_queues (n : Nat) (f : Xlt → Xlt) : (s.updXlt n f).queues = s.queues := rfl
@[simp] theorem State.updXlt_fences (n : Nat) (f : Xlt → Xlt) : (s.updXlt n f).fences = s.fences := rfl
@[simp] theorem State.updXlt_pcie (n : Nat) (f : Xlt → Xlt) : (s.updXlt n f).pcie = s.pcie := rfl
@[simp] theorem State.updXlt_chans (n : Nat) (f : Xlt → Xlt) : (s.updXlt n f).chans = s.chans := rfl
@[simp] theorem State.updXlt_dmaLast (n : Nat) (f : Xlt → Xlt) : (s.updXlt n f).dmaLast = s.dmaLast := rfl
@[simp] theorem State.updXlt_dmaWait (n : Nat) (f : Xlt → Xlt) : (s.updXlt n f).dmaWait = s.dmaWait := rfl
@[simp] theorem State.updXlt_walkCaches (n : Nat) (f : Xlt → Xlt) : (s.updXlt n f).walkCaches = s.walkCaches := rfl
@[simp] theorem State.updXlt_pageReady (n : Nat) (f : Xlt → Xlt) : (s.updXlt n f).pageReady = s.pageReady := rfl
@[simp] theorem State.updXlt_sites (n : Nat) (f : Xlt → Xlt) : (s.updXlt n f).sites = s.sites := rfl
@[simp] theorem State.updXlt_net (n : Nat) (f : Xlt → Xlt) : (s.updXlt n f).net = s.net := rfl
@[simp] theorem State.updXlt_ring (n : Nat) (f : Xlt → Xlt) : (s.updXlt n f).ring = s.ring := rfl
@[simp] theorem State.updXlt_colls (n : Nat) (f : Xlt → Xlt) : (s.updXlt n f).colls = s.colls := rfl
@[simp] theorem State.updXlt_twins (n : Nat) (f : Xlt → Xlt) : (s.updXlt n f).twins = s.twins := rfl

@[simp] theorem State.updCode_pending (n : Nat) (f : Code → Code) : (s.updCode n f).pending = s.pending := rfl
@[simp] theorem State.updCode_freeCtr (n : Nat) (f : Code → Code) : (s.updCode n f).freeCtr = s.freeCtr := rfl
@[simp] theorem State.updCode_out (n : Nat) (f : Code → Code) : (s.updCode n f).out = s.out := rfl
@[simp] theorem State.updCode_dues (n : Nat) (f : Code → Code) : (s.updCode n f).dues = s.dues := rfl
@[simp] theorem State.updCode_mem (n : Nat) (f : Code → Code) : (s.updCode n f).mem = s.mem := rfl
@[simp] theorem State.updCode_lines (n : Nat) (f : Code → Code) : (s.updCode n f).lines = s.lines := rfl
@[simp] theorem State.updCode_regs (n : Nat) (f : Code → Code) : (s.updCode n f).regs = s.regs := rfl
@[simp] theorem State.updCode_staged (n : Nat) (f : Code → Code) : (s.updCode n f).staged = s.staged := rfl
@[simp] theorem State.updCode_pat (n : Nat) (f : Code → Code) : (s.updCode n f).pat = s.pat := rfl
@[simp] theorem State.updCode_fab (n : Nat) (f : Code → Code) : (s.updCode n f).fab = s.fab := rfl
@[simp] theorem State.updCode_coh (n : Nat) (f : Code → Code) : (s.updCode n f).coh = s.coh := rfl
@[simp] theorem State.updCode_hbm (n : Nat) (f : Code → Code) : (s.updCode n f).hbm = s.hbm := rfl
@[simp] theorem State.updCode_sec (n : Nat) (f : Code → Code) : (s.updCode n f).sec = s.sec := rfl
@[simp] theorem State.updCode_pwr (n : Nat) (f : Code → Code) : (s.updCode n f).pwr = s.pwr := rfl
@[simp] theorem State.updCode_ras (n : Nat) (f : Code → Code) : (s.updCode n f).ras = s.ras := rfl
@[simp] theorem State.updCode_cells (n : Nat) (f : Code → Code) : (s.updCode n f).cells = s.cells := rfl
@[simp] theorem State.updCode_msgs (n : Nat) (f : Code → Code) : (s.updCode n f).msgs = s.msgs := rfl
@[simp] theorem State.updCode_egress (n : Nat) (f : Code → Code) : (s.updCode n f).egress = s.egress := rfl
@[simp] theorem State.updCode_flights (n : Nat) (f : Code → Code) : (s.updCode n f).flights = s.flights := rfl
@[simp] theorem State.updCode_ctxs (n : Nat) (f : Code → Code) : (s.updCode n f).ctxs = s.ctxs := rfl
@[simp] theorem State.updCode_saved (n : Nat) (f : Code → Code) : (s.updCode n f).saved = s.saved := rfl
@[simp] theorem State.updCode_schs (n : Nat) (f : Code → Code) : (s.updCode n f).schs = s.schs := rfl
@[simp] theorem State.updCode_ress (n : Nat) (f : Code → Code) : (s.updCode n f).ress = s.ress := rfl
@[simp] theorem State.updCode_cores (n : Nat) (f : Code → Code) : (s.updCode n f).cores = s.cores := rfl
@[simp] theorem State.updCode_aclint (n : Nat) (f : Code → Code) : (s.updCode n f).aclint = s.aclint := rfl
@[simp] theorem State.updCode_rxqs (n : Nat) (f : Code → Code) : (s.updCode n f).rxqs = s.rxqs := rfl
@[simp] theorem State.updCode_pools (n : Nat) (f : Code → Code) : (s.updCode n f).pools = s.pools := rfl
@[simp] theorem State.updCode_vfs (n : Nat) (f : Code → Code) : (s.updCode n f).vfs = s.vfs := rfl
@[simp] theorem State.updCode_queues (n : Nat) (f : Code → Code) : (s.updCode n f).queues = s.queues := rfl
@[simp] theorem State.updCode_fences (n : Nat) (f : Code → Code) : (s.updCode n f).fences = s.fences := rfl
@[simp] theorem State.updCode_pcie (n : Nat) (f : Code → Code) : (s.updCode n f).pcie = s.pcie := rfl
@[simp] theorem State.updCode_chans (n : Nat) (f : Code → Code) : (s.updCode n f).chans = s.chans := rfl
@[simp] theorem State.updCode_dmaLast (n : Nat) (f : Code → Code) : (s.updCode n f).dmaLast = s.dmaLast := rfl
@[simp] theorem State.updCode_dmaWait (n : Nat) (f : Code → Code) : (s.updCode n f).dmaWait = s.dmaWait := rfl
@[simp] theorem State.updCode_walkCaches (n : Nat) (f : Code → Code) : (s.updCode n f).walkCaches = s.walkCaches := rfl
@[simp] theorem State.updCode_xlts (n : Nat) (f : Code → Code) : (s.updCode n f).xlts = s.xlts := rfl
@[simp] theorem State.updCode_pageReady (n : Nat) (f : Code → Code) : (s.updCode n f).pageReady = s.pageReady := rfl
@[simp] theorem State.updCode_sites (n : Nat) (f : Code → Code) : (s.updCode n f).sites = s.sites := rfl
@[simp] theorem State.updCode_net (n : Nat) (f : Code → Code) : (s.updCode n f).net = s.net := rfl
@[simp] theorem State.updCode_ring (n : Nat) (f : Code → Code) : (s.updCode n f).ring = s.ring := rfl
@[simp] theorem State.updCode_colls (n : Nat) (f : Code → Code) : (s.updCode n f).colls = s.colls := rfl
@[simp] theorem State.updCode_twins (n : Nat) (f : Code → Code) : (s.updCode n f).twins = s.twins := rfl

@[simp] theorem State.updTwin_pending (n : Nat) (f : Twin → Twin) : (s.updTwin n f).pending = s.pending := rfl
@[simp] theorem State.updTwin_freeCtr (n : Nat) (f : Twin → Twin) : (s.updTwin n f).freeCtr = s.freeCtr := rfl
@[simp] theorem State.updTwin_out (n : Nat) (f : Twin → Twin) : (s.updTwin n f).out = s.out := rfl
@[simp] theorem State.updTwin_dues (n : Nat) (f : Twin → Twin) : (s.updTwin n f).dues = s.dues := rfl
@[simp] theorem State.updTwin_mem (n : Nat) (f : Twin → Twin) : (s.updTwin n f).mem = s.mem := rfl
@[simp] theorem State.updTwin_lines (n : Nat) (f : Twin → Twin) : (s.updTwin n f).lines = s.lines := rfl
@[simp] theorem State.updTwin_regs (n : Nat) (f : Twin → Twin) : (s.updTwin n f).regs = s.regs := rfl
@[simp] theorem State.updTwin_staged (n : Nat) (f : Twin → Twin) : (s.updTwin n f).staged = s.staged := rfl
@[simp] theorem State.updTwin_pat (n : Nat) (f : Twin → Twin) : (s.updTwin n f).pat = s.pat := rfl
@[simp] theorem State.updTwin_fab (n : Nat) (f : Twin → Twin) : (s.updTwin n f).fab = s.fab := rfl
@[simp] theorem State.updTwin_coh (n : Nat) (f : Twin → Twin) : (s.updTwin n f).coh = s.coh := rfl
@[simp] theorem State.updTwin_hbm (n : Nat) (f : Twin → Twin) : (s.updTwin n f).hbm = s.hbm := rfl
@[simp] theorem State.updTwin_sec (n : Nat) (f : Twin → Twin) : (s.updTwin n f).sec = s.sec := rfl
@[simp] theorem State.updTwin_pwr (n : Nat) (f : Twin → Twin) : (s.updTwin n f).pwr = s.pwr := rfl
@[simp] theorem State.updTwin_ras (n : Nat) (f : Twin → Twin) : (s.updTwin n f).ras = s.ras := rfl
@[simp] theorem State.updTwin_cells (n : Nat) (f : Twin → Twin) : (s.updTwin n f).cells = s.cells := rfl
@[simp] theorem State.updTwin_msgs (n : Nat) (f : Twin → Twin) : (s.updTwin n f).msgs = s.msgs := rfl
@[simp] theorem State.updTwin_egress (n : Nat) (f : Twin → Twin) : (s.updTwin n f).egress = s.egress := rfl
@[simp] theorem State.updTwin_flights (n : Nat) (f : Twin → Twin) : (s.updTwin n f).flights = s.flights := rfl
@[simp] theorem State.updTwin_ctxs (n : Nat) (f : Twin → Twin) : (s.updTwin n f).ctxs = s.ctxs := rfl
@[simp] theorem State.updTwin_saved (n : Nat) (f : Twin → Twin) : (s.updTwin n f).saved = s.saved := rfl
@[simp] theorem State.updTwin_schs (n : Nat) (f : Twin → Twin) : (s.updTwin n f).schs = s.schs := rfl
@[simp] theorem State.updTwin_ress (n : Nat) (f : Twin → Twin) : (s.updTwin n f).ress = s.ress := rfl
@[simp] theorem State.updTwin_cores (n : Nat) (f : Twin → Twin) : (s.updTwin n f).cores = s.cores := rfl
@[simp] theorem State.updTwin_aclint (n : Nat) (f : Twin → Twin) : (s.updTwin n f).aclint = s.aclint := rfl
@[simp] theorem State.updTwin_codes (n : Nat) (f : Twin → Twin) : (s.updTwin n f).codes = s.codes := rfl
@[simp] theorem State.updTwin_rxqs (n : Nat) (f : Twin → Twin) : (s.updTwin n f).rxqs = s.rxqs := rfl
@[simp] theorem State.updTwin_pools (n : Nat) (f : Twin → Twin) : (s.updTwin n f).pools = s.pools := rfl
@[simp] theorem State.updTwin_vfs (n : Nat) (f : Twin → Twin) : (s.updTwin n f).vfs = s.vfs := rfl
@[simp] theorem State.updTwin_queues (n : Nat) (f : Twin → Twin) : (s.updTwin n f).queues = s.queues := rfl
@[simp] theorem State.updTwin_fences (n : Nat) (f : Twin → Twin) : (s.updTwin n f).fences = s.fences := rfl
@[simp] theorem State.updTwin_pcie (n : Nat) (f : Twin → Twin) : (s.updTwin n f).pcie = s.pcie := rfl
@[simp] theorem State.updTwin_chans (n : Nat) (f : Twin → Twin) : (s.updTwin n f).chans = s.chans := rfl
@[simp] theorem State.updTwin_dmaLast (n : Nat) (f : Twin → Twin) : (s.updTwin n f).dmaLast = s.dmaLast := rfl
@[simp] theorem State.updTwin_dmaWait (n : Nat) (f : Twin → Twin) : (s.updTwin n f).dmaWait = s.dmaWait := rfl
@[simp] theorem State.updTwin_walkCaches (n : Nat) (f : Twin → Twin) : (s.updTwin n f).walkCaches = s.walkCaches := rfl
@[simp] theorem State.updTwin_xlts (n : Nat) (f : Twin → Twin) : (s.updTwin n f).xlts = s.xlts := rfl
@[simp] theorem State.updTwin_pageReady (n : Nat) (f : Twin → Twin) : (s.updTwin n f).pageReady = s.pageReady := rfl
@[simp] theorem State.updTwin_sites (n : Nat) (f : Twin → Twin) : (s.updTwin n f).sites = s.sites := rfl
@[simp] theorem State.updTwin_net (n : Nat) (f : Twin → Twin) : (s.updTwin n f).net = s.net := rfl
@[simp] theorem State.updTwin_ring (n : Nat) (f : Twin → Twin) : (s.updTwin n f).ring = s.ring := rfl
@[simp] theorem State.updTwin_colls (n : Nat) (f : Twin → Twin) : (s.updTwin n f).colls = s.colls := rfl

@[simp] theorem State.updMsg_pending (k : Nat) (f : MsgState → MsgState) : (s.updMsg k f).pending = s.pending := rfl
@[simp] theorem State.updMsg_freeCtr (k : Nat) (f : MsgState → MsgState) : (s.updMsg k f).freeCtr = s.freeCtr := rfl
@[simp] theorem State.updMsg_out (k : Nat) (f : MsgState → MsgState) : (s.updMsg k f).out = s.out := rfl
@[simp] theorem State.updMsg_dues (k : Nat) (f : MsgState → MsgState) : (s.updMsg k f).dues = s.dues := rfl
@[simp] theorem State.updMsg_mem (k : Nat) (f : MsgState → MsgState) : (s.updMsg k f).mem = s.mem := rfl
@[simp] theorem State.updMsg_lines (k : Nat) (f : MsgState → MsgState) : (s.updMsg k f).lines = s.lines := rfl
@[simp] theorem State.updMsg_regs (k : Nat) (f : MsgState → MsgState) : (s.updMsg k f).regs = s.regs := rfl
@[simp] theorem State.updMsg_staged (k : Nat) (f : MsgState → MsgState) : (s.updMsg k f).staged = s.staged := rfl
@[simp] theorem State.updMsg_pat (k : Nat) (f : MsgState → MsgState) : (s.updMsg k f).pat = s.pat := rfl
@[simp] theorem State.updMsg_fab (k : Nat) (f : MsgState → MsgState) : (s.updMsg k f).fab = s.fab := rfl
@[simp] theorem State.updMsg_coh (k : Nat) (f : MsgState → MsgState) : (s.updMsg k f).coh = s.coh := rfl
@[simp] theorem State.updMsg_hbm (k : Nat) (f : MsgState → MsgState) : (s.updMsg k f).hbm = s.hbm := rfl
@[simp] theorem State.updMsg_sec (k : Nat) (f : MsgState → MsgState) : (s.updMsg k f).sec = s.sec := rfl
@[simp] theorem State.updMsg_pwr (k : Nat) (f : MsgState → MsgState) : (s.updMsg k f).pwr = s.pwr := rfl
@[simp] theorem State.updMsg_ras (k : Nat) (f : MsgState → MsgState) : (s.updMsg k f).ras = s.ras := rfl
@[simp] theorem State.updMsg_cells (k : Nat) (f : MsgState → MsgState) : (s.updMsg k f).cells = s.cells := rfl
@[simp] theorem State.updMsg_egress (k : Nat) (f : MsgState → MsgState) : (s.updMsg k f).egress = s.egress := rfl
@[simp] theorem State.updMsg_flights (k : Nat) (f : MsgState → MsgState) : (s.updMsg k f).flights = s.flights := rfl
@[simp] theorem State.updMsg_ctxs (k : Nat) (f : MsgState → MsgState) : (s.updMsg k f).ctxs = s.ctxs := rfl
@[simp] theorem State.updMsg_saved (k : Nat) (f : MsgState → MsgState) : (s.updMsg k f).saved = s.saved := rfl
@[simp] theorem State.updMsg_schs (k : Nat) (f : MsgState → MsgState) : (s.updMsg k f).schs = s.schs := rfl
@[simp] theorem State.updMsg_ress (k : Nat) (f : MsgState → MsgState) : (s.updMsg k f).ress = s.ress := rfl
@[simp] theorem State.updMsg_cores (k : Nat) (f : MsgState → MsgState) : (s.updMsg k f).cores = s.cores := rfl
@[simp] theorem State.updMsg_aclint (k : Nat) (f : MsgState → MsgState) : (s.updMsg k f).aclint = s.aclint := rfl
@[simp] theorem State.updMsg_codes (k : Nat) (f : MsgState → MsgState) : (s.updMsg k f).codes = s.codes := rfl
@[simp] theorem State.updMsg_rxqs (k : Nat) (f : MsgState → MsgState) : (s.updMsg k f).rxqs = s.rxqs := rfl
@[simp] theorem State.updMsg_pools (k : Nat) (f : MsgState → MsgState) : (s.updMsg k f).pools = s.pools := rfl
@[simp] theorem State.updMsg_vfs (k : Nat) (f : MsgState → MsgState) : (s.updMsg k f).vfs = s.vfs := rfl
@[simp] theorem State.updMsg_queues (k : Nat) (f : MsgState → MsgState) : (s.updMsg k f).queues = s.queues := rfl
@[simp] theorem State.updMsg_fences (k : Nat) (f : MsgState → MsgState) : (s.updMsg k f).fences = s.fences := rfl
@[simp] theorem State.updMsg_pcie (k : Nat) (f : MsgState → MsgState) : (s.updMsg k f).pcie = s.pcie := rfl
@[simp] theorem State.updMsg_chans (k : Nat) (f : MsgState → MsgState) : (s.updMsg k f).chans = s.chans := rfl
@[simp] theorem State.updMsg_dmaLast (k : Nat) (f : MsgState → MsgState) : (s.updMsg k f).dmaLast = s.dmaLast := rfl
@[simp] theorem State.updMsg_dmaWait (k : Nat) (f : MsgState → MsgState) : (s.updMsg k f).dmaWait = s.dmaWait := rfl
@[simp] theorem State.updMsg_walkCaches (k : Nat) (f : MsgState → MsgState) : (s.updMsg k f).walkCaches = s.walkCaches := rfl
@[simp] theorem State.updMsg_xlts (k : Nat) (f : MsgState → MsgState) : (s.updMsg k f).xlts = s.xlts := rfl
@[simp] theorem State.updMsg_pageReady (k : Nat) (f : MsgState → MsgState) : (s.updMsg k f).pageReady = s.pageReady := rfl
@[simp] theorem State.updMsg_sites (k : Nat) (f : MsgState → MsgState) : (s.updMsg k f).sites = s.sites := rfl
@[simp] theorem State.updMsg_net (k : Nat) (f : MsgState → MsgState) : (s.updMsg k f).net = s.net := rfl
@[simp] theorem State.updMsg_ring (k : Nat) (f : MsgState → MsgState) : (s.updMsg k f).ring = s.ring := rfl
@[simp] theorem State.updMsg_colls (k : Nat) (f : MsgState → MsgState) : (s.updMsg k f).colls = s.colls := rfl
@[simp] theorem State.updMsg_twins (k : Nat) (f : MsgState → MsgState) : (s.updMsg k f).twins = s.twins := rfl

@[simp] theorem State.updQueue_pending (n q : Nat) (f : Queue → Queue) : (s.updQueue n q f).pending = s.pending := rfl
@[simp] theorem State.updQueue_freeCtr (n q : Nat) (f : Queue → Queue) : (s.updQueue n q f).freeCtr = s.freeCtr := rfl
@[simp] theorem State.updQueue_out (n q : Nat) (f : Queue → Queue) : (s.updQueue n q f).out = s.out := rfl
@[simp] theorem State.updQueue_dues (n q : Nat) (f : Queue → Queue) : (s.updQueue n q f).dues = s.dues := rfl
@[simp] theorem State.updQueue_mem (n q : Nat) (f : Queue → Queue) : (s.updQueue n q f).mem = s.mem := rfl
@[simp] theorem State.updQueue_lines (n q : Nat) (f : Queue → Queue) : (s.updQueue n q f).lines = s.lines := rfl
@[simp] theorem State.updQueue_regs (n q : Nat) (f : Queue → Queue) : (s.updQueue n q f).regs = s.regs := rfl
@[simp] theorem State.updQueue_staged (n q : Nat) (f : Queue → Queue) : (s.updQueue n q f).staged = s.staged := rfl
@[simp] theorem State.updQueue_pat (n q : Nat) (f : Queue → Queue) : (s.updQueue n q f).pat = s.pat := rfl
@[simp] theorem State.updQueue_fab (n q : Nat) (f : Queue → Queue) : (s.updQueue n q f).fab = s.fab := rfl
@[simp] theorem State.updQueue_coh (n q : Nat) (f : Queue → Queue) : (s.updQueue n q f).coh = s.coh := rfl
@[simp] theorem State.updQueue_hbm (n q : Nat) (f : Queue → Queue) : (s.updQueue n q f).hbm = s.hbm := rfl
@[simp] theorem State.updQueue_sec (n q : Nat) (f : Queue → Queue) : (s.updQueue n q f).sec = s.sec := rfl
@[simp] theorem State.updQueue_pwr (n q : Nat) (f : Queue → Queue) : (s.updQueue n q f).pwr = s.pwr := rfl
@[simp] theorem State.updQueue_ras (n q : Nat) (f : Queue → Queue) : (s.updQueue n q f).ras = s.ras := rfl
@[simp] theorem State.updQueue_cells (n q : Nat) (f : Queue → Queue) : (s.updQueue n q f).cells = s.cells := rfl
@[simp] theorem State.updQueue_msgs (n q : Nat) (f : Queue → Queue) : (s.updQueue n q f).msgs = s.msgs := rfl
@[simp] theorem State.updQueue_egress (n q : Nat) (f : Queue → Queue) : (s.updQueue n q f).egress = s.egress := rfl
@[simp] theorem State.updQueue_flights (n q : Nat) (f : Queue → Queue) : (s.updQueue n q f).flights = s.flights := rfl
@[simp] theorem State.updQueue_ctxs (n q : Nat) (f : Queue → Queue) : (s.updQueue n q f).ctxs = s.ctxs := rfl
@[simp] theorem State.updQueue_saved (n q : Nat) (f : Queue → Queue) : (s.updQueue n q f).saved = s.saved := rfl
@[simp] theorem State.updQueue_schs (n q : Nat) (f : Queue → Queue) : (s.updQueue n q f).schs = s.schs := rfl
@[simp] theorem State.updQueue_ress (n q : Nat) (f : Queue → Queue) : (s.updQueue n q f).ress = s.ress := rfl
@[simp] theorem State.updQueue_cores (n q : Nat) (f : Queue → Queue) : (s.updQueue n q f).cores = s.cores := rfl
@[simp] theorem State.updQueue_aclint (n q : Nat) (f : Queue → Queue) : (s.updQueue n q f).aclint = s.aclint := rfl
@[simp] theorem State.updQueue_codes (n q : Nat) (f : Queue → Queue) : (s.updQueue n q f).codes = s.codes := rfl
@[simp] theorem State.updQueue_rxqs (n q : Nat) (f : Queue → Queue) : (s.updQueue n q f).rxqs = s.rxqs := rfl
@[simp] theorem State.updQueue_pools (n q : Nat) (f : Queue → Queue) : (s.updQueue n q f).pools = s.pools := rfl
@[simp] theorem State.updQueue_vfs (n q : Nat) (f : Queue → Queue) : (s.updQueue n q f).vfs = s.vfs := rfl
@[simp] theorem State.updQueue_fences (n q : Nat) (f : Queue → Queue) : (s.updQueue n q f).fences = s.fences := rfl
@[simp] theorem State.updQueue_pcie (n q : Nat) (f : Queue → Queue) : (s.updQueue n q f).pcie = s.pcie := rfl
@[simp] theorem State.updQueue_chans (n q : Nat) (f : Queue → Queue) : (s.updQueue n q f).chans = s.chans := rfl
@[simp] theorem State.updQueue_dmaLast (n q : Nat) (f : Queue → Queue) : (s.updQueue n q f).dmaLast = s.dmaLast := rfl
@[simp] theorem State.updQueue_dmaWait (n q : Nat) (f : Queue → Queue) : (s.updQueue n q f).dmaWait = s.dmaWait := rfl
@[simp] theorem State.updQueue_walkCaches (n q : Nat) (f : Queue → Queue) : (s.updQueue n q f).walkCaches = s.walkCaches := rfl
@[simp] theorem State.updQueue_xlts (n q : Nat) (f : Queue → Queue) : (s.updQueue n q f).xlts = s.xlts := rfl
@[simp] theorem State.updQueue_pageReady (n q : Nat) (f : Queue → Queue) : (s.updQueue n q f).pageReady = s.pageReady := rfl
@[simp] theorem State.updQueue_sites (n q : Nat) (f : Queue → Queue) : (s.updQueue n q f).sites = s.sites := rfl
@[simp] theorem State.updQueue_net (n q : Nat) (f : Queue → Queue) : (s.updQueue n q f).net = s.net := rfl
@[simp] theorem State.updQueue_ring (n q : Nat) (f : Queue → Queue) : (s.updQueue n q f).ring = s.ring := rfl
@[simp] theorem State.updQueue_colls (n q : Nat) (f : Queue → Queue) : (s.updQueue n q f).colls = s.colls := rfl
@[simp] theorem State.updQueue_twins (n q : Nat) (f : Queue → Queue) : (s.updQueue n q f).twins = s.twins := rfl

@[simp] theorem State.updRingPort_pending (h : Nat) (f : RingPort → RingPort) : (s.updRingPort h f).pending = s.pending := rfl
@[simp] theorem State.updRingPort_freeCtr (h : Nat) (f : RingPort → RingPort) : (s.updRingPort h f).freeCtr = s.freeCtr := rfl
@[simp] theorem State.updRingPort_out (h : Nat) (f : RingPort → RingPort) : (s.updRingPort h f).out = s.out := rfl
@[simp] theorem State.updRingPort_dues (h : Nat) (f : RingPort → RingPort) : (s.updRingPort h f).dues = s.dues := rfl
@[simp] theorem State.updRingPort_mem (h : Nat) (f : RingPort → RingPort) : (s.updRingPort h f).mem = s.mem := rfl
@[simp] theorem State.updRingPort_lines (h : Nat) (f : RingPort → RingPort) : (s.updRingPort h f).lines = s.lines := rfl
@[simp] theorem State.updRingPort_regs (h : Nat) (f : RingPort → RingPort) : (s.updRingPort h f).regs = s.regs := rfl
@[simp] theorem State.updRingPort_staged (h : Nat) (f : RingPort → RingPort) : (s.updRingPort h f).staged = s.staged := rfl
@[simp] theorem State.updRingPort_pat (h : Nat) (f : RingPort → RingPort) : (s.updRingPort h f).pat = s.pat := rfl
@[simp] theorem State.updRingPort_fab (h : Nat) (f : RingPort → RingPort) : (s.updRingPort h f).fab = s.fab := rfl
@[simp] theorem State.updRingPort_coh (h : Nat) (f : RingPort → RingPort) : (s.updRingPort h f).coh = s.coh := rfl
@[simp] theorem State.updRingPort_hbm (h : Nat) (f : RingPort → RingPort) : (s.updRingPort h f).hbm = s.hbm := rfl
@[simp] theorem State.updRingPort_sec (h : Nat) (f : RingPort → RingPort) : (s.updRingPort h f).sec = s.sec := rfl
@[simp] theorem State.updRingPort_pwr (h : Nat) (f : RingPort → RingPort) : (s.updRingPort h f).pwr = s.pwr := rfl
@[simp] theorem State.updRingPort_ras (h : Nat) (f : RingPort → RingPort) : (s.updRingPort h f).ras = s.ras := rfl
@[simp] theorem State.updRingPort_cells (h : Nat) (f : RingPort → RingPort) : (s.updRingPort h f).cells = s.cells := rfl
@[simp] theorem State.updRingPort_msgs (h : Nat) (f : RingPort → RingPort) : (s.updRingPort h f).msgs = s.msgs := rfl
@[simp] theorem State.updRingPort_egress (h : Nat) (f : RingPort → RingPort) : (s.updRingPort h f).egress = s.egress := rfl
@[simp] theorem State.updRingPort_flights (h : Nat) (f : RingPort → RingPort) : (s.updRingPort h f).flights = s.flights := rfl
@[simp] theorem State.updRingPort_ctxs (h : Nat) (f : RingPort → RingPort) : (s.updRingPort h f).ctxs = s.ctxs := rfl
@[simp] theorem State.updRingPort_saved (h : Nat) (f : RingPort → RingPort) : (s.updRingPort h f).saved = s.saved := rfl
@[simp] theorem State.updRingPort_schs (h : Nat) (f : RingPort → RingPort) : (s.updRingPort h f).schs = s.schs := rfl
@[simp] theorem State.updRingPort_ress (h : Nat) (f : RingPort → RingPort) : (s.updRingPort h f).ress = s.ress := rfl
@[simp] theorem State.updRingPort_cores (h : Nat) (f : RingPort → RingPort) : (s.updRingPort h f).cores = s.cores := rfl
@[simp] theorem State.updRingPort_aclint (h : Nat) (f : RingPort → RingPort) : (s.updRingPort h f).aclint = s.aclint := rfl
@[simp] theorem State.updRingPort_codes (h : Nat) (f : RingPort → RingPort) : (s.updRingPort h f).codes = s.codes := rfl
@[simp] theorem State.updRingPort_rxqs (h : Nat) (f : RingPort → RingPort) : (s.updRingPort h f).rxqs = s.rxqs := rfl
@[simp] theorem State.updRingPort_pools (h : Nat) (f : RingPort → RingPort) : (s.updRingPort h f).pools = s.pools := rfl
@[simp] theorem State.updRingPort_vfs (h : Nat) (f : RingPort → RingPort) : (s.updRingPort h f).vfs = s.vfs := rfl
@[simp] theorem State.updRingPort_queues (h : Nat) (f : RingPort → RingPort) : (s.updRingPort h f).queues = s.queues := rfl
@[simp] theorem State.updRingPort_fences (h : Nat) (f : RingPort → RingPort) : (s.updRingPort h f).fences = s.fences := rfl
@[simp] theorem State.updRingPort_pcie (h : Nat) (f : RingPort → RingPort) : (s.updRingPort h f).pcie = s.pcie := rfl
@[simp] theorem State.updRingPort_chans (h : Nat) (f : RingPort → RingPort) : (s.updRingPort h f).chans = s.chans := rfl
@[simp] theorem State.updRingPort_dmaLast (h : Nat) (f : RingPort → RingPort) : (s.updRingPort h f).dmaLast = s.dmaLast := rfl
@[simp] theorem State.updRingPort_dmaWait (h : Nat) (f : RingPort → RingPort) : (s.updRingPort h f).dmaWait = s.dmaWait := rfl
@[simp] theorem State.updRingPort_walkCaches (h : Nat) (f : RingPort → RingPort) : (s.updRingPort h f).walkCaches = s.walkCaches := rfl
@[simp] theorem State.updRingPort_xlts (h : Nat) (f : RingPort → RingPort) : (s.updRingPort h f).xlts = s.xlts := rfl
@[simp] theorem State.updRingPort_pageReady (h : Nat) (f : RingPort → RingPort) : (s.updRingPort h f).pageReady = s.pageReady := rfl
@[simp] theorem State.updRingPort_sites (h : Nat) (f : RingPort → RingPort) : (s.updRingPort h f).sites = s.sites := rfl
@[simp] theorem State.updRingPort_net (h : Nat) (f : RingPort → RingPort) : (s.updRingPort h f).net = s.net := rfl
@[simp] theorem State.updRingPort_colls (h : Nat) (f : RingPort → RingPort) : (s.updRingPort h f).colls = s.colls := rfl
@[simp] theorem State.updRingPort_twins (h : Nat) (f : RingPort → RingPort) : (s.updRingPort h f).twins = s.twins := rfl

@[simp] theorem State.updColl_pending (n : Nat) (f : CollPart → CollPart) : (s.updColl n f).pending = s.pending := rfl
@[simp] theorem State.updColl_freeCtr (n : Nat) (f : CollPart → CollPart) : (s.updColl n f).freeCtr = s.freeCtr := rfl
@[simp] theorem State.updColl_out (n : Nat) (f : CollPart → CollPart) : (s.updColl n f).out = s.out := rfl
@[simp] theorem State.updColl_dues (n : Nat) (f : CollPart → CollPart) : (s.updColl n f).dues = s.dues := rfl
@[simp] theorem State.updColl_mem (n : Nat) (f : CollPart → CollPart) : (s.updColl n f).mem = s.mem := rfl
@[simp] theorem State.updColl_lines (n : Nat) (f : CollPart → CollPart) : (s.updColl n f).lines = s.lines := rfl
@[simp] theorem State.updColl_regs (n : Nat) (f : CollPart → CollPart) : (s.updColl n f).regs = s.regs := rfl
@[simp] theorem State.updColl_staged (n : Nat) (f : CollPart → CollPart) : (s.updColl n f).staged = s.staged := rfl
@[simp] theorem State.updColl_pat (n : Nat) (f : CollPart → CollPart) : (s.updColl n f).pat = s.pat := rfl
@[simp] theorem State.updColl_fab (n : Nat) (f : CollPart → CollPart) : (s.updColl n f).fab = s.fab := rfl
@[simp] theorem State.updColl_coh (n : Nat) (f : CollPart → CollPart) : (s.updColl n f).coh = s.coh := rfl
@[simp] theorem State.updColl_hbm (n : Nat) (f : CollPart → CollPart) : (s.updColl n f).hbm = s.hbm := rfl
@[simp] theorem State.updColl_sec (n : Nat) (f : CollPart → CollPart) : (s.updColl n f).sec = s.sec := rfl
@[simp] theorem State.updColl_pwr (n : Nat) (f : CollPart → CollPart) : (s.updColl n f).pwr = s.pwr := rfl
@[simp] theorem State.updColl_ras (n : Nat) (f : CollPart → CollPart) : (s.updColl n f).ras = s.ras := rfl
@[simp] theorem State.updColl_cells (n : Nat) (f : CollPart → CollPart) : (s.updColl n f).cells = s.cells := rfl
@[simp] theorem State.updColl_msgs (n : Nat) (f : CollPart → CollPart) : (s.updColl n f).msgs = s.msgs := rfl
@[simp] theorem State.updColl_egress (n : Nat) (f : CollPart → CollPart) : (s.updColl n f).egress = s.egress := rfl
@[simp] theorem State.updColl_flights (n : Nat) (f : CollPart → CollPart) : (s.updColl n f).flights = s.flights := rfl
@[simp] theorem State.updColl_ctxs (n : Nat) (f : CollPart → CollPart) : (s.updColl n f).ctxs = s.ctxs := rfl
@[simp] theorem State.updColl_saved (n : Nat) (f : CollPart → CollPart) : (s.updColl n f).saved = s.saved := rfl
@[simp] theorem State.updColl_schs (n : Nat) (f : CollPart → CollPart) : (s.updColl n f).schs = s.schs := rfl
@[simp] theorem State.updColl_ress (n : Nat) (f : CollPart → CollPart) : (s.updColl n f).ress = s.ress := rfl
@[simp] theorem State.updColl_cores (n : Nat) (f : CollPart → CollPart) : (s.updColl n f).cores = s.cores := rfl
@[simp] theorem State.updColl_aclint (n : Nat) (f : CollPart → CollPart) : (s.updColl n f).aclint = s.aclint := rfl
@[simp] theorem State.updColl_codes (n : Nat) (f : CollPart → CollPart) : (s.updColl n f).codes = s.codes := rfl
@[simp] theorem State.updColl_rxqs (n : Nat) (f : CollPart → CollPart) : (s.updColl n f).rxqs = s.rxqs := rfl
@[simp] theorem State.updColl_pools (n : Nat) (f : CollPart → CollPart) : (s.updColl n f).pools = s.pools := rfl
@[simp] theorem State.updColl_vfs (n : Nat) (f : CollPart → CollPart) : (s.updColl n f).vfs = s.vfs := rfl
@[simp] theorem State.updColl_queues (n : Nat) (f : CollPart → CollPart) : (s.updColl n f).queues = s.queues := rfl
@[simp] theorem State.updColl_fences (n : Nat) (f : CollPart → CollPart) : (s.updColl n f).fences = s.fences := rfl
@[simp] theorem State.updColl_pcie (n : Nat) (f : CollPart → CollPart) : (s.updColl n f).pcie = s.pcie := rfl
@[simp] theorem State.updColl_chans (n : Nat) (f : CollPart → CollPart) : (s.updColl n f).chans = s.chans := rfl
@[simp] theorem State.updColl_dmaLast (n : Nat) (f : CollPart → CollPart) : (s.updColl n f).dmaLast = s.dmaLast := rfl
@[simp] theorem State.updColl_dmaWait (n : Nat) (f : CollPart → CollPart) : (s.updColl n f).dmaWait = s.dmaWait := rfl
@[simp] theorem State.updColl_walkCaches (n : Nat) (f : CollPart → CollPart) : (s.updColl n f).walkCaches = s.walkCaches := rfl
@[simp] theorem State.updColl_xlts (n : Nat) (f : CollPart → CollPart) : (s.updColl n f).xlts = s.xlts := rfl
@[simp] theorem State.updColl_pageReady (n : Nat) (f : CollPart → CollPart) : (s.updColl n f).pageReady = s.pageReady := rfl
@[simp] theorem State.updColl_sites (n : Nat) (f : CollPart → CollPart) : (s.updColl n f).sites = s.sites := rfl
@[simp] theorem State.updColl_net (n : Nat) (f : CollPart → CollPart) : (s.updColl n f).net = s.net := rfl
@[simp] theorem State.updColl_ring (n : Nat) (f : CollPart → CollPart) : (s.updColl n f).ring = s.ring := rfl
@[simp] theorem State.updColl_twins (n : Nat) (f : CollPart → CollPart) : (s.updColl n f).twins = s.twins := rfl

@[simp] theorem State.updPool_pending (n p : Nat) (f : Pool → Pool) : (s.updPool n p f).pending = s.pending := rfl
@[simp] theorem State.updPool_freeCtr (n p : Nat) (f : Pool → Pool) : (s.updPool n p f).freeCtr = s.freeCtr := rfl
@[simp] theorem State.updPool_out (n p : Nat) (f : Pool → Pool) : (s.updPool n p f).out = s.out := rfl
@[simp] theorem State.updPool_dues (n p : Nat) (f : Pool → Pool) : (s.updPool n p f).dues = s.dues := rfl
@[simp] theorem State.updPool_mem (n p : Nat) (f : Pool → Pool) : (s.updPool n p f).mem = s.mem := rfl
@[simp] theorem State.updPool_lines (n p : Nat) (f : Pool → Pool) : (s.updPool n p f).lines = s.lines := rfl
@[simp] theorem State.updPool_regs (n p : Nat) (f : Pool → Pool) : (s.updPool n p f).regs = s.regs := rfl
@[simp] theorem State.updPool_staged (n p : Nat) (f : Pool → Pool) : (s.updPool n p f).staged = s.staged := rfl
@[simp] theorem State.updPool_pat (n p : Nat) (f : Pool → Pool) : (s.updPool n p f).pat = s.pat := rfl
@[simp] theorem State.updPool_fab (n p : Nat) (f : Pool → Pool) : (s.updPool n p f).fab = s.fab := rfl
@[simp] theorem State.updPool_coh (n p : Nat) (f : Pool → Pool) : (s.updPool n p f).coh = s.coh := rfl
@[simp] theorem State.updPool_hbm (n p : Nat) (f : Pool → Pool) : (s.updPool n p f).hbm = s.hbm := rfl
@[simp] theorem State.updPool_sec (n p : Nat) (f : Pool → Pool) : (s.updPool n p f).sec = s.sec := rfl
@[simp] theorem State.updPool_pwr (n p : Nat) (f : Pool → Pool) : (s.updPool n p f).pwr = s.pwr := rfl
@[simp] theorem State.updPool_ras (n p : Nat) (f : Pool → Pool) : (s.updPool n p f).ras = s.ras := rfl
@[simp] theorem State.updPool_cells (n p : Nat) (f : Pool → Pool) : (s.updPool n p f).cells = s.cells := rfl
@[simp] theorem State.updPool_msgs (n p : Nat) (f : Pool → Pool) : (s.updPool n p f).msgs = s.msgs := rfl
@[simp] theorem State.updPool_egress (n p : Nat) (f : Pool → Pool) : (s.updPool n p f).egress = s.egress := rfl
@[simp] theorem State.updPool_flights (n p : Nat) (f : Pool → Pool) : (s.updPool n p f).flights = s.flights := rfl
@[simp] theorem State.updPool_ctxs (n p : Nat) (f : Pool → Pool) : (s.updPool n p f).ctxs = s.ctxs := rfl
@[simp] theorem State.updPool_saved (n p : Nat) (f : Pool → Pool) : (s.updPool n p f).saved = s.saved := rfl
@[simp] theorem State.updPool_schs (n p : Nat) (f : Pool → Pool) : (s.updPool n p f).schs = s.schs := rfl
@[simp] theorem State.updPool_ress (n p : Nat) (f : Pool → Pool) : (s.updPool n p f).ress = s.ress := rfl
@[simp] theorem State.updPool_cores (n p : Nat) (f : Pool → Pool) : (s.updPool n p f).cores = s.cores := rfl
@[simp] theorem State.updPool_aclint (n p : Nat) (f : Pool → Pool) : (s.updPool n p f).aclint = s.aclint := rfl
@[simp] theorem State.updPool_codes (n p : Nat) (f : Pool → Pool) : (s.updPool n p f).codes = s.codes := rfl
@[simp] theorem State.updPool_rxqs (n p : Nat) (f : Pool → Pool) : (s.updPool n p f).rxqs = s.rxqs := rfl
@[simp] theorem State.updPool_vfs (n p : Nat) (f : Pool → Pool) : (s.updPool n p f).vfs = s.vfs := rfl
@[simp] theorem State.updPool_queues (n p : Nat) (f : Pool → Pool) : (s.updPool n p f).queues = s.queues := rfl
@[simp] theorem State.updPool_fences (n p : Nat) (f : Pool → Pool) : (s.updPool n p f).fences = s.fences := rfl
@[simp] theorem State.updPool_pcie (n p : Nat) (f : Pool → Pool) : (s.updPool n p f).pcie = s.pcie := rfl
@[simp] theorem State.updPool_chans (n p : Nat) (f : Pool → Pool) : (s.updPool n p f).chans = s.chans := rfl
@[simp] theorem State.updPool_dmaLast (n p : Nat) (f : Pool → Pool) : (s.updPool n p f).dmaLast = s.dmaLast := rfl
@[simp] theorem State.updPool_dmaWait (n p : Nat) (f : Pool → Pool) : (s.updPool n p f).dmaWait = s.dmaWait := rfl
@[simp] theorem State.updPool_walkCaches (n p : Nat) (f : Pool → Pool) : (s.updPool n p f).walkCaches = s.walkCaches := rfl
@[simp] theorem State.updPool_xlts (n p : Nat) (f : Pool → Pool) : (s.updPool n p f).xlts = s.xlts := rfl
@[simp] theorem State.updPool_pageReady (n p : Nat) (f : Pool → Pool) : (s.updPool n p f).pageReady = s.pageReady := rfl
@[simp] theorem State.updPool_sites (n p : Nat) (f : Pool → Pool) : (s.updPool n p f).sites = s.sites := rfl
@[simp] theorem State.updPool_net (n p : Nat) (f : Pool → Pool) : (s.updPool n p f).net = s.net := rfl
@[simp] theorem State.updPool_ring (n p : Nat) (f : Pool → Pool) : (s.updPool n p f).ring = s.ring := rfl
@[simp] theorem State.updPool_colls (n p : Nat) (f : Pool → Pool) : (s.updPool n p f).colls = s.colls := rfl
@[simp] theorem State.updPool_twins (n p : Nat) (f : Pool → Pool) : (s.updPool n p f).twins = s.twins := rfl

@[simp] theorem State.updPort_pending (p : Nat) (f : Port → Port) : (s.updPort p f).pending = s.pending := rfl
@[simp] theorem State.updPort_freeCtr (p : Nat) (f : Port → Port) : (s.updPort p f).freeCtr = s.freeCtr := rfl
@[simp] theorem State.updPort_out (p : Nat) (f : Port → Port) : (s.updPort p f).out = s.out := rfl
@[simp] theorem State.updPort_dues (p : Nat) (f : Port → Port) : (s.updPort p f).dues = s.dues := rfl
@[simp] theorem State.updPort_mem (p : Nat) (f : Port → Port) : (s.updPort p f).mem = s.mem := rfl
@[simp] theorem State.updPort_lines (p : Nat) (f : Port → Port) : (s.updPort p f).lines = s.lines := rfl
@[simp] theorem State.updPort_regs (p : Nat) (f : Port → Port) : (s.updPort p f).regs = s.regs := rfl
@[simp] theorem State.updPort_staged (p : Nat) (f : Port → Port) : (s.updPort p f).staged = s.staged := rfl
@[simp] theorem State.updPort_pat (p : Nat) (f : Port → Port) : (s.updPort p f).pat = s.pat := rfl
@[simp] theorem State.updPort_fab (p : Nat) (f : Port → Port) : (s.updPort p f).fab = s.fab := rfl
@[simp] theorem State.updPort_coh (p : Nat) (f : Port → Port) : (s.updPort p f).coh = s.coh := rfl
@[simp] theorem State.updPort_hbm (p : Nat) (f : Port → Port) : (s.updPort p f).hbm = s.hbm := rfl
@[simp] theorem State.updPort_sec (p : Nat) (f : Port → Port) : (s.updPort p f).sec = s.sec := rfl
@[simp] theorem State.updPort_pwr (p : Nat) (f : Port → Port) : (s.updPort p f).pwr = s.pwr := rfl
@[simp] theorem State.updPort_ras (p : Nat) (f : Port → Port) : (s.updPort p f).ras = s.ras := rfl
@[simp] theorem State.updPort_cells (p : Nat) (f : Port → Port) : (s.updPort p f).cells = s.cells := rfl
@[simp] theorem State.updPort_msgs (p : Nat) (f : Port → Port) : (s.updPort p f).msgs = s.msgs := rfl
@[simp] theorem State.updPort_egress (p : Nat) (f : Port → Port) : (s.updPort p f).egress = s.egress := rfl
@[simp] theorem State.updPort_flights (p : Nat) (f : Port → Port) : (s.updPort p f).flights = s.flights := rfl
@[simp] theorem State.updPort_ctxs (p : Nat) (f : Port → Port) : (s.updPort p f).ctxs = s.ctxs := rfl
@[simp] theorem State.updPort_saved (p : Nat) (f : Port → Port) : (s.updPort p f).saved = s.saved := rfl
@[simp] theorem State.updPort_schs (p : Nat) (f : Port → Port) : (s.updPort p f).schs = s.schs := rfl
@[simp] theorem State.updPort_ress (p : Nat) (f : Port → Port) : (s.updPort p f).ress = s.ress := rfl
@[simp] theorem State.updPort_cores (p : Nat) (f : Port → Port) : (s.updPort p f).cores = s.cores := rfl
@[simp] theorem State.updPort_aclint (p : Nat) (f : Port → Port) : (s.updPort p f).aclint = s.aclint := rfl
@[simp] theorem State.updPort_codes (p : Nat) (f : Port → Port) : (s.updPort p f).codes = s.codes := rfl
@[simp] theorem State.updPort_rxqs (p : Nat) (f : Port → Port) : (s.updPort p f).rxqs = s.rxqs := rfl
@[simp] theorem State.updPort_pools (p : Nat) (f : Port → Port) : (s.updPort p f).pools = s.pools := rfl
@[simp] theorem State.updPort_vfs (p : Nat) (f : Port → Port) : (s.updPort p f).vfs = s.vfs := rfl
@[simp] theorem State.updPort_queues (p : Nat) (f : Port → Port) : (s.updPort p f).queues = s.queues := rfl
@[simp] theorem State.updPort_fences (p : Nat) (f : Port → Port) : (s.updPort p f).fences = s.fences := rfl
@[simp] theorem State.updPort_pcie (p : Nat) (f : Port → Port) : (s.updPort p f).pcie = s.pcie := rfl
@[simp] theorem State.updPort_chans (p : Nat) (f : Port → Port) : (s.updPort p f).chans = s.chans := rfl
@[simp] theorem State.updPort_dmaLast (p : Nat) (f : Port → Port) : (s.updPort p f).dmaLast = s.dmaLast := rfl
@[simp] theorem State.updPort_dmaWait (p : Nat) (f : Port → Port) : (s.updPort p f).dmaWait = s.dmaWait := rfl
@[simp] theorem State.updPort_walkCaches (p : Nat) (f : Port → Port) : (s.updPort p f).walkCaches = s.walkCaches := rfl
@[simp] theorem State.updPort_xlts (p : Nat) (f : Port → Port) : (s.updPort p f).xlts = s.xlts := rfl
@[simp] theorem State.updPort_pageReady (p : Nat) (f : Port → Port) : (s.updPort p f).pageReady = s.pageReady := rfl
@[simp] theorem State.updPort_sites (p : Nat) (f : Port → Port) : (s.updPort p f).sites = s.sites := rfl
@[simp] theorem State.updPort_ring (p : Nat) (f : Port → Port) : (s.updPort p f).ring = s.ring := rfl
@[simp] theorem State.updPort_colls (p : Nat) (f : Port → Port) : (s.updPort p f).colls = s.colls := rfl
@[simp] theorem State.updPort_twins (p : Nat) (f : Port → Port) : (s.updPort p f).twins = s.twins := rfl

@[simp] theorem State.updRxq_pending (q : Nat) (f : RxQ → RxQ) : (s.updRxq q f).pending = s.pending := rfl
@[simp] theorem State.updRxq_freeCtr (q : Nat) (f : RxQ → RxQ) : (s.updRxq q f).freeCtr = s.freeCtr := rfl
@[simp] theorem State.updRxq_out (q : Nat) (f : RxQ → RxQ) : (s.updRxq q f).out = s.out := rfl
@[simp] theorem State.updRxq_dues (q : Nat) (f : RxQ → RxQ) : (s.updRxq q f).dues = s.dues := rfl
@[simp] theorem State.updRxq_mem (q : Nat) (f : RxQ → RxQ) : (s.updRxq q f).mem = s.mem := rfl
@[simp] theorem State.updRxq_lines (q : Nat) (f : RxQ → RxQ) : (s.updRxq q f).lines = s.lines := rfl
@[simp] theorem State.updRxq_regs (q : Nat) (f : RxQ → RxQ) : (s.updRxq q f).regs = s.regs := rfl
@[simp] theorem State.updRxq_staged (q : Nat) (f : RxQ → RxQ) : (s.updRxq q f).staged = s.staged := rfl
@[simp] theorem State.updRxq_pat (q : Nat) (f : RxQ → RxQ) : (s.updRxq q f).pat = s.pat := rfl
@[simp] theorem State.updRxq_fab (q : Nat) (f : RxQ → RxQ) : (s.updRxq q f).fab = s.fab := rfl
@[simp] theorem State.updRxq_coh (q : Nat) (f : RxQ → RxQ) : (s.updRxq q f).coh = s.coh := rfl
@[simp] theorem State.updRxq_hbm (q : Nat) (f : RxQ → RxQ) : (s.updRxq q f).hbm = s.hbm := rfl
@[simp] theorem State.updRxq_sec (q : Nat) (f : RxQ → RxQ) : (s.updRxq q f).sec = s.sec := rfl
@[simp] theorem State.updRxq_pwr (q : Nat) (f : RxQ → RxQ) : (s.updRxq q f).pwr = s.pwr := rfl
@[simp] theorem State.updRxq_ras (q : Nat) (f : RxQ → RxQ) : (s.updRxq q f).ras = s.ras := rfl
@[simp] theorem State.updRxq_cells (q : Nat) (f : RxQ → RxQ) : (s.updRxq q f).cells = s.cells := rfl
@[simp] theorem State.updRxq_msgs (q : Nat) (f : RxQ → RxQ) : (s.updRxq q f).msgs = s.msgs := rfl
@[simp] theorem State.updRxq_egress (q : Nat) (f : RxQ → RxQ) : (s.updRxq q f).egress = s.egress := rfl
@[simp] theorem State.updRxq_flights (q : Nat) (f : RxQ → RxQ) : (s.updRxq q f).flights = s.flights := rfl
@[simp] theorem State.updRxq_ctxs (q : Nat) (f : RxQ → RxQ) : (s.updRxq q f).ctxs = s.ctxs := rfl
@[simp] theorem State.updRxq_saved (q : Nat) (f : RxQ → RxQ) : (s.updRxq q f).saved = s.saved := rfl
@[simp] theorem State.updRxq_schs (q : Nat) (f : RxQ → RxQ) : (s.updRxq q f).schs = s.schs := rfl
@[simp] theorem State.updRxq_ress (q : Nat) (f : RxQ → RxQ) : (s.updRxq q f).ress = s.ress := rfl
@[simp] theorem State.updRxq_cores (q : Nat) (f : RxQ → RxQ) : (s.updRxq q f).cores = s.cores := rfl
@[simp] theorem State.updRxq_aclint (q : Nat) (f : RxQ → RxQ) : (s.updRxq q f).aclint = s.aclint := rfl
@[simp] theorem State.updRxq_codes (q : Nat) (f : RxQ → RxQ) : (s.updRxq q f).codes = s.codes := rfl
@[simp] theorem State.updRxq_pools (q : Nat) (f : RxQ → RxQ) : (s.updRxq q f).pools = s.pools := rfl
@[simp] theorem State.updRxq_vfs (q : Nat) (f : RxQ → RxQ) : (s.updRxq q f).vfs = s.vfs := rfl
@[simp] theorem State.updRxq_queues (q : Nat) (f : RxQ → RxQ) : (s.updRxq q f).queues = s.queues := rfl
@[simp] theorem State.updRxq_fences (q : Nat) (f : RxQ → RxQ) : (s.updRxq q f).fences = s.fences := rfl
@[simp] theorem State.updRxq_pcie (q : Nat) (f : RxQ → RxQ) : (s.updRxq q f).pcie = s.pcie := rfl
@[simp] theorem State.updRxq_chans (q : Nat) (f : RxQ → RxQ) : (s.updRxq q f).chans = s.chans := rfl
@[simp] theorem State.updRxq_dmaLast (q : Nat) (f : RxQ → RxQ) : (s.updRxq q f).dmaLast = s.dmaLast := rfl
@[simp] theorem State.updRxq_dmaWait (q : Nat) (f : RxQ → RxQ) : (s.updRxq q f).dmaWait = s.dmaWait := rfl
@[simp] theorem State.updRxq_walkCaches (q : Nat) (f : RxQ → RxQ) : (s.updRxq q f).walkCaches = s.walkCaches := rfl
@[simp] theorem State.updRxq_xlts (q : Nat) (f : RxQ → RxQ) : (s.updRxq q f).xlts = s.xlts := rfl
@[simp] theorem State.updRxq_pageReady (q : Nat) (f : RxQ → RxQ) : (s.updRxq q f).pageReady = s.pageReady := rfl
@[simp] theorem State.updRxq_sites (q : Nat) (f : RxQ → RxQ) : (s.updRxq q f).sites = s.sites := rfl
@[simp] theorem State.updRxq_net (q : Nat) (f : RxQ → RxQ) : (s.updRxq q f).net = s.net := rfl
@[simp] theorem State.updRxq_ring (q : Nat) (f : RxQ → RxQ) : (s.updRxq q f).ring = s.ring := rfl
@[simp] theorem State.updRxq_colls (q : Nat) (f : RxQ → RxQ) : (s.updRxq q f).colls = s.colls := rfl
@[simp] theorem State.updRxq_twins (q : Nat) (f : RxQ → RxQ) : (s.updRxq q f).twins = s.twins := rfl

@[simp] theorem State.updTxq_pending (q : Nat) (f : TxQ → TxQ) : (s.updTxq q f).pending = s.pending := rfl
@[simp] theorem State.updTxq_freeCtr (q : Nat) (f : TxQ → TxQ) : (s.updTxq q f).freeCtr = s.freeCtr := rfl
@[simp] theorem State.updTxq_out (q : Nat) (f : TxQ → TxQ) : (s.updTxq q f).out = s.out := rfl
@[simp] theorem State.updTxq_dues (q : Nat) (f : TxQ → TxQ) : (s.updTxq q f).dues = s.dues := rfl
@[simp] theorem State.updTxq_mem (q : Nat) (f : TxQ → TxQ) : (s.updTxq q f).mem = s.mem := rfl
@[simp] theorem State.updTxq_lines (q : Nat) (f : TxQ → TxQ) : (s.updTxq q f).lines = s.lines := rfl
@[simp] theorem State.updTxq_regs (q : Nat) (f : TxQ → TxQ) : (s.updTxq q f).regs = s.regs := rfl
@[simp] theorem State.updTxq_staged (q : Nat) (f : TxQ → TxQ) : (s.updTxq q f).staged = s.staged := rfl
@[simp] theorem State.updTxq_pat (q : Nat) (f : TxQ → TxQ) : (s.updTxq q f).pat = s.pat := rfl
@[simp] theorem State.updTxq_fab (q : Nat) (f : TxQ → TxQ) : (s.updTxq q f).fab = s.fab := rfl
@[simp] theorem State.updTxq_coh (q : Nat) (f : TxQ → TxQ) : (s.updTxq q f).coh = s.coh := rfl
@[simp] theorem State.updTxq_hbm (q : Nat) (f : TxQ → TxQ) : (s.updTxq q f).hbm = s.hbm := rfl
@[simp] theorem State.updTxq_sec (q : Nat) (f : TxQ → TxQ) : (s.updTxq q f).sec = s.sec := rfl
@[simp] theorem State.updTxq_pwr (q : Nat) (f : TxQ → TxQ) : (s.updTxq q f).pwr = s.pwr := rfl
@[simp] theorem State.updTxq_ras (q : Nat) (f : TxQ → TxQ) : (s.updTxq q f).ras = s.ras := rfl
@[simp] theorem State.updTxq_cells (q : Nat) (f : TxQ → TxQ) : (s.updTxq q f).cells = s.cells := rfl
@[simp] theorem State.updTxq_msgs (q : Nat) (f : TxQ → TxQ) : (s.updTxq q f).msgs = s.msgs := rfl
@[simp] theorem State.updTxq_egress (q : Nat) (f : TxQ → TxQ) : (s.updTxq q f).egress = s.egress := rfl
@[simp] theorem State.updTxq_flights (q : Nat) (f : TxQ → TxQ) : (s.updTxq q f).flights = s.flights := rfl
@[simp] theorem State.updTxq_ctxs (q : Nat) (f : TxQ → TxQ) : (s.updTxq q f).ctxs = s.ctxs := rfl
@[simp] theorem State.updTxq_saved (q : Nat) (f : TxQ → TxQ) : (s.updTxq q f).saved = s.saved := rfl
@[simp] theorem State.updTxq_schs (q : Nat) (f : TxQ → TxQ) : (s.updTxq q f).schs = s.schs := rfl
@[simp] theorem State.updTxq_ress (q : Nat) (f : TxQ → TxQ) : (s.updTxq q f).ress = s.ress := rfl
@[simp] theorem State.updTxq_cores (q : Nat) (f : TxQ → TxQ) : (s.updTxq q f).cores = s.cores := rfl
@[simp] theorem State.updTxq_aclint (q : Nat) (f : TxQ → TxQ) : (s.updTxq q f).aclint = s.aclint := rfl
@[simp] theorem State.updTxq_codes (q : Nat) (f : TxQ → TxQ) : (s.updTxq q f).codes = s.codes := rfl
@[simp] theorem State.updTxq_rxqs (q : Nat) (f : TxQ → TxQ) : (s.updTxq q f).rxqs = s.rxqs := rfl
@[simp] theorem State.updTxq_pools (q : Nat) (f : TxQ → TxQ) : (s.updTxq q f).pools = s.pools := rfl
@[simp] theorem State.updTxq_vfs (q : Nat) (f : TxQ → TxQ) : (s.updTxq q f).vfs = s.vfs := rfl
@[simp] theorem State.updTxq_queues (q : Nat) (f : TxQ → TxQ) : (s.updTxq q f).queues = s.queues := rfl
@[simp] theorem State.updTxq_fences (q : Nat) (f : TxQ → TxQ) : (s.updTxq q f).fences = s.fences := rfl
@[simp] theorem State.updTxq_pcie (q : Nat) (f : TxQ → TxQ) : (s.updTxq q f).pcie = s.pcie := rfl
@[simp] theorem State.updTxq_chans (q : Nat) (f : TxQ → TxQ) : (s.updTxq q f).chans = s.chans := rfl
@[simp] theorem State.updTxq_dmaLast (q : Nat) (f : TxQ → TxQ) : (s.updTxq q f).dmaLast = s.dmaLast := rfl
@[simp] theorem State.updTxq_dmaWait (q : Nat) (f : TxQ → TxQ) : (s.updTxq q f).dmaWait = s.dmaWait := rfl
@[simp] theorem State.updTxq_walkCaches (q : Nat) (f : TxQ → TxQ) : (s.updTxq q f).walkCaches = s.walkCaches := rfl
@[simp] theorem State.updTxq_xlts (q : Nat) (f : TxQ → TxQ) : (s.updTxq q f).xlts = s.xlts := rfl
@[simp] theorem State.updTxq_pageReady (q : Nat) (f : TxQ → TxQ) : (s.updTxq q f).pageReady = s.pageReady := rfl
@[simp] theorem State.updTxq_sites (q : Nat) (f : TxQ → TxQ) : (s.updTxq q f).sites = s.sites := rfl
@[simp] theorem State.updTxq_ring (q : Nat) (f : TxQ → TxQ) : (s.updTxq q f).ring = s.ring := rfl
@[simp] theorem State.updTxq_colls (q : Nat) (f : TxQ → TxQ) : (s.updTxq q f).colls = s.colls := rfl
@[simp] theorem State.updTxq_twins (q : Nat) (f : TxQ → TxQ) : (s.updTxq q f).twins = s.twins := rfl

@[simp] theorem State.updEth_pending (n : Nat) (f : EthPart → EthPart) : (s.updEth n f).pending = s.pending := rfl
@[simp] theorem State.updEth_freeCtr (n : Nat) (f : EthPart → EthPart) : (s.updEth n f).freeCtr = s.freeCtr := rfl
@[simp] theorem State.updEth_out (n : Nat) (f : EthPart → EthPart) : (s.updEth n f).out = s.out := rfl
@[simp] theorem State.updEth_dues (n : Nat) (f : EthPart → EthPart) : (s.updEth n f).dues = s.dues := rfl
@[simp] theorem State.updEth_mem (n : Nat) (f : EthPart → EthPart) : (s.updEth n f).mem = s.mem := rfl
@[simp] theorem State.updEth_lines (n : Nat) (f : EthPart → EthPart) : (s.updEth n f).lines = s.lines := rfl
@[simp] theorem State.updEth_regs (n : Nat) (f : EthPart → EthPart) : (s.updEth n f).regs = s.regs := rfl
@[simp] theorem State.updEth_staged (n : Nat) (f : EthPart → EthPart) : (s.updEth n f).staged = s.staged := rfl
@[simp] theorem State.updEth_pat (n : Nat) (f : EthPart → EthPart) : (s.updEth n f).pat = s.pat := rfl
@[simp] theorem State.updEth_fab (n : Nat) (f : EthPart → EthPart) : (s.updEth n f).fab = s.fab := rfl
@[simp] theorem State.updEth_coh (n : Nat) (f : EthPart → EthPart) : (s.updEth n f).coh = s.coh := rfl
@[simp] theorem State.updEth_hbm (n : Nat) (f : EthPart → EthPart) : (s.updEth n f).hbm = s.hbm := rfl
@[simp] theorem State.updEth_sec (n : Nat) (f : EthPart → EthPart) : (s.updEth n f).sec = s.sec := rfl
@[simp] theorem State.updEth_pwr (n : Nat) (f : EthPart → EthPart) : (s.updEth n f).pwr = s.pwr := rfl
@[simp] theorem State.updEth_ras (n : Nat) (f : EthPart → EthPart) : (s.updEth n f).ras = s.ras := rfl
@[simp] theorem State.updEth_cells (n : Nat) (f : EthPart → EthPart) : (s.updEth n f).cells = s.cells := rfl
@[simp] theorem State.updEth_msgs (n : Nat) (f : EthPart → EthPart) : (s.updEth n f).msgs = s.msgs := rfl
@[simp] theorem State.updEth_egress (n : Nat) (f : EthPart → EthPart) : (s.updEth n f).egress = s.egress := rfl
@[simp] theorem State.updEth_flights (n : Nat) (f : EthPart → EthPart) : (s.updEth n f).flights = s.flights := rfl
@[simp] theorem State.updEth_ctxs (n : Nat) (f : EthPart → EthPart) : (s.updEth n f).ctxs = s.ctxs := rfl
@[simp] theorem State.updEth_saved (n : Nat) (f : EthPart → EthPart) : (s.updEth n f).saved = s.saved := rfl
@[simp] theorem State.updEth_schs (n : Nat) (f : EthPart → EthPart) : (s.updEth n f).schs = s.schs := rfl
@[simp] theorem State.updEth_ress (n : Nat) (f : EthPart → EthPart) : (s.updEth n f).ress = s.ress := rfl
@[simp] theorem State.updEth_cores (n : Nat) (f : EthPart → EthPart) : (s.updEth n f).cores = s.cores := rfl
@[simp] theorem State.updEth_aclint (n : Nat) (f : EthPart → EthPart) : (s.updEth n f).aclint = s.aclint := rfl
@[simp] theorem State.updEth_codes (n : Nat) (f : EthPart → EthPart) : (s.updEth n f).codes = s.codes := rfl
@[simp] theorem State.updEth_rxqs (n : Nat) (f : EthPart → EthPart) : (s.updEth n f).rxqs = s.rxqs := rfl
@[simp] theorem State.updEth_pools (n : Nat) (f : EthPart → EthPart) : (s.updEth n f).pools = s.pools := rfl
@[simp] theorem State.updEth_vfs (n : Nat) (f : EthPart → EthPart) : (s.updEth n f).vfs = s.vfs := rfl
@[simp] theorem State.updEth_queues (n : Nat) (f : EthPart → EthPart) : (s.updEth n f).queues = s.queues := rfl
@[simp] theorem State.updEth_fences (n : Nat) (f : EthPart → EthPart) : (s.updEth n f).fences = s.fences := rfl
@[simp] theorem State.updEth_pcie (n : Nat) (f : EthPart → EthPart) : (s.updEth n f).pcie = s.pcie := rfl
@[simp] theorem State.updEth_chans (n : Nat) (f : EthPart → EthPart) : (s.updEth n f).chans = s.chans := rfl
@[simp] theorem State.updEth_dmaLast (n : Nat) (f : EthPart → EthPart) : (s.updEth n f).dmaLast = s.dmaLast := rfl
@[simp] theorem State.updEth_dmaWait (n : Nat) (f : EthPart → EthPart) : (s.updEth n f).dmaWait = s.dmaWait := rfl
@[simp] theorem State.updEth_walkCaches (n : Nat) (f : EthPart → EthPart) : (s.updEth n f).walkCaches = s.walkCaches := rfl
@[simp] theorem State.updEth_xlts (n : Nat) (f : EthPart → EthPart) : (s.updEth n f).xlts = s.xlts := rfl
@[simp] theorem State.updEth_pageReady (n : Nat) (f : EthPart → EthPart) : (s.updEth n f).pageReady = s.pageReady := rfl
@[simp] theorem State.updEth_sites (n : Nat) (f : EthPart → EthPart) : (s.updEth n f).sites = s.sites := rfl
@[simp] theorem State.updEth_ring (n : Nat) (f : EthPart → EthPart) : (s.updEth n f).ring = s.ring := rfl
@[simp] theorem State.updEth_colls (n : Nat) (f : EthPart → EthPart) : (s.updEth n f).colls = s.colls := rfl
@[simp] theorem State.updEth_twins (n : Nat) (f : EthPart → EthPart) : (s.updEth n f).twins = s.twins := rfl

@[simp] theorem State.updPcie_pending (f : Pcie → Pcie) : (s.updPcie f).pending = s.pending := rfl
@[simp] theorem State.updPcie_freeCtr (f : Pcie → Pcie) : (s.updPcie f).freeCtr = s.freeCtr := rfl
@[simp] theorem State.updPcie_out (f : Pcie → Pcie) : (s.updPcie f).out = s.out := rfl
@[simp] theorem State.updPcie_dues (f : Pcie → Pcie) : (s.updPcie f).dues = s.dues := rfl
@[simp] theorem State.updPcie_mem (f : Pcie → Pcie) : (s.updPcie f).mem = s.mem := rfl
@[simp] theorem State.updPcie_lines (f : Pcie → Pcie) : (s.updPcie f).lines = s.lines := rfl
@[simp] theorem State.updPcie_regs (f : Pcie → Pcie) : (s.updPcie f).regs = s.regs := rfl
@[simp] theorem State.updPcie_staged (f : Pcie → Pcie) : (s.updPcie f).staged = s.staged := rfl
@[simp] theorem State.updPcie_pat (f : Pcie → Pcie) : (s.updPcie f).pat = s.pat := rfl
@[simp] theorem State.updPcie_fab (f : Pcie → Pcie) : (s.updPcie f).fab = s.fab := rfl
@[simp] theorem State.updPcie_coh (f : Pcie → Pcie) : (s.updPcie f).coh = s.coh := rfl
@[simp] theorem State.updPcie_hbm (f : Pcie → Pcie) : (s.updPcie f).hbm = s.hbm := rfl
@[simp] theorem State.updPcie_sec (f : Pcie → Pcie) : (s.updPcie f).sec = s.sec := rfl
@[simp] theorem State.updPcie_pwr (f : Pcie → Pcie) : (s.updPcie f).pwr = s.pwr := rfl
@[simp] theorem State.updPcie_ras (f : Pcie → Pcie) : (s.updPcie f).ras = s.ras := rfl
@[simp] theorem State.updPcie_cells (f : Pcie → Pcie) : (s.updPcie f).cells = s.cells := rfl
@[simp] theorem State.updPcie_msgs (f : Pcie → Pcie) : (s.updPcie f).msgs = s.msgs := rfl
@[simp] theorem State.updPcie_egress (f : Pcie → Pcie) : (s.updPcie f).egress = s.egress := rfl
@[simp] theorem State.updPcie_flights (f : Pcie → Pcie) : (s.updPcie f).flights = s.flights := rfl
@[simp] theorem State.updPcie_ctxs (f : Pcie → Pcie) : (s.updPcie f).ctxs = s.ctxs := rfl
@[simp] theorem State.updPcie_saved (f : Pcie → Pcie) : (s.updPcie f).saved = s.saved := rfl
@[simp] theorem State.updPcie_schs (f : Pcie → Pcie) : (s.updPcie f).schs = s.schs := rfl
@[simp] theorem State.updPcie_ress (f : Pcie → Pcie) : (s.updPcie f).ress = s.ress := rfl
@[simp] theorem State.updPcie_cores (f : Pcie → Pcie) : (s.updPcie f).cores = s.cores := rfl
@[simp] theorem State.updPcie_aclint (f : Pcie → Pcie) : (s.updPcie f).aclint = s.aclint := rfl
@[simp] theorem State.updPcie_codes (f : Pcie → Pcie) : (s.updPcie f).codes = s.codes := rfl
@[simp] theorem State.updPcie_rxqs (f : Pcie → Pcie) : (s.updPcie f).rxqs = s.rxqs := rfl
@[simp] theorem State.updPcie_pools (f : Pcie → Pcie) : (s.updPcie f).pools = s.pools := rfl
@[simp] theorem State.updPcie_vfs (f : Pcie → Pcie) : (s.updPcie f).vfs = s.vfs := rfl
@[simp] theorem State.updPcie_queues (f : Pcie → Pcie) : (s.updPcie f).queues = s.queues := rfl
@[simp] theorem State.updPcie_fences (f : Pcie → Pcie) : (s.updPcie f).fences = s.fences := rfl
@[simp] theorem State.updPcie_chans (f : Pcie → Pcie) : (s.updPcie f).chans = s.chans := rfl
@[simp] theorem State.updPcie_dmaLast (f : Pcie → Pcie) : (s.updPcie f).dmaLast = s.dmaLast := rfl
@[simp] theorem State.updPcie_dmaWait (f : Pcie → Pcie) : (s.updPcie f).dmaWait = s.dmaWait := rfl
@[simp] theorem State.updPcie_walkCaches (f : Pcie → Pcie) : (s.updPcie f).walkCaches = s.walkCaches := rfl
@[simp] theorem State.updPcie_xlts (f : Pcie → Pcie) : (s.updPcie f).xlts = s.xlts := rfl
@[simp] theorem State.updPcie_pageReady (f : Pcie → Pcie) : (s.updPcie f).pageReady = s.pageReady := rfl
@[simp] theorem State.updPcie_sites (f : Pcie → Pcie) : (s.updPcie f).sites = s.sites := rfl
@[simp] theorem State.updPcie_net (f : Pcie → Pcie) : (s.updPcie f).net = s.net := rfl
@[simp] theorem State.updPcie_ring (f : Pcie → Pcie) : (s.updPcie f).ring = s.ring := rfl
@[simp] theorem State.updPcie_colls (f : Pcie → Pcie) : (s.updPcie f).colls = s.colls := rfl
@[simp] theorem State.updPcie_twins (f : Pcie → Pcie) : (s.updPcie f).twins = s.twins := rfl

@[simp] theorem State.updPwr_pending (f : Pwr → Pwr) : (s.updPwr f).pending = s.pending := rfl
@[simp] theorem State.updPwr_freeCtr (f : Pwr → Pwr) : (s.updPwr f).freeCtr = s.freeCtr := rfl
@[simp] theorem State.updPwr_out (f : Pwr → Pwr) : (s.updPwr f).out = s.out := rfl
@[simp] theorem State.updPwr_dues (f : Pwr → Pwr) : (s.updPwr f).dues = s.dues := rfl
@[simp] theorem State.updPwr_mem (f : Pwr → Pwr) : (s.updPwr f).mem = s.mem := rfl
@[simp] theorem State.updPwr_lines (f : Pwr → Pwr) : (s.updPwr f).lines = s.lines := rfl
@[simp] theorem State.updPwr_regs (f : Pwr → Pwr) : (s.updPwr f).regs = s.regs := rfl
@[simp] theorem State.updPwr_staged (f : Pwr → Pwr) : (s.updPwr f).staged = s.staged := rfl
@[simp] theorem State.updPwr_pat (f : Pwr → Pwr) : (s.updPwr f).pat = s.pat := rfl
@[simp] theorem State.updPwr_fab (f : Pwr → Pwr) : (s.updPwr f).fab = s.fab := rfl
@[simp] theorem State.updPwr_coh (f : Pwr → Pwr) : (s.updPwr f).coh = s.coh := rfl
@[simp] theorem State.updPwr_hbm (f : Pwr → Pwr) : (s.updPwr f).hbm = s.hbm := rfl
@[simp] theorem State.updPwr_sec (f : Pwr → Pwr) : (s.updPwr f).sec = s.sec := rfl
@[simp] theorem State.updPwr_ras (f : Pwr → Pwr) : (s.updPwr f).ras = s.ras := rfl
@[simp] theorem State.updPwr_cells (f : Pwr → Pwr) : (s.updPwr f).cells = s.cells := rfl
@[simp] theorem State.updPwr_msgs (f : Pwr → Pwr) : (s.updPwr f).msgs = s.msgs := rfl
@[simp] theorem State.updPwr_egress (f : Pwr → Pwr) : (s.updPwr f).egress = s.egress := rfl
@[simp] theorem State.updPwr_flights (f : Pwr → Pwr) : (s.updPwr f).flights = s.flights := rfl
@[simp] theorem State.updPwr_ctxs (f : Pwr → Pwr) : (s.updPwr f).ctxs = s.ctxs := rfl
@[simp] theorem State.updPwr_saved (f : Pwr → Pwr) : (s.updPwr f).saved = s.saved := rfl
@[simp] theorem State.updPwr_schs (f : Pwr → Pwr) : (s.updPwr f).schs = s.schs := rfl
@[simp] theorem State.updPwr_ress (f : Pwr → Pwr) : (s.updPwr f).ress = s.ress := rfl
@[simp] theorem State.updPwr_cores (f : Pwr → Pwr) : (s.updPwr f).cores = s.cores := rfl
@[simp] theorem State.updPwr_aclint (f : Pwr → Pwr) : (s.updPwr f).aclint = s.aclint := rfl
@[simp] theorem State.updPwr_codes (f : Pwr → Pwr) : (s.updPwr f).codes = s.codes := rfl
@[simp] theorem State.updPwr_rxqs (f : Pwr → Pwr) : (s.updPwr f).rxqs = s.rxqs := rfl
@[simp] theorem State.updPwr_pools (f : Pwr → Pwr) : (s.updPwr f).pools = s.pools := rfl
@[simp] theorem State.updPwr_vfs (f : Pwr → Pwr) : (s.updPwr f).vfs = s.vfs := rfl
@[simp] theorem State.updPwr_queues (f : Pwr → Pwr) : (s.updPwr f).queues = s.queues := rfl
@[simp] theorem State.updPwr_fences (f : Pwr → Pwr) : (s.updPwr f).fences = s.fences := rfl
@[simp] theorem State.updPwr_pcie (f : Pwr → Pwr) : (s.updPwr f).pcie = s.pcie := rfl
@[simp] theorem State.updPwr_chans (f : Pwr → Pwr) : (s.updPwr f).chans = s.chans := rfl
@[simp] theorem State.updPwr_dmaLast (f : Pwr → Pwr) : (s.updPwr f).dmaLast = s.dmaLast := rfl
@[simp] theorem State.updPwr_dmaWait (f : Pwr → Pwr) : (s.updPwr f).dmaWait = s.dmaWait := rfl
@[simp] theorem State.updPwr_walkCaches (f : Pwr → Pwr) : (s.updPwr f).walkCaches = s.walkCaches := rfl
@[simp] theorem State.updPwr_xlts (f : Pwr → Pwr) : (s.updPwr f).xlts = s.xlts := rfl
@[simp] theorem State.updPwr_pageReady (f : Pwr → Pwr) : (s.updPwr f).pageReady = s.pageReady := rfl
@[simp] theorem State.updPwr_sites (f : Pwr → Pwr) : (s.updPwr f).sites = s.sites := rfl
@[simp] theorem State.updPwr_net (f : Pwr → Pwr) : (s.updPwr f).net = s.net := rfl
@[simp] theorem State.updPwr_ring (f : Pwr → Pwr) : (s.updPwr f).ring = s.ring := rfl
@[simp] theorem State.updPwr_colls (f : Pwr → Pwr) : (s.updPwr f).colls = s.colls := rfl
@[simp] theorem State.updPwr_twins (f : Pwr → Pwr) : (s.updPwr f).twins = s.twins := rfl

@[simp] theorem State.updSec_pending (f : Sec → Sec) : (s.updSec f).pending = s.pending := rfl
@[simp] theorem State.updSec_freeCtr (f : Sec → Sec) : (s.updSec f).freeCtr = s.freeCtr := rfl
@[simp] theorem State.updSec_out (f : Sec → Sec) : (s.updSec f).out = s.out := rfl
@[simp] theorem State.updSec_dues (f : Sec → Sec) : (s.updSec f).dues = s.dues := rfl
@[simp] theorem State.updSec_mem (f : Sec → Sec) : (s.updSec f).mem = s.mem := rfl
@[simp] theorem State.updSec_lines (f : Sec → Sec) : (s.updSec f).lines = s.lines := rfl
@[simp] theorem State.updSec_regs (f : Sec → Sec) : (s.updSec f).regs = s.regs := rfl
@[simp] theorem State.updSec_staged (f : Sec → Sec) : (s.updSec f).staged = s.staged := rfl
@[simp] theorem State.updSec_pat (f : Sec → Sec) : (s.updSec f).pat = s.pat := rfl
@[simp] theorem State.updSec_fab (f : Sec → Sec) : (s.updSec f).fab = s.fab := rfl
@[simp] theorem State.updSec_coh (f : Sec → Sec) : (s.updSec f).coh = s.coh := rfl
@[simp] theorem State.updSec_hbm (f : Sec → Sec) : (s.updSec f).hbm = s.hbm := rfl
@[simp] theorem State.updSec_pwr (f : Sec → Sec) : (s.updSec f).pwr = s.pwr := rfl
@[simp] theorem State.updSec_ras (f : Sec → Sec) : (s.updSec f).ras = s.ras := rfl
@[simp] theorem State.updSec_cells (f : Sec → Sec) : (s.updSec f).cells = s.cells := rfl
@[simp] theorem State.updSec_msgs (f : Sec → Sec) : (s.updSec f).msgs = s.msgs := rfl
@[simp] theorem State.updSec_egress (f : Sec → Sec) : (s.updSec f).egress = s.egress := rfl
@[simp] theorem State.updSec_flights (f : Sec → Sec) : (s.updSec f).flights = s.flights := rfl
@[simp] theorem State.updSec_ctxs (f : Sec → Sec) : (s.updSec f).ctxs = s.ctxs := rfl
@[simp] theorem State.updSec_saved (f : Sec → Sec) : (s.updSec f).saved = s.saved := rfl
@[simp] theorem State.updSec_schs (f : Sec → Sec) : (s.updSec f).schs = s.schs := rfl
@[simp] theorem State.updSec_ress (f : Sec → Sec) : (s.updSec f).ress = s.ress := rfl
@[simp] theorem State.updSec_cores (f : Sec → Sec) : (s.updSec f).cores = s.cores := rfl
@[simp] theorem State.updSec_aclint (f : Sec → Sec) : (s.updSec f).aclint = s.aclint := rfl
@[simp] theorem State.updSec_codes (f : Sec → Sec) : (s.updSec f).codes = s.codes := rfl
@[simp] theorem State.updSec_rxqs (f : Sec → Sec) : (s.updSec f).rxqs = s.rxqs := rfl
@[simp] theorem State.updSec_pools (f : Sec → Sec) : (s.updSec f).pools = s.pools := rfl
@[simp] theorem State.updSec_vfs (f : Sec → Sec) : (s.updSec f).vfs = s.vfs := rfl
@[simp] theorem State.updSec_queues (f : Sec → Sec) : (s.updSec f).queues = s.queues := rfl
@[simp] theorem State.updSec_fences (f : Sec → Sec) : (s.updSec f).fences = s.fences := rfl
@[simp] theorem State.updSec_pcie (f : Sec → Sec) : (s.updSec f).pcie = s.pcie := rfl
@[simp] theorem State.updSec_chans (f : Sec → Sec) : (s.updSec f).chans = s.chans := rfl
@[simp] theorem State.updSec_dmaLast (f : Sec → Sec) : (s.updSec f).dmaLast = s.dmaLast := rfl
@[simp] theorem State.updSec_dmaWait (f : Sec → Sec) : (s.updSec f).dmaWait = s.dmaWait := rfl
@[simp] theorem State.updSec_walkCaches (f : Sec → Sec) : (s.updSec f).walkCaches = s.walkCaches := rfl
@[simp] theorem State.updSec_xlts (f : Sec → Sec) : (s.updSec f).xlts = s.xlts := rfl
@[simp] theorem State.updSec_pageReady (f : Sec → Sec) : (s.updSec f).pageReady = s.pageReady := rfl
@[simp] theorem State.updSec_sites (f : Sec → Sec) : (s.updSec f).sites = s.sites := rfl
@[simp] theorem State.updSec_net (f : Sec → Sec) : (s.updSec f).net = s.net := rfl
@[simp] theorem State.updSec_ring (f : Sec → Sec) : (s.updSec f).ring = s.ring := rfl
@[simp] theorem State.updSec_colls (f : Sec → Sec) : (s.updSec f).colls = s.colls := rfl
@[simp] theorem State.updSec_twins (f : Sec → Sec) : (s.updSec f).twins = s.twins := rfl

@[simp] theorem State.updRing_pending (f : Ring → Ring) : (s.updRing f).pending = s.pending := rfl
@[simp] theorem State.updRing_freeCtr (f : Ring → Ring) : (s.updRing f).freeCtr = s.freeCtr := rfl
@[simp] theorem State.updRing_out (f : Ring → Ring) : (s.updRing f).out = s.out := rfl
@[simp] theorem State.updRing_dues (f : Ring → Ring) : (s.updRing f).dues = s.dues := rfl
@[simp] theorem State.updRing_mem (f : Ring → Ring) : (s.updRing f).mem = s.mem := rfl
@[simp] theorem State.updRing_lines (f : Ring → Ring) : (s.updRing f).lines = s.lines := rfl
@[simp] theorem State.updRing_regs (f : Ring → Ring) : (s.updRing f).regs = s.regs := rfl
@[simp] theorem State.updRing_staged (f : Ring → Ring) : (s.updRing f).staged = s.staged := rfl
@[simp] theorem State.updRing_pat (f : Ring → Ring) : (s.updRing f).pat = s.pat := rfl
@[simp] theorem State.updRing_fab (f : Ring → Ring) : (s.updRing f).fab = s.fab := rfl
@[simp] theorem State.updRing_coh (f : Ring → Ring) : (s.updRing f).coh = s.coh := rfl
@[simp] theorem State.updRing_hbm (f : Ring → Ring) : (s.updRing f).hbm = s.hbm := rfl
@[simp] theorem State.updRing_sec (f : Ring → Ring) : (s.updRing f).sec = s.sec := rfl
@[simp] theorem State.updRing_pwr (f : Ring → Ring) : (s.updRing f).pwr = s.pwr := rfl
@[simp] theorem State.updRing_ras (f : Ring → Ring) : (s.updRing f).ras = s.ras := rfl
@[simp] theorem State.updRing_cells (f : Ring → Ring) : (s.updRing f).cells = s.cells := rfl
@[simp] theorem State.updRing_msgs (f : Ring → Ring) : (s.updRing f).msgs = s.msgs := rfl
@[simp] theorem State.updRing_egress (f : Ring → Ring) : (s.updRing f).egress = s.egress := rfl
@[simp] theorem State.updRing_flights (f : Ring → Ring) : (s.updRing f).flights = s.flights := rfl
@[simp] theorem State.updRing_ctxs (f : Ring → Ring) : (s.updRing f).ctxs = s.ctxs := rfl
@[simp] theorem State.updRing_saved (f : Ring → Ring) : (s.updRing f).saved = s.saved := rfl
@[simp] theorem State.updRing_schs (f : Ring → Ring) : (s.updRing f).schs = s.schs := rfl
@[simp] theorem State.updRing_ress (f : Ring → Ring) : (s.updRing f).ress = s.ress := rfl
@[simp] theorem State.updRing_cores (f : Ring → Ring) : (s.updRing f).cores = s.cores := rfl
@[simp] theorem State.updRing_aclint (f : Ring → Ring) : (s.updRing f).aclint = s.aclint := rfl
@[simp] theorem State.updRing_codes (f : Ring → Ring) : (s.updRing f).codes = s.codes := rfl
@[simp] theorem State.updRing_rxqs (f : Ring → Ring) : (s.updRing f).rxqs = s.rxqs := rfl
@[simp] theorem State.updRing_pools (f : Ring → Ring) : (s.updRing f).pools = s.pools := rfl
@[simp] theorem State.updRing_vfs (f : Ring → Ring) : (s.updRing f).vfs = s.vfs := rfl
@[simp] theorem State.updRing_queues (f : Ring → Ring) : (s.updRing f).queues = s.queues := rfl
@[simp] theorem State.updRing_fences (f : Ring → Ring) : (s.updRing f).fences = s.fences := rfl
@[simp] theorem State.updRing_pcie (f : Ring → Ring) : (s.updRing f).pcie = s.pcie := rfl
@[simp] theorem State.updRing_chans (f : Ring → Ring) : (s.updRing f).chans = s.chans := rfl
@[simp] theorem State.updRing_dmaLast (f : Ring → Ring) : (s.updRing f).dmaLast = s.dmaLast := rfl
@[simp] theorem State.updRing_dmaWait (f : Ring → Ring) : (s.updRing f).dmaWait = s.dmaWait := rfl
@[simp] theorem State.updRing_walkCaches (f : Ring → Ring) : (s.updRing f).walkCaches = s.walkCaches := rfl
@[simp] theorem State.updRing_xlts (f : Ring → Ring) : (s.updRing f).xlts = s.xlts := rfl
@[simp] theorem State.updRing_pageReady (f : Ring → Ring) : (s.updRing f).pageReady = s.pageReady := rfl
@[simp] theorem State.updRing_sites (f : Ring → Ring) : (s.updRing f).sites = s.sites := rfl
@[simp] theorem State.updRing_net (f : Ring → Ring) : (s.updRing f).net = s.net := rfl
@[simp] theorem State.updRing_colls (f : Ring → Ring) : (s.updRing f).colls = s.colls := rfl
@[simp] theorem State.updRing_twins (f : Ring → Ring) : (s.updRing f).twins = s.twins := rfl

@[simp] theorem State.cell_updCell (i : Nat) (f : Cell → Cell) : (s.updCell i f).cell i = f (s.cell i) := Tab.get_upd_same _ _ _ _
theorem State.cell_updCell_ne (i : Nat) (f : Cell → Cell) {j : Nat} (h : j ≠ i) : (s.updCell i f).cell j = s.cell j := Tab.get_upd_ne _ _ _ h
@[simp] theorem State.core_updCore (i : Nat) (f : Core → Core) : (s.updCore i f).core i = f (s.core i) := Tab.get_upd_same _ _ _ _
theorem State.core_updCore_ne (i : Nat) (f : Core → Core) {j : Nat} (h : j ≠ i) : (s.updCore i f).core j = s.core j := Tab.get_upd_ne _ _ _ h
@[simp] theorem State.chan_updChan (i : Nat) (f : Chan → Chan) : (s.updChan i f).chan i = f (s.chan i) := Tab.get_upd_same _ _ _ _
theorem State.chan_updChan_ne (i : Nat) (f : Chan → Chan) {j : Nat} (h : j ≠ i) : (s.updChan i f).chan j = s.chan j := Tab.get_upd_ne _ _ _ h
@[simp] theorem State.part_updPart (i : Nat) (f : Part → Part) : (s.updPart i f).part i = f (s.part i) := Tab.get_upd_same _ _ _ _
theorem State.part_updPart_ne (i : Nat) (f : Part → Part) {j : Nat} (h : j ≠ i) : (s.updPart i f).part j = s.part j := Tab.get_upd_ne _ _ _ h
@[simp] theorem State.rasOf_updRas (i : Nat) (f : Ras → Ras) : (s.updRas i f).rasOf i = f (s.rasOf i) := Tab.get_upd_same _ _ _ _
theorem State.rasOf_updRas_ne (i : Nat) (f : Ras → Ras) {j : Nat} (h : j ≠ i) : (s.updRas i f).rasOf j = s.rasOf j := Tab.get_upd_ne _ _ _ h
@[simp] theorem State.vf_updVf (i : Nat) (f : Vf → Vf) : (s.updVf i f).vf i = f (s.vf i) := Tab.get_upd_same _ _ _ _
theorem State.vf_updVf_ne (i : Nat) (f : Vf → Vf) {j : Nat} (h : j ≠ i) : (s.updVf i f).vf j = s.vf j := Tab.get_upd_ne _ _ _ h
@[simp] theorem State.site_updSite (i : Nat) (f : Site → Site) : (s.updSite i f).site i = f (s.site i) := Tab.get_upd_same _ _ _ _
theorem State.site_updSite_ne (i : Nat) (f : Site → Site) {j : Nat} (h : j ≠ i) : (s.updSite i f).site j = s.site j := Tab.get_upd_ne _ _ _ h
@[simp] theorem State.stack_updStack (i : Nat) (f : Stack → Stack) : (s.updStack i f).stack i = f (s.stack i) := Tab.get_upd_same _ _ _ _
theorem State.stack_updStack_ne (i : Nat) (f : Stack → Stack) {j : Nat} (h : j ≠ i) : (s.updStack i f).stack j = s.stack j := Tab.get_upd_ne _ _ _ h
@[simp] theorem State.pch_updPch (i : Nat) (f : Pch → Pch) : (s.updPch i f).pch i = f (s.pch i) := Tab.get_upd_same _ _ _ _
theorem State.pch_updPch_ne (i : Nat) (f : Pch → Pch) {j : Nat} (h : j ≠ i) : (s.updPch i f).pch j = s.pch j := Tab.get_upd_ne _ _ _ h
@[simp] theorem State.keys_updKeys (i : Nat) (f : KeySlots → KeySlots) : (s.updKeys i f).keys i = f (s.keys i) := Tab.get_upd_same _ _ _ _
theorem State.keys_updKeys_ne (i : Nat) (f : KeySlots → KeySlots) {j : Nat} (h : j ≠ i) : (s.updKeys i f).keys j = s.keys j := Tab.get_upd_ne _ _ _ h
@[simp] theorem State.sch_updSch (i : Nat) (f : Sch → Sch) : (s.updSch i f).sch i = f (s.sch i) := Tab.get_upd_same _ _ _ _
theorem State.sch_updSch_ne (i : Nat) (f : Sch → Sch) {j : Nat} (h : j ≠ i) : (s.updSch i f).sch j = s.sch j := Tab.get_upd_ne _ _ _ h
@[simp] theorem State.xlt_updXlt (i : Nat) (f : Xlt → Xlt) : (s.updXlt i f).xlt i = f (s.xlt i) := Tab.get_upd_same _ _ _ _
theorem State.xlt_updXlt_ne (i : Nat) (f : Xlt → Xlt) {j : Nat} (h : j ≠ i) : (s.updXlt i f).xlt j = s.xlt j := Tab.get_upd_ne _ _ _ h
@[simp] theorem State.code_updCode (i : Nat) (f : Code → Code) : (s.updCode i f).code i = f (s.code i) := Tab.get_upd_same _ _ _ _
theorem State.code_updCode_ne (i : Nat) (f : Code → Code) {j : Nat} (h : j ≠ i) : (s.updCode i f).code j = s.code j := Tab.get_upd_ne _ _ _ h
@[simp] theorem State.twin_updTwin (i : Nat) (f : Twin → Twin) : (s.updTwin i f).twin i = f (s.twin i) := Tab.get_upd_same _ _ _ _
theorem State.twin_updTwin_ne (i : Nat) (f : Twin → Twin) {j : Nat} (h : j ≠ i) : (s.updTwin i f).twin j = s.twin j := Tab.get_upd_ne _ _ _ h
@[simp] theorem State.msgSt_updMsg (i : Nat) (f : MsgState → MsgState) : (s.updMsg i f).msgSt i = f (s.msgSt i) := Tab.get_upd_same _ _ _ _
theorem State.msgSt_updMsg_ne (i : Nat) (f : MsgState → MsgState) {j : Nat} (h : j ≠ i) : (s.updMsg i f).msgSt j = s.msgSt j := Tab.get_upd_ne _ _ _ h
@[simp] theorem State.ringPort_updRingPort (i : Nat) (f : RingPort → RingPort) : (s.updRingPort i f).ringPort i = f (s.ringPort i) := Tab.get_upd_same _ _ _ _
theorem State.ringPort_updRingPort_ne (i : Nat) (f : RingPort → RingPort) {j : Nat} (h : j ≠ i) : (s.updRingPort i f).ringPort j = s.ringPort j := Tab.get_upd_ne _ _ _ h
@[simp] theorem State.coll_updColl (i : Nat) (f : CollPart → CollPart) : (s.updColl i f).coll i = f (s.coll i) := Tab.get_upd_same _ _ _ _
theorem State.coll_updColl_ne (i : Nat) (f : CollPart → CollPart) {j : Nat} (h : j ≠ i) : (s.updColl i f).coll j = s.coll j := Tab.get_upd_ne _ _ _ h
@[simp] theorem State.port_updPort (i : Nat) (f : Port → Port) : (s.updPort i f).port i = f (s.port i) := Tab.get_upd_same _ _ _ _
theorem State.port_updPort_ne (i : Nat) (f : Port → Port) {j : Nat} (h : j ≠ i) : (s.updPort i f).port j = s.port j := Tab.get_upd_ne _ _ _ h
@[simp] theorem State.rxq_updRxq (i : Nat) (f : RxQ → RxQ) : (s.updRxq i f).rxq i = f (s.rxq i) := Tab.get_upd_same _ _ _ _
theorem State.rxq_updRxq_ne (i : Nat) (f : RxQ → RxQ) {j : Nat} (h : j ≠ i) : (s.updRxq i f).rxq j = s.rxq j := Tab.get_upd_ne _ _ _ h
@[simp] theorem State.txq_updTxq (i : Nat) (f : TxQ → TxQ) : (s.updTxq i f).txq i = f (s.txq i) := Tab.get_upd_same _ _ _ _
theorem State.txq_updTxq_ne (i : Nat) (f : TxQ → TxQ) {j : Nat} (h : j ≠ i) : (s.updTxq i f).txq j = s.txq j := Tab.get_upd_ne _ _ _ h

@[simp] theorem State.ctx_updCtx (n c : Nat) (f : Ctx → Ctx) : (s.updCtx n c f).ctx n c = f (s.ctx n c) := Tab.get_upd_same _ _ _ _
@[simp] theorem State.queue_updQueue (n q : Nat) (f : Queue → Queue) : (s.updQueue n q f).queue n q = f (s.queue n q) := Tab.get_upd_same _ _ _ _
@[simp] theorem State.res_updRes (k n : Nat) (f : Res → Res) : (s.updRes k n f).res k n = f (s.res k n) := Tab.get_upd_same _ _ _ _
@[simp] theorem State.pool_updPool (n p : Nat) (f : Pool → Pool) : (s.updPool n p f).pool n p = f (s.pool n p) := Tab.get_upd_same _ _ _ _
@[simp] theorem State.reg_setReg (a v : Nat) : (s.setReg a v).reg a = v := Tab.get_set_same _ _ _ _
theorem State.reg_setReg_ne (a v : Nat) {b : Nat} (h : b ≠ a) : (s.setReg a v).reg b = s.reg b := Tab.get_set_ne _ _ _ h

/-- A read through an accessor sees only its own table. -/
theorem State.cell_congr {s t : State} (h : t.cells = s.cells) (i : Nat) : t.cell i = s.cell i := by unfold State.cell; rw [h]
theorem State.core_congr {s t : State} (h : t.cores = s.cores) (i : Nat) : t.core i = s.core i := by unfold State.core; rw [h]
theorem State.chan_congr {s t : State} (h : t.chans = s.chans) (i : Nat) : t.chan i = s.chan i := by unfold State.chan; rw [h]
theorem State.ctx_congr {s t : State} (h : t.ctxs = s.ctxs) (n c : Nat) : t.ctx n c = s.ctx n c := by unfold State.ctx; rw [h]
theorem State.reg_congr {s t : State} (h : t.regs = s.regs) (a : Nat) : t.reg a = s.reg a := by unfold State.reg; rw [h]
theorem State.msgSt_congr {s t : State} (h : t.msgs = s.msgs) (k : Nat) : t.msgSt k = s.msgSt k := by unfold State.msgSt; rw [h]
theorem State.queue_congr {s t : State} (h : t.queues = s.queues) (n q : Nat) : t.queue n q = s.queue n q := by unfold State.queue; rw [h]
theorem State.part_congr {s t : State} (h : t.pat = s.pat) (n : Nat) : t.part n = s.part n := by unfold State.part; rw [h]
theorem State.slice_congr {s t : State} (h : t.pat = s.pat) (n : Nat) : t.slice n = s.slice n := by unfold State.slice State.part; rw [h]
theorem State.site_congr {s t : State} (h : t.sites = s.sites) (k : Nat) : t.site k = s.site k := by unfold State.site; rw [h]
theorem State.vf_congr {s t : State} (h : t.vfs = s.vfs) (n : Nat) : t.vf n = s.vf n := by unfold State.vf; rw [h]
theorem State.sch_congr {s t : State} (h : t.schs = s.schs) (n : Nat) : t.sch n = s.sch n := by unfold State.sch; rw [h]
theorem State.twin_congr {s t : State} (h : t.twins = s.twins) (n : Nat) : t.twin n = s.twin n := by unfold State.twin; rw [h]
theorem State.code_congr {s t : State} (h : t.codes = s.codes) (n : Nat) : t.code n = s.code n := by unfold State.code; rw [h]
theorem State.xlt_congr {s t : State} (h : t.xlts = s.xlts) (n : Nat) : t.xlt n = s.xlt n := by unfold State.xlt; rw [h]
theorem State.res_congr {s t : State} (h : t.ress = s.ress) (k n : Nat) : t.res k n = s.res k n := by unfold State.res; rw [h]

/-- A command that leaves nothing to judge ends in the state it made. -/
theorem closing_of_quiet {s : State} (h : s.dues = []) : closing s = .next s := by simp [closing, h]
/-- A closing command answers a next state with nothing left to judge. -/
theorem closing_next (s : State) : ∃ t, closing s = .next t ∧ t.dues = [] := by
  unfold closing
  split
  · rename_i h; exact ⟨s, rfl, by simpa using h⟩
  · exact ⟨_, rfl, rfl⟩

end Sys2Proof.Machine
end

