-- ==== Sys2Proof/Tests/Slice0.lean ====
section
/-!
SUPPORT. Tests: an ill-formed command for each check of WellFormed, a state and operands that meet the hypotheses of each statement,
clause by clause, and single steps against values worked out by hand from the spec.
-/

namespace Sys2Proof.Tests

open Sys2Proof.Machine

set_option maxRecDepth 20000

/-- What the tests' partition owns: site 0, cluster 0, ways and a pseudo-channel, DMA channels, an Ethernet queue group. -/
def own : Slice :=
  { defined := true, generation := 1, cells := 0xFFFF, clusters := 1, ways := 0x300000003, pchs := 1, order := [0], dma := 2 ^ 41 - 1, ethq := 1
    npLimit := 50, mirror := true, vf := true }
/-- The pattern that defines partition 0 with it. -/
def pattern0 : Pattern := { epoch := 1, slices := [(0, own)] }
/-- A running module whose partition 0 is READY. -/
def on : State :=
  { pwr := { feedA := .good, powered := true, pithead := true, stage := 3 }
    hbm := { stackTab := [(0, { state := 2 })], keys := [(0, { gen0 := some 0 })] }
    pcie := { up := true }, sites := [(0, { state := 1, kind := 1 })]
    pat := { running := some pattern0, phase := 4, parts := [(0, { state := .ready, slice := own })] } }
/-- Partition 0 at a step of a build. -/
def building (b : BuildStep) : State := { on with pat := { parts := [(0, { state := .building, step := b, slice := own })] } }
/-- Commit of partition 0 or of the module is pending with a snapshot. -/
def committing (k : Nat) (snap : Tab Nat) : State := { on with pat := { on.pat with pendCommits := [(k, some { block := 14, token := 7, snap := snap })] } }

/-- Bytes placed in memory. -/
def placed (a : Nat) (b : List Byte) : List Host.Cell := (List.range b.length).filterMap (fun k => if b.getD k 0 = 0 then none else some (a + k, b.getD k 0))

theorem witness_StepRunsFrontCommand :
    ({ on with pending := [.pithead] } : State).pending = [.pithead] ∧ on.pending = [] ∧ on.sec.fuseJob = none
      ∧ ({ on with sec := { on.sec with fuseJob := some { kind := 8, target := 0 } } } : State).sec.fuseJob = some { kind := 8, target := 0 } :=
  ⟨rfl, rfl, rfl, rfl⟩

theorem witness_EveryCommandAnswersNext : on.quiet := rfl

theorem witness_BuildStepsRunInOrder :
    (∀ b, (building b).quiet ∧ ((building b).part 0).state = .building ∧ ((building b).part 0).step = b ∧ (building b).noCellWaits
      ∧ (building b).chansDrained 0 = true ∧ (∀ i, ((building b).cell i).gang = none)
      ∧ ∀ i, ((building b).slice 0).pchs.testBit i = true → (building b).lineOffline (i * pchLines) = false)
      ∧ ∀ c, ((building .drain).ctx 0 c).aborting = false :=
  ⟨fun b => ⟨rfl, rfl, rfl, by intro e he; simp [building, on] at he, rfl, fun _ => rfl, by
    intro i hi; have h0 : i = 0 := by
      by_contra h; have : (1 : Nat).testBit i = false := by simpa using Nat.testBit_one_eq_true_iff_self_eq_zero.not.mpr h
      exact absurd hi (by show ¬ (1 : Nat).testBit i = true; simp [this])
    subst h0; rfl⟩, fun _ => rfl⟩

theorem witness_CommitIsAllOrNothing :
    (on.hubCarries (.vf 0) ∧ bits (7 : BitVec 32).toNat 3 0 ≠ 15 ∧ on.pat.pendCommits.get none 0 = none ∧ on.ready 0 = true)
      ∧ (on.hubCarries .pf0 ∧ bits (0x100002 : BitVec 32).toNat 20 16 = 16 ∧ bits (0x100002 : BitVec 32).toNat 3 0 ≠ 15 ∧ on.logRoom = true)
      ∧ (let s := committing 0 [(regAddr 0 14 0x100000, 101)]
        s.quiet ∧ (s.pat.pendCommits.get none 0).isSome = true ∧ s.firstFail [(regAddr 0 14 0x100000, 101)] = some (regAddr 0 14 0x100000))
      ∧ (let s := committing 16 [(regAddr 0 14 0x100000, 251)]
        s.quiet ∧ (s.pat.pendCommits.get none 16).isSome = true ∧ Tab.wf 0 [(regAddr 0 14 0x100000, 251)] = true
          ∧ s.firstFail [(regAddr 0 14 0x100000, 251)] = none) := by decide

/-- A module with an apply in PHASE 3. -/
def storing : State := { on with pat := { on.pat with phase := 3 } }

theorem witness_PatternApplyAndStore :
    (let s : State := { pwr := { powered := true, pithead := true, stage := 3 } };
      s.hubCarries .mctp ∧ isOper .mctp = true ∧ s.pat.phase = 0 ∧ s.logRoom = true ∧ s.sec.fwState ≠ 4 ∧ bits (0x100000 : BitVec 32).toNat 20 0 ≤ 0x100000
        ∧ s.pat.running = none ∧ s.pat.cand = none ∧ (∀ n, s.part n = {}) ∧ s.noCellWaits ∧ s.ctxs = [] ∧ s.queues = [] ∧ s.colls = [] ∧ s.schs = []
        ∧ s.pat.pendCommits = [])
      ∧ storing.quiet ∧ storing.pat.running = some pattern0 ∧ storing.pat.phase = 3 := by
  refine ⟨⟨by decide, by decide, by decide, by decide, by decide, by decide, rfl, rfl, fun _ => rfl, by decide, rfl, rfl, rfl, rfl, rfl⟩, rfl, rfl, rfl⟩

/-- Cell i of site 0 runs an instruction store of 8 instructions. -/
def running (i : Nat) (c : Cell) : State := { on with cells := [(i, { c with state := 1, gang := some 0, codeLen := 8 })] }
/-- A transfer with an access in flight at scratchpad address 0x1000. -/
def flying (write : Bool) : Transfer := { id := 0, write := write, pc := 0, op := 0x30, accesses := [{ off := 0, ppa := 0x2000, spad := 0x1000, len := 64 }] }
/-- A task of partition 0 on site 0. -/
def task0 : Task :=
  { ctx := 0, mask := 3, site := 0, event := false, evCore := 0, evBit := 0, image := 0, span := 0, taskId := 1, endAddr := 0, args := [], src := .core 0 }

theorem witness_ScalarInstructionsWriteOneRegister : (running 0 {}).runs 0 ∧ (running 15 { pc := 6 }).runs 15 := by decide

theorem witness_ControlFlowAndTaskEnd :
    (running 0 {}).runs 0
      ∧ (let s := running 0 {}
        s.quiet ∧ s.mayIssue 0 = true ∧ 0 ≤ ((s.cell 0).pc : Int) + (7 : Word32).toInt ∧ ((s.cell 0).pc : Int) + (7 : Word32).toInt < (s.cell 0).codeLen)
      ∧ (let s := running 15 { pc := 6 }
        s.runs 15 ∧ (5 : BitVec 3).toNat < 6 ∧ 0 ≤ ((s.cell 15).pc : Int) + (-6 : Word32).toInt ∧ ((s.cell 15).pc : Int) + (-6 : Word32).toInt < (s.cell 15).codeLen)
      ∧ (let s := running 0 { sregs := [(1, 1)], pc := 6 }
        s.quiet ∧ s.mayIssue 0 = true ∧ ((s.cell 0).reg 1).toNat ≠ 0 ∧ (1 : BitVec 16).toNat ≠ 0 ∧ (s.cell 0).loops.length < 4 ∧ (s.cell 0).pc + 1 < (s.cell 0).codeLen)
      ∧ (let s := running 0 {}
        s.quiet ∧ s.mayIssue 0 = true ∧ ((s.cell 0).reg 0).toNat = 0 ∧ (nextPc (s.cell 0).loops ((s.cell 0).pc + 1 + (6 : BitVec 16).toNat)).1 < (s.cell 0).codeLen)
      ∧ (let s := running 0 { movers := [(3, [flying true])] }
        s.unprotected 0 ∧ s.mayIssue 0 = true ∧ (s.cell 0).moversIdle = false ∧ s.ownerCell 0 = some 0 ∧ (s.ctx 0 (s.cell 0).ctx).fault = 0
          ∧ (tileInstr 0 (2 ^ 64 - 1)).isNone = true)
      ∧ (let s : State := { running 0 {} with cells := [(0, { state := 1, gang := some 0, codeLen := 8 }), (1, { state := 1, gang := some 0, codeLen := 8 })]
                                              schs := [(0, { gangs := [{ id := 0, task := task0 }] })] };
        s.unprotected 0 ∧ s.mayIssue 0 = true ∧ (s.cell 0).moversIdle = true ∧ s.ownerCell 0 = some 0 ∧ (s.ctx 0 (s.cell 0).ctx).aborting = false
          ∧ s.gangOf 0 ((s.cell 0).gang.getD 0) = some { id := 0, task := task0 } ∧ ({ id := 0, task := task0 } : Gang).dross = false ∧ (1 : Nat) ≠ 0 ∧ (s.cell 1).gang = (s.cell 0).gang ∧ s.ownerCell 1 = some 0) := by
  decide

theorem witness_TileInstructionsAreElementwise :
    (let s := running 0 {}
    s.runs 0 ∧ (s.cell 0).isInt 0 = (s.cell 0).isInt 3 ∧ (s.cell 0).isInt 0 = false)
      ∧ (let s := running 0 { sregs := [(1, 0x5FFE00)], tileInt := [(1, true)], movers := [(0, [flying false])] }
        s.runsFree 0 { reads := [(((s.cell 0).reg 1).toNat, 512)] } ∧ ((s.cell 0).reg 1).toNat % 64 = 0 ∧ ((s.cell 0).reg 1).toNat + 512 ≤ scratchBytes
          ∧ (s.cell 0).isInt 0 = false ∧ (s.cell 0).isInt 1 = true)
      ∧ (let s := running 0 { sregs := [(1, 0x5FFE80 - 0x40)] }
        s.runsFree 0 { reads := [(((s.cell 0).reg 1).toNat, 384)] } ∧ ((s.cell 0).reg 1).toNat % 64 = 0 ∧ ((s.cell 0).reg 1).toNat + 384 ≤ scratchBytes) := by decide

theorem witness_TileLoadStoreAndReduce :
    (∀ f : Fin 4, let s := running 0 { sregs := [(1, 0x5F0000)], tileInt := [(1, true)] }
      let a := ((s.cell 0).reg 1).toNat
      s.runsFree 0 { reads := [(a, 16384 * ldaBytes f)] } ∧ s.runsFree 0 { writes := [(a, 16384 * ldaBytes f)] } ∧ a % 64 = 0 ∧ a + 16384 * ldaBytes f ≤ scratchBytes
        ∧ (s.cell 0).isInt (if f = 1 then 1 else 0) = (f == 1))
      ∧ (let s := running 0 { sregs := [(1, 0x5FFE00)] }
        s.runsFree 0 { writes := [(((s.cell 0).reg 1).toNat, 512)] } ∧ ((s.cell 0).reg 1).toNat + 512 ≤ scratchBytes ∧ (s.cell 0).isInt 0 = false
          ∧ (2 : BitVec 2).toNat ≠ 3) := by decide

/-- A floating and an integer MMA of one panel of 32 by 32. -/
def mmaF (int : Bool) : MmaF :=
  { dt := 0, z := !int, fa := if int then 8 else 0, fb := if int then 9 else 4, sa := 0, sb := if int then 0 else 1, esc := false, ms := 0, ns := 0, kb := 0
    ra := 1, rb := 2, rs := 0, rt := 3, rx := 0 }

theorem witness_MmaAndQuantizeCompute :
    (∀ int : Bool, let s := running 0 { sregs := [(1, 0x1000), (2, 0x2000), (3, 0x3000)], tileInt := [(0, true)] }
      let c := s.cell 0; let f := mmaF int; let a := (c.reg f.ra).toNat; let b := (c.reg f.rb).toNat; let rt := (c.reg f.rt).toNat
      s.runsFree 0 (mmaFoot f c) ∧ fmtDefined f.fa.toNat = true ∧ fmtDefined f.fb.toNat = true ∧ f.esc = false
        ∧ (if intPair f.fa.toNat f.fb.toNat then f.sa = 0 ∧ f.sb = 0 else scaleAllowed f.fa.toNat f.sa.toNat = true ∧ scaleAllowed f.fb.toNat f.sb.toNat = true)
        ∧ a % 64 = 0 ∧ a + operandLen f.fa.toNat 1 32 ≤ scratchBytes ∧ b % 64 = 0 ∧ b + operandLen f.fb.toNat 1 32 ≤ scratchBytes
        ∧ rt % 64 = 0 ∧ rt + scaleLen f.sb.toNat 1 32 ≤ scratchBytes ∧ (f.z = true ∨ c.isInt f.dt = intPair f.fa.toNat f.fb.toNat)
        ∧ c.firstBad f.fa.toNat f.fb.toNat a b 32 32 1 none = none)
      ∧ (let s := running 0 { sregs := [(1, 0x1000), (2, 0x10000), (3, 0x11000)] }
        let f : QntF := { ts := 0, fmt := 4, sm := 1, axis := false, rnd := 1, ra := 1, rb := 2 }
        let c := s.cell 0; let q := qntArgs c f none; let g := (c.reg 3).toNat
        s.runsFree 0 (qntFoot f none c) ∧ s.runsFree 0 (qntFoot f (some 3) c) ∧ f.rnd.toNat < 2 ∧ isTarget q.f = true ∧ scaleAllowed q.f q.sm = true ∧ q.ra % 64 = 0
          ∧ q.ra + 512 * blockBytes q.f ≤ scratchBytes ∧ q.rb % 64 = 0 ∧ q.rb + scaleLen q.sm 4 128 ≤ scratchBytes ∧ g % 64 = 0
          ∧ g + scaleLen q.sm 4 128 ≤ scratchBytes) := by decide

/-- A tally for mailbox 2 of cell address 5. -/
def tally52 : Tally := { dest := 5, mailbox := 2, urgent := true, count := 1 }
/-- A message held in mailbox 2. -/
def msg0 : Msg := { header := 1, payload := zeros 64 }

theorem witness_CellSendsAndReceives :
    (let s : State := { running 0 { sregs := [(1, 0x1000), (2, 5)] } with msgs := [(0, { store := [tally52], boxes := [(2, { held := [msg0] })] })] };
    let c := s.cell 0
    s.runsFree 0 { reads := [((c.reg 1).toNat, 127)] } ∧ (c.reg 1).toNat + 127 ≤ scratchBytes ∧ s.runsFree 0 { reads := [((c.reg 1).toNat, 0)] } ∧ (s.msgSt (msgKey 0 c.ctx)).entry (c.addr 2) 2 = some tally52
      ∧ tally52.dead = false ∧ tally52.void = false ∧ s.runsFree 0 { writes := [((c.reg 1).toNat, 80)] } ∧ (c.reg 1).toNat + 80 ≤ scratchBytes
      ∧ ((s.msgSt (msgKey 0 c.ctx)).box 2).held = [msg0] ∧ ((s.msgSt (msgKey 0 c.ctx)).box 0).held = []) := by decide

theorem witness_CellTallyInstructions :
    (let s : State := { running 15 { sregs := [(2, 5)], ctx := 7 } with msgs := [(msgKey 15 7, { store := [tally52], boxes := [(2, { out := 31 })] })] };
    let c := s.cell 15; let m := s.msgSt (msgKey 15 c.ctx)
    s.runs 15 ∧ (1 : Fin 64).val ≠ 0 ∧ (m.box 2).used + 1 ≤ 32 ∧ m.entry (c.addr 2) 2 = some tally52 ∧ min (63 : Fin 64).val tally52.count ≠ 0) := by decide

theorem witness_MoverQueuesTransfers :
    (∀ w two : Bool, let s : State := { running 0 { sregs := [(1, 0x1000), (3, 64), (4, 2), (5, 128)] } with
                                        regs := [(winAddr 0 15 8, 0x1000), (winAddr 0 15 16, 3)] };
    let f : MovF := { win := 15, ra := 1, rb := 0, rc := 3, qid := 3 }
    let c := s.cell 0
    let a := moveArgs c w ((if w then 0x31 else 0x30) + (if two then 2 else 0)) f (if two then (c.reg 4).toNat else 1) (if two then (c.reg 5).toNat else 0)
    s.runsFree 0 (moveFoot a c) ∧ a.fault = none ∧ (c.movers.get [] f.qid).length < 8
      ∧ ∀ x ∈ moveAccesses a.off a.spad a.len a.rows a.step, s.winCheck 0 f.win w x.1 x.2.2 = none) := by decide

/-- Every cell of site 0 runs; all but cell 0 wait at barrier 1. -/
def barred : State :=
  { on with cells := (List.range 16).map (fun i => (i, { state := if i = 0 then 1 else 2, gang := some 0, codeLen := 8, bar := if i = 0 then none else some (65535, 1) })) }

theorem witness_MoverReadsNoAlloc : (({ on with regs := [(slcPartAddr 0 0 0, 2)] } : State).moverReads 0 0).hint = .noAlloc := by decide

theorem witness_FenceBegins : (running 0 {}).runs 0 ∧ ((running 0 {}).cell 0).fence = none := by decide

theorem witness_WaitsReturnsAndCheapPoints :
    (let s := running 0 { movers := [(1, [flying false])] }
    s.quiet ∧ s.ownerCell 0 = some 0 ∧ (s.cell 0).outstanding[0]? = some (1, flying false, { off := 0, ppa := 0x2000, spad := 0x1000, len := 64 })
      ∧ (flying false).write = false ∧ (s.ppaPeek 0 0x2000 64).2.2 = St.ok ∧ (s.cell 0).halt = none ∧ s.noCellWaits
      ∧ s.lets 0 0x2000 64 (s.moverReads 0 0))
      ∧ (let s : State := { on with cells := [(0, { state := 2, gang := some 0, codeLen := 8, waiting := some (.wait 0 0 2 1), movers := [(1, [flying false])] })] };
        s.unprotected 0 ∧ s.ownerCell 0 = some 0 ∧ (s.cell 0).waiting = some (.wait 0 0 2 1) ∧ waitTarget 0 (s.cell 0) (some (.wait 0 0 2 1)) = some (0, 2)
          ∧ (s.cell 0).state = 2 ∧ (s.cell 0).moversIdle = false ∧ (s.ctx 0 (s.cell 0).ctx).msgStatus = St.ok)
      ∧ (let s := running 0 {}
        s.quiet ∧ s.mayIssue 0 = true ∧ (3 : BitVec 16).toNat.testBit 1 = true ∧ s.atBar (s.cellPart 0) (s.cell 0).ctx 3 15 1 = false)
      ∧ (barred.quiet ∧ barred.mayIssue 0 = true ∧ (∀ p, p < 16 → (65535 : BitVec 16).toNat.testBit p = true → p ≠ 0 →
          barred.atBar (barred.cellPart 0) (barred.cell 0).ctx 65535 1 p = true) ∧ ∀ p, p < 16 → barred.pcAfter p < (barred.cell p).codeLen)
      ∧ ((running 0 {}).runs 0 ∧ ((running 0 {}).cell 0).asked = false ∧ ((running 0 {}).guardOf 0).pending = false)
      ∧ (let s := running 0 { asked := true }
        s.runs 0 ∧ s.unprotected 0 ∧ s.ownerCell 0 = some 0 ∧ (s.cell 0).asked = true ∧ (s.guardOf 0).pending = false) := by decide

/-- Core 0 runs; what it and cell 0 may send and receive. -/
def cored (c : Core) : State :=
  { on with cores := [(0, { c with inReset := false })]
            msgs := [(0x100 * 4096, { store := [tally52], boxes := [(2, { held := [msg0] })] })]
            mem := [(0x1002, 1), (0x1010, 1)] }

theorem witness_IngressForwardsOwnTraffic :
    (let h : BitVec 128 := BitVec.ofNat 128 (1 * 2 ^ 118 + 2 * 2 ^ 104 + 64 * 2 ^ 97)
    on.quiet ∧ on.noCellWaits ∧ bits h.toNat 117 108 < 0x200 ∧ on.holdsSource (.site 0) 0 = true ∧ on.holdsSource (.mesh 0) 0 = true ∧ on.heldUnit (unitOf 0) = false
      ∧ on.addrOwner 0 = some 0 ∧ on.ready 0 = true ∧ bits h.toNat 103 97 ≤ 64 ∧ bits h.toNat 78 64 = 0 ∧ on.addrOwner (bits h.toNat 127 118) = some 0
      ∧ on.onDead (bits h.toNat 127 118) = false)
      ∧ (on.holdsSource (.cluster 0) 0x107 = true ∧ on.addrOwner 0x107 = some 0 ∧ on.heldUnit (unitOf 0x107) = false ∧ on.addrOwner 15 = some 0 ∧ on.onDead 15 = false) := by
  decide

/-- A flight of each kind to cell 3 of context 7, resident on site 0. -/
def flown : State :=
  { on with flights := [.msg 0 0 3 2 { header := 7 * 2 ^ 79, payload := zeros 64 }, .grant 0 0 3 2 1 true 7, .ret 0 0 3 2 1 7]
            ress := [(0, { resident := some 7 })] }

theorem witness_ArrivalsReachTheirMailbox :
    (let m : Msg := { header := 7 * 2 ^ 79, payload := zeros 64 }
    flown.quiet ∧ flown.takeFlight 0 0 = some ({ flown with flights := flown.flights.eraseIdx 0 }, .msg 0 0 3 2 m) ∧ bits m.header 90 79 = 7
      ∧ m.header.testBit 96 = false ∧ flown.onDead 3 = false ∧ flown.closedTo 0 3 7 = false ∧ (flown.res (3 / 16) 0).resident = some 7 ∧ (flown.cell 3).waiting = none
      ∧ ((flown.msgSt (addrKey 3 7)).box 2).held.length < 32)
      ∧ flown.takeFlight 1 1 = some ({ flown with flights := flown.flights.eraseIdx 1 }, .grant 0 0 3 2 1 true 7)
      ∧ flown.takeFlight 2 2 = some ({ flown with flights := flown.flights.eraseIdx 2 }, .ret 0 0 3 2 1 7) :=
  ⟨by refine ⟨rfl, rfl, ?_⟩; decide, rfl, rfl⟩

theorem witness_IngressNotes :
    (let h : BitVec 128 := BitVec.ofNat 128 (65 * 2 ^ 97)
    (64 < bits h.toNat 103 97 ∨ bits h.toNat 78 64 ≠ 0) ∧ on.effClass 0x102 0 = .note) := by decide

theorem witness_CoreSendsAndReceives :
    (let s := cored {}
    let d : Word64 := BitVec.ofNat 64 (64 * 2 ^ 14 + 2 * 2 ^ 10 + 5)
    s.unprotected (s.corePart 0) ∧ s.coreIssues 0 ∧ bits d.toNat 20 14 ≤ 64 ∧ bits d.toNat 31 22 = 0 ∧ (0x1000 : Word64).toNat % 64 = 0
      ∧ (s.ppaPeek (s.corePart 0) 0x1000 64).2 = (false, St.ok) ∧ (s.msgSt (addrKey (coreAddr 0) 0)).entry 5 2 = some tally52
      ∧ tally52.dead = false ∧ tally52.void = false ∧ (s.msgSt (addrKey (coreAddr 0) 0)).entry 6 2 = none ∧ s.onDead 6 = false
      ∧ s.inPpa (s.corePart 0) 0x2000 80 = true ∧ (s.twin (s.corePart 0)).state ≠ 4 ∧ ((s.msgSt (addrKey (coreAddr 0) 0)).box 2).held = [msg0]
      ∧ ((s.msgSt (addrKey (coreAddr 0) 0)).box 0).held = []) := by decide

/-- With translation off an address is its own physical address. -/
theorem witness_CorePlace (c : Core) (h : c.satp = 0) (a : VaKind) (va len : Nat) : (cored c).corePlace 0 a va len va := by
  have h0 : ((cored c).core 0).satp = 0 := h
  simp [State.corePlace, State.corePieces, Core.levels, h0, bits]

theorem witness_CoreSendsAndReceives_store : ((cored {}).ppaStore 0 0x2000 msg0.bytes false (corePort 0)).2 = St.ok := by decide

theorem witness_CoreTallyInstructions :
    (let s := cored {}
    let r2 : Word64 := BitVec.ofNat 64 (31 * 16 + 2)
    s.quiet ∧ s.coreIssues 0 ∧ bits r2.toNat 9 4 ≠ 0 ∧ ((s.msgSt (addrKey (coreAddr 0) 0)).box 2).used + 31 ≤ 32
      ∧ (s.msgSt (addrKey (coreAddr 0) 0)).entry (bits (5 : Word64).toNat 9 0) 2 = some tally52 ∧ min (bits r2.toNat 9 4) tally52.count ≠ 0)
      ∧ ((cored { waiting := some (.fjWait 0 1 2) }).core 0).waiting = some (.fjWait 0 1 2) := by decide

theorem witness_CoreEventsCsrsAndMemory :
    (let s := cored { evt := 6 }
    s.unprotected (s.corePart 0) ∧ s.coreIssues 0 ∧ (s.core 0).priv ≠ 0 ∧ (8 : Word64) ≠ 0 ∧ (s.core 0).evt &&& (8 : Word64).toNat = 0
      ∧ (s.core 0).evt &&& (2 : Word64).toNat ≠ 0
      ∧ (2 : Word64).toNat &&& (s.core 0).evt = (2 : Word64).toNat ∧ (s.core 0).xfjmIllegal 0x0200000B = true ∧ (s.core 0).inReset = false
      ∧ (s.twin (s.corePart 0)).state ≠ 4 ∧ (s.ppaPeek 0 0x1000 64).2 = (false, St.ok)
      ∧ (let t := taskOf (s.core 0).ctx (s.ppaPeek 0 0x1000 64).1 (.core 0)
        s.taskDenied 0 (s.ppaPeek 0 0x1000 64).1 t = false
          ∧ ((s.sch 0).waiting.filter (fun x => halfOfSite x.site == halfOfSite t.site)).length < 1024)
      ∧ s.ready 0 = true ∧ s.ctxLost 0 (s.core 0).ctx = false ∧ (s.ctx 0 (s.core 0).ctx).state = s.ctxStateNow 0 (s.core 0).ctx
      ∧ s.heldUnit (some (.cluster 0)) = false ∧ s.inPpa 0 0x1000 64 = true
      ∧ s.coreTarget 0 0x30000000000 8 = .none ∧ s.coreTarget 0 (s.ppaSize 0) 1 = .none)
      ∧ (let s := cored { priv := 0 }; s.quiet ∧ s.coreRuns 0 = true ∧ (s.core 0).priv = 0 ∧ (s.core 0).uen = false) := by decide

theorem witness_CoreAccessAtOnce :
    (cored {}).lets 0 0x1000 64 (corePort 0) ∧ (cored {}).lets 0 0x1000 1 { corePort 0 with store := true }
      ∧ ((cored {}).ppaStore 0 0x1000 [1] false (corePort 0)).2 = St.ok := by decide
/-- Core 0 runs beside pool 0 of partition 0 in a given state. -/
def pooled (q : Pool) : State := { on with cores := [(0, { inReset := false })], pools := [(0, q)] }
/-- Its open pool with slot 1 active. -/
def grown : State := pooled { base := 0x100000, total := 3, free := 2, isOpen := true, reserve := 1, slots := [(1, { state := 2, need := 2, pages := [1], list := 0x4000 })] }

theorem witness_PoolOperations :
    (let s := pooled { total := 3, free := 3, slots := [(1, {})] }
    let rs2 : Word64 := BitVec.ofNat 64 (2 * 2 ^ 40 + 0x4000)
    s.coreIssues 0 ∧ poolNames 0x10010 0 true ∧ bits rs2.toNat 63 52 = 0 ∧ bits rs2.toNat 1 0 = 0 ∧ (s.pool 0 0).total ≠ 0
      ∧ ((s.pool 0 0).slot 1).state = 0 ∧ bits rs2.toNat 51 40 ≠ 0 ∧ bits rs2.toNat 39 0 + 16384 ≤ s.ppaSize 0 ∧ (s.pool 0 0).queue.length < 1024)
      ∧ (grown.unprotected 0 ∧ grown.coreIssues 0 ∧ poolNames 0x10000 0 false ∧ poolNames 0x10100 1 false ∧ (grown.pool 0 0).isOpen = true
        ∧ ((grown.pool 0 0).slot 1).state = 2 ∧ (grown.pool 0 0).total ≠ 0 ∧ ((grown.pool 0 0).slot 1).grew = false ∧ ((grown.pool 0 0).slot 1).pages.length < 4095 ∧ (grown.pool 0 0).freePages ≠ [])
      ∧ (grown.corePart 0 = 0 ∧ poolNames 0x10300 3 false ∧ poolNames 0x10400 4 false ∧ 4 < bits (0x500 : Word64).toNat 10 8 ∧ Tab.wf {} (grown.pool 0 0).slots = true)
      ∧ (let s := pooled { total := 3, free := 2, deferPages := [2] }
        s.coreIssues 0 ∧ poolNames 0x10200 2 false ∧ (s.pool 0 0).isOpen = false ∧ (s.pool 0 0).queue = [] ∧ bits (0xFFFF : Word64).toNat 63 16 = 0) :=
  ⟨by decide, by decide, by decide, by decide⟩

theorem witness_PoolOperations_list :
    ∀ x ∈ (grown.pool 0 0).freePages, (grown.tick.hubWrite 0 (((grown.pool 0 0).slot 1).list + 4 * ((grown.pool 0 0).slot 1).pages.length) (leBytes 4 x)).2 = St.ok := by
  decide

/-- A code operation of partition 0 at a step, with its image at 0x10000. -/
def coding (step : Nat) (mem : Tab Byte) : State := { on with codes := [(0, { step := step, clusters := 1, image := 0x10000 })], mem := mem }
/-- The header of an image of 352 bytes with its entry at 0x100 (06 R144). -/
def imageMem : Tab Byte :=
  [(0x10000, 0x46), (0x10001, 0x4A), (0x10002, 0x53), (0x10003, 0x56), (0x10005, 1), (0x10007, 1), (0x10008, 0x60), (0x10009, 1)]

theorem witness_CodeLoadsRunInSteps :
    (let v : Word64 := BitVec.ofNat 64 (9 * 2 ^ 56 + 2 ^ 40 + 0x10000)
    on.carries (.vf 0) ∧ v.toNat.testBit 0 = false ∧ (v + 1).toNat.testBit 0 = true ∧ on.ready 0 = true ∧ bits v.toNat 55 40 = 1 ∧ (on.slice 0).clusters = 1
      ∧ on.sec.fuses.confOnly = false ∧ (on.twin 0).state ≠ 4 ∧ (on.code 0).step = 0 ∧ on.logRoom = true ∧ on.sec.fwState ≠ 4)
      ∧ ((coding 1 []).quiet ∧ ((coding 1 []).code 0).step = 1 ∧ (coding 1 []).noCellWaits)
      ∧ (let s : State := { on with codes := [(0, { step := 2, image := 2 ^ 39 })] }; s.inPpa 0 (s.code 0).image 256 = false)
      ∧ (let s := coding 2 []
        s.quiet ∧ (s.code 0).step = 2 ∧ s.inPpa 0 (s.code 0).image 256 = true ∧ codeHeaderOk (s.ppaPeek 0 (s.code 0).image 256).1 = false)
      ∧ (let s := coding 2 imageMem
        let h := s.ppaPeek 0 (s.code 0).image 256
        fld h.1 8 4 = 352 ∧ codeHeaderOk h.1 = true ∧ h.2 = (false, St.ok) ∧ s.inPpa 0 0x10000 352 = true ∧ (s.ppaPeek 0 0x10000 352).2 = (false, St.ok)) := by decide

/-- Receive queue 0 enabled with 64 posted descriptors, and port 0 up and dedicated to partition 0. -/
def queued (r : RxQ) (mode : Byte) : State :=
  { on with rxqs := [(0, r)], net := { on.net with ports := [(0, { state := 2 })] }
            pat := { on.pat with running := some { pattern0 with ports := [(0, { raw := [mode, 0] })] } } }
/-- A datagram. -/
def frame0 : Frame := { dmac := 5, group := false, prio := 0, flow := [1], qpn := none, bytes := List.replicate 64 1 }

theorem witness_ReceiveQueuesTakeFrames :
    (let s := queued { desc := 6 * 2 ^ 60, cq := 15 * 2 ^ 60 } 0
    s.carries (.vf 0) ∧ s.ownerEthQ 15 = some 0 ∧ (1 : Word64).toNat.testBit 0 = true ∧ (0 : Word64).toNat.testBit 0 = false
      ∧ s.ownerCore (bits (1 : Word64).toNat 23 17) = some 0 ∧ canEnable (s.rxq 0).desc (s.rxq 0).cq = true ∧ (s.rxq 0).ctrl.testBit 0 = false)
      ∧ (let s := queued { ctrl := 2 ^ 32 + 1, unsignalled := 1 } 0
        s.quiet ∧ (s.rxq 0).unsignalled ≠ 0 ∧ boundFields (s.rxq 0).ctrl = boundFields (0 : Word64).toNat ∧ bits (s.rxq 0).ctrl 47 32 ≠ 0 ∧ (s.core (bits (s.rxq 0).ctrl 23 17)).waiting = none)
      ∧ (let s := queued {} 0
        s.quiet ∧ (s.port 0).state = 2 ∧ frame0.bytes.length = 64 ∧ s.frameParts 0 frame0 = [])
      ∧ (let s := queued { ctrl := 1, desc := 6 * 2 ^ 60, cq := 6 * 2 ^ 60, tail := 1 } 1
        s.frameParts 0 frame0 = [0] ∧ frame0.qpn = none ∧ s.unprotected 0 ∧ s.ownerEthQ 0 = some 0 ∧ s.portMode 0 = 1 ∧ (s.rxq 0).room = true
          ∧ (s.port 0).held = [] ∧ (s.port 0).state = 2 ∧ s.ready 0 = true) := by decide

theorem witness_ReceiveQueuesTakeFrames_queue (s : State) (h : (s.eth 0).dgram = 0) : s.dgramQueue 0 frame0 = 0 := by
  simp [State.dgramQueue, h, bits, Nat.mod_one]
theorem witness_ReceiveQueuesTakeFrames_posts : ∀ p, p < 16 → ((queued {} 0).port p).held = [] := by decide
/-- A task of context 7 on cells 0 and 1 with its image at 0x2000, an image of one instruction, and its context resident on site 0. -/
def task7 : Task := { task0 with ctx := 7, image := 0x2000 }
def dispatching : State :=
  { on with schs := [(0, { waiting := [task7] })], ress := [(0, { resident := some 7 })], ctxs := [(7, { latched := true, slotLog2 := 16, state := .ready })]
            mem := [(0x2000, 1), (0x2002, 1), (0x2004, 72)] }
/-- Cell 0 of gang 0 at a state, with cell 1 beside it. -/
def ganged (c : Cell) (x : Ctx) : State :=
  { on with cells := [(0, c), (1, { state := 1, gang := some 0, codeLen := 8 })], schs := [(0, { gangs := [{ id := 0, task := { task7 with ctx := c.ctx } }] })]
            ctxs := [(c.ctx, x)], mem := [(0x2000, 1), (0x2002, 1), (0x2004, 72)] }

theorem witness_SchedulingStartsAndSwitches :
    (let s := dispatching
    s.unprotected 0 ∧ s.ready 0 = true ∧ (s.res 0 0).switching = false ∧ (s.site 0).state ≠ 2 ∧ (s.twin 0).phase ≠ 1 ∧ (s.res 0 0).resident = some 7
      ∧ (∀ i ∈ s.siteCells 0 7 0, (s.cell i).state ≠ 4) ∧ (s.sch 0).waiting.find? (fun t => t.ctx == 7 && t.site == 0) = some task7
      ∧ ∀ p ∈ maskList 16 task7.mask, (s.cell p).state = 0 ∧ s.cellTested p = false)
      ∧ (let s : State := { dispatching with ress := [(0, { resident := some 7, left := 1 })] };
        s.unprotected 0 ∧ (s.twin 0).phase ≠ 1 ∧ (s.res 0 0).gen = (s.sch 0).listGen ∧ 0 < (s.res 0 0).left ∧ s.qualifies 0 0 7 = true ∧ s.sliceUs 0 = 0 ∧ ∀ g ∈ (s.sch 0).gangs, g.saved = false)
      ∧ (on.ready 0 = true ∧ (on.res 0 0).gen = (on.sch 0).listGen ∧ (on.res 0 0).resident = none ∧ (on.res 0 0).list = [])
      ∧ (let s : State := { on with ress := [(0, { switching := true, incoming := some 7 })] };
        s.calm 0 7 ∧ (s.res 0 0).switching = true ∧ (s.res 0 0).resident = none ∧ (s.res 0 0).incoming = some 7 ∧ s.injOpen 0 0 0 = true) :=
  ⟨by decide, by decide, by decide, by decide⟩

theorem witness_SchedulingStartsAndSwitches_image :
    ∃ image thr trap s1 s2, dispatching.dispatchCheck 0 task7 = (s1, .ok image) ∧ s1.readWords 0 7 = (s2, .ok (thr, trap)) := ⟨_, _, _, _, _, rfl, rfl⟩

theorem witness_SavesRestoresAndStretches :
    (let s := ganged { state := 3, gang := some 0, codeLen := 8 } {}
    s.unprotected 0 ∧ s.ownerCell 0 = some 0 ∧ (s.cell 0).state = 3 ∧ (s.cell 0).moversIdle = true ∧ (s.ctx 0 0).aborting = false
      ∧ ((s.gangOf 0 0).map (·.stopping)) = some false ∧ s.injOpen 0 0 0 = true ∧ (s.cell 0).gang.isSome = true ∧ (s.cell 1).gang = (s.cell 0).gang ∧ s.ownerCell 1 = some 0)
      ∧ (let s := ganged { state := 4, gang := some 0, ctx := 7 } {}
        s.quiet ∧ s.ownerCell 0 = some 0 ∧ (s.cell 0).state = 4 ∧ (s.ctx 0 7).aborting = false ∧ (s.gangOf 0 (s.saved.get {} (savedKey 0 7 0)).gang).isSome = true
          ∧ s.chansOf 0 7 = [] ∧ s.injOpen 0 0 0 = true)
      ∧ (let s := ganged { state := 2, gang := some 0, ctx := 7 } {}
        s.calm 0 7 ∧ (s.cell 0).state = 2 ∧ (s.cell 0).gang.isSome = true ∧ (s.ctx 0 7).aborting = false ∧ (s.ctx 0 7).state ≠ .lost ∧ (s.ctx 0 7).fault = 0
          ∧ s.ownerCell 0 = some 0)
      ∧ (let s := ganged { state := 4, gang := some 0, ctx := 7 } {}
        s.calm 0 7 ∧ St.timeout ≠ St.ok ∧ (s.ctx 0 7).state ≠ .lost ∧ (s.gangOf 0 ((s.cell 0).gang.getD 0)).isSome = true) :=
  ⟨by decide, by decide, by decide, by decide⟩

theorem witness_SavesRestoresAndStretches_save :
    let s := ganged { state := 3, gang := some 0, codeLen := 8 } {}
    (((s.injCharge 0 0 0 (s.saveBytes 0)).putGuard 0 0).saveCell 0 0).2 = St.ok := by decide

theorem witness_SavesRestoresAndStretches_restore :
    let s := ganged { state := 4, gang := some 0, ctx := 7 } {}
    ∃ image thr trap s1 s2, s.readImage 0 0x2000 = (s1, .ok image) ∧ s1.readWords 0 7 = (s2, .ok (thr, trap))
      ∧ lrtOf image 0 = { mask := 0, ranges := [] } ∧ ∀ p ∈ restoreReads { mask := 0, ranges := [] }, (s2.ppaPeek 0 (s2.slotAddr 0 7 0 + p.1) p.2).2.2 = St.ok :=
  ⟨_, _, _, _, _, rfl, rfl, by decide, by decide⟩

theorem witness_ContextCommands :
    (on.carries (.vf 0) ∧ on.unprotected 0 ∧ on.chansOf 0 7 = [] ∧ (on.part 0).state ≠ .lost)
      ∧ bits (BitVec.ofNat 64 (7 * 2 ^ 16) : Word64).toNat 27 16 = 7
      ∧ (({ on with ctxs := [(7, { state := .held })] } : State).ctx 0 7).state = .held
      ∧ (on.calm 0 7 ∧ on.ctxLost 0 7 = false) ∧ ((on.ctx 0 7).aborting = false ∧ (on.ctx 0 7).state = .idle)
      ∧ (let s : State := { on with ctxs := [(7, { state := .lost, aborting := true })], chans := [(4, { en := true, ctx := 7, state := 6 })] };
        s.quiet ∧ (s.ctx 0 7).aborting = true ∧ s.cellsOf 0 7 = [] ∧ (∀ i ∈ s.chansOf 0 7, (s.chan i).state = 1 ∨ (s.chan i).state = 6)
          ∧ ∀ g ∈ (s.sch 0).gangs, g.task.ctx ≠ 7)
      ∧ (let s : State := { on with ctxs := [(7, { state := .lost, aborting := true })], cells := [(0, { state := 1, ctx := 7 })] };
        s.quiet ∧ (s.ctx 0 7).aborting = true ∧ s.cellsOf 0 7 = [0])
      ∧ (let s : State := { on with ctxs := [(7, { state := .held })] }; (s.saveHeader 0 7 0).2 = St.ok) :=
  ⟨by decide, by decide, by decide, by decide, by decide, by decide, by decide⟩
/-- The register an address leads to satisfies q. -/
def regIs (s : State) (p : Path) (a : Nat) (q : Reg → Nat → Bool) : Bool := match s.regFind p a with | .ok (some (r, o)) => q r o | _ => false

theorem witness_RegisterWritesFollowTheirAccessCode :
    (on.quiet ∧ on.pathLive .mctp = true ∧ on.pathShut .mctp = false ∧ (match on.regFind .mctp 0 with | .error _ => true | _ => false) = true)
      ∧ (match on.regFind .mctp (regAddr 0 13 0) with | .ok none => true | _ => false) = true
      ∧ regIs on .mctp (regAddr 0 1 0) (fun r _ => (match r.set with | .ro => true | _ => false) && on.regSeen .mctp r) = true
      ∧ (regIs on .mctp (regAddr 0 3 0x100) (fun r _ => match r.set with | .locked => true | _ => false) = true ∧ on.effClass 0x110 (pathScope .mctp) = .note)
      ∧ (on.pathLive (.partAlias 0) = true ∧ on.pathShut (.partAlias 0) = false ∧ on.effClass 0x110 (pathScope (.partAlias 0)) = .note
        ∧ regIs on (.partAlias 0) 0x2000100 (fun r _ => (match r.set with | .whole _ => true | _ => false) && !(regMayWrite (.partAlias 0) r)) = true)
      ∧ regIs on .mctp (regAddr 0 4 0x100) (fun r o => (match r.set with | .whole _ => true | _ => false) && regMayWrite .mctp r && o == r.base && r.width == 8) = true
      ∧ (let s : State := { on with pcie := { on.pcie with up := true } };
        s.pathLive .pf0 = true ∧ s.pathShut .pf0 = false ∧ s.pwr.stage ≠ 0) := by decide

theorem witness_WindowsRefillRegulators :
    (on.quiet ∧ (5 : Fin 64).val < 8 ∧ (∀ e ∈ on.hbm.held, e.1 ≠ 5 * 16 + 0))
      ∧ (regulated 0 25 = true ∧ regulated 0 0 = true ∧ 24 ≤ (25 : Fin 64).val ∧ on.fab.held = [] ∧ on.pcie.held = [])
      ∧ (∀ c, c < 16 → (on.cell c).movers = []) ∧ (8 ≤ (23 : Fin 64).val ∧ (23 : Fin 64).val ≤ 23) ∧ regulated 0 24 = false ∧ regulated 1 26 = false := by decide

theorem witness_FabricErrorsAreReported :
    (let b : Burst := { id := 0, start := 0, len := 64, srcHost := false, src := 0, dstHost := false, dst := 0, srcDva := false, srcName := 0, dstDva := false, dstName := 0 }
    ∀ k, k < 2 → let s : State := { on with chans := [(4, { bursts := [{ b with state := k }] })] };
      (s.chan 4).bursts[0]? = some { b with state := k } ∧ s.protected (s.chanPart 4) 0 64 = false)
      ∧ 65536 + 192 * 256 ≤ 114688
      ∧ (on.dirEnt 1 0).txn = none ∧ (let x : Txn := { kind := .rdu, requester := 3, due := 1 }
        let s : State := { on with coh := { on.coh with dir := [(0, { st := .s, sharers := 1, txn := some x })] } };
        (s.dirEnt 0 0).txn = some x ∧ x.late = false ∧ x.delivered = false ∧ x.kind ≠ .writeBack ∧ x.kind ≠ .evict ∧ x.requester ≠ 14)
      ∧ (let x : Txn := { kind := .read, requester := 14, origin := some 3, cur := 1 }; x.late = false ∧ x.delivered = false ∧ x.kind ≠ .evict ∧ x.origin.isSome = true)
      ∧ (let s : State := { on with regs := [(linkAddr 0 0, 2)] }; s.quiet ∧ s.portCode 0 0 0 = 2 ∧ s.portCode 0 0 1 ≠ 2)
      ∧ (let s : State := { on with sites := [(1, { state := 5, kind := 2, mods := [(3, { width := 1 })] })] };
        s.quiet ∧ s.noCellWaits ∧ s.flights = [] ∧ (s.site 1).kind = 2 ∧ (s.site 1).state = 5 ∧ s.siteHears 1 = true
          ∧ ∀ n ∈ allParts, s.claims n (fun x => bits x.cells 31 16 != 0) = false) := by decide

/-- Line 0, whose home is half 0 and whose owner partition 0: its directory entry, what cluster 0 holds of it, and what half 0's SLC does. -/
def lined (e : DirEnt) (copies : Tab Copy := []) (wbs : Tab (Option WbEnt) := []) (slc : Tab (Option SlcLine) := []) : State :=
  { on with coh := { dir := [(0, e)], copies := copies, wbs := wbs, slc := slc } }
/-- Line data. -/
def data0 : List Byte := List.replicate 64 7
/-- A read of agent 1 that waits for agent 0. -/
def txn0 : Txn := { kind := .rds, requester := 1, due := 1, data := some data0, grantSt := .s }
/-- A line of an SLC. -/
def slc0 : SlcLine := { way := 0, part := 0, data := data0, dirty := false, dross := false, stamp := 0 }

theorem witness_RequestsOpenTransactions :
    (let s : State := { on with hbm := { keys := [(0, { gen0 := some 0 })] } }; s.agentMay 0 0 0 = true ∧ s.lineOffline 0 = true)
      ∧ (on.agentMay 0 0 0 = true ∧ on.takesFrom 0 0 0 ∧ (on.dirEnt 0 0).st = .i ∧ (on.dirEnt 0 0).sharers = 0)
      ∧ (lined {} [] [] [(0, some slc0)]).slcLine 0 0 = some slc0
      ∧ (let s := lined { st := .s, sharers := 3, part := 0 } [(0, { st := .s, data := data0 })]
        s.agentMay 0 0 0 = true ∧ s.takesFrom 0 0 0 ∧ (s.dirEnt 0 0).st = .s ∧ (s.dirEnt 0 0).sharers.testBit 0 = true ∧ (s.copyOf 0 0 0).st ≠ .i)
      ∧ (let s := lined { st := .x, owner := 1, part := 0 }
        s.agentMay 0 0 0 = true ∧ s.takesFrom 0 0 0 ∧ (s.dirEnt 0 0).st = .x ∧ (s.dirEnt 0 0).owner ≠ 0 ∧ (s.dirEnt 0 0).sharers = 0) := by decide

theorem witness_RetriesAndAnswersCloseTransactions :
    (let s := lined { st := .s, part := 0, txn := some txn0 }
    s.agentMay 0 0 0 = true ∧ s.lineOffline 0 = false ∧ (s.dirEnt 0 0).txn.isSome = true ∧ s.coh.tallies = [] ∧ s.wbOf 0 0 0 = none ∧ s.outstandingAt 0 0 0 < 16)
      ∧ (∀ d : Bool, let x : RTally := { half := 0, requester := 78, line := 5, delivered := d, sent := true }
        let s : State := { on with coh := { tallies := [{ half := 1, requester := 78, line := 5 }, x] } };
        s.coh.tallies = [{ half := 1, requester := 78, line := 5 }] ++ x :: [] ∧ x.half = 0 ∧ x.requester = 78 ∧ x.line = 5 ∧ x.delivered = d ∧ x.sent = true
          ∧ ∀ y ∈ [({ half := 1, requester := 78, line := 5 } : RTally)], ¬(y.half = 0 ∧ y.requester = 78 ∧ y.line = 5))
      ∧ (let s := lined { st := .x, owner := 0, part := 0, txn := some txn0 }
        (s.dirEnt 0 0).txn = some txn0 ∧ txn0.due.testBit 0 = true ∧ clearBit txn0.due 0 = 0 ∧ txn0.shared = 0 ∧ txn0.delivered = false
          ∧ txn0.waitsEntry = false ∧ txn0.waitsHome = false ∧ txn0.noData = false ∧ txn0.late = false ∧ txn0.kind = .rds ∧ s.flights = [] ∧ txn0.forLine = none ∧ txn0.data = some data0 ∧ (s.dirEnt 0 0).owner ≠ txn0.requester)
      ∧ ({ { txn0 with due := 3 } with due := clearBit 3 0 } : Txn).waits ≠ 0
      ∧ (let x : Txn := { txn0 with requester := 13, delivered := true, due := 0 }
        let s := lined { st := .s, part := 0, txn := some x }
        (s.dirEnt 0 0).txn = some x ∧ x.delivered = true ∧ x.requester = 13 ∧ x.data = some data0 ∧ x.grantSt ≠ .i)
      ∧ (∀ a : Fin 15, let x : Txn := { txn0 with due := 1 <<< a.val }; (lined { txn := some x }).quiet ∧ (lined { txn := some x }).flights = [] ∧ x.waits.testBit a.val = true)
      ∧ ({ on with sites := [(11, { mods := [(0, { width := 2 })] })] } : State).siteHears ((13 - 8) + 6 * 1) = true := by decide

theorem witness_SnoopsMoveCopies :
    (let x : Txn := { txn0 with shared := 1, unique := 1, inv := 1, cur := 1 }
    let s := lined { txn := some x } [(0, { st := .o, data := data0 })]
    (s.dirEnt 0 0).txn = some x ∧ s.wbOf 0 0 0 = none ∧ (s.copyOf 0 0 0).st ≠ .i ∧ x.shared.testBit 0 = true ∧ x.unique.testBit 0 = true
      ∧ x.inv.testBit 0 = true ∧ x.cur.testBit 0 = true)
      ∧ (let w : WbEnt := { st := .m, data := data0, phase := 2 }
        (lined { txn := some { txn0 with unique := 1 } } [] [(0, some w)]).wbOf 0 0 0 = some w ∧ w.dead = false ∧ w.st = .m) := by decide

theorem witness_WriteBacksReturnLines :
    (let s := lined { st := .x, owner := 0, part := 0 } [(0, { st := .m, data := data0 })]
    s.wbOf 0 0 0 = none ∧ (s.copyOf 0 0 0).st = .m ∧ (s.dirEnt 0 0).txn = none ∧ s.coh.tallies = [] ∧ (s.dirEnt 0 0).owner = 0 ∧ (s.dirEnt 0 0).st = .x)
      ∧ (let s := lined { st := .o, owner := 1, part := 0 } [(0, { st := .o, data := data0 })]
        (s.copyOf 0 0 0).st = .o ∧ (s.dirEnt 0 0).owner ≠ 0)
      ∧ (∀ k : Fin 3, let w : WbEnt := { st := .m, data := data0, phase := k }
        let s := lined {} [] [(0, some w)]
        s.wbOf 0 0 0 = some w ∧ w.phase = k ∧ s.isRetired 0 = false ∧ s.lineOffline 0 = false ∧ s.roomAt 0 0 0 = true ∧ (s.dirEnt 0 0).txn = none)
      ∧ (let s := lined { st := .x, owner := 0, part := 0 } [(0, { st := .e, data := data0 })]
        (s.copyOf 0 0 0).st = .e ∧ (s.dirEnt 0 0).owner = 0 ∧ (s.dirEnt 0 0).st = .x ∧ (s.dirEnt 0 0).txn = none) := by decide

theorem witness_HomeAccessesReadAndWrite :
    (on.ownerPch (pchOfLine 0) = some 0 ∧ on.takesIn 0 78 0 ∧ (on.dirEnt 0 0).st = .i ∧ (on.dirEnt 0 0).sharers = 0 ∧ on.isRetired 0 = false
      ∧ on.slcLine 0 0 = none ∧ (on.hbmPeek 0).dross = false ∧ on.roomAt 0 0 0 = true)
      ∧ (let s := lined { st := .x, owner := 0, part := 0 }; s.takesIn 0 78 0 ∧ (s.dirEnt 0 0).st = .x)
      ∧ (let s := lined {} [] [] [(0, some slc0)]; s.takesIn 0 78 0 ∧ (s.dirEnt 0 0).st = .i ∧ s.slcLine 0 0 = some slc0) := by decide
/-- The running module with pseudo-channel 0 in a state, and with partition 0's keys. -/
def pched (p : Pch) (k : KeySlots := { gen0 := some 0 }) : State := { on with hbm := { on.hbm with pchs := [(0, p)], keys := [(0, k)] } }
/-- A write-combining entry of line 0. -/
def wcb0 : Wcb := { line := 0, mask := 1, data := data0, dross := false }

theorem witness_ControllersServeOrHold :
    ({ on with hbm := { on.hbm with acting := [(0, 1)] } } : State).hmcHolds 0 = some 0
      ∧ (let s : State := { on with hbm := { on.hbm with held := [(0, .hmcRead 0)] } }; s.hmcHolds 0 = none ∧ s.lineHeld 0 = true ∧ s.ownerPch (pchOfLine 0) = some 0)
      ∧ (let s : State := { on with hbm := {} }; s.hmcHolds 0 = none ∧ s.lineHeld 0 = false ∧ s.lineOffline 0 = true)
      ∧ (let s := pched { clearedAll := true }
        s.hmcHolds 0 = none ∧ s.lineHeld 0 = false ∧ s.lineOffline 0 = false ∧ s.lineCleared 0 = true ∧ s.isRetired 0 = false ∧ s.wcbOf 0 = none)
      ∧ (on.hmcHolds 0 = none ∧ on.lineHeld 0 = false ∧ on.lineOffline 0 = false ∧ on.lineCleared 0 = false ∧ on.isRetired 0 = false ∧ on.lineFails 0 = false ∧ on.wcbOf 0 = none
        ∧ (on.pch (pchOfLine 0)).wcb.length < 64)
      ∧ (let s : State := { on with hbm := { on.hbm with retired := [(0, true)] } }; s.hmcHolds 0 = none ∧ s.lineHeld 0 = false ∧ s.lineOffline 0 = false ∧ s.isRetired 0 = true)
      ∧ (let s : State := { on with lines := [(0, { epoch := 1 })] };
        s.hmcHolds 0 = none ∧ s.lineHeld 0 = false ∧ s.lineOffline 0 = false ∧ s.lineCleared 0 = false ∧ s.isRetired 0 = false ∧ s.lineFails 0 = true ∧ s.wcbOf 0 = none) := by decide

theorem witness_RegionsZeroAndKeysRotate :
    (let s := pched { clearedAll := true }
    s.regionCleared 0 18431 = true ∧ s.lineOffline (regionLine 0 18431) = false ∧ firstGap (s.pch 0).zeroed 0 = 0 ∧ s.regionCleared 0 0 = true)
      ∧ (on.regionCleared 0 0 = false ∧ (on.pch 0).clearedAll = false ∧ (on.pch 0).wcb = [])
      ∧ (let s := pched { wcb := [wcb0] }
        (s.pch 0).wcb = [wcb0] ∧ pchOfLine wcb0.line = 0 ∧ s.lineOffline 0 = false ∧ s.isRetired 0 = false ∧ s.lineCleared 0 = false ∧ s.lineFails 0 = false)
      ∧ (let s : State := { pched { wcb := [wcb0] } with lines := [(0, { epoch := 1 })] };
        (s.pch 0).wcb = [wcb0] ∧ s.lineOffline 0 = false ∧ s.isRetired 0 = false ∧ s.lineCleared 0 = false ∧ s.lineFails 0 = true)
      ∧ (let s : State := { pched {} { gen0 := some 0, gen1 := some 1 } with sec := { on.sec with drbgHealthy := true } };
        s.hubCarries (.partAlias 0) ∧ (1 : Word64).toNat % 4 = 1 ∧ s.ready 0 = true ∧ (s.keys 0).other ≠ 1 ∧ s.logRoom = true ∧ (s.keys 0).status ≠ St.pending ∧ s.sec.fwState ≠ 4
          ∧ s.sec.drbgHealthy = true ∧ (s.keys 0).current ≤ 1)
      ∧ (2 : Word64).toNat % 4 ≠ 1
      ∧ (∀ old : Fin 2, let s := pched {} { current := 1, other := 1, gen0 := some 0, gen1 := some 1, oldLines := old.val + 1 }
        (s.keys 0).other = 1 ∧ s.ready 0 = true ∧ (s.slice 0).pchs.testBit 0 = true ∧ s.ownerPch 0 = some 0 ∧ (s.pch 0).sweep < pchLines
          ∧ s.lineOffline 0 = false ∧ s.isRetired 0 = false ∧ s.lineCleared 0 = false ∧ s.lineFails 0 = false ∧ (s.lineMeta 0).epoch ≠ (s.keys 0).current
          ∧ (s.keys 0).oldLines ≠ 0)
      ∧ (on.keys 0).other ≠ 1 := by decide

theorem witness_StacksFollowTemperature :
    (on.quiet ∧ (on.stack 0).level ≤ 3 ∧ (84 : Nat) < 105 ∧ (104 : Nat) < 105) ∧ ((on.stack 15).level ≤ 3 ∧ on.stackOwners 15 = [] ∧ ∀ e ∈ on.hbm.held, e.1 / 16 ≠ 15)
      ∧ (on.hubCarries .mctp ∧ isOper .mctp = true)
      ∧ (let s : State := { on with hbm := { on.hbm with stackTab := [(0, { state := 1 })] }, regs := [(isoAddr 0, 256)] };
        s.quiet ∧ (s.stack 0).state = 1 ∧ s.isolated (halfOfStack 0) (8 + 0 % 8) = true) := by decide
/-- A DMA descriptor of a partition (11 R267): OWN, COUNT0 128, from DVA 0 to PPA 0x8000. -/
def desc0 : List Byte := leBytes 4 (2 ^ 31) ++ leBytes 4 128 ++ leBytes 8 (2 ^ 63) ++ leBytes 8 0x8000 ++ [1, 0, 1, 0, 1, 0] ++ zeros 34
/-- The module with channel i and PPA 0x1000 holding that descriptor, the first of the channel's ring. -/
def chanAt (i : Nat) (c : Chan) : State :=
  { on with chans := [(i, { c with ring := 4 * 2 ^ 56 + 0x1000 })], mem := placed 0x1000 desc0 }
/-- A burst of 64 bytes from PPA 0 to PPA 0x8000. -/
def burst0 : Burst :=
  { id := 0, start := 0, len := 64, srcHost := false, src := 0, dstHost := false, dst := 0x8000, srcDva := true, srcName := 0, dstDva := false, dstName := 0x8000 }

theorem witness_DmaChannelsFollowTheirRegisters :
    (let s := chanAt 4 {}
    s.chanCarries (.vf 0) 4 ∧ (s.chan 4).en = false ∧ 4 ≤ bits (s.chan 4).ring 59 56 ∧ s.enabledFor (s.chanPart 4) 7 < 32 ∧ s.ownerChan 4 ≠ none ∧ isPriv 4 = false)
      ∧ (let s : State := { chanAt 40 {} with chans := (List.range 33).map (fun k => (if k < 28 then k + 4 else k + 8, { en := decide (k < 32), ctx := 7, state := 1, ring := 4 * 2 ^ 56 })) };
        s.chanCarries (.vf 0) 40 ∧ (s.chan 40).en = false ∧ 4 ≤ bits (s.chan 40).ring 59 56 ∧ s.ownerChan 40 ≠ none ∧ isPriv 40 = false ∧ s.enabledFor (s.chanPart 40) 7 = 32)
      ∧ (∀ st : Fin 7, let s := chanAt 4 { en := true, state := st }; s.chanCarries (.vf 0) 4 ∧ (s.chan 4).en = true ∧ (s.chan 4).state = st ∧ (s.chan 4).ctx = bits (clearBit (0 : Word64).toNat 0) 55 44)
      ∧ (∀ b : Bool, let s := chanAt 4 { en := true, ctx := 7, pause := b, state := if b then 4 else 2 }
        s.chanCarries (.vf 0) 4 ∧ (BitVec.ofNat 64 (7 * 2 ^ 44 + 1) : Word64).toNat.testBit 0 = true ∧ bits (BitVec.ofNat 64 (7 * 2 ^ 44 + 1) : Word64).toNat 55 44 = 7
          ∧ (s.chan 4).stop = .none ∧ (s.chan 4).desc = none ∧ s.engineFree 4 ∧ s.savesChans (s.chanPart 4) 7 = false)
      ∧ (∀ st : Bool, let s := chanAt 4 { en := true, state := 3, stop := if st then .pause else .save }
        (s.chan 4).state = 3 ∧ (s.chan 4).bursts = [] ∧ s.unprotected (s.chanPart 4) ∧ s.savesChans (s.chanPart 4) 0 = false) :=
  ⟨by decide, by decide, by decide, by decide, by decide⟩

theorem witness_DmaChannelsFollowTheirRegisters_save :
    let s := chanAt 4 { en := true, state := 3, stop := .save }
    let r := s.hubWrite 0 0x800 (resumeRecord 0 4 { s.chan 4 with seq := 1 } 2)
    (s.ctx 0 0).saveBase = 0 ∧ (s.ctx 0 0).savedChans = [] ∧ r.2 = St.ok ∧ (r.1.saveHeader 0 0 1).2 = St.ok := by decide

theorem witness_DescriptorsMoveInBursts :
    (let s := chanAt 4 { en := true, state := 2, tail := 1 }
    let c := s.chan 4; let r := s.ppaPeek 0 (c.descAt c.head) 64
    s.chanPart 4 = 0 ∧ c.stop = .none ∧ c.pause = false ∧ c.desc = none ∧ c.head ≠ c.tailIdx ∧ s.ready 0 = true ∧ c.ringDva = false ∧ s.ctxLost 0 c.ctx = false ∧ r = (desc0, false, St.ok)
      ∧ s.quiet ∧ s.engineFree 4 ∧ c.bursts = [] ∧ (descOf r.1).srcDva = true ∧ isPriv 4 = false ∧ (descOf r.1).ok false (fun _ => false) = true)
      ∧ (let s : State := { chanAt 0 { en := true, state := 2, tail := 1 } with lines := [(64, { dross := true })] };
        s.ppaPeek 0 ((s.chan 0).descAt 0) 64 = (desc0, true, St.ok) ∧ isPriv 0 = true ∧ s.engineFree 0)
      ∧ (let s := chanAt 4 { en := true, state := 2, desc := some desc0, bursts := [burst0] }
        s.quiet ∧ (s.chan 4).bursts[0]? = some burst0 ∧ burst0.state = 0 ∧ burst0.srcHost = false ∧ (s.ppaPeek (s.chanPart 4) 0 64).2.2 = St.ok
          ∧ s.lets 0 burst0.src burst0.len (s.dmaVia 4 0 ((s.chan 4).descOfBurst burst0).hint))
      ∧ (let b : Burst := { burst0 with state := 1, data := data0, marks := List.replicate 64 false }
        let s := chanAt 4 { en := true, state := 2, desc := some desc0, bursts := [b], needWalk := true }
        let c := s.chan 4
        c.bursts = [b] ∧ b.state = 1 ∧ b.dstHost = false ∧ b.next = false ∧ b.start = c.done ∧ 0 < b.len ∧ b.data.length = b.len ∧ b.marks.length = b.len
          ∧ b.dst % 64 + b.len ≤ 64 ∧ (c.descOfBurst b).rowsOver b = [] ∧ c.done + b.len < (c.descOfBurst b).total ∧ s.protected 0 b.dst b.len = false
          ∧ c.stop = .none ∧ c.wbWait = false ∧ s.engineFree 4 ∧ s.lets 0 b.dst b.len (s.dmaVia 4 0 (c.descOfBurst b).hint)
          ∧ (s.ppaStore 0 b.dst b.data (b.marks.any (fun m => m)) (s.dmaVia 4 0 (c.descOfBurst b).hint)).2 = St.ok) :=
  ⟨by decide, by decide, by decide, by decide⟩

theorem witness_DescriptorsMoveInBursts_errors :
    (let s := chanAt 0 { en := true, state := 2, desc := some desc0, bursts := [burst0] }
    s.quiet ∧ (s.chan 0).bursts = [burst0] ∧ isPriv 0 = true ∧ (s.chan 0).stop = .none ∧ burst0.start ≤ (s.chan 0).total ∧ s.engineFree 0)
      ∧ (let s := chanAt 4 { en := true, state := 3, needWalk := true }; (s.chan 4).front = none ∧ (s.chan 4).needWalk = true)
      ∧ (let s := chanAt 4 { en := true, state := 3, stop := .pause, desc := some desc0, needWalk := true }
        (s.chan 4).front = some (false, descOf desc0, 0) ∧ s.engineFree 4 ∧ (s.chan 4).done < (descOf desc0).total
          ∧ (descOf desc0).ok (isPriv 4) (fun k => s.ownerCore k == some 0) = true ∧ (s.chan 4).ahead = none)
      ∧ (let s := chanAt 4 { en := true, state := 2, desc := some desc0, issued := 32, segEnd := 64 }
        (s.chan 4).needWalk = false ∧ (s.chan 4).front = some (false, descOf desc0, 32) ∧ (s.chan 4).mayLookAhead (descOf desc0) = true) := by decide

theorem witness_DescriptorsMoveInBursts_store : (on.ppaStore 0 0x8000 data0 false).2 = St.ok := by decide

theorem witness_DmaCommandsActOnStandingChannels :
    (∀ st : Fin 7, let s := chanAt 0 { en := decide (st ≠ 0), state := st }
      s.chanCarries (.partAlias 0) 0 ∧ (s.chan 0).cmdStatus ≠ St.pending ∧ (s.chan 0).desc = none ∧ s.engineFree 0 ∧ isPriv 0 = true ∧ s.unprotected 0
        ∧ s.inPpa (s.chanPart 0) (bits (s.chan 0).record 39 6 * 64) 64 = true)
      ∧ (let s := chanAt 0 { en := true, state := 7, cmdStatus := St.pending }
        s.chanCarries (.partAlias 0) 0 ∧ (s.chan 0).cmdStatus = St.pending ∧ s.quiet ∧ (s.chan 0).state = 7 ∧ ∀ b ∈ (s.chan 0).bursts, b.state = 2) := by decide

theorem witness_DmaCommandsActOnStandingChannels_record :
    let s := chanAt 0 { en := true, state := 4 }
    let rec_ := resumeRecord 0 0 { s.chan 0 with seq := 1 } 0
    rec_.length = 64 ∧ (s.ppaStore 0 0 rec_ false).2 = St.ok := by decide

/-- An open fault record of context 7 and the block 2 in slot 0 of partition 0. -/
def fault0 : FaultRec := { ctx := 7, block := 2, dva := 0x20000, reason := 1, level := 1, access := 1, waiters := 1, chans := [4] }

theorem witness_FaultsResolveAndRangesInvalidate :
    (let s := chanAt 4 { en := true, ctx := 7, state := 5, faultAddr := 0x20000 }
    s.unprotected 0 ∧ (s.chan 4).state = 5 ∧ (s.chan 4).taken = false ∧ s.chanPart 4 = 0 ∧ (∀ k, k < 64 → (s.xlt 0).recs.get none k = none) ∧ fqLen (s.xlt 0) = 0)
      ∧ (let s : State := { chanAt 4 { en := true, ctx := 7, state := 5, faultAddr := 0x20040 } with xlts := [(0, { recs := [(0, some fault0)] })] };
        (s.chan 4).taken = false ∧ s.recOpen 0 0 = some fault0 ∧ fault0.ctx = (s.chan 4).ctx ∧ fault0.block = (s.chan 4).faultAddr / 65536 ∧ fault0.waiters ≠ 0)
      ∧ (let s : State := { on with xlts := [(0, { fqRing := 4 * 2 ^ 60, fqCount := 5 })] };
        s.carries (.vf 0) ∧ reaches (.vf 0) 0 = true ∧ fqLen (s.xlt 0) ≠ 0 ∧ (s.xlt 0).unwritten = [])
      ∧ (on.recOpen 0 1 = none ∧ on.effClass 0x114 0 = .note)
      ∧ (let r : PageReady := { id := 0, status := St.ok, engines := 1, chans := [4] }
        let s : State := { chanAt 4 { en := true, state := 5, pause := true, faultId := 0 } with pageReady := [r] };
        s.quiet ∧ s.pageReady = [r] ∧ r.engines = 1 <<< 0 ∧ (s.chan 4).faultId = 0 ∧ (s.chan 4).state = 5 ∧ (s.chan 4).pause = true ∧ (s.xlt 0).waitRec = [])
      ∧ ((on.xlt 0).invStatus ≠ St.pending ∧ (on.tableWord 0 0).1.testBit 0 = false
        ∧ (let s : State := { on with mem := [(0, 1)] }; (s.tableWord 0 0).1.testBit 0 = true ∧ (s.tableWord 0 0).2 = St.ok ∧ s.chansOf 0 0 = []))
      ∧ (let s : State := { on with xlts := [(0, { invStatus := St.pending, invMask := 2 ^ 31 - 1 })] };
        (s.xlt 0).invStatus = St.pending ∧ (s.xlt 0).invMask.testBit 31 = false ∧ s.engineQuiet 0 31 = true) := by decide
/-- The endpoint's link is up. -/
def linked : State := { on with pcie := { on.pcie with up := true } }

theorem witness_EndpointCarriesTransfers :
    (linked.quiet ∧ linked.vfLive 15 = true ∧ (linked.slice 15).vf = false)
      ∧ (linked.vfLive 0 = true ∧ linked.vfRefuses 0 false = false ∧ linked.pcie.held = [] ∧ linked.injOpen 0 26 0 = true ∧ linked.inPpa 0 (linked.aperture 0 64) 64 = true
        ∧ (linked.ppaPeek 0 (linked.aperture 0 64) 64).2.2 = St.ok ∧ linked.inPpa 0 (linked.aperture 0 (2 ^ 39)) 64 = false ∧ linked.protected 0 64 64 = false ∧ (linked.slice 0).vf = true
        ∧ (linked.twin 0).state ≠ 4)
      ∧ (let s : State := { linked with vfs := [(0, { tdi := 3 })] }; s.vfLive 0 = true ∧ (s.slice 0).vf = true ∧ (s.vf 0).tdi = 3)
      ∧ ({ linked with fab := { linked.fab with acting := [(injKey 0 26 0, 1)] } } : State).injOpen 0 26 0 = false
      ∧ (let b : Burst := { burst0 with srcHost := true, dst := 0x8000 }
        let r : HostReq := { tag := 3, user := .burst 0 0, off := 0, addr := 0x1040, left := 64 }
        let s : State := { linked with pcie := { linked.pcie with reqs := [r] }, chans := [(0, { en := true, state := 2, desc := some desc0, bursts := [b] })] };
        s.quiet ∧ s.pcie.up = true ∧ s.pcie.reqs = [r] ∧ 0x40 % 128 = r.addr % 128 ∧ r.left = 64 ∧ data0.length = r.left ∧ (data0.take 32).length < r.left
          ∧ s.burstOf r.user = some (0, b) ∧ isPriv 0 = true ∧ (s.chan 0).bursts = [b] ∧ b.next = false ∧ (s.chan 0).stop = .none ∧ b.start ≤ (s.chan 0).total ∧ s.engineFree 0)
      ∧ linked.pcie.reqs = [] ∧ linked.burstOf (.burst 0 0) = none ∧ linked.carries (.vf 0) ∧ reaches (.vf 0) 0 = true := by
  refine ⟨by decide, by decide, by decide, by decide, by decide, by decide, by decide, by decide, by decide⟩

theorem witness_FunctionsResetLockAndSignal :
    (linked.quiet ∧ linked.pcie.up = true ∧ linked.pcie.reqs = [] ∧ ∀ e ∈ linked.queues, e.2.en = true → queueInHost e.2 = false)
      ∧ (let s : State := { on with pwr := { on.pwr with perstHigh := true }, pcie := {} }; linkTrains 6 16 true = true ∧ linkTrains 0 16 true = false ∧ s.quiet ∧ s.pcie.up = false ∧ s.pwr.perstHigh = true ∧ s.pwr.powered = true)
      ∧ (∀ e ∈ on.queues, e.1 / 128 = 0 → e.2.en = false)
      ∧ (∀ d : Fin 4, let s : State := { linked with vfs := [(0, { tdi := d })], sec := { on.sec with sessions := [(0, { established := true })] } };
        s.quiet ∧ (s.vf 0).tdi = d ∧ s.inSession 0 = true) ∧ linked.inSession 0 = false
      ∧ (let s : State := { linked with pcie := { linked.pcie with msix := [(16 * 2048 + 2047, { pending := true })] } };
        (s.pcie.msix.get {} (16 * 2048 + 2047)).pending = true ∧ s.pcie.msixOff.testBit 16 = false ∧ s.pcie.up = true)
      ∧ (linked.pcie.msix.get {} 0).pending = false := by decide

/-- Queue 0 of partition 0 runs with its ring at PPA 0x1000, whose entries are entry OP with VALUE 1. -/
def queueing (op : Nat) : State :=
  { on with queues := [(0, { ring := 4 * 2 ^ 56 + 0x1000, ctx := 7, en := true, tail := 1, state := 2 })]
            mem := placed 0x1000 (leBytes 4 (2 ^ 31 + op) ++ zeros 4 ++ leBytes 8 1)
            fences := [(0, if op = 3 then 0 else 1)] }
/-- The bytes of that entry. -/
def entry (op : Nat) : List Byte := leBytes 4 (2 ^ 31 + op) ++ zeros 4 ++ leBytes 8 (1) ++ zeros 112

theorem witness_QueuesRunEntriesAndFences :
    (∀ st : Fin 5, let s : State := { on with queues := [(127, { ring := 12 * 2 ^ 56, en := decide (st ≠ 0), state := st })] };
      s.carries (.vf 0) ∧ reaches (.vf 0) 0 = true ∧ (s.queue 0 127).en = decide (st ≠ 0) ∧ (s.queue 0 127).len ≠ 0 ∧ (s.queue 0 127).state = st
        ∧ (s.part 0).state ≠ .building ∧ s.ctxLost 0 0 = false ∧ (s.queue 0 127).ctx = 0 ∧ (s.queue 0 127).vector = 8)
      ∧ bits (BitVec.ofNat 64 (8 * 65536) : Word64).toNat 21 16 = 8 ∧ bits (BitVec.ofNat 64 (8 * 65536) : Word64).toNat 55 44 = 0 := by decide

theorem witness_QueuesRunEntriesAndFences_entries :
    (∀ op : Fin 4, op = 1 ∨ ((queueing op).fetches 0 0 (entry op) ∧ (queueing op).noWaits 0 ∧ (fld (entry op) 0 4).testBit 29 = false
        ∧ (queueing op).inPpa 0 (queueAddr ((queueing op).queue 0 0) 0) 128 = true ∧ bits (fld (entry op) 0 4) 7 0 = op))
      ∧ (queueing 2).waitOutcome 0 { idx := 0, bytes := entry 2 } = some St.ok
      ∧ (let s : State := { queueing 2 with fences := [] }; s.fetches 0 0 (entry 2) ∧ s.waitOutcome 0 { idx := 0, bytes := entry 2 } = none) := by decide

theorem witness_QueuesRunEntriesAndFences_store : ∀ op : Fin 4, let s0 := (queueing op).fetched 0 0 (entry op)
    let w1 := s0.ppaStore 0 0x1038 (leBytes 8 0) false
    w1.2 = St.ok ∧ (w1.1.ppaStore 0 0x1000 (leBytes 4 op) false).2 = St.ok := by decide

/-- A task descriptor: cell 0 of site 0, SPAN 1 (07 R166). -/
def taskBytes : List Byte := zeros 2 ++ [1] ++ zeros 13 ++ [1] ++ zeros 47
/-- A TASK entry with it. -/
def taskEntry : List Byte := leBytes 4 (2 ^ 31 + 1) ++ zeros 60 ++ taskBytes

theorem witness_QueuesRunEntriesAndFences_task :
    let s : State := { queueing 1 with mem := placed 0x1000 taskEntry };
    s.fetches 0 0 taskEntry ∧ bits (fld taskEntry 0 4) 7 0 = 1 ∧ bslice taskEntry 0x40 64 = taskBytes
      ∧ (s.fetched 0 0 taskEntry).taskDenied 0 taskBytes (taskOf 7 taskBytes (.queue 0 0)) = false := by decide
/-- The capability words of a Renyr chiplet at level 1.2 with every feature. -/
def caps : Tab Nat := [(0, 0x10102), (1, 2 ^ 63 + 2 ^ 53 + 2 ^ 52 + 2 ^ 51), (2, 100 * 2 ^ 56 + 75 * 2 ^ 16), (3, 255)]
/-- Site 1, which serves no partition, in a state. -/
def sited (t : Site) : State :=
  { on with sites := [(1, t)] }
/-- Site 1 about to take its last word. -/
def site1 : Site := { step := 1, state := 4, capPeer := caps.take 3, capGot := 7, capAcked := 15 }

theorem witness_SitesComeUpInSteps_negotiation :
    (let s := sited { step := 1, state := 4 }; s.quiet ∧ s.noCellWaits ∧ (s.site 1).step = 1 ∧ (s.site 1).capGot = 0)
      ∧ (let t : Site := { site1 with capPeer := caps, capGot := 15 }
        let s := sited t
        (s.site 1).capGot = 15 ∧ s.negRefused 1 = false ∧ (t.cap 1).testBit 51 = true ∧ bits (t.cap 2) 63 56 ≤ 110 ∧ 50 ≤ bits (t.cap 2) 23 16 ∧ bits (t.cap 2) 23 16 ≤ 100)
      ∧ (let s := sited { site1 with capGot := 15 }; s.spareSite 1 ∧ (s.site 1).state ≠ 2 ∧ s.negRefused 1 = true) := by decide

theorem witness_SitesComeUpInSteps_steps :
    (∀ k : Fin 5, ((sited { step := k }).site 1).step = k)
      ∧ (let s := sited { site1 with step := 3, capPeer := caps, capGot := 15 }
        s.quiet ∧ widthsOk (s.site 1) [0, 0, 0, 2] = true ∧ widthsOk (s.site 1) [2, 2, 2, 0] = false ∧ s.spareSite 1 ∧ (s.site 1).state ≠ 2)
      ∧ (let s := sited { step := 4, state := 4, identGot := 31 }; s.spareSite 1 ∧ setBit (s.site 1).identGot 5 = 63 ∧ setBit (s.site 1).identGot 4 ≠ 63)
      ∧ (let s := sited { power := 2, state := 1 }; s.spareSite 1 ∧ (s.site 1).power ≠ 0 ∧ (s.site 1).state ≠ 2) := by decide

theorem witness_SitesFailAndForeignRequestsPassWindows_commands :
    (let s := sited { state := 1, power := 2, mods := [(0, { width := 2 })] }
    s.carries .mctp ∧ isOper .mctp = true ∧ (s.site 1).fitted ≠ 0 ∧ s.resetAllowed 1 = true ∧ s.siteOwned 1 = false ∧ s.siteOwned 0 = true ∧ s.siteRuns 1 = true
      ∧ bits (256 : Word64).toNat 11 8 = 1 <<< 0 ∧ (s.umod 1 0).width ≠ 0)
      ∧ (let s := sited { state := 5, mods := [(3, { busy := true })] }
        s.quiet ∧ s.noCellWaits ∧ (s.umod 1 3).busy = true ∧ (s.umod 1 3).trained = 0 ∧ (s.umod 1 3).peer = none ∧ (s.umod 1 3).disagree = 0 ∧ s.onRoute 1 3 = false
          ∧ s.spareSite 1)
      ∧ (let s := sited { state := 5, mods := [(0, { busy := true, trained := 2, disagree := 1 })] }
        (s.umod 1 (bits (0 : Word64).toNat 52 50)).busy = true ∧ (s.umod 1 0).trained ≠ 0 ∧ (s.umod 1 0).narrowed = false ∧ 1 ≤ (s.umod 1 0).disagree ∧ s.spareSite 1)
      ∧ (let s : State := { sited { state := 5, mods := [(0, { busy := true })] } with fab := { on.fab with routes := [(1 * 32 + 2, 1)] } };
        s.onRoute 1 0 = true ∧ s.spareSite 1)
      ∧ (let s := sited { state := 1, power := 2 }; s.spareSite 1 ∧ (s.site 1).state ≠ 2 ∧ (s.site 1).power = 2)
      ∧ ((sited { power := 1 }).site 1).power ≠ 2 := by decide

theorem witness_SitesFailAndForeignRequestsPassWindows_requests :
    (let s : State := { on with sites := [(0, { state := 1, kind := 2 })], regs := [(winAddr 0 0 8, 0x10000), (winAddr 0 0 16, 3)] };
    s.quiet ∧ s.ownerCell 0 = some 0 ∧ s.foreignOpen 0 0 = true ∧ s.fab.held = [] ∧ s.injOpen 0 0 0 = true ∧ s.streamCheck 0 0 0 false 64 64 = none
      ∧ s.streamCheck 0 0 0 true 64 64 = none ∧ s.inPpa 0 ((s.window 0 0).1 + 64) 64 = true ∧ (s.ppaPeek 0 64 64).2.2 = St.ok ∧ s.protected 0 64 64 = false
      ∧ s.ppaToHpa 0 0x5000 = some 0x5000)
      ∧ (let s : State := { on with sites := [(0, { state := 1, kind := 2 })], fab := { on.fab with acting := [(injKey 0 0 0, 1)] } };
        s.foreignOpen 0 0 = true ∧ s.injOpen 0 0 0 = false) := by decide

theorem witness_SitesComeUp_foreign :
    (let t : Site := { site1 with capPeer := caps.set 0 1 (2 ^ 63 + 2 ^ 53 + 2 ^ 52), capGot := 15 }
    let s := sited t
    (s.site 1).capGot = 15 ∧ (s.site 1).capAcked = 15 ∧ s.negRefused 1 = false ∧ (t.cap 1).testBit 51 = false ∧ s.sec.fuses.integration = none) := by decide

theorem witness_SitesFail_clauses :
    (let s := sited { fitted := 0 }; s.pwr.stage ≠ 0 ∧ (s.site 1).fitted = 0 ∧ s.resetAllowed 1 = true ∧ (s.site 1).step = 0)
      ∧ (let s := sited { state := 5, features := 64, mods := [(3, { busy := true, trained := 2 })] }; (s.site 1).features.testBit 6 = true ∧ (s.umod 1 3).trained ≠ 0)
      ∧ isFirmware (.firmware 0) = true := by decide
/-- Port 0 in a state and mode of its ETH_PORTS entry (dedicated to partition 0 in mode 1), with partition 0's Ethernet state and queues. -/
def ported (x : Port) (mode : Byte) (e : EthPart := {}) (q : TxQ := {}) (r : RxQ := {}) : State :=
  { on with net := { on.net with ports := [(0, x)], parts := [(0, e)], txqs := [(0, q)] }, rxqs := [(0, r)]
            pat := { on.pat with running := some { pattern0 with ports := [(0, { raw := [mode, 0] })] } } }
/-- A frame that waits to leave. -/
def txFrame0 : TxFrame := { part := 0, q := 0, idx := 0, user := 9, prio := 3, qp := none, bytes := data0 }

theorem witness_PortsAndTransmitQueuesSend_ports :
    (∀ st : Fin 3, let s := ported { state := st } 1; s.quiet ∧ (s.port 0).state = st ∧ s.portMode 0 = 1) ∧ (ported {} 2).portMode 0 ≠ 1
      ∧ (∀ paused : Bool, let s0 := ported { state := 2, rxPaused := if paused then 8 else 0 } 1
        let s : State := { s0 with net := { s0.net with txWait := [(0, [txFrame0])] } };
        s.unprotected 0 ∧ (s.net.txWait.get [] 0)[0]? = some txFrame0 ∧ s.mayLeavePort 0 0 txFrame0 = !paused ∧ txFrame0.qp = none)
      ∧ (let s := ported {} 1 {} { desc := 6 * 2 ^ 60, cq := 6 * 2 ^ 60 }
        s.carries (.vf 0) ∧ s.ownerEthQ 0 = some 0 ∧ reaches (.vf 0) 0 = true ∧ (s.txq 0).ctrl.testBit 0 = false
          ∧ s.ownerCore (bits (1 : Word64).toNat 23 17) = some 0 ∧ canEnable (s.txq 0).desc (s.txq 0).cq = true) := by decide

/-- Transmit queue 0 with one descriptor of an OP for 64 bytes at PPA 0x3000, and QP 0 in RTS. -/
def sending (op : Nat) : State :=
  { ported { state := 2 } 1 { qps := [(0, { state := 3 })] } { ctrl := 1, desc := 6 * 2 ^ 60 + 0x1000, cq := 6 * 2 ^ 60 + 0x2000, tail := 1 } with
    mem := placed 0x1000 (leBytes 8 (op * 2 ^ 48 + 0x3000) ++ leBytes 8 64) }

theorem witness_PortsAndTransmitQueuesSend_sends :
    ∀ op : Fin 6, (sending op).quiet ∧ (sending op).ownerEthQ 0 = some 0 ∧ (sending op).txReady 0 0 op = true ∧ ((sending op).txDesc 0 0).status = St.ok
      ∧ ((sending op).txDesc 0 0).len = 64 ∧ ((sending op).qp 0 0).state = 3 ∧ ((sending op).qp 0 0).ud = false ∧ (sending op).canSend 0 0 = true ∧ (sending op).hasRate 0 0 = true ∧ boundFields ((sending op).txq 0).ctrl = boundFields (0 : Word64).toNat
      ∧ (sending op).injOpen 0 25 0 = true ∧ ((sending op).ppaPeek 0 0x3000 64).2 = (false, St.ok) ∧ (sending op).hasPort 0 0 = true ∧ ((sending op).txDesc 0 0).op = op := by decide

theorem witness_PortsAndTransmitQueuesSend_down :
    let s : State := { sending 0 with net := { (sending 0).net with ports := [] } }
    s.quiet ∧ (s.port 0).state ≠ 2 ∧ s.ownerEthQ 0 = some 0 ∧ s.txReady 0 0 0 = true ∧ (s.txDesc 0 0).status = St.ok ∧ s.hasPort 0 (s.txDesc 0 0).k = true
      ∧ (s.txDesc 0 0).k = 0 ∧ (s.txDesc 0 0).op = 0 ∧ (s.txDesc 0 0).len = 64 ∧ (s.qp 0 0).port = 0 ∧ (s.qp 0 0).state = 3 ∧ (s.qp 0 0).ud = false := by decide

theorem witness_PortsAndTransmitQueuesSend_context :
    let s := ported { state := 2 } 1
    let b := (s.ppaPeek 0 (bits (s.eth 0).qpBase 39 7 * 128 + 0) 128).1
    s.carries (.vf 0) ∧ (s.ppaPeek 0 0 128).2 = (false, St.ok) ∧ s.ownerEthQ (fld b 4 2) = some 0 ∧ fld b 4 2 < 4096 ∧ s.qpContextOk 0 b = true := by decide

theorem witness_RoceServesRequests :
    (let s := ported { state := 2 } 1 { qps := [(0, { state := 2, rqPsn := 5 })], mrBase := 0x2000 } {} { ctrl := 1, desc := 6 * 2 ^ 60, cq := 6 * 2 ^ 60, tail := 1 }
    let x := s.qp 0 0
    s.unprotected 0 ∧ (s.port x.port).state = 2 ∧ x.state = 2 ∧ x.ud = false ∧ s.rxBehind x.port x.rxq = false ∧ psnOf 6 ≠ x.rqPsn ∧ psnLe x.rqPsn 6 = true
      ∧ psnOf 5 = x.rqPsn ∧ (s.rxq x.rxq).room = true ∧ (s.noteRegion 0 0).regionOk 0 0 0x100 64 1 = false
      ∧ s.ready 0 = true ∧ s.injOpen (s.qpHalf 0 0) 25 0 = true)
      ∧ (let s : State := { ported { state := 2 } 1 { qps := [(0, { state := 2, rqPsn := 5 })], mrBase := 0x2000 } with
                            mem := placed 0x2000 (zeros 8 ++ leBytes 8 0x10000 ++ leBytes 8 (2 ^ 63 + 3)) };
        (s.noteRegion 0 0).regionOk 0 0 0x100 64 1 = true ∧ (s.noteRegion 0 0).regionOk 0 0 0x100 64 0 = true ∧ (s.noteRegion 0 0).inPpa 0 0x100 64 = true
          ∧ ((s.noteRegion 0 0).ppaPeek 0 0x100 64).2 = (false, St.ok) ∧ (s.twin 0).state ≠ 4) := by decide

theorem witness_RoceServesRequests_store :
    let s := ported { state := 2 } 1
    ((s.noteRegion 0 0).ppaStore 0 0x100 data0 false (s.netVia (s.qpHalf 0 0) 0)).2 = St.ok := by decide

/-- A send of 64 bytes that awaits its answer. -/
def send0 (op : Nat) : SendOp := { psn := 5, last := 5, q := 0, idx := 0, op := op, user := 9, addr := 0x3000, len := 64, imm := 0, raddr := 0, rkey := 0 }

theorem witness_RoceCompletesRequests :
    (∀ op : Fin 6, let s := ported { state := 2 } 1 { qps := [(0, { state := 3, sqPsn := 6, retry := 7, sends := [send0 op] })] }
      let x := s.qp 0 0; let o := send0 op
      s.unprotected 0 ∧ s.canSend x.port x.prio = true ∧ s.hasRate x.port 0 = true ∧ x.ud = false ∧ x.state = 3 ∧ x.sends = [o] ∧ psnLe o.last 5 = true ∧ psnLe 5 (x.sqPsn + 2 ^ 24 - 1) = true ∧ psnLe o.psn 5 = true
        ∧ psnOf (5 + 2 ^ 24 - o.psn) * x.mtu = o.got ∧ s.inPpa 0 (o.addr + o.got) 64 = true ∧ (s.twin 0).state ≠ 4 ∧ (data0.take 32).length < o.len
        ∧ o.len ≤ o.got + (data0.take o.len).length ∧ (s.ppaPeek 0 o.addr o.len).2 = (false, St.ok) ∧ x.retries < x.retry % 8
        ∧ s.ready 0 = true ∧ (s.port x.port).state = 2 ∧ s.injOpen (s.qpHalf 0 0) 25 0 = true)
      ∧ (let s := ported { state := 2 } 1 { qps := [(0, { state := 3, sends := [send0 1] })] }; (s.qp 0 0).retry % 8 ≤ (s.qp 0 0).retries)
      ∧ (let s := ported { state := 2 } 1 { qps := [(0, { state := 3, rate := 100 })] }; (s.qp 0 0).sends = [] ∧ (s.qp 0 0).state = 3 ∧ (s.qp 0 0).rate ≠ 0)
      ∧ ((on.qp 0 0).state ≠ 3 ∧ (on.qp 0 0).rate = 0) := by decide

theorem witness_RoceCompletesRequests_store :
    (on.ppaStore 0 0x3000 data0 false (on.netVia (on.qpHalf 0 0) 0)).2 = St.ok ∧ (on.ppaStore 0 0x3000 (data0.take 32) false (on.netVia (on.qpHalf 0 0) 0)).2 = St.ok := by decide
/-- A ring port that is up. -/
def ringPort1 : RingPort := { lanes := 255, link := 2, dark := false }
/-- Frames that await acknowledgement. -/
def frames : List RingFrame := [{ seq := 4, cls := 2, dest := 1, payload := [1] }, { seq := 5, cls := 2, dest := 1, payload := [2] }]
/-- The adit is OPEN and both ports are up, port 0 with frames 4 and 5 not acknowledged and frame 7 expected. -/
def ringed : State :=
  { on with ring := { adit := 1, position := 3, size := 4, ports := [(0, { ringPort1 with nextSeq := 6, expect := 7, retry := frames }), (1, ringPort1)] } }

theorem witness_RingPortsSendAndReplay :
    (ringed.quiet ∧ ringed.ringUp 0 = true ∧ (ringed.ringPort 0).expect < 8 ∧ 6 < (ringed.ringPort 0).expect ∧ (3 : Fin 64).val = ringed.ring.position
      ∧ (4 : Fin 64).val ≠ ringed.ring.position ∧ (ringed.ringPort 0).waiting = [] ∧ ringed.ringUp 1 = true)
      ∧ (let s : State := { ringed with ring := { ringed.ring with ports := [(0, { lanes := 15, link := 2, dark := false })] } };
        popCount 8 (clearBit (s.ringPort 0).lanes 0) < 4 ∧ (s.ringPort 0).link ≠ 0 ∧ Tab.wf {} s.twins = true)
      ∧ 4 ≤ popCount 8 (clearBit (ringed.ringPort 0).lanes 7) ∧ 4 ≤ popCount 8 (15 : BitVec 8).toNat ∧ (on.ringPort 0).link = 0 ∧ ringed.ring.adit = 1
      ∧ Tab.wf 0 ringed.ring.members = true ∧ ringed.carries .mctp ∧ isOper .mctp = true ∧ ringed.ring.adit ≠ 0 ∧ 3 ≤ on.pwr.stage ∧ on.ring.adit ≠ 1
      ∧ (let s : State := { on with ring := { adit := 2, aditTo := 1 } }; s.quiet ∧ s.ring.adit = 2) := by decide

theorem witness_RingPortsSendAndReplay_twin :
    ({ ringed with sec := { ringed.sec with keys := { ringed.sec.keys with pair := true } } } : State).twinAt (Config.twinPos 0) = true := by
  simp [State.twinAt, ringed, on]

/-- Group 1 of partition 0 ready on positions 0 to 3, with collective c in progress, and descriptor b posted. -/
def grouped (c : Option Coll) (b : List Byte) : State :=
  { ringed with colls := [(0, { ring := 4 * 2 ^ 56 + 0x1000, tail := if c.isNone then 1 else 0, groups := [(1, { state := 2, members := 15, running := c })] })]
                mem := placed 0x1000 b }
/-- A descriptor of an OP over 256 INT32 elements from PPA 0x4000 to PPA 0x8000. -/
def coll0 (op : Nat) : List Byte := leBytes 1 op ++ [0x11, 1, 0, 0, 0, 0, 0] ++ leBytes 8 256 ++ leBytes 8 0x4000 ++ leBytes 8 (if op = 3 then 0x4000 else 0x8000) ++ zeros 32

theorem witness_CollectivesRunInSteps_groups :
    (let s : State := { ringed with mem := placed 0 (leBytes 8 15) };
    s.carries (.vf 0) ∧ reaches (.vf 0) 0 = true ∧ s.unprotected 0 ∧ s.ready 0 = true ∧ s.sec.fwState ≠ 4 ∧ (s.group 0 0).state ≠ 1
      ∧ (s.ppaPeek 0 0 64).2.2 = St.ok ∧ (fld (s.ppaPeek 0 0 64).1 0 8).testBit s.ring.position = true)
      ∧ (fld (ringed.ppaPeek 0 0 64).1 0 8).testBit ringed.ring.position = false
      ∧ (let s : State := { on with colls := [(0, { groups := [(15, { state := 1 })] })] };
        s.unprotected 0 ∧ (s.group 0 15).state = 1 ∧ s.sec.keyWaits.contains (.group 0 15) = false) := by decide

theorem witness_CollectivesRunInSteps_posts :
    (let s := grouped none (coll0 1); let c := { s.coll 0 with tail := 1 }; let d := collDesc (coll0 1)
    c.len ≠ 0 ∧ c.tail % c.len = (c.head + 1) % c.len ∧ s.ppaPeek 0 (c.entry (c.head % c.len)) 64 = (coll0 1, false, St.ok) ∧ d.group = 1 ∧ (s.group 0 1).running = none
      ∧ s.collRefused 0 d = none ∧ (s.group 0 1).early = [] ∧ (s.group 0 1).ahead = [] ∧ 1 < (s.collGeo (s.group 0 1) d).n ∧ d.op ≠ 2
      ∧ ∀ aft : Bool, let x := s.collGeo (s.group 0 1) d; (s.readChunk 0 x d.src d.srcScale (x.elem aft (x.first aft))).2.2.2.2 = St.ok)
      ∧ (grouped none (coll0 0)).collRefused 0 (collDesc (coll0 0)) = some St.denied := by decide

theorem witness_CollectivesRunInSteps_frames :
    ∀ step : Fin 5, let c : Coll := { seq := 0, desc := coll0 3, foreGot := step }; let s := grouped (some c) (coll0 3); let d := collDesc c.desc
      let x := s.collGeo (s.group 0 1) d; let r := s.readChunk 0 x d.src d.srcScale (x.elem false (x.recv false step))
      s.unprotected 0 ∧ s.ready 0 = true ∧ (s.group 0 1).state = 2 ∧ s.collIdle 0 ∧ (s.group 0 1).running = some c ∧ step = c.foreGot ∧ step + 1 < x.steps
        ∧ collBytes d.fmt x.chunk = 128 ∧ isMx d.fmt = false ∧ x.reduces step = decide (step.val < 3) ∧ (step + 1 < x.n - 1 ∨ x.n - 1 ≤ step + 1)
        ∧ r.2.2.2.2 = St.ok ∧ (s.writeChunk 0 x (x.elem false (x.recv false step)) (zeros 128) [] false).2 = St.ok := by decide

theorem witness_CollectivesRunInSteps_ends :
    (let s := grouped (some { seq := 0, desc := coll0 1 }) (coll0 1); s.unprotected 0 ∧ s.collIdle 0 ∧ (s.group 0 1).running = some { seq := 0, desc := coll0 1 } ∧ (s.group 0 1).state = 2)
      ∧ (let s : State := { grouped none [] with colls := [(0, { groups := [(1, { state := 2 })] })] };
        s.collIdle 0 ∧ (s.group 0 1).state = 2 ∧ (s.group 0 1).running = none ∧ (s.group 0 1).seq ≤ 5 ∧ (s.group 0 1).early = []) := by decide

/-- Partition 0's twin in a state, the pair key agreed. -/
def twinned (x : Twin) : State := { ringed with twins := [(0, x)], sec := { ringed.sec with keys := { ringed.sec.keys with pair := true }, drbgHealthy := true } }

theorem witness_TwinsMirrorAndTakeOver :
    (let s := twinned {}
    s.carries (.vf 0) ∧ reaches (.vf 0) 0 = true ∧ s.stillPart 0 ∧ s.sec.fwState ≠ 4
      ∧ (s.ready 0 && (s.slice 0).mirror && s.sec.keys.pair && true && (s.twin 0).state == 0) = true ∧ s.unprotected 0 ∧ s.mayStandBy 0 = true ∧ 1 < s.regions 0)
      ∧ (∀ k : Fin 3, let s := twinned { state := 2, phase := k }
        s.stillPart 0 ∧ (s.twin 0).phase = k ∧ s.ready 0 = true ∧ s.atBoundary 0 = true)
      ∧ (∀ k : Fin 2, let s := twinned { state := 4, checkpoint := k }
        s.unprotected 0 ∧ (s.twin 0).state = 4 ∧ (s.twin 0).checkpoint = k ∧ (s.twin 0).staged = [] ∧ s.inPpa 0 0x3000 64 = true)
      ∧ (let s := twinned { state := 2, log := 6 * 2 ^ 56, logTail := 5 }
        (s.twin 0).logLen ≠ 0 ∧ (s.twin 0).state ≠ 0 ∧ (let m := (s.twin 0).logLen; (3 + m - 0) % m < (5 + m - 0) % m ∧ (5 + m - 0) % m ≤ (6 + m - 0) % m))
      ∧ (let s : State := { twinned { state := 5 } with codes := [(0, { running := 1 })] }; (s.twin 0).state = 5 ∧ s.ready 0 = true ∧ (s.code 0).running.testBit 0 = true)
      ∧ (let s : State := { on with twins := [(0, { state := 2 })] };
        s.quiet ∧ (s.ringPort 0).dark = true ∧ (s.ringPort 1).dark = true ∧ s.pat.cand = none ∧ s.flights = [] ∧ s.noCellWaits ∧ (s.slice 0).mirror = true
          ∧ (s.twin 0).state ≠ 0 ∧ (s.twin 0).state ≠ 6 ∧ (s.part 0).state = .ready) := by decide

theorem witness_TwinsMirrorAndTakeOver_pair :
    ∀ b : Bool, let s : State := { ringed with sec := { ringed.sec with fuses := { ringed.sec.fuses with twinActive := true }, drbgHealthy := b } };
      s.quiet ∧ s.sec.fuses.twinActive = true ∧ 3 ≤ s.pwr.stage ∧ s.ring.adit = 1 ∧ s.sec.drbgHealthy = b := by decide

theorem witness_TwinsMirrorAndTakeOver_log : ((twinned { state := 4 }).ppaStore 0 0x3000 data0 false).2 = St.ok := by decide
/-- The running module with other security controllers. -/
def secured (c : Sec) : State := { on with sec := c }

theorem witness_SignedRequestsAreChecked_presented :
    ∀ kind : Fin 10, let s := secured { reqBuf := [(6, BitVec.ofNat 8 (kind.val + 1))] }
      s.carries .mctp ∧ isOper .mctp = true ∧ s.sec.reqBuf.get 0 6 = BitVec.ofNat 8 (kind.val + 1) ∧ s.sec.fuses.pending = false ∧ s.reqRuns = false
        ∧ s.pwr.pwrFail = false ∧ s.sec.closed.contains 0x115 = false ∧ s.sec.fwState ≠ 4 ∧ s.effClass 0x115 255 = .note := by decide

theorem witness_SignedRequestsAreChecked_ends :
    (∀ k : Bool, let s : State := { pwr := { powered := true }, sec := { reqPhase := 2, fuses := { pending := true, intent := if k then 5 else 4 } } };
      s.quiet ∧ s.sec.fuses.pending = true ∧ s.pwr.stage = 0 ∧ s.pwr.powered = true ∧ s.pwr.pwrFail = false ∧ s.sec.reqPhase = 2)
      ∧ (on.sec.fuses.pending = false ∧ on.sec.keyWaits = [])
      ∧ (∀ w ∈ [KeyWait.request, .rotate 0, .group 0 15, .pair, .session 16], (secured { keyWaits := [w] }).sec.keyWaits = w :: [])
      ∧ (let s : State := { sec := { keyWaits := [.pair], drbgHealthy := false } }; s.quiet ∧ s.pat.parts = [] ∧ s.sec.keyWaits = [.pair]) := by decide

theorem witness_SignedRequestsAreChecked_job :
    let j : FuseJob := { kind := 8, target := 0 }; let s := secured { fuseJob := some j }; s.quiet ∧ s.pending = [] ∧ s.sec.fuseJob = some j := by decide

theorem witness_SignedRequestsAreChecked_images : (∀ n, (on.code n).images = []) ∧ ∀ n, (({ sec := { keyWaits := [.pair] } } : State).code n).images = [] :=
  ⟨fun _ => rfl, fun _ => rfl⟩

theorem witness_FirmwareDebugAndTestAccess :
    (on.quiet ∧ on.pwr.powered = true ∧ on.pwr.pwrFail = false ∧ on.sec.fwState ≠ 4 ∧ on.logRoom = true ∧ on.sec.fuses.pending = false)
      ∧ (on.carries .mctp ∧ isOper .mctp = true ∧ on.carries (.partAlias 0) ∧ reaches (.partAlias 0) 0 = true)
      ∧ (let s := secured { fwState := 4, fwStaged := some { version := 2 } }; s.quiet ∧ s.sec.fwState = 4 ∧ s.sec.fwStaged = some { version := 2 })
      ∧ (on.confOk 0 = true ∧ on.confOk 1 = false)
      ∧ ((secured { debugGrant := 1 }).sec.fuses.lcs = .deployed ∧ (on.part 0).conf = false ∧ (secured { debugGrant := 1 }).sec.debugGrant.testBit 0 = true)
      ∧ (let s : State := { on with pat := { on.pat with parts := [(0, { state := .ready, slice := own, debugAuth := true, debugged := true })] } };
        (1 : BitVec 32).toNat.testBit 0 = true ∧ (1 : BitVec 32).toNat.testBit 15 = false ∧ (s.part 0).debugAuth = true ∧ (s.part 0).debugged = true)
      ∧ (on.tapBypassed (.site 11) = true ∧ on.tapBypassed (.half 1) = false ∧ on.sec.closed.contains 0x116 = false ∧ on.tapOpen (.half 1) = false
        ∧ on.effClass 0x116 255 = .note ∧ (secured { fuses := { lcs := .test } }).tapOpen (.half 0) = true) := by decide

theorem witness_AttestationAnswers :
    (on.carries (.vf 0) ∧ reaches (.vf 0) 0 = true ∧ (on.part 0).hmRun = none ∧ on.hallmarkAt 0 = St.ok ∧ (on.ppaPeek 0 0x1000 32).2 = (false, St.ok)
      ∧ on.unprotected 0 ∧ on.hallmarkAt 1 ≠ St.ok)
      ∧ (({ on with lines := [(64, { dross := true })] } : State).ppaPeek 0 0x1000 32).2 = (true, St.ok)
      ∧ (let r : HmRun := { token := 1, area := 0x1000, nonce := zeros 32, blocks := [] }
        let s : State := { on with pat := { on.pat with parts := [(0, { state := .ready, slice := own, hmRun := some r })] } };
        s.unprotected 0 ∧ (s.part 0).hmRun = some r ∧ (s.part 0).hmRun ≠ none ∧ (s.part 0).state ≠ .building
          ∧ (let b : State := { building .drain with pat := { parts := [(0, { state := .building, slice := own, hmRun := some r })] } }; (b.part 0).hmRun = some r ∧ (b.part 0).state = .building))
      ∧ (∀ b : Bool, let s : State := { linked with sec := { keys := { alias_ := b }, drbgHealthy := b, sessions := [(16, { open_ := b, established := b })] } };
        s.quiet ∧ s.spdmLive 16 = true ∧ s.spdmLive 0 = true ∧ s.sec.fwState ≠ 4 ∧ s.sec.keys.alias_ = b ∧ s.sec.drbgHealthy = b
          ∧ (s.sec.sessions.get {} 16).open_ = b ∧ s.inSession 16 = b) := by decide

/-- A record of the sealed log. -/
def rec0 : LogRec := { seq := 0, boot := 0, uptime := 0, event := 0x20, scope := 255, status := 0, role := 0, detail := zeros 16, chain := zeros 16 }

theorem witness_AlarmsQuenchAndTheLogIsRead :
    (∀ src : Fin 6, let s := secured { drbgHealthy := false }
      s.quiet ∧ s.railOn 8 = true ∧ railOf 0 8 = true ∧ s.sec.fuseJob = none ∧ s.sec.fuses.pending = false ∧ s.sec.drbgHealthy = false ∧ s.pwr.powered = true ∧ s.sec.canaries.contains (src.val + 1) = false ∧ s.sec.reqPhase ≠ 2)
      ∧ railOf 1 1 = false ∧ railOf 1 0 = true ∧ on.railOn 0 = true
      ∧ (secured { canaries := [1, 2, 3, 4, 5, 6] }).sec.canaries.contains 6 = true
      ∧ (let s := secured { notesNew := [(0x116 * 256 + 255, 3)] }
        s.quiet ∧ s.sec.notesNew.get 0 (0x116 * 256 + 255) = 3 ∧ s.pwr.powered = true ∧ s.pwr.pwrFail = false ∧ s.sec.log.next - s.sec.log.acked < 65536)
      ∧ (on.carries (.vf 0) ∧ (on.part 0).raise ||| ((0x100001 : Word64).toNat &&& 0x1F003F) = 0x100001 ∧ (on.part 0).raise = 0)
      ∧ (let s := secured { log := { next := 1, recs := [rec0] } }
        let v : Word64 := BitVec.ofNat 64 (64 * 256)
        s.carries .mctp ∧ bits v.toNat 55 15 = 0 ∧ bits v.toNat 7 2 = 0 ∧ bits v.toNat 14 8 = 64 ∧ s.sec.log.next - s.sec.log.recs.length ≤ (s.reader 16).seq
          ∧ (s.reader 16).seq < s.sec.log.next ∧ readerOf .mctp = 16)
      ∧ on.sec.log.next ≤ (on.reader 16).seq := by decide
/-- The running module with other power state. -/
def poweredAs (p : Pwr) : State := { on with pwr := p }

theorem witness_FeedsAndPowerLimit :
    (on.quiet ∧ (394 : Fin 1024).val < 395 ∧ 395 ≤ (395 : Fin 1024).val ∧ (610 : Fin 1024).val ≤ 610 ∧ on.pwr.feed .a = .good ∧ (384 : Fin 1024).val < 385
      ∧ 620 < (621 : Fin 1024).val ∧ on.pwr.feed .b ≠ .good ∧ on.pwr.powered = true ∧ on.pwr.pithead = true ∧ on.sec.fuseJob = none ∧ on.sec.fuses.pending = false ∧ on.carries .mctp ∧ isOper .mctp = true)
      ∧ (poweredAs { feedA := .good, feedB := .good, powered := true }).pwr.feedB = .good
      ∧ (let s := poweredAs { feedA := .under, powered := true }
        s.pwr.powered = true ∧ s.pwr.pwrFail = false ∧ s.pwr.feedA ≠ .good ∧ s.pwr.feedB ≠ .good ∧ s.sec.fuseJob = none ∧ s.sec.fuses.pending = false)
      ∧ (let s : State := { poweredAs { feedA := .under, powered := true } with sec := { on.sec with fuseJob := some { kind := 8, target := 0 } } }; s.pwr.pwrFail = false ∧ s.sec.fuseJob.isSome = true
        ∧ s.sec.fuses.pending = false)
      ∧ State.reset.quiet ∧ State.reset.pwr.powered = false := by decide

/-- A module that may start. -/
def starting : State := { pwr := { feedA := .good, powered := true, pithead := true } }

theorem witness_StartGoesByStagesAndResetsWipe_start :
    (let s := poweredAs { powered := true }; s.quiet ∧ s.pwr.powered = true ∧ s.pwr.pithead = false ∧ s.pwr.pwrFail = false)
      ∧ (starting.mayStart = true ∧ on.mayStart = false)
      ∧ (let s : State := { starting with sec := { fwRunning := { signed := false } } }; s.mayStart = true ∧ s.bootImage.isNone = true)
      ∧ (let s : State := { pwr := { powered := true, pithead := true, stage := 1 }, sites := (List.range 12).map (fun k => (k, { state := 1 })) };
        s.quiet ∧ s.pwr.stage = 1 ∧ s.noCellWaits ∧ (∀ k, k < 12 → s.siteSettled k = true) ∧ ∀ k, k < 16 → ∀ r ∈ (s.stack k).repairs, r.suspect = false)
      ∧ (let s := poweredAs { stage := 2 }; s.pwr.stage = 2 ∧ s.pat.selected = false ∧ s.pat.slot0 = none ∧ s.pat.storedEpoch = 0)
      ∧ (let s : State := { pwr := { stage := 2 }, pat := { slot0 := some [1], storedEpoch := 1 } };
        s.pwr.stage = 2 ∧ s.pat.slot0 = some [1] ∧ s.pat.storedEpoch ≠ 0 ∧ s.bare ∧ s.pat.running = none ∧ s.pat.cand = none)
      ∧ (let s : State := { ringed with net := { on.net with ports := [(15, { state := 1, ieee := true })] }, ring := { adit := 1, ports := [(0, { link := 1 })] } };
        s.quiet ∧ s.pwr.stage = 3 ∧ (s.port 15).state = 1 ∧ (s.port 15).ieee = true ∧ s.ring.adit = 1 ∧ (s.ringPort 0).link = 1) := by decide

theorem witness_StartGoesByStagesAndResetsWipe_image : starting.bootImage = some starting := rfl

theorem witness_StartGoesByStagesAndResetsWipe_parts :
    (∀ n, (({ pwr := { stage := 2 }, pat := { slot0 := some [1], storedEpoch := 1 } } : State).part n) = {}) ∧ ∀ n, (starting.part n).state = .undefined :=
  ⟨fun _ => rfl, fun _ => rfl⟩

theorem witness_StartGoesByStagesAndResetsWipe_resets :
    (on.quiet ∧ on.pwr.powered = true ∧ on.sec.fuseJob = none ∧ on.carries .mctp ∧ isOper .mctp = true ∧ on.mayStart = false ∧ on.noCellWaits
      ∧ (poweredAs { powered := true, inReset := true }).pwr.inReset = true ∧ on.pwr.inReset = false)
      ∧ (bits (BitVec.ofNat 64 (15 * 65536) : Word64).toNat 19 16 = 15 ∧ (on.part 15).state = .undefined)
      ∧ ((building .drain).part 0).state = .building
      ∧ (on.bare ∧ on.pat.running = some pattern0 ∧ on.pat.cand = none ∧ (pattern0.slice 0).defined = true ∧ (on.part 0).state = .ready ∧ on.pat.phase = 4
        ∧ on.pwr.rstPart = none ∧ on.logRoom = true) := by decide

theorem witness_ErrorsByClassAndAssay_errors :
    (on.quiet ∧ (on.rasOf 1).log = [] ∧ on.lineCleared 1 = false)
      ∧ (let s : State := { on with cells := [(15, { state := 1, ctx := 7, gang := some 0 })] };
        (0xF05 : BitVec 32).toNat / 256 = 15 ∧ (s.cell 15).state ≠ 0 ∧ s.calm 0 (s.cell 15).ctx ∧ s.noCellWaits)
      ∧ ((on.part 0).state = .ready ∧ on.bare ∧ on.pat.cand = none)
      ∧ (let s : State := { on with ras := [(1, { correctedNew := [(3, 2)] })] }; (s.rasOf 1).correctedNew.get 0 3 = 2 ∧ rasCode .fabricLink = 3)
      ∧ (on.rasOf 0).correctedNew.get 0 3 = 0 := by decide

/-- An entry of the assay's queue. -/
def assay0 (str index : Nat) : Assay := { str := str, index := index, scope := 255, addr := 0, detail := 31 }

theorem witness_ErrorsByClassAndAssay_tests :
    (on.quiet ∧ on.noCellWaits ∧ (on.rasOf 0).nextTest = none ∧ (on.rasOf 0).testing = [])
      ∧ (let s : State := { on with ras := [(0, { queue := [assay0 3 0x3F06] })] };
        (s.rasOf 0).nextTest = some (assay0 3 0x3F06) ∧ (s.rasOf 0).transients.get [] (transientKey (assay0 3 0x3F06)) = [])
      ∧ (∀ str ∈ [RasStruct.fabricLink, .slcSet, .scratchBank], let e := assay0 (rasCode str) 0x1006
        let s : State := { on with ras := [(0, { testing := [e] })] };
        (s.rasOf 0).testing = [e] ∧ e.index = (0x1006 : BitVec 32).toNat ∧ s.coh.slc = [] ∧ s.flights = [])
      ∧ (∀ n ∈ allParts, on.claims n (fun x => (x.ways >>> (0 * 32)).testBit (31 % 32)) = false)
      ∧ on.ownerCell (0x1006 / 256 % 192) = none ∧ ((List.range 16).filter (fun p => (on.cell (0x10 / 16 * 16 + p)).retired)).length < 3 := by decide
theorem witness_MemoryStaysCanonical : Memory.wf on.mem = true ∧ step on = .next on := ⟨by decide, rfl⟩

/-! Ill-formed commands, one for each check. -/

theorem test_wf_refuses :
    ([.registerWrite .mctp (2 ^ 44) 8 0, .registerWrite .mctp 0 0 0, .messageIngress (.message (.site 0) 0 [1]), .regionZeroed 0 18432
      , .hmcRead 0x240000000, .hmcFullWrite 0 [1] false, .hmcFullWrite 0x240000000 data0 false, .hmcPartialWrite 0 1 [1], .homeRead 0 0 0x240000000 .alloc false
      , .homeFullWrite 0 0 0 [1] false .alloc false, .homePartialWrite 0 0 0x240000000 1 data0 .alloc false, .rds 0 0 0x240000000 .alloc false
      , .rdu 0 0 0x240000000 .alloc false, .upgrade 0 0 0x240000000 false, .writeBack 0 0 0x240000000, .evictionNotice 0 0 0x240000000] : List Instr).all
      (fun c => !c.wf) = true := by decide
theorem test_wf_refuses_answers :
    ([.snpShared 0 0 0x240000000, .snpUnique 0 0 0x240000000, .snpInv 0 0 0x240000000, .snpCur 0 0 0x240000000, .snoopAnswer 0 0 0x240000000
      , .writeBackGrant 0 0 0x240000000, .stale 0 0 0x240000000, .retry 0 0 0x240000000, .retryGrant 0 0 0x240000000, .completionAck 0 0 0x240000000
      , .snoopTimeout 0 0 0x240000000, .bar2Read 0 (2 ^ 36) 1 false, .bar2Read 0 0 0 false, .bar2Write 0 0 [] false, .msixUnmask 0 64, .msixUnmask 16 2048
      , .railCanary ⟨0, 26⟩] : List Instr).all (fun c => !c.wf) = true := by decide
theorem test_wf_accepts :
    ([.hmcRead 0x23FFFFFFF, .homeFullWrite 1 63 0 data0 true .noAlloc true, .msixUnmask 16 2047, .bar2Write 15 0 [1] true, .regionZeroed 511 18431] : List Instr).all Instr.wf = true := by decide

/-! The spec's worked examples. -/

/-- Command c at s answers a next state that satisfies q. -/
def leaves (c : Instr) (s : State) (q : State → Bool) : Bool := match exec c s with | .next t => q t | _ => false
/-- A module whose partition n owns a slice and is READY. -/
def owning (n : Nat) (x : Slice) : State :=
  { on with pat := { on.pat with running := some { epoch := 1, slices := [(n, x)] }, parts := [(n, { state := .ready, slice := x })] } }

/-- 01 R22's example: PPA 0x00_0345_6000 of sixteen pseudo-channels is HPA 0x01B_0034_5000. -/
theorem test_ppa_example :
    (owning 4 { own with pchs := 0, order := [0, 256, 32, 288, 64, 320, 96, 352, 128, 384, 160, 416, 192, 448, 224, 480] }).ppaToHpa 4 0x3456000 = some 0x01B00345000 := by
  decide
/-- 01 R18's example: cell address 0x0A7 lies on site 10, and 0x01F on site 1. -/
theorem test_cell_address_example : siteOf 0xA7 = some 10 ∧ siteOf 0x1F = some 1 ∧ siteOf 0x20 = some 2 := by decide
/-- 01 R26's example: a DMA register of half 1 at BAR0 offset 0x0A80_1040 lies at HPA 0xF80_0500_1040. -/
theorem test_bar0_example : windowPlace 0x0A801040 = .block 1 5 0x1040 ∧ regAddr 1 5 0x1040 = 0xF8005001040 := by decide
/-- By 05 R116, as in the example of an escape record there: the E4M3 codes 0x4D and 0xC9 are 6.5 and -4.5. -/
theorem test_escape_example : e4m3.decode 0x4D = .fin false 13 (-1) ∧ e4m3.decode 0xC9 = .fin true 9 (-1) := by decide
/-- 08 R202's example: FAB_INJ_REG of DMA engine 3 for P1 lies at block offset 0x1_0588. -/
theorem test_injection_example : injRegAddr 0 11 1 = regAddr 0 2 0x10588 ∧ injRegAddr 0 11 2 = regAddr 0 2 0x10590 := by decide
/-- 09 R217's example: the line at HPA 0x01B_0034_5000 maps to slice 5, SLC set 0x345 and directory set 0x145 of half 0. -/
theorem test_line_example :
    0x01B00345000 / 64 = 0x6C00D140 ∧ sliceOfLine 0x6C00D140 = 5 ∧ setOfLine 0x6C00D140 = 0x345 ∧ dirSetOf 0x6C00D140 = 0x145 ∧ homeOf 0x6C00D140 = 0 := by decide
/-- 11 R270's example: byte orders under codes 2 and 4. -/
theorem test_swap_example :
    swapBytes (0 : Byte) 2 [0x11, 0x22, 0x33, 0x44] = [0x44, 0x33, 0x22, 0x11] ∧ swapBytes (0 : Byte) 4 [0x11, 0x22, 0x33, 0x44] = [0x33, 0x44, 0x11, 0x22] := by decide
/-- 12 R315's example: BASE 8 puts PPA 65 GiB at BAR2 offset 0xE_4000_0000. -/
theorem test_aperture_example :
    leaves (.vfApertureWrite (.vf 7) 7 0x200000000) (owning 7 { own with pchs := 2 ^ 64 - 1, order := List.range 64 }) (fun t => t.aperture 7 0xE40000000 == 0x1040000000) = true := by
  decide
/-- 12 R332's example: 0x1100_0000_0030_0002 loses context 0x030 under token 0x11. -/
theorem test_lose_example :
    leaves (.schLose (.vf 6) 6 0x1100000000300002) (owning 6 own)
      (fun t => (t.ctx 6 0x30).state == .lost && (t.sch 6).cmdToken == 0x11 && (t.sch 6).cmdStatus == St.ok) = true := by decide
/-- 14 R383's example: eight members move chunks of 2,228,224 bytes in fourteen steps. -/
theorem test_collective_example :
    let x := State.reset.collGeo { members := 255 } (collDesc ([3, 6, 0, 0, 0, 0, 0, 0] ++ leBytes 8 67108864 ++ zeros 48))
    x.steps = 14 ∧ collBytes 6 x.chunk + x.chunk / 32 = 2228224 := by decide
/-- 07 R184's example: ranges of 22,528 lines and two tiles are 1,572,864 bytes. -/
theorem test_live_example : ({ mask := 3, ranges := [(0, 22528)] } : Lrt).live = 1572864 := by decide
/-- 15 R410's example: six records and DEPLOYED. -/
theorem test_lcs_example : State.reset.lcsView = 0x60000000003 := by decide

/-- 06 R160's example before STEP_BEGIN of step 8. -/
def stepping : State :=
  pooled { base := 0x100000, total := 100, free := 16, deferPages := (List.range 18).map (· + 66), running := 3, queue := [5, 6]
           slots := [(1, { state := 2, pages := List.range 24 }), (3, { state := 2, pages := (List.range 22).map (· + 24) })
                    , (4, { state := 2, pages := (List.range 20).map (· + 46) }), (5, { state := 1, need := 30, list := 0x4000 }), (6, { state := 1, need := 1, list := 0x8000 })] }
/-- J5 is admitted with 30 pages, FREE and RESERVE are 4, and J6 stays queued. -/
theorem test_pool_example :
    leaves (.stepBegin 0 0x200 0) stepping (fun t => let q := t.pool 0 0
      q.free == 4 && q.reserve == 4 && q.deferPages.length == 0 && q.queue == [6] && (q.slot 5).state == 2 && (q.slot 5).pages.length == 30 && (q.slot 6).state == 1) = true := by
  decide

/-! Words of tile instructions written out from the table of 04 R103, one for each family, and of FJ.POOL (the example of 06 R149). -/

theorem test_words_of_scalars_and_branches :
    tileInstr 5 (0x43 * 2 ^ 56 + 1 * 2 ^ 51 + 2 * 2 ^ 46 + 3 * 2 ^ 41) = some (.add 5 1 2 3)
      ∧ tileInstr 5 (0x41 * 2 ^ 56 + 31 * 2 ^ 51 + 4 * 2 ^ 46 + 0xFFFFFFFF) = some (.addi 5 31 4 (-1))
      ∧ tileInstr 5 (0x47 * 2 ^ 56 + 1 * 2 ^ 51 + 2 * 2 ^ 46 + 31) = some (.shri 5 1 2 31)
      ∧ tileInstr 5 (0x48 * 2 ^ 56 + 9 * 2 ^ 51 + 7) = some (.loop 5 9 7)
      ∧ tileInstr 5 (0x4A * 2 ^ 56 + 1 * 2 ^ 51 + 2 * 2 ^ 46 + 5 * 2 ^ 43 + 6) = some (.brc 5 1 2 5 6)
      ∧ tileInstr 5 (0x4F * 2 ^ 56 + 3) = some (.halt 5 3) ∧ tileInstr 5 0 = some (.nop 5) := by decide
theorem test_words_of_tiles :
    tileInstr 5 (0x08 * 2 ^ 56 + 3 * 2 ^ 54 + 2 ^ 53) = some (.zac 5 3 true)
      ∧ tileInstr 5 (0x09 * 2 ^ 56 + 1 * 2 ^ 54 + 2 * 2 ^ 52 + 17 * 2 ^ 47) = some (.lda 5 1 2 17)
      ∧ tileInstr 5 (0x1F * 2 ^ 56 + 2 * 2 ^ 54 + 3 * 2 ^ 47 + 2 ^ 46 + 2 * 2 ^ 44) = some (.erow 5 2 3 true 2)
      ∧ tileInstr 5 (0x11 * 2 ^ 56 + 1 * 2 ^ 54 + 4 * 2 ^ 50 + 1 * 2 ^ 48 + 2 ^ 47 + 1 * 2 ^ 45 + 2 * 2 ^ 40 + 3 * 2 ^ 35 + 4 * 2 ^ 30)
        = some (.qnts 5 { ts := 1, fmt := 4, sm := 1, axis := true, rnd := 1, ra := 2, rb := 3 } 4)
      ∧ tileInstr 5 (0x01 * 2 ^ 56 + 1 * 2 ^ 54 + 2 ^ 53 + 4 * 2 ^ 49 + 11 * 2 ^ 45 + 1 * 2 ^ 43 + 2 * 2 ^ 41 + 2 ^ 40 + 3 * 2 ^ 38 + 2 * 2 ^ 36 + 31 * 2 ^ 31 + 1 * 2 ^ 26
          + 2 * 2 ^ 21 + 3 * 2 ^ 16 + 4 * 2 ^ 11 + 5 * 2 ^ 6)
        = some (.mma 5 { dt := 1, z := true, fa := 4, fb := 11, sa := 1, sb := 2, esc := true, ms := 3, ns := 2, kb := 31, ra := 1, rb := 2, rs := 3, rt := 4, rx := 5 }) := by
  decide
theorem test_words_of_movers_and_messages :
    tileInstr 5 (0x32 * 2 ^ 56 + 15 * 2 ^ 52 + 1 * 2 ^ 47 + 2 * 2 ^ 42 + 3 * 2 ^ 37 + 2 * 2 ^ 35 + 4 * 2 ^ 30 + 5 * 2 ^ 25)
        = some (.movr2 5 { win := 15, ra := 1, rb := 2, rc := 3, qid := 2 } 4 5)
      ∧ tileInstr 5 (0x28 * 2 ^ 56 + 1 * 2 ^ 51 + 2 * 2 ^ 46 + 15 * 2 ^ 42 + 64 * 2 ^ 35 + 2 ^ 34 + 3 * 2 ^ 29)
        = some (.snd 5 { ra := 1, rb := 2, mailbox := 15, length := 64, release := true, rc := 3 })
      ∧ tileInstr 5 (0x38 * 2 ^ 56 + 2 * 2 ^ 46 + 3 * 2 ^ 42 + 63 * 2 ^ 36) = some (.wait 5 2 3 63)
      ∧ tileInstr 5 (0x39 * 2 ^ 56 + 0xFFFE * 2 ^ 40 + 7 * 2 ^ 36) = some (.bar 5 0xFFFE 7) := by decide
/-- 04 R102: an opcode that the table does not hold, and a reserved bit that is set, are no instruction. -/
theorem test_words_refused :
    tileInstr 5 (0x02 * 2 ^ 56) = none ∧ tileInstr 5 (0x43 * 2 ^ 56 + 1) = none ∧ tileInstr 5 1 = none ∧ ({} : Core).xfjmIllegal 0x00C5952B = false
      ∧ ({} : Core).xfjmIllegal 0x0200000B = true := by decide

/-! Single steps. -/

/-- 04 R103: addition wraps, and the source may be the destination. -/
theorem test_add_wraps : leaves (.add 0 1 1 2) (running 0 { sregs := [(1, 0xFFFFFFFF), (2, 3)] }) (fun t => (t.cell 0).reg 1 == 2 && (t.cell 0).pc == 1) = true := by decide
/-- 04 R88: s0 reads 0 and ignores writes. -/
theorem test_s0 : leaves (.li 0 0 7) (running 0 {}) (fun t => (t.cell 0).reg 0 == 0 && (t.cell 0).pc == 1) = true := by decide
/-- 03 R77: B grants eight tallies: OUT is 8 and HELD 0. -/
theorem test_grant_example :
    leaves (.grant 0 2 5 8) (running 0 { sregs := [(2, 15)] }) (fun t => ((t.msgSt 0).box 5).out == 8 && ((t.msgSt 0).box 5).held.isEmpty && t.egress.length == 1) = true := by decide
/-- 16 R427: above the cap DUTY falls by one. -/
theorem test_limiter : leaves (.powerLimitTick 2401) on (fun t => t.pwr.duty == 15 && t.pwr.watts == [2401]) = true := by decide
/-- 10 R258: at 94 degrees a stack goes to level 1. -/
theorem test_stack_level : leaves (.stackTempSample 0 94) on (fun t => (t.stack 0).level == 1 && (t.stack 0).state == 2) = true := by decide
/-- A step runs the command at the front of the queue. -/
theorem test_step : (match step { on with pending := [.perstRelease, .perstRelease] } with | .next t => t.pending.length == 1 && t.pwr.perstHigh | _ => false) = true := by decide

/-- 02 R48: the slice of an undefined partition is 353 bytes of zero, whose digest zeroSliceDigest is. -/
theorem test_zero_slice : sliceBytes [] [] 0 = zeros 353 := by decide
end Sys2Proof.Tests
end

section
/-!
PROOFS. Register writes by access code, path and owner (00 R8, R9; 01 R21, R25, R27; 02 R52, R53). First the register map: where an offset
of a block or of an array leads. Then what a write does to the register it finds. Then the two registers that the statement names.
-/

namespace Sys2Proof.Machine

/-! Little-endian bytes. -/

@[simp] theorem leBytes_length (n v : Nat) : (leBytes n v).length = n := by
  induction n generalizing v with
  | zero => rfl
  | succ n ih => simp [leBytes, ih]

/-- Bytes of a number spell it back, up to the bytes there are. -/
@[simp] theorem ofLe_leBytes (n v : Nat) : ofLe (leBytes n v) = v % 256 ^ n := by
  induction n generalizing v with
  | zero => simp [leBytes, ofLe, Nat.mod_one]
  | succ n ih => simp [leBytes, ofLe, ih, Nat.pow_succ', Nat.mod_mul]

/-! The register map: an offset outside a register or array finds nothing there, one inside finds it. -/

@[simp] theorem firstReg_none_cons (l : List (Option Reg)) : firstReg (none :: l) = firstReg l := rfl
@[simp] theorem firstReg_some_cons (r : Reg) (l : List (Option Reg)) : firstReg (some r :: l) = some r := rfl

theorem numReg_past {o base width : Nat} (own : RegOwner) (val : Nat) (set : RegSet) (h : base + width ≤ o) :
    numReg o base width own val set = none := by
  simp [numReg, Nat.not_lt.2 h]

theorem strReg_past {o base width : Nat} (own : RegOwner) (get : Nat → Nat → List Byte) (set : RegSet) (h : base + width ≤ o) :
    strReg o base width own get set = none := by
  simp [strReg, Nat.not_lt.2 h]

theorem regArray_past {o base stride count : Nat} (f : Nat → Nat → Option Reg) (h : base + stride * count ≤ o) :
    regArray o base stride count f = none := by
  simp [regArray, Nat.not_lt.2 h]

theorem numReg_at_base (base : Nat) {width : Nat} (own : RegOwner) (val : Nat) (set : RegSet) (h : 0 < width) :
    numReg base base width own val set =
      some { base := base, width := width, own := own, get := fun off len => bslice (leBytes width val) off len, set := set } := by
  simp [numReg, h]

/-- Offset k of element i of an array is offset k of that element's group. -/
theorem regArray_at {o base stride count i k : Nat} (f : Nat → Nat → Option Reg) (ho : o = base + (stride * i + k)) (hi : i < count)
    (hk : k < stride) : regArray o base stride count f = (f i k).map (fun r => { r with base := r.base + base + i * stride }) := by
  have hend : stride * i + k < stride * count :=
    calc stride * i + k < stride * (i + 1) := by rw [Nat.mul_succ]; omega
      _ ≤ stride * count := Nat.mul_le_mul_left _ hi
  have hdiv : (stride * i + k) / stride = i := by rw [Nat.mul_add_div (by omega), Nat.div_eq_of_lt hk, Nat.add_zero]
  have hmod : (stride * i + k) % stride = k := by rw [Nat.mul_add_mod, Nat.mod_eq_of_lt hk]
  subst ho
  simp [regArray, hend, hdiv, hmod]

/-- Offset o of block N of half h in the PF0 BAR0 layout (01 R26). -/
theorem windowPlace_block {h N o : Nat} (hh : h < 2) (hN : N < 15) (ho : o < 0x800000) :
    windowPlace (h * 0x8000000 + N * 0x800000 + o) = .block h N o := by
  have hlt : h * 0x8000000 + N * 0x800000 + o < 0x10000000 := by omega
  have hhalf : (h * 0x8000000 + N * 0x800000 + o) / 0x8000000 = h := by omega
  have hblock : (h * 0x8000000 + N * 0x800000 + o) / 0x800000 % 16 = N := by omega
  have hoff : (h * 0x8000000 + N * 0x800000 + o) % 0x800000 = o := by omega
  simp [windowPlace, hlt, hhalf, hblock, hoff, hN]

/-- From stage 1 on every block decodes (16 R433), and across a bridge that is up the other half's blocks too (01 R25). -/
theorem State.regFind_block {s : State} {p : Path} {a h N o : Nat} (hplace : s.regPlace p a = .block h N o) (hstage : s.pwr.stage ≠ 0)
    (hbridge : h = Path.half p ∨ s.fab.bridgeUp = true) : s.regFind p a = .ok ((s.blockReg p h N o).map (fun r => (r, o))) := by
  rcases hbridge with h' | h' <;> simp [State.regFind, hplace, State.blockDecodes, hstage, h']

/-! What a write does. -/

/-- A live path that nothing shuts presents its write to the register map. -/
theorem exec_registerWrite_live {p : Path} {s : State} (addr len value : Nat) (hlive : s.pathLive p = true) :
    exec (.registerWrite p addr len value) s = closing (s.writeReg p addr (leBytes len value)) := by
  rw [exec_registerWrite, execRegisterWrite, hlive, onlyIf_true]

/-- A write that finds a register is a write of that register. -/
theorem State.writeReg_found {s : State} {p : Path} {a o : Nat} {r : Reg} (b : List Byte) (hopen : s.pathShut p = false)
    (hfind : s.regFind p a = .ok (some (r, o))) : s.writeReg p a b = s.regPut p r o b := by
  simp [State.writeReg, hopen, hfind]

theorem State.regScope_of_note {s : State} {p : Path} (h : s.effClass 0x110 (pathScope p) = .note) :
    s.regScope p = s.countNote 0x110 (pathScope p) := by
  simp [State.regScope, State.alarm, h]

/-- A path that may not write the register, by its owner, has its write dropped and counted (01 R27; 02 R53). -/
theorem State.regPut_denied {s : State} {p : Path} {r : Reg} (o : Nat) (b : List Byte)
    (hset : (∃ f, r.set = .whole f) ∨ ∃ g, r.set = .span g) (hmay : regMayWrite p r = false) : s.regPut p r o b = s.regScope p := by
  rcases hset with ⟨f, hf⟩ | ⟨g, hg⟩
  · simp [State.regPut, hf, hmay]
  · simp [State.regPut, hg, hmay]

/-- A register of a number takes a write of all its bytes (01 R25). -/
theorem State.regPut_whole {s : State} {p : Path} {r : Reg} {f : Path → Nat → State → State} {b : List Byte} (hset : r.set = .whole f)
    (hmay : regMayWrite p r = true) (hlen : b.length = r.width) : s.regPut p r r.base b = f p (ofLe b) s := by
  simp [State.regPut, hset, hmay, hlen]

section Live
variable {p : Path} {addr o : Nat} {r : Reg} {s : State} (len value : Nat)
  (hquiet : s.quiet) (hlive : s.pathLive p = true) (hopen : s.pathShut p = false)
include hlive hopen

/-- A write to a register of a number, whole and by a path that may write it, acts with the value (00 R8). -/
theorem exec_registerWrite_whole {f : Path → Nat → State → State} (hfind : s.regFind p addr = .ok (some (r, o))) (hset : r.set = .whole f)
    (hmay : regMayWrite p r = true) (hbase : o = r.base) (hwidth : r.width = len) :
    exec (.registerWrite p addr len value) s = closing (f p (value % 256 ^ len) s) := by
  subst hbase
  rw [exec_registerWrite_live addr len value hlive, State.writeReg_found _ hopen hfind, State.regPut_whole hset hmay (by simp [hwidth]),
    ofLe_leBytes]

include hquiet

/-- A reserved address answers BUS_ERROR (01 R21). -/
theorem exec_registerWrite_reserved (hfind : s.regFind p addr = .error ()) :
    exec (.registerWrite p addr len value) s = .next (s.emit (.access St.busError 0)) := by
  have hwrite : s.writeReg p addr (leBytes len value) = s.emit (.access St.busError 0) := by simp [State.writeReg, hopen, hfind]
  rw [exec_registerWrite_live addr len value hlive, hwrite, closing_quiet ((s.emit_dues _).trans hquiet)]

/-- A write where no register is does nothing (01 R25). -/
theorem exec_registerWrite_nowhere (hfind : s.regFind p addr = .ok none) : exec (.registerWrite p addr len value) s = .next s := by
  have hwrite : s.writeReg p addr (leBytes len value) = s := by simp [State.writeReg, hopen, hfind]
  rw [exec_registerWrite_live addr len value hlive, hwrite, closing_quiet hquiet]

/-- A write to a read-only register that the path sees does nothing (00 R8 RO). -/
theorem exec_registerWrite_ro (hfind : s.regFind p addr = .ok (some (r, o))) (hset : r.set = .ro) (hseen : s.regSeen p r = true) :
    exec (.registerWrite p addr len value) s = .next s := by
  have hput : s.regPut p r o (leBytes len value) = s := by simp [State.regPut, hset, hseen]
  rw [exec_registerWrite_live addr len value hlive, State.writeReg_found _ hopen hfind, hput, closing_quiet hquiet]

/-- A write that the register answers with REG_SCOPE alone leaves one Note, where the class in force is Note (15 R412, R413). -/
theorem exec_registerWrite_note (hfind : s.regFind p addr = .ok (some (r, o)))
    (hput : s.regPut p r o (leBytes len value) = s.regScope p) (hclass : s.effClass 0x110 (pathScope p) = .note) :
    exec (.registerWrite p addr len value) s = .next (s.countNote 0x110 (pathScope p)) := by
  have hdues : (s.countNote 0x110 (pathScope p)).dues = [] := hquiet
  rw [exec_registerWrite_live addr len value hlive, State.writeReg_found _ hopen hfind, hput, State.regScope_of_note hclass,
    closing_quiet hdues]

end Live

/-! FAB_INJ_REG on PF0 (08 R205; 02 R52) and XLT_CTX_BASE through the partAlias path (11 R299; 06 R142). -/

/-- r is the register of 8 bytes at offset o of its block, which path p may write, and a write of v acts as act v. -/
structure Reg.TakesWord (r : Reg) (p : Path) (o : Nat) (act : Nat → State → State) : Prop where
  base : r.base = o
  width : r.width = 8
  mayWrite : regMayWrite p r = true
  acts : ∃ f, r.set = .whole f ∧ f p = act

/-- A write of a word to such a register acts with the word, where the act leaves nothing to judge. -/
theorem exec_registerWrite_word {p : Path} {addr o : Nat} {r : Reg} {s : State} {act : Nat → State → State} (v : Word64)
    (hlive : s.pathLive p = true) (hopen : s.pathShut p = false) (hfind : s.regFind p addr = .ok (some (r, o))) (hr : r.TakesWord p o act)
    (hdues : (act v.toNat s).dues = []) : exec (.registerWrite p addr 8 v.toNat) s = .next (act v.toNat s) := by
  obtain ⟨f, hset, hact⟩ := hr.acts
  have hword : v.toNat % 256 ^ 8 = v.toNat := Nat.mod_eq_of_lt v.isLt
  rw [exec_registerWrite_whole 8 v.toNat hlive hopen hfind hset hr.mayWrite hr.base.symm hr.width, hword, hact, closing_quiet hdues]

/-- FAB_INJ_REG of master i for Pn is a staged register of the operator's. -/
theorem State.fabRegs_injReg (s : State) (h : Nat) {i n : Nat} (hi : i < 64) (hn : n < 16) :
    ∃ r, s.fabRegs h (0x10000 + i * 0x80 + n * 8) = some r
      ∧ r.TakesWord .pf0 (0x10000 + i * 0x80 + n * 8) (fun v s => s.stage (injRegAddr h i n) v) := by
  have hmaster : ∀ f : Nat → Nat → Option Reg, regArray (0x10000 + i * 0x80 + n * 8) 0x10000 0x80 64 f
      = (f i (n * 8)).map (fun r => { r with base := r.base + 0x10000 + i * 0x80 }) :=
    fun f => regArray_at f (by omega) hi (by omega)
  have hpart : ∀ f : Nat → Nat → Option Reg, regArray (n * 8) 0 8 16 f = (f n 0).map (fun r => { r with base := r.base + 0 + n * 8 }) :=
    fun f => regArray_at f (by omega) hn (by omega)
  simp (disch := omega) only [State.fabRegs, roReg, State.stagedReg, numReg_past, strReg_past, regArray_past, hmaster, hpart, numReg_at_base,
    Option.map_some, firstReg_none_cons, firstReg_some_cons]
  exact ⟨_, rfl, by simp; omega, rfl, rfl, _, rfl, rfl⟩

/-- XLT_CTX_BASE of Pn is a register of Pn's, which its partAlias path may write. -/
theorem State.xltRegs_ctxBase (s : State) (n : PartId) :
    ∃ r, s.xltRegs (0x100000 + n.val * 0x100) = some r ∧ r.TakesWord (.partAlias n) (0x100000 + n.val * 0x100)
      (fun v s => s.updXlt n.val (fun x => { x with ctxBase := keepBits v 39 16 })) := by
  have hpart : ∀ f : Nat → Nat → Option Reg, regArray (0x100000 + n.val * 0x100) 0x100000 0x100 16 f
      = (f n.val 0).map (fun r => { r with base := r.base + 0x100000 + n.val * 0x100 }) :=
    fun f => regArray_at f (by omega) n.isLt (by omega)
  simp (disch := omega) only [State.xltRegs, ownReg, hpart, numReg_at_base, Option.map_some, firstReg_some_cons]
  exact ⟨_, rfl, by simp, rfl, by simp [regMayWrite, reaches], _, rfl, rfl⟩

/-- The PF0 BAR0 offset of FAB_INJ_REG leads to it, across the bridge for half 1 (01 R25, R26). -/
theorem State.regFind_injReg {s : State} (h : HalfId) (i : Fin 64) (n : PartId) (hstage : s.pwr.stage ≠ 0)
    (hbridge : h = 1 → s.fab.bridgeUp = true) :
    ∃ r o, s.regFind .pf0 (h.val * 0x8000000 + 0x1010000 + i.val * 0x80 + n.val * 8) = .ok (some (r, o))
      ∧ r.TakesWord .pf0 o (fun v s => s.stage (injRegAddr h.val i.val n.val) v) := by
  have hplace : s.regPlace .pf0 (h.val * 0x8000000 + 0x1010000 + i.val * 0x80 + n.val * 8)
      = .block h.val 2 (0x10000 + i.val * 0x80 + n.val * 8) := by
    have hoffset : h.val * 0x8000000 + 0x1010000 + i.val * 0x80 + n.val * 8
        = h.val * 0x8000000 + 2 * 0x800000 + (0x10000 + i.val * 0x80 + n.val * 8) := by omega
    rw [State.regPlace, hoffset, windowPlace_block h.isLt (by omega) (by omega)]
  have hreach : h.val = Path.half .pf0 ∨ s.fab.bridgeUp = true := by
    by_cases h1 : h = 1
    · exact .inr (hbridge h1)
    · have hval : h.val ≠ 1 := fun e => h1 (Fin.ext e)
      have hzero : h.val = 0 := by omega
      exact .inl hzero
  obtain ⟨r, hr, htakes⟩ := s.fabRegs_injReg h.val i.isLt n.isLt
  refine ⟨r, _, ?_, htakes⟩
  rw [State.regFind_block hplace hstage hreach, State.blockReg, hr, Option.map_some]

/-- On the partAlias path the offset of XLT_CTX_BASE leads to it (06 R142). -/
theorem State.regFind_ctxBase {s : State} (n : PartId) (hstage : s.pwr.stage ≠ 0) :
    ∃ r o, s.regFind (.partAlias n) (0x3100000 + n.val * 0x100) = .ok (some (r, o))
      ∧ r.TakesWord (.partAlias n) o (fun v s => s.updXlt n.val (fun x => { x with ctxBase := keepBits v 39 16 })) := by
  have hplace : s.regPlace (.partAlias n) (0x3100000 + n.val * 0x100) = .block 0 6 (0x100000 + n.val * 0x100) := by
    have hoffset : 0x3100000 + n.val * 0x100 = 0 * 0x8000000 + 6 * 0x800000 + (0x100000 + n.val * 0x100) := by omega
    rw [State.regPlace, hoffset, windowPlace_block (by omega) (by omega) (by omega)]
  obtain ⟨r, hr, htakes⟩ := s.xltRegs_ctxBase n
  refine ⟨r, _, ?_, htakes⟩
  rw [State.regFind_block hplace hstage (.inl rfl), State.blockReg, hr, Option.map_some]

/-- No Fence shuts a partAlias path: where it is live it presents its writes (16 R432). -/
theorem State.pathShut_partAlias {s : State} {n : PartId} (hlive : s.pathLive (.partAlias n) = true) : s.pathShut (.partAlias n) = false := by
  simp only [State.pathLive, Bool.and_true, Bool.and_eq_true] at hlive
  simp [State.pathShut, hlive]

/-- Bits kept in their place are their number times the place value of the lowest. -/
theorem keepBits_eq_bits_mul (v hi lo : Nat) : keepBits v hi lo = bits v hi lo * 2 ^ lo := by
  simp [keepBits, field, bits, Nat.shiftLeft_eq]

end Sys2Proof.Machine

open Sys2Proof Sys2Proof.Machine

/-- Settles O26: the access codes case by case, then the two registers that the statement names. -/
theorem registerWritesFollowTheirAccessCode : Obligations.RegisterWritesFollowTheirAccessCode := by
  refine ⟨fun p addr len value s hquiet hlive hopen => ⟨?reserved, ?nowhere, fun r o hfind => ⟨?ro, ?locked, ?denied, ?whole⟩⟩, ?staged, ?ctxBase⟩
  case reserved => exact exec_registerWrite_reserved len value hquiet hlive hopen
  case nowhere => exact exec_registerWrite_nowhere len value hquiet hlive hopen
  case ro => exact exec_registerWrite_ro len value hquiet hlive hopen hfind
  case locked =>
    intro hset
    have hput : s.regPut p r o (leBytes len value) = s.regScope p := by simp [State.regPut, hset]
    exact exec_registerWrite_note len value hquiet hlive hopen hfind hput
  case denied =>
    intro f hset hmay
    have hput := s.regPut_denied o (leBytes len value) (hset.imp_left fun h => ⟨f, h⟩) hmay
    exact exec_registerWrite_note len value hquiet hlive hopen hfind hput
  case whole =>
    intro f hset hmay hbase hwidth
    exact exec_registerWrite_whole len value hlive hopen hfind hset hmay hbase hwidth
  case staged =>
    intro h i n v s hquiet hlive hopen hstage hbridge
    obtain ⟨r, o, hfind, htakes⟩ := State.regFind_injReg h i n hstage hbridge
    exact exec_registerWrite_word v hlive hopen hfind htakes hquiet
  case ctxBase =>
    intro n v s hquiet hlive hstage
    obtain ⟨r, o, hfind, htakes⟩ := State.regFind_ctxBase n hstage
    have hwrite := exec_registerWrite_word v hlive (State.pathShut_partAlias hlive) hfind htakes ((s.updXlt_dues ..).trans hquiet)
    simpa only [keepBits_eq_bits_mul, Nat.reducePow] using hwrite
end

section
/-!
PROOFS. One step of the block (log entry 11).
-/

open Sys2Proof Sys2Proof.Machine

/-- Settles O1: the queue is empty or has a front, and on an empty queue a fuse write is in progress or none is. -/
theorem stepRunsFrontCommand : Obligations.StepRunsFrontCommand := by
  refine ⟨fun c rest s hfront => ?front, fun s hempty hnone => ?idle, fun j s hempty hjob => ?fuses⟩
  case front => simp only [step, hfront]
  case idle => simp only [step, hempty, idleStep, hnone]
  case fuses => simp only [step, hempty, idleStep, hjob]

end

section
/-!
PROOFS. The endpoint's transfers (01 R28; 12 R305-R307, R310, R315). First the endpoint's regulator, and a BAR2 access that passes it or waits.
Then a completion of the only request. Then the failure of a privileged channel's only burst: the channel halts, and its engine issues nothing.
Then the timeout of the only request, and the aperture.
-/

namespace Sys2Proof.Machine

/-! The endpoint's regulator (08 R202): what passes is charged to an account that no memory access reads. -/

theorem State.inject_open {s : State} {h i n : Nat} (bytes : Nat) (hopen : s.injOpen h i n = true) :
    s.inject h i n bytes = (s.injCharge h i n bytes, true) := by simp [State.inject, hopen]

theorem State.inject_shut {s : State} {h i n : Nat} (bytes : Nat) (hshut : s.injOpen h i n = false) :
    s.inject h i n bytes = (s.injHold h i n, false) := by simp [State.inject, hshut]

section Charge
variable (s : State) (h i m bytes n a len : Nat)

@[simp] theorem State.vf_injCharge : (s.injCharge h i m bytes).vf n = s.vf n := rfl
@[simp] theorem State.twin_injCharge : (s.injCharge h i m bytes).twin n = s.twin n := rfl
@[simp] theorem State.inPpa_injCharge : (s.injCharge h i m bytes).inPpa n a len = s.inPpa n a len := rfl
@[simp] theorem State.protected_injCharge : (s.injCharge h i m bytes).protected n a len = s.protected n a len := rfl
@[simp] theorem State.bar2Via_injCharge : (s.injCharge h i m bytes).bar2Via n = s.bar2Via n := rfl

@[simp] theorem State.ppaPeek_injCharge : (s.injCharge h i m bytes).ppaPeek n a len = s.ppaPeek n a len := by
  have hnewest : ∀ l, (s.injCharge h i m bytes).newest l = s.newest l := fun _ => rfl
  unfold State.ppaPeek
  simp only [hnewest]
  rfl

end Charge

/-- A hold is counted in the regulator's own registers. -/
theorem State.injHold_shape (s : State) (h i n : Nat) : ∃ f r, s.injHold h i n = { s with fab := f, regs := r } := by
  unfold State.injHold
  dsimp only
  split
  · exact ⟨s.fab, s.regs, rfl⟩
  · exact ⟨_, _, rfl⟩

/-! BAR2 accesses (12 R307). -/

section Bar2
variable {s : State} {n a len : Nat} {data : List Byte}

theorem State.vfRefuses_of_error (tbit : Bool) (herror : (s.vf n).tdi = 3) : s.vfRefuses n tbit = true := by
  simp [State.vfRefuses, herror]

/-- In ERROR a TLP is refused without a Note: TDI_TLP is counted in RUN alone (12 R310). -/
theorem State.noteTlp_of_error (tbit : Bool) (herror : (s.vf n).tdi = 3) : s.noteTlp n tbit = s := by
  simp [State.noteTlp, herror]

theorem State.bar2Enter_open (c : Instr) (hheld : s.pcie.held = []) (hopen : s.injOpen 0 26 n = true) :
    s.bar2Enter n len c = (s.injCharge 0 26 n len).bar2Now c := by
  simp [State.bar2Enter, hheld, State.inject_open len hopen]

theorem State.bar2Enter_shut (c : Instr) (hheld : s.pcie.held = []) (hshut : s.injOpen 0 26 n = false) :
    s.bar2Enter n len c = (s.injHold 0 26 n).updPcie (fun p => { p with held := p.held ++ [c] }) := by
  simp [State.bar2Enter, hheld, State.inject_shut len hshut]

theorem State.bar2ReadNow_beyond (hbeyond : s.inPpa n a len = false) :
    s.bar2ReadNow n a len = (s.countBounds n).emit (.completion n false false (List.replicate len 0xFF)) := by
  simp [State.bar2ReadNow, hbeyond]

/-- A read that its lines answer: dross is counted, and shows as the completion's EP bit (17 R451). -/
theorem State.bar2ReadNow_within (hin : s.inPpa n a len = true) (hok : (s.ppaPeek n a len).2.2 = St.ok) :
    (s.bar2ReadNow n a len).dues = s.dues ∧ (s.bar2ReadNow n a len).mem = (s.ppaReport n a len (s.bar2Via n)).mem
      ∧ ∃ o, (s.bar2ReadNow n a len).out = o ++ [.completion n false (s.ppaPeek n a len).2.1 (s.ppaPeek n a len).1] := by
  have hdues := (s.ppaReport_stored n a len (s.bar2Via n)).dues
  cases hdross : (s.ppaPeek n a len).2.1 with
  | true => simpa [State.bar2ReadNow, State.ppaRead, hin, hok, hdross, State.emit] using hdues
  | false => simpa [State.bar2ReadNow, State.ppaRead, hin, hok, hdross, State.emit] using hdues

theorem State.bar2WriteNow_beyond (hbeyond : s.inPpa n a data.length = false) : s.bar2WriteNow n a data = s.countBounds n := by
  simp [State.bar2WriteNow, hbeyond]

theorem State.bar2WriteNow_within (hin : s.inPpa n a data.length = true) (hplain : s.protected n a data.length = false)
    (hstandby : (s.twin n).state ≠ 4) : s.bar2WriteNow n a data = (s.ppaStore n a data false (s.bar2Via n)).1 := by
  simp [State.bar2WriteNow, State.ppaWrite, hin, hplain, hstandby]

end Bar2

section Vf
variable {n : PartId} {s : State} (off len : Nat) (data : List Byte) (tbit : Bool) (hlive : s.vfLive n.val = true)
include hlive

/-- A read of a VF that is enabled and not refused enters behind the aperture (12 R307). -/
theorem exec_bar2Read_enters (hon : (s.slice n.val).vf = true) (htaken : s.vfRefuses n.val tbit = false) :
    exec (.bar2Read n off len tbit) s = closing (s.bar2Enter n.val len (.bar2Read n (s.aperture n.val off) len tbit)) := by
  simp [exec_bar2Read, execBar2Read, hlive, hon, htaken]

theorem exec_bar2Write_enters (hon : (s.slice n.val).vf = true) (htaken : s.vfRefuses n.val tbit = false) :
    exec (.bar2Write n off data tbit) s = closing (s.bar2Enter n.val data.length (.bar2Write n (s.aperture n.val off) data tbit)) := by
  simp [exec_bar2Write, execBar2Write, hlive, hon, htaken]

variable (hquiet : s.quiet)
include hquiet

/-- A disabled VF reads as all ones (01 R28). -/
theorem exec_bar2Read_disabled (hoff : (s.slice n.val).vf = false) :
    exec (.bar2Read n off len tbit) s = .next (s.emit (.completion n.val false false (List.replicate len 0xFF))) := by
  simp [exec_bar2Read, execBar2Read, hlive, hoff, closing, hquiet]

/-- A TDI in ERROR answers UR (12 R310). -/
theorem exec_bar2Read_error (hon : (s.slice n.val).vf = true) (herror : (s.vf n.val).tdi = 3) :
    exec (.bar2Read n off len tbit) s = .next (s.emit (.completion n.val true false [])) := by
  simp [exec_bar2Read, execBar2Read, hlive, hon, State.vfRefuses_of_error tbit herror, State.noteTlp_of_error tbit herror, closing, hquiet]

theorem exec_bar2Write_disabled (hoff : (s.slice n.val).vf = false) : exec (.bar2Write n off data tbit) s = .next s := by
  simp [exec_bar2Write, execBar2Write, hlive, hoff, closing, hquiet]

theorem exec_bar2Write_error (hon : (s.slice n.val).vf = true) (herror : (s.vf n.val).tdi = 3) :
    exec (.bar2Write n off data tbit) s = .next s := by
  simp [exec_bar2Write, execBar2Write, hlive, hon, State.vfRefuses_of_error tbit herror, State.noteTlp_of_error tbit herror, closing, hquiet]

variable (hon : (s.slice n.val).vf = true) (htaken : s.vfRefuses n.val tbit = false) (hheld : s.pcie.held = [])
include hon htaken hheld

theorem exec_bar2Write_waits (hshut : s.injOpen 0 26 n.val = false) :
    Gives (.bar2Write n off data tbit) s fun t => t.pcie.held = [.bar2Write n (s.aperture n.val off) data tbit] ∧ t.mem = s.mem := by
  obtain ⟨f, r, hhold⟩ := s.injHold_shape 0 26 n.val
  have hexec := exec_bar2Write_enters off data tbit hlive hon htaken
  rw [State.bar2Enter_shut _ hheld hshut, hhold, closing_quiet (by exact hquiet)] at hexec
  exact ⟨_, hexec, by simp [State.updPcie, hheld], rfl⟩

variable (hopen : s.injOpen 0 26 n.val = true)
include hopen

theorem exec_bar2Read_beyond (hbeyond : s.inPpa n.val (s.aperture n.val off) len = false) :
    Gives (.bar2Read n off len tbit) s fun t => t.out = s.out ++ [.completion n.val false false (List.replicate len 0xFF)]
      ∧ (t.vf n.val).bounds = min ((s.vf n.val).bounds + 1) 65535 ∧ t.mem = s.mem := by
  have hexec := exec_bar2Read_enters off len tbit hlive hon htaken
  rw [State.bar2Enter_open _ hheld hopen, State.bar2Now, State.bar2ReadNow_beyond (by simpa using hbeyond), closing_quiet (by exact hquiet)] at hexec
  refine ⟨_, hexec, rfl, ?_, rfl⟩
  simp [State.countBounds, satAdd, State.vf_congr (State.emit_vfs ..)]

theorem exec_bar2Read_within (hin : s.inPpa n.val (s.aperture n.val off) len = true)
    (hok : (s.ppaPeek n.val (s.aperture n.val off) len).2.2 = St.ok) :
    Gives (.bar2Read n off len tbit) s fun t =>
      (∃ o, t.out = o ++ [.completion n.val false (s.ppaPeek n.val (s.aperture n.val off) len).2.1 (s.ppaPeek n.val (s.aperture n.val off) len).1])
        ∧ t.mem = ((s.injCharge 0 26 n.val len).ppaReport n.val (s.aperture n.val off) len (s.bar2Via n.val)).mem := by
  obtain ⟨hdues, hmem, hout⟩ := State.bar2ReadNow_within (s := s.injCharge 0 26 n.val len) (by simpa using hin) (by simpa using hok)
  have hexec := exec_bar2Read_enters off len tbit hlive hon htaken
  rw [State.bar2Enter_open _ hheld hopen, State.bar2Now, closing_quiet (hdues.trans hquiet)] at hexec
  exact ⟨_, hexec, by simpa using hout, by simpa using hmem⟩

theorem exec_bar2Write_beyond (hbeyond : s.inPpa n.val (s.aperture n.val off) data.length = false) :
    exec (.bar2Write n off data tbit) s = .next ((s.injCharge 0 26 n.val data.length).countBounds n.val) := by
  rw [exec_bar2Write_enters off data tbit hlive hon htaken, State.bar2Enter_open _ hheld hopen, State.bar2Now,
    State.bar2WriteNow_beyond (by simpa using hbeyond), closing_quiet (by exact hquiet)]

theorem exec_bar2Write_within (hin : s.inPpa n.val (s.aperture n.val off) data.length = true)
    (hplain : s.protected n.val (s.aperture n.val off) data.length = false) (hstandby : (s.twin n.val).state ≠ 4) :
    exec (.bar2Write n off data tbit) s
      = .next ((s.injCharge 0 26 n.val data.length).ppaStore n.val (s.aperture n.val off) data false (s.bar2Via n.val)).1 := by
  have hcharged : (s.injCharge 0 26 n.val data.length).dues = [] := hquiet
  rw [exec_bar2Write_enters off data tbit hlive hon htaken, State.bar2Enter_open _ hheld hopen, State.bar2Now,
    State.bar2WriteNow_within (by simpa using hin) (by simpa using hplain) (by simpa using hstandby),
    State.bar2Via_injCharge, closing_quiet ((State.ppaStore_stored ..).dues.trans hcharged)]

end Vf

/-! A completion of the only request (12 R305). -/

/-- The requests once the one with this tag has ended. -/
def State.endReq (s : State) (tag : Nat) : State := s.updPcie (fun p => { p with reqs := p.reqs.filter (fun x => x.tag != tag) })

@[simp] theorem State.endReq_mem (s : State) (tag : Nat) : (s.endReq tag).mem = s.mem := rfl
@[simp] theorem State.burstOf_updPcie (s : State) (f : Pcie → Pcie) (u : HostUser) : (s.updPcie f).burstOf u = s.burstOf u := rfl

section FailReq
variable {s : State} {r : HostReq} (status : StatusCode)

theorem State.failReq_unowned (hnone : s.burstOf r.user = none) : s.failReq r status = s.endReq r.tag := by
  simp [State.failReq, State.endReq, hnone]

theorem State.failReq_burst {ch : Nat} {b : Burst} (hburst : s.burstOf r.user = some (ch, b)) :
    s.failReq r status = (s.endReq r.tag).burstFail ch b false status (r.off + r.data.length) := by
  simp [State.failReq, State.endReq, hburst]

end FailReq

section Only
variable {tag : Nat} {r : HostReq} {s : State} (hquiet : s.quiet) (honly : s.pcie.reqs = [r]) (htag : r.tag = tag)
include honly htag

theorem State.endReq_only : (s.endReq tag).pcie.reqs = [] := by simp [State.endReq, State.updPcie, honly, htag]

variable {lower count : Nat} {data : List Byte} (hup : s.pcie.up = true)
  (hlower : lower % 128 = r.addr % 128) (hcount : count = r.left) (hdata : data ≠ [])
include hquiet hup hlower hcount hdata

/-- A piece of an answer joins the data that have come. -/
theorem exec_hostCompletion_piece (hpart : data.length < r.left) :
    exec (.hostCompletion tag lower count data false) s = .next (s.updPcie (fun p => { p with
      reqs := [{ r with addr := r.addr + data.length, left := r.left - data.length, data := r.data ++ data }] })) := by
  have hshort : ¬ r.left < data.length := by omega
  simp [exec_hostCompletion, execHostCompletion, hup, honly, htag, hlower, hcount, hdata, hpart, hshort, closing, State.updPcie, hquiet]

/-- The last piece of an answer ends the request, and its data go to the burst that waits for them. -/
theorem exec_hostCompletion_last {ch : Nat} {b : Burst} (hall : data.length = r.left) (hburst : s.burstOf r.user = some (ch, b)) :
    exec (.hostCompletion tag lower count data false) s
      = .next ((s.endReq tag).updChan ch (fun c => setBurst c { b with parts := b.parts.set [] r.off (r.data ++ data) })) := by
  simp [exec_hostCompletion, execHostCompletion, hup, honly, htag, hlower, hcount, hdata, hall, closing, hburst, hquiet, State.endReq]

end Only

/-- An answer that no request awaits is dropped and counted (12 R305, R306). -/
theorem exec_hostCompletion_unawaited {tag lower count : Nat} {data : List Byte} {s : State} (hquiet : s.quiet) (hup : s.pcie.up = true)
    (hnone : s.pcie.reqs = []) : exec (.hostCompletion tag lower count data false) s = .next s.unexpected := by
  simp [exec_hostCompletion, execHostCompletion, hup, hnone, closing, State.unexpected, hquiet]

/-! A channel with no burst outstanding that is to halt halts (11 R285). -/

/-- A channel in HALTED. -/
def Chan.halted (c : Chan) : Chan :=
  { c with state := 6, stop := .none, status := c.stopStatus, faultAddr := c.stopAddr, spacePpa := c.stopPpa, dir := c.stopDir, bursts := []
           nDesc := none, nIssued := 0, issued := c.done, ahead := none, srcRuns := [], dstRuns := [], segStop := none, needWalk := false }

/-- A privileged channel that halts pulses its event alone (11 R275). -/
theorem State.enterHalt_priv {s : State} {i : Nat} (hpriv : isPriv i = true) : s.enterHalt i = (s.updChan i Chan.halted).pulse i := by
  rw [State.enterHalt, hpriv, if_pos rfl]
  rfl

/-- An event is a core's. -/
theorem State.pulse_shape (s : State) (i : Nat) : ∃ c, s.pulse i = { s with cores := c } := by
  unfold State.pulse
  split
  · exact ⟨_, rfl⟩
  · exact ⟨s.cores, rfl⟩

section Pulse
variable (s : State) (i : Nat)

@[simp] theorem State.pulse_chans : (s.pulse i).chans = s.chans := by obtain ⟨c, h⟩ := s.pulse_shape i; rw [h]
@[simp] theorem State.pulse_pcie : (s.pulse i).pcie = s.pcie := by obtain ⟨c, h⟩ := s.pulse_shape i; rw [h]
@[simp] theorem State.pulse_mem : (s.pulse i).mem = s.mem := by obtain ⟨c, h⟩ := s.pulse_shape i; rw [h]
@[simp] theorem State.pulse_dues : (s.pulse i).dues = s.dues := by obtain ⟨c, h⟩ := s.pulse_shape i; rw [h]

end Pulse

/-- With no burst outstanding and its stop at an element of the descriptor in progress, a channel that is to halt halts. -/
theorem State.settle_halting {s : State} {i : Nat} (hstop : (s.chan i).stop = .halt) (hnone : (s.chan i).bursts = [])
    (hat : (s.chan i).desc ≠ none → (s.chan i).stopAt ≤ (s.chan i).total) : s.settle i = s.enterHalt i := by
  unfold State.settle State.settleChan
  cases hdesc : (s.chan i).desc with
  | none => simp [hstop, hnone, hdesc]
  | some b =>
    have hle : (s.chan i).stopAt ≤ (descOf b).total := by simpa [Chan.total, hdesc] using hat (by simp [hdesc])
    simp [hstop, hnone, hdesc, Nat.not_lt.2 hle]

/-! An engine none of whose channels may issue issues nothing (11 R273). -/

/-- Channel d stands as c does: a segment alone has taken the place of the one before it. -/
structure Chan.Stands (c d : Chan) : Prop where
  state : d.state = c.state
  status : d.status = c.status
  faultAddr : d.faultAddr = c.faultAddr
  mayIssue : d.mayIssue = c.mayIssue

theorem Chan.Stands.refl (c : Chan) : c.Stands c := ⟨rfl, rfl, rfl, rfl⟩
theorem Chan.Stands.trans {c d e : Chan} (h : c.Stands d) (h' : d.Stands e) : c.Stands e :=
  ⟨h'.state.trans h.state, h'.status.trans h.status, h'.faultAddr.trans h.faultAddr, h'.mayIssue.trans h.mayIssue⟩

theorem Chan.takeAhead_stands (c : Chan) : c.Stands c.takeAhead := by
  unfold Chan.takeAhead
  split
  · split <;> exact ⟨rfl, rfl, rfl, rfl⟩
  · exact Chan.Stands.refl c

/-- What an engine that asks its channels, and finds none that issues, can touch. -/
def State.Asked (s t : State) : Prop := (∃ c w, t = { s with chans := c, dmaWait := w }) ∧ ∀ i, (s.chan i).Stands (t.chan i)

theorem State.Asked.refl (s : State) : s.Asked s := ⟨⟨s.chans, s.dmaWait, rfl⟩, fun _ => Chan.Stands.refl _⟩
theorem State.Asked.trans {s t u : State} : s.Asked t → t.Asked u → s.Asked u := by
  rintro ⟨⟨_, _, rfl⟩, h⟩ ⟨⟨_, _, rfl⟩, h'⟩
  exact ⟨⟨_, _, rfl⟩, fun i => (h i).trans (h' i)⟩

theorem State.Asked.mem {s t : State} : s.Asked t → t.mem = s.mem := by rintro ⟨⟨_, _, rfl⟩, _⟩; rfl
theorem State.Asked.dues {s t : State} : s.Asked t → t.dues = s.dues := by rintro ⟨⟨_, _, rfl⟩, _⟩; rfl
theorem State.Asked.pcie {s t : State} : s.Asked t → t.pcie = s.pcie := by rintro ⟨⟨_, _, rfl⟩, _⟩; rfl

/-- No channel of engine e may issue. -/
def State.engineStill (s : State) (e : Nat) : Prop := ∀ k, k < 32 → (s.chan (e * 32 + k)).mayIssue = false

theorem State.Asked.still {s t : State} {e : Nat} (h : s.Asked t) (hstill : s.engineStill e) : t.engineStill e :=
  fun k hk => (h.2 _).mayIssue.trans (hstill k hk)

theorem State.takeAhead_asked (s : State) (i : Nat) : s.Asked (s.updChan i Chan.takeAhead) := by
  refine ⟨⟨_, s.dmaWait, rfl⟩, fun j => ?_⟩
  by_cases hj : j = i
  · subst hj
    rw [State.chan_updChan]
    exact Chan.takeAhead_stands _
  · rw [State.chan_updChan_ne _ _ _ hj]
    exact Chan.Stands.refl _

theorem State.issueBurst_still {s : State} {i : Nat} (h : (s.chan i).mayIssue = false) :
    s.Asked (s.issueBurst i).1 ∧ (s.issueBurst i).2 = false := by
  have hasked : s.Asked (if (s.chan i).ahead.isSome then s.updChan i Chan.takeAhead else s) := by
    split
    · exact s.takeAhead_asked i
    · exact State.Asked.refl s
  have hmay := (hasked.2 i).mayIssue.trans h
  unfold State.issueBurst
  simpa [hmay] using hasked

theorem firstIssue_still {e : Nat} {l : List Nat} {s : State} (hl : ∀ i ∈ l, ∃ k < 32, i = e * 32 + k) (hstill : s.engineStill e) :
    s.Asked (firstIssue l s).1 ∧ (firstIssue l s).2 = false := by
  induction l generalizing s with
  | nil => exact ⟨State.Asked.refl s, rfl⟩
  | cons i l ih =>
    obtain ⟨k, hk, rfl⟩ := hl i (by simp)
    obtain ⟨hasked, hnone⟩ := State.issueBurst_still (hstill k hk)
    obtain ⟨hrest, hnone'⟩ := ih (fun j hj => hl j (by simp [hj])) (hasked.still hstill)
    simp only [firstIssue, hnone, Bool.false_eq_true, if_false]
    exact ⟨hasked.trans hrest, hnone'⟩

theorem State.mem_engineOrder {s : State} {e i : Nat} (h : i ∈ s.engineOrder e) : ∃ k < 32, i = e * 32 + k := by
  simp only [State.engineOrder, List.mem_flatten, List.mem_map] at h
  obtain ⟨_, ⟨p, _, rfl⟩, hi⟩ := h
  obtain ⟨k, _, rfl⟩ := List.mem_map.1 (List.mem_filter.1 hi).1
  exact ⟨_, Nat.mod_lt _ (by omega), rfl⟩

theorem State.readyChans_still {s : State} {e : Nat} (hstill : s.engineStill e) : s.readyChans e = [] := by
  have hready : (List.range 32).filter (fun k => (s.chan (e * 32 + k)).mayIssue && (s.chan (e * 32 + k)).front.isSome) = [] := by
    rw [List.filter_eq_nil_iff]
    intro k hk
    simp [hstill k (List.mem_range.1 hk)]
  simp [State.readyChans, hready]

theorem State.askOrder_still {s : State} {e : Nat} (hstill : s.engineStill e) :
    s.Asked (s.askOrder e).1 ∧ ∀ i ∈ (s.askOrder e).2, ∃ k < 32, i = e * 32 + k := by
  have hasked : ∀ w, s.Asked { s with dmaWait := w } := fun w => ⟨⟨s.chans, w, rfl⟩, fun _ => Chan.Stands.refl _⟩
  unfold State.askOrder
  simp only [State.readyChans_still hstill]
  split
  · exact ⟨State.Asked.refl s, fun i => State.mem_engineOrder⟩
  · exact ⟨hasked _, fun i => State.mem_engineOrder⟩

theorem State.pumpEngine_still {e : Nat} (fuel : Nat) {s : State} (hstill : s.engineStill e) : s.Asked (State.pumpEngine e fuel s) := by
  cases fuel with
  | zero => exact State.Asked.refl s
  | succ fuel =>
    obtain ⟨hasked, horder⟩ := State.askOrder_still hstill
    obtain ⟨hfirst, hnone⟩ := firstIssue_still horder (hasked.still hstill)
    simp only [State.pumpEngine, hnone, Bool.false_eq_true, if_false]
    split
    · exact State.Asked.refl s
    · exact hasked.trans hfirst

/-! The only burst of a privileged channel fails. -/

/-- A running channel whose only burst has failed to be read: it is to halt at the burst. -/
def Chan.failing (c : Chan) (b : Burst) (status : StatusCode) (off : Nat) : Chan :=
  { c with stop := .halt, stopStatus := status, stopAddr := b.srcName + off, stopPpa := !b.srcDva, stopDir := false, stopAt := b.start
           needWalk := false, segStop := none, bursts := [] }

/-- The state in which channel i has halted for the failure of its only burst, and its engine has not gone on. -/
def State.haltedBy (s : State) (i : Nat) (b : Burst) (status : StatusCode) (off : Nat) : State :=
  ((s.updChan i (fun c => c.failing b status off)).updChan i Chan.halted).pulse i

section Halted
variable (s : State) {i : Nat} (b : Burst) (status : StatusCode) (off : Nat)

@[simp] theorem State.chan_haltedBy : (s.haltedBy i b status off).chan i = ((s.chan i).failing b status off).halted := by
  rw [State.haltedBy, State.chan_congr (State.pulse_chans ..), State.chan_updChan, State.chan_updChan]

theorem State.chan_haltedBy_ne {j : Nat} (hj : j ≠ i) : (s.haltedBy i b status off).chan j = s.chan j := by
  rw [State.haltedBy, State.chan_congr (State.pulse_chans ..), State.chan_updChan_ne _ _ _ hj, State.chan_updChan_ne _ _ _ hj]

/-- Neither the channel that has halted nor another of its engine may issue. -/
theorem State.haltedBy_still (hfree : s.engineFree i) : (s.haltedBy i b status off).engineStill (i / 32) := by
  intro k hk
  by_cases hi : i / 32 * 32 + k = i
  · rw [hi, State.chan_haltedBy]
    simp [Chan.mayIssue, Chan.halted]
  · rw [State.chan_haltedBy_ne _ _ _ _ hi]
    exact hfree k hk hi

end Halted

section Fail
variable {s : State} {i off : Nat} {b : Burst} {status : StatusCode} (hbursts : (s.chan i).bursts = [b]) (hnext : b.next = false)
  (hstate : (s.chan i).state = 2) (hstop : (s.chan i).stop = .none)
include hbursts hnext hstate hstop

theorem State.burstFail_only :
    s.burstFail i b false status off = (s.updChan i (fun c => c.failing b status off)).pump i := by
  have hfailing : { haltChan (s.chan i) status (b.srcName + off) b.start (!b.srcDva) false with bursts := [] }
      = (s.chan i).failing b status off := by simp [haltChan, Chan.failing, hstop]
  have hchan : s.updChan i (fun _ => (s.chan i).failing b status off) = s.updChan i (fun c => c.failing b status off) := rfl
  rw [← hchan, ← hfailing]
  simp [State.burstFail, haltChan, hbursts, hnext, hstate, hstop]

variable (hpriv : isPriv i = true) (hat : (s.chan i).desc ≠ none → b.start ≤ (s.chan i).total)
include hpriv hat

/-- The failure of its only burst halts a privileged channel, whose engine then asks its channels. -/
theorem State.burstFail_halts : s.burstFail i b false status off = State.pumpEngine (i / 32) 256 (s.haltedBy i b status off) := by
  have hset : (s.updChan i (fun c => c.failing b status off)).settle i = (s.updChan i (fun c => c.failing b status off)).enterHalt i :=
    State.settle_halting (by simp [Chan.failing]) (by simp [Chan.failing]) (by simpa [Chan.failing, Chan.total] using hat)
  rw [State.burstFail_only hbursts hnext hstate hstop, State.pump, hset, State.enterHalt_priv hpriv, State.haltedBy]

/-- A privileged channel halts with the status of its only burst, at the address that its operand names (11 R285). -/
theorem State.burstFail_priv (hfree : s.engineFree i) :
    let t := s.burstFail i b false status off
    (t.chan i).state = 6 ∧ (t.chan i).status = status ∧ (t.chan i).faultAddr = b.srcName + off ∧ t.pcie = s.pcie ∧ t.mem = s.mem
      ∧ t.dues = s.dues := by
  have hasked := State.pumpEngine_still 256 (s.haltedBy_still b status off hfree)
  have hstands := hasked.2 i
  rw [State.chan_haltedBy] at hstands
  rw [State.burstFail_halts hbursts hnext hstate hstop hpriv hat]
  exact ⟨hstands.state, hstands.status, hstands.faultAddr, hasked.pcie.trans (by simp [State.haltedBy]),
    hasked.mem.trans (by simp [State.haltedBy]), hasked.dues.trans (by simp [State.haltedBy])⟩

end Fail

/-! A vector raised (12 R317) touches its pending bit or what left the module. -/

section Raise
variable (s : State) (fn vec : Nat)

theorem State.raise_only_msix : ∃ m o, s.raise fn vec = { s with pcie := { s.pcie with msix := m }, out := o } := by
  unfold State.raise
  dsimp only
  split
  · exact ⟨_, s.out, rfl⟩
  · split
    · exact ⟨s.pcie.msix, _, rfl⟩
    · exact ⟨s.pcie.msix, s.out, rfl⟩

@[simp] theorem State.raise_dues : (s.raise fn vec).dues = s.dues := by obtain ⟨m, o, h⟩ := s.raise_only_msix fn vec; rw [h]
@[simp] theorem State.raise_mem : (s.raise fn vec).mem = s.mem := by obtain ⟨m, o, h⟩ := s.raise_only_msix fn vec; rw [h]
@[simp] theorem State.raise_chans : (s.raise fn vec).chans = s.chans := by obtain ⟨m, o, h⟩ := s.raise_only_msix fn vec; rw [h]
@[simp] theorem State.raise_reqs : (s.raise fn vec).pcie.reqs = s.pcie.reqs := by obtain ⟨m, o, h⟩ := s.raise_only_msix fn vec; rw [h]
@[simp] theorem State.raise_quarantine : (s.raise fn vec).pcie.quarantine = s.pcie.quarantine := by
  obtain ⟨m, o, h⟩ := s.raise_only_msix fn vec; rw [h]
@[simp] theorem State.raise_timeouts : (s.raise fn vec).pcie.timeouts = s.pcie.timeouts := by
  obtain ⟨m, o, h⟩ := s.raise_only_msix fn vec; rw [h]

end Raise

/-! The timeout of the only request (12 R306). -/

/-- A request that times out is counted, and its tag goes into quarantine. -/
def State.timedOut (s : State) (tag : Nat) : State :=
  s.updPcie (fun p => { p with timeouts := satAdd 64 p.timeouts 1, quarantine := p.quarantine ++ [tag] })

section Timeout
variable {tag : Nat} {r : HostReq} {s : State} (hquiet : s.quiet) (honly : s.pcie.reqs = [r]) (htag : r.tag = tag)
include honly htag

theorem exec_completionTimeout_only :
    exec (.completionTimeout tag) s = closing (((s.timedOut tag).failReq r St.timeout).raise 16 7) := by
  simp [exec_completionTimeout, execCompletionTimeout, honly, htag, State.timedOut]

theorem State.endReq_timedOut : ((s.timedOut tag).endReq tag).pcie.reqs = []
    ∧ ((s.timedOut tag).endReq tag).pcie.quarantine = s.pcie.quarantine ++ [tag]
    ∧ ((s.timedOut tag).endReq tag).pcie.timeouts = min (s.pcie.timeouts + 1) (2 ^ 64 - 1) :=
  ⟨State.endReq_only (s := s.timedOut tag) honly htag, rfl, rfl⟩

include hquiet

theorem exec_completionTimeout_unowned (hnone : s.burstOf r.user = none) :
    Gives (.completionTimeout tag) s fun t => t.pcie.reqs = [] ∧ t.pcie.quarantine = s.pcie.quarantine ++ [tag]
      ∧ t.pcie.timeouts = min (s.pcie.timeouts + 1) (2 ^ 64 - 1) ∧ t.mem = s.mem := by
  have hexec := exec_completionTimeout_only honly htag
  have hdues : (((s.timedOut tag).endReq tag).raise 16 7).dues = [] := (State.raise_dues ..).trans hquiet
  rw [State.failReq_unowned (s := s.timedOut tag) _ hnone, htag, closing_quiet hdues] at hexec
  refine ⟨_, hexec, ?_⟩
  simpa [State.timedOut] using State.endReq_timedOut honly htag

theorem exec_completionTimeout_burst {i : Nat} {b : Burst} (hburst : s.burstOf r.user = some (i, b)) (hpriv : isPriv i = true)
    (hbursts : (s.chan i).bursts = [b]) (hnext : b.next = false) (hstate : (s.chan i).state = 2) (hstop : (s.chan i).stop = .none)
    (hat : (s.chan i).desc ≠ none → b.start ≤ (s.chan i).total) (hfree : s.engineFree i) :
    Gives (.completionTimeout tag) s fun t => (t.chan i).state = 6 ∧ (t.chan i).status = St.timeout
      ∧ (t.chan i).faultAddr = b.srcName + (r.off + r.data.length) ∧ t.pcie.reqs = [] ∧ t.pcie.quarantine = s.pcie.quarantine ++ [tag]
      ∧ t.mem = s.mem := by
  obtain ⟨hhalted, hstatus, haddr, hpcie, hmem, hdues⟩ :=
    State.burstFail_priv (s := (s.timedOut tag).endReq tag) (off := r.off + r.data.length) (status := St.timeout) hbursts hnext hstate hstop
      hpriv hat hfree
  obtain ⟨hreqs, hquarantine, -⟩ := State.endReq_timedOut honly htag
  have hexec := exec_completionTimeout_only honly htag
  rw [State.failReq_burst (s := s.timedOut tag) _ hburst, htag, closing_quiet ((State.raise_dues ..).trans (hdues.trans hquiet))] at hexec
  have hchan := State.chan_congr (State.raise_chans (((s.timedOut tag).endReq tag).burstFail i b false St.timeout (r.off + r.data.length)) 16 7) i
  refine ⟨_, hexec, ?_, ?_, ?_, ?_, ?_, ?_⟩
  · rw [hchan, hhalted]
  · rw [hchan, hstatus]
  · rw [hchan, haddr]
  · rw [State.raise_reqs, hpcie, hreqs]
  · rw [State.raise_quarantine, hpcie, hquarantine]
  · rw [State.raise_mem, hmem]
    rfl

end Timeout

/-! The aperture (12 R315). -/

/-- A path that presents its write to a register of Pn moves the aperture, to within the PPA. -/
theorem exec_vfApertureWrite_reached {p : Path} {n : PartId} {value : Word64} {s : State} (hcarries : s.carries p)
    (hreach : reaches p n.val = true) : exec (.vfApertureWrite p n value) s = .next (if bits value.toNat 39 30 * 2 ^ 30 < s.ppaSize n.val
      then s.updVf n.val (fun x => { x with aperture := bits value.toNat 39 30 * 2 ^ 30 }) else s) := by
  obtain ⟨hquiet, hshut⟩ := hcarries
  have hwrite : exec (.vfApertureWrite p n value) s = closing (s.writeAperture n.val value.toNat) := by
    rw [exec_vfApertureWrite, execVfApertureWrite, State.onPart_reached hshut hreach]
  rw [hwrite]
  unfold State.writeAperture
  rw [← keepBits, keepBits_eq_bits_mul]
  by_cases hfits : bits value.toNat 39 30 * 2 ^ 30 < s.ppaSize n.val
  · rw [if_pos hfits, closing_quiet ((State.updVf_dues ..).trans hquiet)]
  · rw [if_neg hfits, closing_quiet hquiet]

end Sys2Proof.Machine

open Sys2Proof Sys2Proof.Machine

/-- Settles O41, a case for each command of the endpoint and each answer to it. -/
theorem endpointCarriesTransfers : Obligations.EndpointCarriesTransfers := by
  refine ⟨?read, ?write, ?completion, ?timeout, fun tag s => exec_tagQuarantineEnd tag s,
    fun p n value s hcarries hreach => exec_vfApertureWrite_reached hcarries hreach⟩
  case read =>
    intro n off len tbit s a s0 hquiet hlive
    refine ⟨exec_bar2Read_disabled off len tbit hlive hquiet, exec_bar2Read_error off len tbit hlive hquiet,
      fun hon htaken hheld hopen => ⟨?_, ?_⟩⟩
    · exact exec_bar2Read_within off len tbit hlive hquiet hon htaken hheld hopen
    · exact exec_bar2Read_beyond off len tbit hlive hquiet hon htaken hheld hopen
  case write =>
    intro n off data tbit s a s0 hquiet hlive
    refine ⟨exec_bar2Write_disabled off data tbit hlive hquiet, exec_bar2Write_error off data tbit hlive hquiet,
      fun hon htaken hheld hopen => ⟨?_, ?_⟩, fun hon htaken hheld hshut => ?_⟩
    · exact exec_bar2Write_within off data tbit hlive hquiet hon htaken hheld hopen
    · exact exec_bar2Write_beyond off data tbit hlive hquiet hon htaken hheld hopen
    · exact exec_bar2Write_waits off data tbit hlive hquiet hon htaken hheld hshut
  case completion =>
    intro tag lower count data s hquiet hup
    refine ⟨exec_hostCompletion_unawaited hquiet hup, fun r honly htag hlower hcount hdata => ⟨?_, fun ch b hall hburst => ?_⟩⟩
    · exact exec_hostCompletion_piece hquiet honly htag hup hlower hcount hdata
    · exact ⟨_, exec_hostCompletion_last hquiet honly htag hup hlower hcount hdata hall hburst, State.endReq_only honly htag,
        by rw [State.chan_updChan]; rfl, rfl⟩
  case timeout =>
    intro tag r s hquiet honly htag
    exact ⟨exec_completionTimeout_unowned hquiet honly htag, fun i b hburst hpriv hbursts hnext hstate hstop hat hfree =>
      exec_completionTimeout_burst hquiet honly htag hburst hpriv hbursts hnext hstate hstop hat hfree⟩
end

section
/-!
PROOFS. The state after reset (02 R33; 14 R378, R392; 16 R436, R438).
-/

open Sys2Proof Sys2Proof.Machine

/-- Settles O59: State.reset gives no field, so every table is empty and each key reads as the reset value of its type. -/
theorem resetState : Obligations.ResetState := by
  refine ⟨rfl, ⟨Memory.wf_reset, rfl⟩, rfl, rfl, rfl, rfl, rfl, rfl, rfl, rfl, ?bytes, ?parts, ?cells,
    ?chans, ?queues, ?ctxs, ?twins, ?sites, ?piles⟩
  case bytes => exact Tab.get_nil 0
  case parts => intro n; rw [State.part, State.reset, Tab.get_nil]
  case cells => intro i; rw [State.cell, State.reset, Tab.get_nil]; exact ⟨rfl, rfl⟩
  case chans => intro i; rw [State.chan, State.reset, Tab.get_nil]; exact ⟨rfl, rfl⟩
  case queues => intro n q; rw [State.queue, State.reset, Tab.get_nil]; exact ⟨rfl, rfl⟩
  case ctxs => intro n c; rw [State.ctx, State.reset, Tab.get_nil]
  case twins => intro n; rw [State.twin, State.reset, Tab.get_nil]
  case sites => intro k; rw [State.site, State.reset, Tab.get_nil]
  case piles => intro k; rw [State.stack, State.reset, Tab.get_nil]
end

section
/-!
PROOFS. Commits (02 R52, R55-R57). First what reports an event. Then a commit that is accepted, one whose snapshot fails its check, and one
whose registers take their values.
-/

namespace Sys2Proof.Machine

/-! Reports: vectors (12 R317), records of the sealed log (02 R63), the Structure Table (12 R318). -/

/-- What a report can touch. -/
def State.Told (s t : State) : Prop := ∃ l c p o, t = { s with sec := { s.sec with log := l }, freeCtr := c, pcie := p, out := o }

theorem State.Told.refl (s : State) : s.Told s := ⟨_, _, _, _, rfl⟩
theorem State.Told.trans {s t u : State} : s.Told t → t.Told u → s.Told u := by
  rintro ⟨_, _, _, _, rfl⟩ ⟨_, _, _, _, rfl⟩
  exact ⟨_, _, _, _, rfl⟩

theorem State.raise_told (s : State) (fn vec : Nat) : s.Told (s.raise fn vec) := by
  obtain ⟨p, o, h⟩ := s.raise_shape fn vec
  exact ⟨s.sec.log, s.freeCtr, p, o, h⟩

theorem State.log_told (s : State) (event scope : Nat) (st : StatusCode) (role : Nat) (detail : List Byte) :
    s.Told (s.log event scope st role detail) := s.log_shape event scope st role detail

theorem State.emit_told (s : State) (o : Out) : s.Told (s.emit o) := ⟨_, _, _, _, rfl⟩
theorem State.rewriteTable_told (s : State) : s.Told s.rewriteTable := ⟨s.sec.log, s.freeCtr, _, s.out, rfl⟩

theorem State.stateVectors_told (s : State) (n : Nat) : s.Told (s.stateVectors n) := (s.raise_told ..).trans (State.raise_told ..)

section Told
variable {s t : State} (h : s.Told t)
include h

theorem State.Told.dues : t.dues = s.dues := by obtain ⟨_, _, _, _, rfl⟩ := h; rfl
theorem State.Told.mem : t.mem = s.mem := by obtain ⟨_, _, _, _, rfl⟩ := h; rfl
theorem State.Told.pat : t.pat = s.pat := by obtain ⟨_, _, _, _, rfl⟩ := h; rfl
theorem State.Told.regs : t.regs = s.regs := by obtain ⟨_, _, _, _, rfl⟩ := h; rfl
theorem State.Told.cells : t.cells = s.cells := by obtain ⟨_, _, _, _, rfl⟩ := h; rfl

end Told

/-! PAT_COMMIT. -/

/-- A commit of a scope is accepted and PENDING (02 R57). -/
def State.takeCommit (s : State) (scope : Nat) (c : PendCommit) : State :=
  ({ s with pat := { s.pat with pendCommits := s.pat.pendCommits.set none scope (some c) } } : State).commitOut scope
    { status := St.pending, token := c.token }

@[simp] theorem State.pending_takeCommit (s : State) (scope : Nat) (c : PendCommit) :
    (s.takeCommit scope c).pat.pendCommits.get none scope = some c := Tab.get_set_same none s.pat.pendCommits scope (some c)

/-- The outcome of a scope's last commit is the one that was set. -/
@[simp] theorem State.commits_commitOut (s : State) (scope : Nat) (c : CommitStatus) : (s.commitOut scope c).pat.commits.get {} scope = c :=
  Tab.get_set_same {} s.pat.commits scope c

/-- A commit that nothing forbids is accepted with its snapshot (02 R55, R57). -/
theorem State.commit_accepted {s : State} {scope block : Nat} (token : Nat) (hblock : block ≠ 15)
    (hnone : s.pat.pendCommits.get none scope = none) (hpart : scope ≠ 16 → s.ready scope = true)
    (hmodule : scope = 16 → s.logRoom = true) :
    s.commit scope block token = s.takeCommit scope { block := block, token := token, snap := s.snapshot block scope } := by
  by_cases hscope : scope = 16
  · subst hscope
    simp [State.commit, State.takeCommit, hblock, hnone, hmodule]
  · simp [State.commit, State.takeCommit, hblock, hnone, hscope, hpart hscope]

/-- Where the scope of a write of PAT_COMMIT accepts the commit, the write leaves it PENDING (02 R55). -/
theorem exec_patCommit_accepted {p : Path} {v : BitVec 32} {s : State} {scope block : Nat} (token : Nat) (hcarries : s.hubCarries p)
    (hwrite : s.writeCommit p v.toNat = s.commit scope block token) (hblock : block ≠ 15)
    (hnone : s.pat.pendCommits.get none scope = none) (hpart : scope ≠ 16 → s.ready scope = true)
    (hmodule : scope = 16 → s.logRoom = true) :
    Gives (.patCommit p v) s fun t =>
      t.pat.pendCommits.get none scope = some { block := block, token := token, snap := s.snapshot block scope }
        ∧ (t.pat.commits.get {} scope).status = St.pending ∧ t.regs = s.regs ∧ t.staged = s.staged := by
  obtain ⟨⟨hquiet, hopen⟩, hstage⟩ := hcarries
  have hexec : exec (.patCommit p v) s = closing (s.commit scope block token) := by
    simp [exec_patCommit, execPatCommit, hopen, hstage, hwrite]
  rw [State.commit_accepted token hblock hnone hpart hmodule] at hexec
  exact ⟨_, hexec.trans (closing_quiet hquiet), State.pending_takeCommit .., congrArg CommitStatus.status (State.commits_commitOut ..), rfl, rfl⟩

/-! COMMIT_COMPLETE. -/

/-- The commit of a scope is no longer pending. -/
def State.dropCommit (s : State) (scope : Nat) : State := { s with pat := { s.pat with pendCommits := s.pat.pendCommits.set none scope none } }

@[simp] theorem State.pending_dropCommit (s : State) (scope : Nat) : (s.dropCommit scope).pat.pendCommits.get none scope = none :=
  Tab.get_set_same none s.pat.pendCommits scope none

/-- The check of a register reads none of the commits that are pending. -/
theorem State.regFails_dropCommit (s : State) (scope : Nat) (snap : Tab Nat) (a : Nat) :
    regFails (s.dropCommit scope) snap a = regFails s snap a := by
  have hval : snapVal (s.dropCommit scope) snap = snapVal s snap := rfl
  have hinj : ∀ v, injFails (s.dropCommit scope) a v = injFails s a v := fun _ => rfl
  have hhmc : ∀ v, hmcFails (s.dropCommit scope) snap a v = hmcFails s snap a v := fun _ => rfl
  have hlat : ∀ n v, latFails (s.dropCommit scope) n v = latFails s n v := fun _ _ => rfl
  have hwin : ∀ n, winFails (s.dropCommit scope) snap n a = winFails s snap n a := fun _ => rfl
  have hshape : ∀ v, shapeFails (s.dropCommit scope) snap a v = shapeFails s snap a v := fun _ => rfl
  have hslice : ∀ n v, sliceFails (s.dropCommit scope) n v = sliceFails s n v := fun _ _ => rfl
  have hchan : (s.dropCommit scope).ownerChan = s.ownerChan := rfl
  have hcell : (s.dropCommit scope).ownerCell = s.ownerCell := rfl
  simp only [regFails, hval, hinj, hhmc, hlat, hwin, hshape, hslice, hchan, hcell]

@[simp] theorem State.firstFail_dropCommit (s : State) (scope : Nat) (snap : Tab Nat) :
    (s.dropCommit scope).firstFail snap = s.firstFail snap := by
  simp only [State.firstFail, State.regFails_dropCommit]

/-- Every register of a snapshot takes its value, one after another (02 R57). -/
def State.applySnap (s : State) (snap : Tab Nat) : State := snap.foldl (fun s e => s.applyOne e.1 (e.2 - 1)) s

theorem State.applySnap_shape (s : State) (snap : Tab Nat) : ∃ r g, s.applySnap snap = { s with regs := r, staged := g } := by
  induction snap generalizing s with
  | nil => exact ⟨s.regs, s.staged, rfl⟩
  | cons e snap ih =>
    obtain ⟨r, g, h⟩ := ih (s.applyOne e.1 (e.2 - 1))
    exact ⟨r, g, h⟩

@[simp] theorem State.applySnap_dues (s : State) (snap : Tab Nat) : (s.applySnap snap).dues = s.dues := by
  obtain ⟨r, g, h⟩ := s.applySnap_shape snap; rw [h]
@[simp] theorem State.applySnap_mem (s : State) (snap : Tab Nat) : (s.applySnap snap).mem = s.mem := by
  obtain ⟨r, g, h⟩ := s.applySnap_shape snap; rw [h]
@[simp] theorem State.applySnap_pat (s : State) (snap : Tab Nat) : (s.applySnap snap).pat = s.pat := by
  obtain ⟨r, g, h⟩ := s.applySnap_shape snap; rw [h]

theorem State.reg_applyOne (s : State) (a v b : Nat) : (s.applyOne a v).reg b = if b = a then v else s.reg b := Tab.get_set 0 s.regs a b v

/-- Each register then reads as the snapshot gives it: a canonical snapshot names a register once. -/
theorem State.reg_applySnap {snap : Tab Nat} (hwf : Tab.wf 0 snap = true) (s : State) (a : Nat) :
    (s.applySnap snap).reg a = snapVal s snap a := by
  induction snap generalizing s with
  | nil => rfl
  | cons e snap ih =>
    obtain ⟨k, v⟩ := e
    simp only [Tab.wf, Bool.and_eq_true, Bool.not_eq_true', decide_eq_false_iff_not] at hwf
    obtain ⟨⟨hlisted, habove⟩, hwf⟩ := hwf
    have hrest : (s.applySnap ((k, v) :: snap)).reg a = snapVal (s.applyOne k (v - 1)) snap a := ih hwf _
    rw [hrest]
    by_cases ha : a = k
    · subst ha
      obtain ⟨w, rfl⟩ := Nat.exists_eq_succ_of_ne_zero hlisted
      simp [snapVal, Tab.get, Tab.get_of_above habove (Nat.le_refl _), State.reg_applyOne]
    · simp [snapVal, Tab.get, Ne.symm ha, State.reg_applyOne, ha]

/-- The outcome of a commit whose snapshot fails its check at register a (02 R56). -/
def failedAt (token a : Nat) : CommitStatus := { status := St.cfgMismatch, token := token, failHalf := halfAt a, firstFail := offAt a }

/-- The outcome of a commit whose snapshot passes its check (02 R56). -/
def passed (token : Nat) : CommitStatus := { status := St.ok, token := token }

/-- Partitions change. -/
def State.withParts (s : State) (ps : Tab Part) : State := { s with pat := { s.pat with parts := ps } }

/-- Changes of partitions, one after another, are a change of partitions. -/
theorem State.updParts_shape (s : State) (l : List Nat) (f : Nat → Part → Part) :
    ∃ ps, forAll l (fun n s => s.updPart n (f n)) s = s.withParts ps := by
  induction l generalizing s with
  | nil => exact ⟨s.pat.parts, rfl⟩
  | cons n l ih =>
    obtain ⟨ps, h⟩ := ih (s.updPart n (f n))
    exact ⟨ps, h⟩

section Ends
variable {s : State} {scope : Nat} {c : PendCommit} (hpending : s.pat.pendCommits.get none scope = some c)
include hpending

/-- A commit whose snapshot fails its check ends with the first register that fails, and changes none (02 R56, R57). -/
theorem State.endCommit_failed {a : Nat} (hfail : s.firstFail c.snap = some a) :
    ((s.dropCommit scope).commitOut scope (failedAt c.token a)).Told (s.endCommit scope) := by
  have hfirst := (s.firstFail_dropCommit scope c.snap).trans hfail
  unfold State.dropCommit at hfirst
  simp only [State.endCommit, hpending, hfirst]
  split
  · exact (State.log_told ..).trans (State.raise_told ..)
  · exact State.log_told ..

/-- One whose snapshot passes gives every register its value; the module's is counted in the partitions that it concerns (02 R57). -/
theorem State.endCommit_passed (hpass : s.firstFail c.snap = none) :
    ∃ ps, ((((s.dropCommit scope).applySnap c.snap).commitOut scope (passed c.token)).withParts ps).Told (s.endCommit scope) := by
  have hfirst := (s.firstFail_dropCommit scope c.snap).trans hpass
  unfold State.dropCommit at hfirst
  by_cases hscope : scope = 16
  · obtain ⟨ps, hparts⟩ := (((s.dropCommit scope).applySnap c.snap).commitOut scope (passed c.token)).updParts_shape
      (allParts.filter (fun n => c.snap.any (fun e => settingOf e.1 == some n))) (fun _ p => { p with opCommits := p.opCommits + 1 })
    refine ⟨ps, ?_⟩
    rw [← hparts]
    simp only [State.endCommit, hpending, hfirst, if_pos hscope]
    exact (State.log_told ..).trans (State.raise_told ..)
  · refine ⟨((s.dropCommit scope).applySnap c.snap).pat.parts, ?_⟩
    simp only [State.endCommit, hpending, hfirst, if_neg hscope]
    exact State.Told.refl _

end Ends

end Sys2Proof.Machine

open Sys2Proof Sys2Proof.Machine

/-- Settles O4: both forms of PAT_COMMIT are a commit that its scope accepts; COMMIT_COMPLETE ends one that fails its check, or one that passes. -/
theorem commitIsAllOrNothing : Obligations.CommitIsAllOrNothing := by
  refine ⟨?part, ?module, ?failed, ?passed⟩
  case part =>
    intro n v s hcarries hblock hnone hready
    exact exec_patCommit_accepted (bits v.toNat 31 24) hcarries rfl hblock hnone (fun _ => hready) (fun h => absurd h (by omega))
  case module =>
    intro v s hcarries hscope hblock hnone hroom
    have hwrite : s.writeCommit .pf0 v.toNat = s.commit 16 (bits v.toNat 3 0) (bits v.toNat 31 24) := by simp [State.writeCommit, hscope]
    exact exec_patCommit_accepted (bits v.toNat 31 24) hcarries hwrite hblock hnone (fun h => absurd rfl h) (fun _ => hroom)
  case failed =>
    intro k c a s hquiet hpending hfail
    have htold := State.endCommit_failed hpending hfail
    have hexec : exec (.commitComplete k) s = .next (s.endCommit k) := closing_quiet (htold.dues.trans hquiet)
    have hout : (s.endCommit k).pat.commits.get {} k = failedAt c.token a := by rw [htold.pat, State.commits_commitOut]
    have hended : (s.endCommit k).pat.pendCommits.get none k = none := by rw [htold.pat]; exact s.pending_dropCommit k
    exact ⟨_, hexec, by rw [hout]; rfl, by rw [hout]; rfl, by rw [hout]; rfl, hended, htold.regs⟩
  case passed =>
    intro k c s hquiet hpending hwf hpass
    obtain ⟨ps, htold⟩ := State.endCommit_passed hpending hpass
    have hdues : (s.endCommit k).dues = [] := htold.dues.trans (((s.dropCommit k).applySnap_dues c.snap).trans hquiet)
    have hexec : exec (.commitComplete k) s = .next (s.endCommit k) := closing_quiet hdues
    have hout : (s.endCommit k).pat.commits.get {} k = passed c.token := by
      rw [htold.pat]; exact ((s.dropCommit k).applySnap c.snap).commits_commitOut k (passed c.token)
    have hended : (s.endCommit k).pat.pendCommits.get none k = none := by
      rw [htold.pat]; exact (congrArg (fun p => p.pendCommits.get none k.val) ((s.dropCommit k).applySnap_pat c.snap)).trans (s.pending_dropCommit k)
    exact ⟨_, hexec, by rw [hout]; rfl, hended, htold.mem.trans ((s.dropCommit k).applySnap_mem c.snap),
      fun a => (State.reg_congr htold.regs a).trans ((s.dropCommit k).reg_applySnap hwf a)⟩
end

section
/-!
PROOFS. The steps of a build (02 R48-R50). First a loop over numbers, and what the bookkeeping of a build touches. Then each step's act: what
drains, what is filled with zeros, what is flushed, what is reset.
-/

namespace Sys2Proof.Machine

/-- A loop that keeps I and at each number i brings about Q i, which the rest of the loop keeps, brings about Q i for every number it runs over. -/
theorem forAll_each {I : State → Prop} {Q : Nat → State → Prop} {f : Nat → State → State} (hkeep : ∀ i s, I s → I (f i s))
    (hmake : ∀ i s, I s → Q i (f i s)) (hstay : ∀ i j s, I s → Q j s → Q j (f i s)) (l : List Nat) {s : State} (hs : I s) :
    I (forAll l f s) ∧ ∀ i ∈ l, Q i (forAll l f s) := by
  have hstays : ∀ (l : List Nat) (j : Nat) (s : State), I s → Q j s → Q j (forAll l f s) := by
    intro l j
    induction l with
    | nil => exact fun _ _ h => h
    | cons i l ih => exact fun s hi hq => ih (f i s) (hkeep i s hi) (hstay i j s hi hq)
  induction l generalizing s with
  | nil => exact ⟨hs, fun i hi => absurd hi (List.not_mem_nil)⟩
  | cons i l ih =>
    have hi := hkeep i s hs
    obtain ⟨hkept, hrest⟩ := ih hi
    refine ⟨hkept, fun j hj => ?_⟩
    rcases List.mem_cons.1 hj with rfl | hj
    · exact hstays l j _ hi (hmake j s hs)
    · exact hrest j hj

theorem onlyIf_of {b : Bool} {f : State → State} {s : State} (h : b = true) : onlyIf b f s = f s := by rw [h, onlyIf_true]

theorem forAll_nil (f : Nat → State → State) (s : State) : forAll [] f s = s := rfl

theorem mem_maskList {n m i : Nat} : i ∈ maskList n m ↔ i < n ∧ m.testBit i = true := by simp [maskList]

/-! What the bookkeeping of a build touches. -/

/-- Between s and t partitions and keys, registers, pools, caches, the outcome of a reset and what is reported may differ, and nothing else. -/
def State.Managed (s t : State) : Prop := ∃ r p k h w x q c e o,
  t = { s with regs := r, pat := p, coh := k, hbm := h, pwr := w, sec := x, pools := q, freeCtr := c, pcie := e, out := o }

theorem State.Managed.refl (s : State) : s.Managed s := ⟨_, _, _, _, _, _, _, _, _, _, rfl⟩
theorem State.Managed.trans {s t u : State} : s.Managed t → t.Managed u → s.Managed u := by
  rintro ⟨_, _, _, _, _, _, _, _, _, _, rfl⟩ ⟨_, _, _, _, _, _, _, _, _, _, rfl⟩
  exact ⟨_, _, _, _, _, _, _, _, _, _, rfl⟩

theorem State.Told.managed {s t : State} : s.Told t → s.Managed t := by
  rintro ⟨_, _, _, _, rfl⟩
  exact ⟨_, _, _, _, _, _, _, _, _, _, rfl⟩

theorem State.updPart_managed (s : State) (n : Nat) (f : Part → Part) : s.Managed (s.updPart n f) := ⟨_, _, _, _, _, _, _, _, _, _, rfl⟩
theorem State.updKeys_managed (s : State) (n : Nat) (f : KeySlots → KeySlots) : s.Managed (s.updKeys n f) := ⟨_, _, _, _, _, _, _, _, _, _, rfl⟩
theorem State.updPch_managed (s : State) (i : Nat) (f : Pch → Pch) : s.Managed (s.updPch i f) := ⟨_, _, _, _, _, _, _, _, _, _, rfl⟩

section Managed
variable {s t : State} (h : s.Managed t)
include h

theorem State.Managed.dues : t.dues = s.dues := by obtain ⟨_, _, _, _, _, _, _, _, _, _, rfl⟩ := h; rfl
theorem State.Managed.mem : t.mem = s.mem := by obtain ⟨_, _, _, _, _, _, _, _, _, _, rfl⟩ := h; rfl
theorem State.Managed.cells : t.cells = s.cells := by obtain ⟨_, _, _, _, _, _, _, _, _, _, rfl⟩ := h; rfl
theorem State.Managed.cores : t.cores = s.cores := by obtain ⟨_, _, _, _, _, _, _, _, _, _, rfl⟩ := h; rfl
theorem State.Managed.chans : t.chans = s.chans := by obtain ⟨_, _, _, _, _, _, _, _, _, _, rfl⟩ := h; rfl
theorem State.Managed.ctxs : t.ctxs = s.ctxs := by obtain ⟨_, _, _, _, _, _, _, _, _, _, rfl⟩ := h; rfl
theorem State.Managed.queues : t.queues = s.queues := by obtain ⟨_, _, _, _, _, _, _, _, _, _, rfl⟩ := h; rfl
theorem State.Managed.fences : t.fences = s.fences := by obtain ⟨_, _, _, _, _, _, _, _, _, _, rfl⟩ := h; rfl

end Managed

/-- What changes one partition as R allows leaves every partition as R allows. -/
theorem State.part_updPart_rel {R : Part → Part → Prop} (hrefl : ∀ p, R p p) (s : State) (n m : Nat) {f : Part → Part}
    (hf : R (s.part n) (f (s.part n))) : R (s.part m) ((s.updPart n f).part m) := by
  by_cases hm : m = n
  · subst hm
    rw [State.part_updPart]
    exact hf
  · rw [State.part_updPart_ne _ _ _ hm]
    exact hrefl _

theorem State.setPartState_managed (s : State) (n : Nat) (st : PState) (status : StatusCode) : s.Managed (s.setPartState n st status) :=
  (s.updPart_managed n _).trans ((State.stateVectors_told _ n).trans (State.rewriteTable_told _)).managed

theorem State.part_setPartState (s : State) (n : Nat) (st : PState) (status : StatusCode) :
    (s.setPartState n st status).part n = { s.part n with state := st, status := status } := by
  have htold := (State.stateVectors_told (s.updPart n (fun p => { p with state := st, status := status })) n).trans (State.rewriteTable_told _)
  exact (State.part_congr htold.pat n).trans (State.part_updPart ..)

/-! The key step (02 R49). -/

/-- A key step may have taken partition p on to q: it runs behind the drain, and p's STATE stands. -/
structure Part.TookKeys (p q : Part) : Prop where
  state : q.state = p.state
  byReset : q.byReset = p.byReset
  step : p.step ≠ .drain → q.step ≠ .drain

theorem Part.TookKeys.refl (p : Part) : p.TookKeys p := ⟨rfl, rfl, id⟩
theorem Part.TookKeys.trans {p q r : Part} (h : p.TookKeys q) (h' : q.TookKeys r) : p.TookKeys r :=
  ⟨h'.state.trans h.state, h'.byReset.trans h.byReset, h'.step ∘ h.step⟩

/-- What key steps touch: partitions and keys. -/
def State.Keyed (s t : State) : Prop := ∃ ps h, t = { s with pat := { s.pat with parts := ps }, hbm := h }

theorem State.Keyed.refl (s : State) : s.Keyed s := ⟨_, _, rfl⟩
theorem State.Keyed.trans {s t u : State} : s.Keyed t → t.Keyed u → s.Keyed u := by
  rintro ⟨_, _, rfl⟩ ⟨_, _, rfl⟩
  exact ⟨_, _, rfl⟩

theorem State.Keyed.managed {s t : State} : s.Keyed t → s.Managed t := by
  rintro ⟨_, _, rfl⟩
  exact ⟨_, _, _, _, _, _, _, _, _, _, rfl⟩
theorem State.Keyed.phase {s t : State} : s.Keyed t → t.pat.phase = s.pat.phase := by rintro ⟨_, _, rfl⟩; rfl
theorem State.Keyed.cand {s t : State} : s.Keyed t → t.pat.cand = s.pat.cand := by rintro ⟨_, _, rfl⟩; rfl

theorem State.keyStep_keyed (s : State) (n : Nat) : s.Keyed (s.keyStep n) := by
  unfold State.keyStep
  split <;> exact ⟨_, _, rfl⟩

theorem State.keyStep_part (s : State) (n m : Nat) : (s.part m).TookKeys ((s.keyStep n).part m) := by
  unfold State.keyStep
  split
  · exact s.part_updPart_rel Part.TookKeys.refl n m ⟨rfl, rfl, fun _ => BuildStep.noConfusion⟩
  · exact s.part_updPart_rel Part.TookKeys.refl n m ⟨rfl, rfl, fun _ => BuildStep.noConfusion⟩

theorem State.tryKeys_keyed (s : State) : s.Keyed s.tryKeys := by
  refine forAll_rel State.Keyed.refl State.Keyed.trans _ (fun n s => ?_) allParts s
  split
  · exact s.keyStep_keyed n
  · exact State.Keyed.refl s

theorem State.tryKeys_part (s : State) (m : Nat) : (s.part m).TookKeys (s.tryKeys.part m) := by
  refine forAll_rel (R := fun s t => (s.part m).TookKeys (t.part m)) (fun s => Part.TookKeys.refl _) Part.TookKeys.trans _ (fun n s => ?_) allParts s
  split
  · exact s.keyStep_part n m
  · exact Part.TookKeys.refl _

/-! The end of PHASE 2 (02 R44, R51). -/

/-- Partitions that are LOST take slices; the others stand. -/
def State.Reslices (s t : State) : Prop := (∃ ps, t = s.withParts ps) ∧ ∀ n, (s.part n).state ≠ .lost → t.part n = s.part n

theorem State.Reslices.refl (s : State) : s.Reslices s := ⟨⟨s.pat.parts, rfl⟩, fun _ _ => rfl⟩
theorem State.Reslices.trans {s t u : State} : s.Reslices t → t.Reslices u → s.Reslices u := by
  rintro ⟨⟨_, rfl⟩, h⟩ ⟨⟨_, rfl⟩, h'⟩
  exact ⟨⟨_, rfl⟩, fun n hn => (h' n (by rwa [h n hn])).trans (h n hn)⟩

theorem State.updPart_reslices {s : State} {m : Nat} (f : Part → Part) (hlost : (s.part m).state = .lost) : s.Reslices (s.updPart m f) :=
  ⟨⟨_, rfl⟩, fun _ hn => State.part_updPart_ne _ _ _ (fun h => hn (h ▸ hlost))⟩

/-- While a partition of the apply builds, PHASE 2 goes on. -/
theorem State.phaseCheck_builds {s : State} (h : s.applyBuilds = true) : s.phaseCheck = s := by
  unfold State.phaseCheck
  cases s.pat.cand with
  | none => rfl
  | some c => simp [h]

/-- The end of PHASE 2 changes the slices of LOST partitions alone. -/
theorem State.phaseCheck_ends (s : State) : s.Managed s.phaseCheck ∧ ∀ n, (s.part n).state ≠ .lost → s.phaseCheck.part n = s.part n := by
  unfold State.phaseCheck
  cases s.pat.cand with
  | none => exact ⟨State.Managed.refl s, fun _ _ => rfl⟩
  | some c =>
    dsimp only
    split
    · exact ⟨State.Managed.refl s, fun _ _ => rfl⟩
    · obtain ⟨⟨ps, hshape⟩, hparts⟩ : s.Reslices (forAll allParts (fun n s =>
          if (s.part n).state == .lost then s.updPart n (fun p => { p with slice := c.slice n }) else s) s) := by
        refine forAll_rel State.Reslices.refl State.Reslices.trans _ (fun n s => ?_) allParts s
        split
        case isTrue hlost => exact State.updPart_reslices _ (by simpa using hlost)
        case isFalse => exact State.Reslices.refl s
      have hmanaged : ∀ p : Pat, s.Managed { s with pat := p } := fun p => ⟨_, _, _, _, _, _, _, _, _, _, rfl⟩
      rw [hshape] at hparts ⊢
      split
      · have htold := ((State.log_told { s with pat := { (s.withParts ps).pat with
          running := some c, cand := none, phase := 4, status := St.ok, atStart := false } } 1 255 St.ok 0 (patternDetail c.digest)).trans (State.raise_told _ 16 2)).trans (State.rewriteTable_told _)
        exact ⟨(hmanaged _).trans htold.managed, fun n hn => (State.part_congr htold.pat n).trans (hparts n hn)⟩
      · exact ⟨(hmanaged _).trans (State.rewriteTable_told _).managed, hparts⟩

/-! The drain (02 R49 step 2). -/

/-- Cell k as a stop leaves it: freed and zeroed (07 R178). -/
def Cell.stopped (k : Cell) : Cell := { mmaCycles := k.mmaCycles, bankWait := k.bankWait, retired := k.retired, nextXfer := k.nextXfer }

/-- A cell of no gang that stops writes no safeguard words. -/
theorem State.stopCell_alone {s : State} {i : Nat} (h : (s.cell i).gang = none) :
    ∃ e, s.stopCell i = ({ s with egress := e } : State).updCell i Cell.stopped := by
  have hgang : ((s.dropUnmet i).cell i).gang = none := h
  refine ⟨(s.dropUnmet i).egress, ?_⟩
  unfold State.stopCell
  simp only [hgang]
  rfl

theorem State.cell_stopCell {s : State} {i : Nat} (h : (s.cell i).gang = none) (j : Nat) :
    (s.stopCell i).cell j = if j = i then (s.cell i).stopped else s.cell j := by
  obtain ⟨e, hstop⟩ := State.stopCell_alone h
  rw [hstop]
  exact Tab.get_upd {} s.cells i j Cell.stopped

/-- Between s and t cells of no gang may have stopped: nothing but cells and the egress differs, and no cell has a gang. -/
def State.CellsStopped (s t : State) : Prop := (∃ e c, t = { s with egress := e, cells := c }) ∧ ∀ i, (t.cell i).gang = none

theorem State.CellsStopped.stopCell {s t : State} (h : s.CellsStopped t) (i : Nat) : s.CellsStopped (t.stopCell i) := by
  obtain ⟨⟨_, _, rfl⟩, hgang⟩ := h
  refine ⟨?_, fun j => ?_⟩
  · obtain ⟨e, hstop⟩ := State.stopCell_alone (hgang i)
    exact ⟨_, _, hstop⟩
  · rw [State.cell_stopCell (hgang i)]
    split
    · rfl
    · exact hgang j

/-- Cells of no gang that stop, one after another, are idle. -/
theorem State.stopCells_idle {s : State} (l : List Nat) (h : ∀ i, (s.cell i).gang = none) :
    s.CellsStopped (forAll l (fun i s => s.stopCell i) s) ∧ ∀ i ∈ l, ((forAll l (fun i s => s.stopCell i) s).cell i).state = 0 := by
  have hmake : ∀ i t, s.CellsStopped t → ((t.stopCell i).cell i).state = 0 := by
    intro i t ht
    rw [State.cell_stopCell (ht.2 i), if_pos rfl]
    rfl
  have hstay : ∀ i j t, s.CellsStopped t → (t.cell j).state = 0 → ((t.stopCell i).cell j).state = 0 := by
    intro i j t ht hj
    rw [State.cell_stopCell (ht.2 i)]
    split
    · rfl
    · exact hj
  exact forAll_each (fun i _ ht => ht.stopCell i) hmake hstay l ⟨⟨s.egress, s.cells, rfl⟩, h⟩

/-- BAR2 accesses that end touch the endpoint and what left the module. -/
theorem State.dropBar2_told (s : State) (n : Nat) : s.Told (s.dropBar2 n) := by
  have hpcie : ∀ e : Pcie, s.Told { s with pcie := e } := fun e => ⟨s.sec.log, s.freeCtr, e, s.out, rfl⟩
  refine (hpcie _).trans (foldl_rel State.Told.refl State.Told.trans _ (fun s c => ?_) _ _)
  split
  · exact s.emit_told _
  · exact State.Told.refl s

/-- Pn gives up its keys and what it owned, and the key steps that waited for it run. -/
def State.giveUp (s : State) (n : Nat) : State :=
  (((s.dropBar2 n).updKeys n (fun _ => {})).updPart n (fun p => { p with slice := {}, step := .keyWait })).tryKeys

theorem State.giveUp_managed (s : State) (n : Nat) : s.Managed (s.giveUp n) :=
  (s.dropBar2_told n).managed.trans ((State.updKeys_managed ..).trans ((State.updPart_managed ..).trans (State.tryKeys_keyed _).managed))

theorem State.giveUp_step (s : State) (n : Nat) : ((s.giveUp n).part n).step ≠ .drain := by
  refine (State.tryKeys_part _ n).step ?_
  rw [State.part_updPart]
  exact BuildStep.noConfusion

section Drain
variable {s : State} {n : PartId} (hbuilding : (s.part n).state = .building) (hstep : (s.part n).step = .drain)
  (hdrained : s.chansDrained n = true) (hctxs : ∀ c, (s.ctx n c).aborting = false) (hgang : ∀ i, (s.cell i).gang = none)
include hbuilding hstep hdrained hctxs hgang

/-- Where no context of Pn aborts and no cell has a gang, the end of the drain stops Pn's cells, cores and channels and tries the key steps. -/
theorem exec_buildDrainDone_drains : ∃ c e f h,
    exec (.buildDrainDone n) s = closing (({ s with
      cells := c, cores := s.cores.keep (fun k => !((s.slice n).clusters.testBit (k / 8)))
      chans := s.chans.keep (fun i => !((s.slice n).dma.testBit i)), egress := e, flights := f, hbm := h } : State).giveUp n)
      ∧ ∀ i, i < 192 → (s.slice n).cells.testBit i = true → (Tab.get ({} : Cell) c i).state = 0 := by
  have hnone : (s.ctxsOf n).filter (fun c => (s.ctx n c).aborting) = [] := List.filter_eq_nil_iff.2 (fun c _ => by simp [hctxs c])
  obtain ⟨⟨⟨e, c, hstop⟩, -⟩, hidle⟩ := State.stopCells_idle (maskList 192 (s.slice n).cells) hgang
  rw [hstop] at hidle
  refine ⟨c, ?_⟩
  rw [exec_buildDrainDone, execBuildDrainDone, onlyIf_of (by simp [hbuilding, hstep, hdrained])]
  dsimp only
  rw [hnone, forAll_nil, hstop]
  exact ⟨_, _, _, rfl, fun i hi hbit => hidle i (mem_maskList.2 ⟨hi, hbit⟩)⟩

/-- The end of the drain (02 R49 step 2): Pn's cells, channels and cores are idle, its build goes on, and memory stands. -/
theorem exec_buildDrainDone_frees (hquiet : s.quiet) : Gives (.buildDrainDone n) s fun t =>
    (∀ i, i < 192 → (s.slice n).cells.testBit i = true → (t.cell i).state = 0) ∧ (∀ i, (s.slice n).dma.testBit i = true → t.chan i = {})
      ∧ (∀ k, (s.slice n).clusters.testBit (k / 8) = true → t.core k = {}) ∧ (t.part n).step ≠ .drain ∧ t.mem = s.mem := by
  obtain ⟨c, e, f, h, hexec, hidle⟩ := exec_buildDrainDone_drains hbuilding hstep hdrained hctxs hgang
  have hmanaged := State.giveUp_managed { s with
    cells := c, cores := s.cores.keep (fun k => !((s.slice n).clusters.testBit (k / 8)))
    chans := s.chans.keep (fun i => !((s.slice n).dma.testBit i)), egress := e, flights := f, hbm := h } n
  refine ⟨_, hexec.trans (closing_quiet (hmanaged.dues.trans hquiet)), fun i hi hbit => ?cell, fun i hbit => ?chan, fun k hbit => ?core,
    State.giveUp_step _ n, hmanaged.mem⟩
  case cell => rw [State.cell_congr hmanaged.cells]; exact hidle i hi hbit
  case chan => rw [State.chan_congr hmanaged.chans, State.chan, Tab.get_keep, hbit]; rfl
  case core => rw [State.core_congr hmanaged.cores, State.core, Tab.get_keep, hbit]; rfl

end Drain

/-! The zero-fill (02 R50; 10 R257). -/

/-- The bytes and the lines of the pseudo-channels of a mask are forgotten. -/
def State.dropBytes (s : State) (m : Nat) : State :=
  { s with mem := Tab.keep (fun a => !(m.testBit (pchOfLine (a / 64)))) s.mem, lines := s.lines.keep (fun l => !(m.testBit (pchOfLine l))) }

/-- Every region of the pseudo-channels of a mask is marked cleared. -/
def State.markCleared (s : State) (m : Nat) : State :=
  forAll (maskList 512 m) (fun i s => s.updPch i (fun p => { p with wcb := [], clearedAll := true, zeroed := [], written := [], sweep := 0 })) s

theorem State.markCleared_managed (s : State) (m : Nat) : s.Managed (s.markCleared m) :=
  forAll_rel State.Managed.refl State.Managed.trans _ (fun i s => s.updPch_managed i _) _ s

theorem State.byteAt_dropBytes (s : State) (m a : Nat) :
    (s.dropBytes m).byteAt a = if m.testBit (pchOfLine (a / 64)) then 0 else s.byteAt a := by
  have hkeep : (s.dropBytes m).byteAt a = if (!(m.testBit (pchOfLine (a / 64)))) = true then s.byteAt a else 0 :=
    Tab.get_keep 0 (fun a => !(m.testBit (pchOfLine (a / 64)))) s.mem a
  rw [hkeep]
  cases m.testBit (pchOfLine (a / 64)) <;> rfl

/-- Where every stack of Pn's pseudo-channels serves, the end of the zero-fill leaves no old byte there and goes on to the flush. -/
theorem exec_zeroFillComplete_clears {s : State} {n : PartId} (hquiet : s.quiet) (hbuilding : (s.part n).state = .building)
    (hstep : (s.part n).step = .fill) (honline : ∀ i, (s.slice n).pchs.testBit i = true → s.lineOffline (i * pchLines) = false) :
    Gives (.zeroFillComplete n) s fun t =>
      (t.part n).step = .flush ∧ ∀ a, t.byteAt a = if (s.slice n).pchs.testBit (pchOfLine (a / 64)) then 0 else s.byteAt a := by
  have hall : (maskList 512 (s.slice n).pchs).any (fun i => s.lineOffline (i * pchLines)) = false :=
    List.any_eq_false.2 (fun i hi => by simp [honline i (mem_maskList.1 hi).2])
  have hexec : exec (.zeroFillComplete n) s
      = closing (((s.dropBytes (s.slice n).pchs).markCleared (s.slice n).pchs).updPart n (fun p => { p with step := .flush })) := by
    rw [exec_zeroFillComplete, execZeroFillComplete, onlyIf_of (by simp [hbuilding, hstep])]
    dsimp only
    rw [hall, if_neg Bool.false_ne_true]
    rfl
  have hmanaged := ((s.dropBytes (s.slice n).pchs).markCleared_managed (s.slice n).pchs).trans
    (State.updPart_managed _ n (fun p => { p with step := .flush }))
  refine ⟨_, hexec.trans (closing_quiet (hmanaged.dues.trans hquiet)), by rw [State.part_updPart], fun a => ?_⟩
  rw [← State.byteAt_dropBytes, State.byteAt, hmanaged.mem, State.byteAt]

/-! The flush (02 R49 step 4, R48). -/

/-- The answer to a partition reset in progress, where it is Pn's (16 R434). -/
def State.answerReset (s : State) (n : Nat) (status : StatusCode) : State :=
  if s.pwr.rstPart = some n then { s with pwr := { s.pwr with rstPart := none, rstStatus := status } } else s

theorem State.answerReset_shape (s : State) (n : Nat) (status : StatusCode) : ∃ w, s.answerReset n status = { s with pwr := w } := by
  unfold State.answerReset
  split
  · exact ⟨_, rfl⟩
  · exact ⟨s.pwr, rfl⟩

theorem State.answerReset_managed (s : State) (n : Nat) (status : StatusCode) : s.Managed (s.answerReset n status) := by
  obtain ⟨w, h⟩ := s.answerReset_shape n status
  exact ⟨_, _, _, _, _, _, _, _, _, _, h⟩

@[simp] theorem State.part_answerReset (s : State) (n : Nat) (status : StatusCode) (m : Nat) : (s.answerReset n status).part m = s.part m := by
  obtain ⟨w, h⟩ := s.answerReset_shape n status
  rw [h]
  rfl

/-- Pn, released, becomes UNDEFINED and owns nothing. -/
def State.letGo (s : State) (n : Nat) (status : StatusCode) : State :=
  (((s.updPart n (fun _ => {})).answerReset n St.aborted).setPartState n .undefined status).phaseCheck

theorem State.letGo_managed (s : State) (n : Nat) (status : StatusCode) : s.Managed (s.letGo n status) :=
  (s.updPart_managed n _).trans ((State.answerReset_managed ..).trans ((State.setPartState_managed ..).trans (State.phaseCheck_ends _).1))

theorem State.part_release (s : State) (n : Nat) (status : StatusCode) : (s.letGo n status).part n = { status := status } := by
  have hpart := State.part_setPartState ((s.updPart n (fun _ => {})).answerReset n St.aborted) n .undefined status
  rw [State.part_answerReset, State.part_updPart] at hpart
  exact ((State.phaseCheck_ends _).2 n (by rw [hpart]; exact PState.noConfusion)).trans hpart

section Flush
variable {s : State} {n : PartId} (hquiet : s.quiet) (hbuilding : (s.part n).state = .building) (hstep : (s.part n).step = .flush)
include hquiet hbuilding hstep

/-- A partition that is released ends with its flush: it is UNDEFINED and owns nothing. -/
theorem exec_buildFlushDone_releases (hreleasing : (s.part n).releasing = true) : Gives (.buildFlushDone n) s fun t =>
    (t.part n).state = .undefined ∧ (t.part n).slice = {} := by
  have hflushed : ((s.flushPart n).part n).releasing = true := hreleasing
  have hexec : exec (.buildFlushDone n) s = closing (((s.flushPart n).clearPart n).letGo n (s.part n).status) := by
    rw [exec_buildFlushDone, execBuildFlushDone, onlyIf_of (by simp [hbuilding, hstep])]
    dsimp only
    rw [hflushed, if_pos rfl]
    rfl
  have hpart := State.part_release ((s.flushPart n).clearPart n) n (s.part n).status
  exact ⟨_, hexec.trans (closing_quiet ((State.letGo_managed ..).dues.trans hquiet)), by rw [hpart], by rw [hpart]⟩

/-- One that is built goes on to its reset. -/
theorem exec_buildFlushDone_goesOn (hreleasing : (s.part n).releasing = false) : Gives (.buildFlushDone n) s fun t =>
    (t.part n).step = .reset ∧ t.mem = s.mem := by
  have hflushed : ((s.flushPart n).part n).releasing = false := hreleasing
  have hexec : exec (.buildFlushDone n) s = closing ((s.flushPart n).updPart n (fun p => { p with step := .reset })) := by
    rw [exec_buildFlushDone, execBuildFlushDone, onlyIf_of (by simp [hbuilding, hstep])]
    dsimp only
    rw [hflushed, if_neg Bool.false_ne_true]
  exact ⟨_, hexec.trans (closing_quiet hquiet), by rw [State.part_updPart], rfl⟩

end Flush

/-! The reset (02 R49 steps 5 and 6, R44; 16 R434). -/

section Clear
variable (s : State) (n : Nat)

theorem State.ctx_clearPart {c : Nat} (h : c < 4096) : (s.clearPart n).ctx n c = {} := by
  have hkept : (s.clearPart n).ctx n c = if ((n * 4096 + c) / 4096 != n) = true then s.ctx n c else {} :=
    Tab.get_keep {} (fun k => k / 4096 != n) s.ctxs (n * 4096 + c)
  have hmine : (n * 4096 + c) / 4096 = n := by omega
  simp [hkept, hmine]

theorem State.queue_clearPart {q : Nat} (h : q < 128) : (s.clearPart n).queue n q = {} := by
  have hkept : (s.clearPart n).queue n q = if ((n * 128 + q) / 128 != n) = true then s.queue n q else {} :=
    Tab.get_keep {} (fun k => k / 128 != n) s.queues (n * 128 + q)
  have hmine : (n * 128 + q) / 128 = n := by omega
  simp [hkept, hmine]

theorem State.fence_clearPart {f : Nat} (h : f < 4096) : (s.clearPart n).fence n f = 0 := by
  have hkept : (s.clearPart n).fence n f = if ((n * 4096 + f) / 4096 != n) = true then s.fence n f else 0 :=
    Tab.get_keep 0 (fun k => k / 4096 != n) s.fences (n * 4096 + f)
  have hmine : (n * 4096 + f) / 4096 = n := by omega
  simp [hkept, hmine]

end Clear

/-- What a mapped table lists is what the map makes of something listed. -/
theorem Tab.mem_mapVals {α : Type} [DecidableEq α] {d : α} {g : Nat → α → α} {t : Tab α} {e : Nat × α} (h : e ∈ Tab.mapVals d g t) :
    ∃ v, (e.1, v) ∈ t ∧ e.2 = g e.1 v := by
  induction t with
  | nil => exact absurd h List.not_mem_nil
  | cons x t ih =>
    obtain ⟨k, v⟩ := x
    have hrest : e ∈ Tab.mapVals d g t → ∃ w, (e.1, w) ∈ (k, v) :: t ∧ e.2 = g e.1 w := fun he => by
      obtain ⟨w, hw, hew⟩ := ih he
      exact ⟨w, List.mem_cons_of_mem _ hw, hew⟩
    unfold Tab.mapVals at h
    split at h
    · exact hrest h
    · rcases List.mem_cons.1 h with rfl | he
      · exact ⟨v, List.mem_cons_self, rfl⟩
      · exact hrest he

/-- A cell that a clear resets does not wait, and the others stand. -/
theorem State.noCellWaits_clearPart {s : State} (n : Nat) (h : s.noCellWaits) : (s.clearPart n).noCellWaits := by
  intro e he
  obtain ⟨c, hlisted, hc⟩ := Tab.mem_mapVals he
  rw [hc]
  split
  · rfl
  · exact h _ hlisted

/-- What the fitting out of a partition touches: its pools, and registers and agents of its clusters. -/
def State.Refitted (s t : State) : Prop := ∃ r k q, t = { s with regs := r, coh := k, pools := q }

theorem State.Refitted.refl (s : State) : s.Refitted s := ⟨_, _, _, rfl⟩
theorem State.Refitted.trans {s t u : State} : s.Refitted t → t.Refitted u → s.Refitted u := by
  rintro ⟨_, _, _, rfl⟩ ⟨_, _, _, rfl⟩
  exact ⟨_, _, _, rfl⟩

theorem State.Refitted.managed {s t : State} : s.Refitted t → s.Managed t := by
  rintro ⟨_, _, _, rfl⟩
  exact ⟨_, _, _, _, _, _, _, _, _, _, rfl⟩
theorem State.Refitted.pat {s t : State} : s.Refitted t → t.pat = s.pat := by rintro ⟨_, _, _, rfl⟩; rfl

theorem State.resetPools_refitted (s : State) (n : Nat) : s.Refitted (s.resetPools n) :=
  forAll_rel State.Refitted.refl State.Refitted.trans _ (fun _ _ => ⟨_, _, _, rfl⟩) _ s

theorem State.agentsBack_refitted (s : State) (clusters : Nat) : s.Refitted (s.agentsBack clusters) := by
  refine forAll_rel State.Refitted.refl State.Refitted.trans _ (fun c s => ?_) _ s
  split
  · exact ⟨_, _, _, rfl⟩
  · exact State.Refitted.refl s

/-- Pn, cleared, has its pools, its agents and its slice length (02 R49 step 5). -/
def State.fitOut (s : State) (n : Nat) : State :=
  let t := ((s.clearPart n).resetPools n).agentsBack (s.slice n).clusters
  t.setReg (schSliceAddr n) (field 47 32 (t.slice n).npLimit + 2000)

theorem State.fitOut_refitted (s : State) (n : Nat) : (s.clearPart n).Refitted (s.fitOut n) :=
  (State.resetPools_refitted ..).trans ((State.agentsBack_refitted ..).trans ⟨_, _, _, rfl⟩)

/-- Pn, cleared and fitted out, becomes READY, which is logged and answers a reset of it. -/
def State.makeReady (s : State) (n : Nat) (digest : BitVec 384) : State :=
  ((((s.updPart n (fun p => { state := p.state, slice := p.slice })).setPartState n .ready St.ok).log 3 n St.ok 0
    (patternDetail digest)).answerReset n St.ok).phaseCheck

theorem State.makeReady_managed (s : State) (n : Nat) (digest : BitVec 384) : s.Managed (s.makeReady n digest) :=
  (s.updPart_managed n _).trans ((State.setPartState_managed ..).trans ((State.log_told ..).managed.trans ((State.answerReset_managed ..).trans
    (State.phaseCheck_ends _).1)))

theorem State.part_makeReady (s : State) (n : Nat) (digest : BitVec 384) :
    (s.makeReady n digest).part n = { state := .ready, status := St.ok, slice := (s.part n).slice } := by
  have hpart := State.part_setPartState (s.updPart n (fun p => { state := p.state, slice := p.slice })) n .ready St.ok
  rw [State.part_updPart, ← State.part_congr (State.log_told _ 3 n St.ok 0 (patternDetail digest)).pat,
    ← State.part_answerReset _ n St.ok n] at hpart
  exact ((State.phaseCheck_ends _).2 n (by rw [hpart]; exact PState.noConfusion)).trans hpart

section Reset
variable {s : State} {n : PartId} (hbuilding : (s.part n).state = .building) (hstep : (s.part n).step = .reset)
include hbuilding hstep

theorem exec_partitionBuilt_runs : ∃ digest, exec (.partitionBuilt n) s = closing ((s.fitOut n).makeReady n digest).wakeCells := by
  rw [exec_partitionBuilt, execPartitionBuilt, onlyIf_of (by simp [hbuilding, hstep])]
  dsimp only [State.fitOut, State.makeReady, State.answerReset]
  exact ⟨_, rfl⟩

/-- The end of a build's reset: the partition is empty and READY. -/
theorem exec_partitionBuilt_ready (hquiet : s.quiet) (hwaits : s.noCellWaits) : Gives (.partitionBuilt n) s fun t =>
    (t.part n).state = .ready ∧ (t.part n).status = St.ok ∧ (t.part n).slice = (s.part n).slice ∧ (∀ c : CtxId, t.ctx n c = {})
      ∧ (∀ q : QueueId, t.queue n q = {}) ∧ ∀ f : FenceId, t.fence n f = 0 := by
  obtain ⟨digest, hexec⟩ := exec_partitionBuilt_runs hbuilding hstep
  have hmanaged := (s.fitOut_refitted n).managed.trans ((s.fitOut n).makeReady_managed n digest)
  have hstill : ((s.fitOut n).makeReady n digest).noCellWaits := by
    unfold State.noCellWaits
    rw [hmanaged.cells]
    exact State.noCellWaits_clearPart n hwaits
  have hpart : ((s.fitOut n).makeReady n digest).part n = { state := .ready, status := St.ok, slice := (s.part n).slice } := by
    rw [State.part_makeReady, State.part_congr (s.fitOut_refitted n).pat]
    rfl
  rw [State.wakeCells_none hstill, closing_quiet (hmanaged.dues.trans hquiet)] at hexec
  refine ⟨_, hexec, by rw [hpart], by rw [hpart], by rw [hpart], fun c => ?ctx, fun q => ?queue, fun f => ?fence⟩
  case ctx => rw [State.ctx_congr hmanaged.ctxs]; exact State.ctx_clearPart s n c.isLt
  case queue => rw [State.queue_congr hmanaged.queues]; exact State.queue_clearPart s n q.isLt
  case fence => rw [State.fence, hmanaged.fences]; exact State.fence_clearPart s n f.isLt

end Reset

end Sys2Proof.Machine

open Sys2Proof Sys2Proof.Machine

/-- Settles O3, a command of a build at a time. -/
theorem buildStepsRunInOrder : Obligations.BuildStepsRunInOrder := by
  refine ⟨?drain, ?fill, ?flush, ?reset⟩
  case drain => exact fun n s hquiet hbuilding hstep hdrained hctxs hgang => exec_buildDrainDone_frees hbuilding hstep hdrained hctxs hgang hquiet
  case fill => exact fun n s hquiet hbuilding hstep honline => exec_zeroFillComplete_clears hquiet hbuilding hstep honline
  case flush =>
    intro n s hquiet hbuilding hstep
    cases hreleasing : (s.part n).releasing with
    | true => exact exec_buildFlushDone_releases hquiet hbuilding hstep hreleasing
    | false => exact exec_buildFlushDone_goesOn hquiet hbuilding hstep hreleasing
  case reset => exact fun n s hquiet hbuilding hstep hwaits => exec_partitionBuilt_ready hbuilding hstep hquiet hwaits
end

section
/-!
PROOFS. PAT_APPLY and the pattern store (02 R43-R45, R58). First a module with no work in it: what a build of a partition stops there. Then
an apply whose checks have passed, one that fails, and the end of PHASE 3.
-/

namespace Sys2Proof.Machine

/-! A module with no work in it. -/

/-- No queue, context, scheduled task, collective or commit stands, and no partition owns anything. -/
structure State.Vacant (s : State) : Prop where
  queues : s.queues = []
  ctxs : s.ctxs = []
  schs : s.schs = []
  colls : s.colls = []
  commits : s.pat.pendCommits = []
  slices : ∀ n, s.slice n = {}

/-- Between s and t settings were loaded and builds of partitions that keep their slices began in a vacant module. -/
def State.Opens (s t : State) : Prop :=
  (∃ r g ps x c h e o, t = { s with
    regs := r, staged := g, pat := { s.pat with parts := ps }, sec := x, freeCtr := c, chans := h, pcie := e, out := o })
    ∧ ∀ n, t.slice n = s.slice n

theorem State.Opens.refl (s : State) : s.Opens s := ⟨⟨_, _, _, _, _, _, _, _, rfl⟩, fun _ => rfl⟩
theorem State.Opens.trans {s t u : State} : s.Opens t → t.Opens u → s.Opens u := by
  rintro ⟨⟨_, _, _, _, _, _, _, _, rfl⟩, h⟩ ⟨⟨_, _, _, _, _, _, _, _, rfl⟩, h'⟩
  exact ⟨⟨_, _, _, _, _, _, _, _, rfl⟩, fun n => (h' n).trans (h n)⟩

theorem State.Told.opens {s t : State} : s.Told t → s.Opens t := by
  rintro ⟨_, _, _, _, rfl⟩
  exact ⟨⟨_, _, _, _, _, _, _, _, rfl⟩, fun _ => rfl⟩

section Opens
variable {s t : State} (h : s.Opens t)
include h

theorem State.Opens.dues : t.dues = s.dues := by obtain ⟨⟨_, _, _, _, _, _, _, _, rfl⟩, -⟩ := h; rfl
theorem State.Opens.cells : t.cells = s.cells := by obtain ⟨⟨_, _, _, _, _, _, _, _, rfl⟩, -⟩ := h; rfl
theorem State.Opens.phase : t.pat.phase = s.pat.phase := by obtain ⟨⟨_, _, _, _, _, _, _, _, rfl⟩, -⟩ := h; rfl
theorem State.Opens.cand : t.pat.cand = s.pat.cand := by obtain ⟨⟨_, _, _, _, _, _, _, _, rfl⟩, -⟩ := h; rfl

theorem State.Opens.vacant (hvacant : s.Vacant) : t.Vacant := by
  obtain ⟨⟨_, _, _, _, _, _, _, _, rfl⟩, hslice⟩ := h
  obtain ⟨hqueues, hctxs, hschs, hcolls, hcommits, hslices⟩ := hvacant
  exact ⟨hqueues, hctxs, hschs, hcolls, hcommits, fun n => (hslice n).trans (hslices n)⟩

end Opens

/-- Between s and t channels were aborted, and free values used. -/
def State.Stilled (s t : State) : Prop := ∃ c h, t = { s with freeCtr := c, chans := h }

theorem State.Stilled.refl (s : State) : s.Stilled s := ⟨_, _, rfl⟩
theorem State.Stilled.trans {s t u : State} : s.Stilled t → t.Stilled u → s.Stilled u := by
  rintro ⟨_, _, rfl⟩ ⟨_, _, rfl⟩
  exact ⟨_, _, rfl⟩

theorem State.Stilled.pat {s t : State} : s.Stilled t → t.pat = s.pat := by rintro ⟨_, _, rfl⟩; rfl
theorem State.Stilled.opens {s t : State} : s.Stilled t → s.Opens t := by
  rintro ⟨_, _, rfl⟩
  exact ⟨⟨_, _, _, _, _, _, _, _, rfl⟩, fun _ => rfl⟩
theorem State.Stilled.vacant {s t : State} (h : s.Stilled t) : s.Vacant → t.Vacant := h.opens.vacant

theorem State.updPart_opens (s : State) (n : Nat) {f : Part → Part} (hslice : (f (s.part n)).slice = (s.part n).slice) : s.Opens (s.updPart n f) :=
  ⟨⟨_, _, _, _, _, _, _, _, rfl⟩, fun m => s.part_updPart_rel (R := fun p q => q.slice = p.slice) (fun _ => rfl) n m hslice⟩

theorem State.setPartState_opens (s : State) (n : Nat) (st : PState) (status : StatusCode) : s.Opens (s.setPartState n st status) :=
  (s.updPart_opens n (f := fun p => { p with state := st, status := status }) rfl).trans
    ((State.stateVectors_told _ n).trans (State.rewriteTable_told _)).opens

theorem State.part_setPartState_ne (s : State) {n m : Nat} (st : PState) (status : StatusCode) (h : m ≠ n) :
    (s.setPartState n st status).part m = s.part m := by
  have htold := (State.stateVectors_told (s.updPart n (fun p => { p with state := st, status := status })) n).trans (State.rewriteTable_told _)
  exact (State.part_congr htold.pat m).trans (State.part_updPart_ne _ _ _ h)

section Vacant
variable {s : State} (h : s.Vacant) (n : Nat)
include h

theorem State.Vacant.coll : s.coll n = {} := by rw [State.coll, h.colls, Tab.get_nil]

theorem State.Vacant.sch : s.sch n = {} := by rw [State.sch, h.schs, Tab.get_nil]

theorem State.Vacant.ownerChan (i : Nat) : s.ownerChan i = none := by
  unfold State.ownerChan State.ownerBy
  rw [List.find?_eq_none]
  intro m _
  simp [h.slices m]

theorem State.Vacant.ctxsOf : s.ctxsOf n = [] := by simp [State.ctxsOf, h.ctxs, h.queues, h.ownerChan]

theorem State.Vacant.collPosted : s.collPosted n = [] := by
  have hlen : (s.coll n).len = 0 := by rw [h.coll]; rfl
  rw [State.collPosted, if_pos hlen]

theorem State.Vacant.endCommit : s.endCommit n = s := by simp [State.endCommit, h.commits]

theorem State.Vacant.failColl (g : Nat) (status : StatusCode) (us : Nat) : s.tick.failColl n g status us = s.tick := by
  have hidle : (s.tick.group n g).running = none := by
    have hcoll : s.tick.coll n = {} := h.coll n
    rw [State.group, hcoll]
    rfl
  simp [State.failColl, hidle]

theorem State.Vacant.updColl {f : CollPart → CollPart} (hf : f {} = {}) : s.updColl n f = s := by
  have hcolls : s.colls.upd {} n f = s.colls := by
    rw [h.colls, Tab.upd, Tab.get_nil, hf, Tab.set, if_pos rfl, Tab.erase]
  rw [State.updColl, hcolls]

theorem State.Vacant.failColls (status : StatusCode) (l : List Nat) : s.Stilled (forAll l (fun g s => s.tick.failColl n g status s.freeUs) s) := by
  induction l generalizing s with
  | nil => exact State.Stilled.refl s
  | cons g l ih =>
    have htick : s.Stilled s.tick := ⟨_, _, rfl⟩
    have hfirst : s.tick.failColl n g status s.freeUs = s.tick := h.failColl n g status s.freeUs
    rw [forAll, List.foldl_cons, hfirst]
    exact htick.trans (ih (htick.vacant h))

/-- In a vacant module no collective is there to end. -/
theorem State.Vacant.collsEnd (status : StatusCode) : s.Stilled (s.collsEnd n status []) := by
  have hstilled := h.failColls n status (List.range 16)
  rw [State.collsEnd, List.foldl_nil, (hstilled.vacant h).updColl n rfl]
  exact hstilled

/-- In a vacant module step 1 of a build finds nothing to stop but privileged channels (02 R49). -/
theorem State.Vacant.stopWork : s.Stilled (s.stopWork n) := by
  have habort : s.Stilled (s.abortPriv n) := ⟨_, _, rfl⟩
  have hstop : s.stopWork n = (s.abortPriv n).collsEnd n St.aborted [] := by
    simp [State.stopWork, h.collPosted, h.queues, h.sch, h.ctxsOf, forAll]
  rw [hstop]
  exact habort.trans ((habort.vacant h).collsEnd n St.aborted)

end Vacant
/-! The builds that an apply begins (02 R44, R48). -/

/-- Pn builds, and not by a partition reset. -/
structure State.BuildsNow (s : State) (n : Nat) : Prop where
  state : (s.part n).state = .building
  byReset : (s.part n).byReset = false

/-- Pn's build is entered: its staged copies are dropped, and its STATE shows it (02 R49, R58). -/
def State.enterBuild (s : State) (n : Nat) (f : Part → Part) (status : StatusCode) : State :=
  ((s.dropStaged n).updPart n f).setPartState n .building status

theorem State.enterBuild_opens (s : State) (n : Nat) {f : Part → Part} (status : StatusCode) (hslice : ∀ p, (f p).slice = p.slice) :
    s.Opens (s.enterBuild n f status) := by
  have hdrop : s.Opens (s.dropStaged n) := ⟨⟨_, _, _, _, _, _, _, _, rfl⟩, fun _ => rfl⟩
  exact hdrop.trans ((State.updPart_opens _ n (hslice _)).trans (State.setPartState_opens ..))

theorem State.part_enterBuild (s : State) (n : Nat) (f : Part → Part) (status : StatusCode) :
    (s.enterBuild n f status).part n = { f (s.part n) with state := .building, status := status } := by
  rw [State.enterBuild, State.part_setPartState, State.part_updPart]
  rfl

theorem State.part_enterBuild_ne (s : State) {n m : Nat} (f : Part → Part) (status : StatusCode) (h : m ≠ n) :
    (s.enterBuild n f status).part m = s.part m := by
  rw [State.enterBuild, State.part_setPartState_ne _ _ _ h, State.part_updPart_ne _ _ _ h]
  rfl

section StartBuild
variable {s : State} (h : s.Vacant) (n : Nat) (awaits : List Nat)
include h

/-- In a vacant module a build that begins is entered, and then stops no work. -/
theorem State.Vacant.startBuild_enters : ∃ f status, (∀ p, (f p).slice = p.slice ∧ (f p).byReset = false)
    ∧ s.startBuild n false false awaits = (s.enterBuild n f status).stopWork n := by
  rw [State.startBuild, h.endCommit]
  refine ⟨_, _, ?_, rfl⟩
  exact fun _ => ⟨rfl, rfl⟩

/-- In a vacant module a build that begins is Pn's alone. -/
theorem State.Vacant.startBuild : s.Opens (s.startBuild n false false awaits) ∧ (s.startBuild n false false awaits).BuildsNow n
      ∧ ∀ m, m ≠ n → (s.startBuild n false false awaits).part m = s.part m := by
  obtain ⟨f, status, hf, hstart⟩ := h.startBuild_enters n awaits
  have henter := s.enterBuild_opens n status (fun p => (hf p).1)
  have hstop := (henter.vacant h).stopWork n
  have hpart := State.part_congr hstop.pat
  rw [hstart]
  refine ⟨henter.trans hstop.opens, ⟨?_, ?_⟩, fun m hm => ?_⟩
  · rw [hpart, State.part_enterBuild]
  · rw [hpart, State.part_enterBuild]; exact (hf _).2
  · rw [hpart, State.part_enterBuild_ne _ _ _ hm]

end StartBuild

/-- The builds of a list of partitions begin, one after another. -/
def State.startBuilds (s : State) (awaits : Nat → List Nat) (l : List Nat) : State := forAll l (fun n s => s.startBuild n false false (awaits n)) s

theorem State.Vacant.startBuilds {s : State} (h : s.Vacant) (awaits : Nat → List Nat) (l : List Nat) :
    s.Opens (s.startBuilds awaits l) ∧ ∀ n ∈ l, (s.startBuilds awaits l).BuildsNow n := by
  have hkeep : ∀ n t, s.Opens t → s.Opens (t.startBuild n false false (awaits n)) := fun n t ht =>
    ht.trans ((ht.vacant h).startBuild n (awaits n)).1
  have hmake : ∀ n t, s.Opens t → (t.startBuild n false false (awaits n)).BuildsNow n := fun n t ht =>
    ((ht.vacant h).startBuild n (awaits n)).2.1
  have hstay : ∀ n m t, s.Opens t → t.BuildsNow m → (t.startBuild n false false (awaits n)).BuildsNow m := by
    intro n m t ht hm
    obtain ⟨-, hbuilds, hothers⟩ := (ht.vacant h).startBuild n (awaits n)
    by_cases hmn : m = n
    · subst hmn
      exact hbuilds
    · exact ⟨by rw [hothers m hmn, hm.state], by rw [hothers m hmn, hm.byReset]⟩
  exact forAll_each (Q := fun n t => t.BuildsNow n) hkeep hmake hstay l (State.Opens.refl s)

/-- PHASE 2 begins with a pattern: the ports that it changes train, and it is the candidate (02 R44). -/
def State.enterPhase2 (s : State) (q : Pattern) : State :=
  let t := (s.retrainPorts q).applyOut 2 { status := St.pending }
  { t with pat := { t.pat with cand := some q, atStart := false } }

/-- Where no pattern runs every port trains again or goes down. -/
theorem State.retrainPorts_shape {s : State} (q : Pattern) (hnone : s.pat.running = none) : ∃ w, s.retrainPorts q = { s with net := w } := by
  have hports : s.retrainPorts q = forAll (List.range 16) (fun i s => s.updPort i (fun t =>
      if fld (q.ports.get ({} : PortEntry) i).raw 0 1 != 0 then { t.retrain with held := [] }
      else { t with state := 0, rate := 0, held := [] })) s := by
    rw [State.retrainPorts, hnone, if_neg Bool.false_ne_true]
  rw [hports]
  refine forAll_rel (R := fun s t => ∃ w, t = { s with net := w }) (fun s => ⟨s.net, rfl⟩) ?_ _ (fun _ _ => ⟨_, rfl⟩) _ s
  rintro _ _ _ ⟨_, rfl⟩ ⟨_, rfl⟩
  exact ⟨_, rfl⟩

theorem State.enterPhase2_shape {s : State} (q : Pattern) (hnone : s.pat.running = none) : ∃ w, s.enterPhase2 q = { s with
    net := w, pat := { s.pat with phase := 2, status := St.pending, failCode := 0, failSection := 0, cand := some q, atStart := false } } := by
  obtain ⟨w, h⟩ := State.retrainPorts_shape q hnone
  rw [State.enterPhase2, h]
  exact ⟨w, rfl⟩

theorem State.Vacant.enterPhase2 {s : State} (h : s.Vacant) (q : Pattern) (hnone : s.pat.running = none) : (s.enterPhase2 q).Vacant := by
  obtain ⟨w, hshape⟩ := State.enterPhase2_shape q hnone
  rw [hshape]
  exact ⟨h.queues, h.ctxs, h.schs, h.colls, h.commits, h.slices⟩

theorem State.loadSettings_opens (s : State) (n : Nat) (q : Pattern) : s.Opens (s.loadSettings n q) := by
  have hset : ∀ (s : State) a v, s.Opens (s.setReg a v) := fun s a v => ⟨⟨_, _, _, _, _, _, _, _, rfl⟩, fun _ => rfl⟩
  have hkeep : ∀ r g, s.Opens { s with regs := r, staged := g } := fun r g => ⟨⟨_, _, _, _, _, _, _, _, rfl⟩, fun _ => rfl⟩
  refine ((hkeep _ _).trans (foldl_rel State.Opens.refl State.Opens.trans _ (fun s e => hset s _ _) _ _)).trans
    (forAll_rel State.Opens.refl State.Opens.trans _ (fun p s => ?_) _ _)
  split
  · exact hset s _ _
  · exact State.Opens.refl s

/-- The settings of the partitions of a list are loaded (02 R58). -/
def State.loadAll (s : State) (q : Pattern) (p : Nat → Bool) : State := forAll allParts (fun n s => if p n then s.loadSettings n q else s) s

theorem State.loadAll_opens (s : State) (q : Pattern) (p : Nat → Bool) : s.Opens (s.loadAll q p) := by
  refine forAll_rel State.Opens.refl State.Opens.trans _ (fun n s => ?_) _ s
  split
  · exact s.loadSettings_opens n q
  · exact State.Opens.refl s

/-- Where no partition is there to stop, an apply loads settings, begins builds and tries the key steps. -/
theorem State.beginApply_builds {s : State} {q : Pattern} (hstop : s.toStop q = []) : ∃ p awaits, s.beginApply q false
    = (((s.enterPhase2 q).loadAll q p).startBuilds awaits (s.toBuild q)).tryKeys.phaseCheck := by
  unfold State.beginApply
  rw [hstop]
  dsimp only
  rw [forAll_nil]
  exact ⟨_, _, rfl⟩

theorem State.toStop_undefined {s : State} (q : Pattern) (h : ∀ n, (s.part n).state = .undefined) : s.toStop q = [] := by
  simp [State.toStop, h]

theorem State.mem_toBuild {s : State} {q : Pattern} {n : Nat} (hnone : s.pat.running = none) (hn : n < 16) (hdefined : (q.slice n).defined = true) :
    n ∈ s.toBuild q := by
  simp [State.toBuild, allParts, hnone, hn, hdefined]

theorem State.applyBuilds_of {s : State} {n : Nat} (hn : n < 16) (h : s.BuildsNow n) : s.applyBuilds = true :=
  List.any_eq_true.2 ⟨n, List.mem_range.2 hn, by simp [h.state, h.byReset]⟩

/-- An apply in a vacant module with no pattern running: every partition that the pattern defines builds, and PHASE is 2. -/
theorem State.Vacant.beginApply {s : State} (h : s.Vacant) (q : Pattern) (hundefined : ∀ n, (s.part n).state = .undefined)
    (hnone : s.pat.running = none) :
    (s.beginApply q false).dues = s.dues ∧ (s.beginApply q false).cells = s.cells
      ∧ ∀ n : PartId, (q.slice n).defined = true → ((s.beginApply q false).part n).state = .building ∧ (s.beginApply q false).pat.phase = 2
        ∧ (s.beginApply q false).pat.cand = some q := by
  obtain ⟨p, awaits, hbegin⟩ := State.beginApply_builds (State.toStop_undefined q hundefined)
  obtain ⟨w, hshape⟩ := State.enterPhase2_shape q hnone
  have hload := (s.enterPhase2 q).loadAll_opens q p
  obtain ⟨hstart, hbuilds⟩ := (hload.vacant (h.enterPhase2 q hnone)).startBuilds awaits (s.toBuild q)
  have hopens := hload.trans hstart
  have hkeyed := (((s.enterPhase2 q).loadAll q p).startBuilds awaits (s.toBuild q)).tryKeys_keyed
  have hphase := (((s.enterPhase2 q).loadAll q p).startBuilds awaits (s.toBuild q)).tryKeys.phaseCheck_ends.1
  have hmanaged := hkeyed.managed.trans hphase
  rw [hbegin]
  refine ⟨?_, ?_, fun n hdefined => ?_⟩
  · rw [hmanaged.dues, hopens.dues, hshape]
  · rw [hmanaged.cells, hopens.cells, hshape]
  · obtain ⟨hstate, hreset⟩ := hbuilds n (State.mem_toBuild hnone n.isLt hdefined)
    have hkeys := State.tryKeys_part (((s.enterPhase2 q).loadAll q p).startBuilds awaits (s.toBuild q)) n
    have hnow : (((s.enterPhase2 q).loadAll q p).startBuilds awaits (s.toBuild q)).tryKeys.BuildsNow n :=
      ⟨hkeys.state.trans hstate, hkeys.byReset.trans hreset⟩
    rw [State.phaseCheck_builds (State.applyBuilds_of n.isLt hnow)]
    refine ⟨hnow.state, ?_, ?_⟩
    · rw [hkeyed.phase, hopens.phase, hshape]
    · rw [hkeyed.cand, hopens.cand, hshape]

/-! PAT_APPLY. -/

/-- What the answer of the checks makes of an apply (02 R40, R43, R44). -/
def State.applyAnswer (s : State) (v : Nat) : Except Failure Pattern → State
  | .error f => ((s.applyOut 0 f).log 2 255 f.status 2 (patternDetail (Config.sha384 (Tab.getList 0 s.pat.stage 0 (bits v 20 0))))).raise 16 2
  | .ok q => s.beginApply q false

theorem State.applyAnswer_error (s : State) (v : Nat) (f : Failure) : (s.applyOut 0 f).Told (s.applyAnswer v (.error f)) :=
  (State.log_told ..).trans (State.raise_told ..)

/-- With no apply in progress, room in the log and no update of the firmware, an apply answers its checks. -/
theorem State.writeApply_checked {s : State} {v : Nat} (hphase : s.pat.phase = 0 ∨ s.pat.phase = 4) (hroom : s.logRoom = true)
    (hfirmware : s.sec.fwState ≠ 4) (hlen : bits v 20 0 ≤ 0x100000) :
    s.writeApply v = s.applyAnswer v (s.checkPattern (Tab.getList 0 s.pat.stage 0 (bits v 20 0)) false) := by
  have hidle : ¬ (1 ≤ s.pat.phase && s.pat.phase ≤ 3) = true := by
    rw [Bool.and_eq_true, decide_eq_true_eq, decide_eq_true_eq]
    omega
  have htakes : ¬ (!s.logRoom || s.sec.fwState = 4) = true := by simp [hroom, hfirmware]
  unfold State.writeApply
  dsimp only
  rw [if_neg hidle, if_neg htakes, if_pos hlen]
  cases s.checkPattern (Tab.getList 0 s.pat.stage 0 (bits v 20 0)) false <;> rfl

/-- An operator path that presents a write of PAT_APPLY, which leaves nothing to judge and no cell waiting. -/
theorem exec_patApply_writes {p : Path} {v : BitVec 32} {s : State} (hcarries : s.hubCarries p) (hoper : isOper p = true)
    (hdues : (s.writeApply v.toNat).dues = s.dues) (hcells : (s.writeApply v.toNat).cells = s.cells) (hwaits : s.noCellWaits) :
    exec (.patApply p v) s = .next (s.writeApply v.toNat) := by
  obtain ⟨⟨hquiet, hopen⟩, hstage⟩ := hcarries
  have hstill : (s.writeApply v.toNat).noCellWaits := by unfold State.noCellWaits; rwa [hcells]
  have hexec : exec (.patApply p v) s = closing (s.writeApply v.toNat).wakeCells := by
    simp [exec_patApply, execPatApply, hopen, hstage, hoper]
  rw [hexec, State.wakeCells_none hstill, closing_quiet (hdues.trans hquiet)]

/-! PATTERN_STORE_WRITTEN. -/

/-- The other slot holds a pattern and is selected, and the apply is done (02 R44). -/
def State.storePattern (s : State) (q : Pattern) : State := { s with pat := { s.pat with
  slot0 := if s.pat.selected then some q.bytes else s.pat.slot0, slot1 := if s.pat.selected then s.pat.slot1 else some q.bytes
  selected := !s.pat.selected, storedEpoch := q.epoch, phase := 4, status := St.ok } }

theorem exec_patternStoreWritten_stores {s : State} {q : Pattern} (hquiet : s.quiet) (hrunning : s.pat.running = some q) (hphase : s.pat.phase = 3) :
    Gives .patternStoreWritten s fun t => t.pat = (s.storePattern q).pat := by
  have hexec : exec .patternStoreWritten s = closing (((s.storePattern q).log 1 255 St.ok 2 (patternDetail q.digest)).raise 16 2) := by
    simp only [exec_patternStoreWritten, execPatternStoreWritten, hrunning]
    rw [onlyIf_of (by simp [hphase])]
    rfl
  have htold := ((s.storePattern q).log_told 1 255 St.ok 2 (patternDetail q.digest)).trans (State.raise_told _ 16 2)
  exact ⟨_, hexec.trans (closing_quiet (htold.dues.trans hquiet)), htold.pat⟩

end Sys2Proof.Machine

open Sys2Proof Sys2Proof.Machine

/-- Settles O5: a check of the apply fails, or all pass and the builds begin; the store's other slot takes the pattern. -/
theorem patternApplyAndStore : Obligations.PatternApplyAndStore := by
  refine ⟨?apply, ?store⟩
  case apply =>
    intro p v s hcarries hoper hphase hroom hfirmware hlen hrunning _ hparts hwaits hctxs hqueues hcolls hschs hcommits
    have hundefined : ∀ n, (s.part n).state = .undefined := fun n => by rw [hparts n]
    have hwrite := State.writeApply_checked hphase hroom hfirmware hlen
    cases hcheck : s.checkPattern (Tab.getList 0 s.pat.stage 0 (bits v.toNat 20 0)) false with
    | error f =>
      have htold := s.applyAnswer_error v.toNat f
      rw [← hcheck, ← hwrite] at htold
      have hpat := htold.pat
      refine ⟨_, exec_patApply_writes hcarries hoper htold.dues htold.cells hwaits, ?_, ?_, ?_, ?_, fun n => ?_⟩
      · rw [hpat]; rfl
      · rw [hpat]; rfl
      · rw [hpat]; rfl
      · rw [hpat]; rfl
      · rw [State.part_congr hpat]; exact hundefined n
    | ok q =>
      have hvacant : s.Vacant := ⟨hqueues, hctxs, hschs, hcolls, hcommits, fun n => by rw [State.slice, hparts n]⟩
      obtain ⟨hdues, hcells, hbuilds⟩ := hvacant.beginApply q hundefined hrunning
      rw [hcheck] at hwrite
      have hbegin : s.writeApply v.toNat = s.beginApply q false := hwrite
      rw [← hbegin] at hdues hcells hbuilds
      exact ⟨_, exec_patApply_writes hcarries hoper hdues hcells hwaits, hbuilds⟩
  case store =>
    intro q s hquiet hrunning hphase
    obtain ⟨t, hexec, hpat⟩ := exec_patternStoreWritten_stores hquiet hrunning hphase
    refine ⟨t, hexec, ?_⟩
    dsimp only
    rw [hpat]
    refine ⟨rfl, rfl, rfl, rfl, ?_⟩
    cases hselected : s.pat.selected with
    | true => exact ⟨if_pos hselected, if_pos hselected⟩
    | false => simp [State.storePattern, hselected]
end

section
/-!
PROOFS. How a cell and a core issue: a cell that runs executes its instruction and goes past it, or waits at it.
-/

namespace Sys2Proof.Machine

/-! The cell past its instruction (04 R103). -/

section Past
variable (s : State) (i : Nat)

@[simp] theorem State.pastInstr_dues : (s.pastInstr i).dues = s.dues := rfl
@[simp] theorem State.pastInstr_mem : (s.pastInstr i).mem = s.mem := rfl
@[simp] theorem State.pastInstr_msgs : (s.pastInstr i).msgs = s.msgs := rfl
@[simp] theorem State.pastInstr_egress : (s.pastInstr i).egress = s.egress := rfl
@[simp] theorem State.msgSt_pastInstr (k : Nat) : (s.pastInstr i).msgSt k = s.msgSt k := rfl

theorem State.cell_pastInstr : (s.pastInstr i).cell i =
    { s.cell i with pc := s.pcAfter i, loops := (nextPc (s.cell i).loops ((s.cell i).pc + 1)).2 } := State.cell_updCell ..

@[simp] theorem State.pc_pastInstr : ((s.pastInstr i).cell i).pc = s.pcAfter i := by rw [State.cell_pastInstr]
@[simp] theorem State.sregs_pastInstr : ((s.pastInstr i).cell i).sregs = (s.cell i).sregs := by rw [State.cell_pastInstr]
@[simp] theorem State.scratch_pastInstr : ((s.pastInstr i).cell i).scratch = (s.cell i).scratch := by rw [State.cell_pastInstr]
@[simp] theorem State.movers_pastInstr : ((s.pastInstr i).cell i).movers = (s.cell i).movers := by rw [State.cell_pastInstr]
@[simp] theorem State.nextXfer_pastInstr : ((s.pastInstr i).cell i).nextXfer = (s.cell i).nextXfer := by rw [State.cell_pastInstr]
@[simp] theorem State.reg_pastInstr (r : Nat) : ((s.pastInstr i).cell i).reg r = (s.cell i).reg r := by simp [Cell.reg]
@[simp] theorem State.bytes_pastInstr (a len : Nat) : ((s.pastInstr i).cell i).bytes a len = (s.cell i).bytes a len := by simp [Cell.bytes]

end Past

/-- Cell d stands at the instruction that c stands at, in the same loops of the same code. -/
structure Cell.SameSpot (c d : Cell) : Prop where
  pc : d.pc = c.pc
  loops : d.loops = c.loops
  codeLen : d.codeLen = c.codeLen

section Spot
variable {s t : State} {i : Nat} (hspot : (s.cell i).SameSpot (t.cell i))
include hspot

theorem State.pcAfter_of_spot : t.pcAfter i = s.pcAfter i := by simp [State.pcAfter, hspot.pc, hspot.loops]

/-- A cell whose next instruction lies in its code goes on to it. -/
theorem State.advance_inCode (hcode : s.pcAfter i < (s.cell i).codeLen) (n : Nat) : t.advance n i = t.pastInstr i := by
  have hin : ¬ (t.cell i).codeLen ≤ (nextPc (t.cell i).loops ((t.cell i).pc + 1)).1 := by
    rw [hspot.codeLen, hspot.loops, hspot.pc]
    exact Nat.not_le.2 hcode
  simp [State.advance, State.arrivePc, hin]
  rfl

/-- The PC that it goes on to. -/
theorem State.pc_pastInstr_of_spot : ((t.pastInstr i).cell i).pc = s.pcAfter i := by rw [State.pc_pastInstr, State.pcAfter_of_spot hspot]

/-- The end of an instruction that its cell goes past, where nothing is left to judge. -/
theorem closing_goesOn (hquiet : s.quiet) (hdues : t.dues = s.dues) (hcode : s.pcAfter i < (s.cell i).codeLen) (n : Nat) :
    closing (t.advance n i) = .next (t.pastInstr i) := by
  rw [State.advance_inCode hspot hcode, closing_quiet ((t.pastInstr_dues i).trans (hdues.trans hquiet))]

end Spot

/-- A cell that another table's change leaves is where it was. -/
theorem State.spot_of_cells {s t : State} (h : t.cells = s.cells) (i : Nat) : (s.cell i).SameSpot (t.cell i) := by
  rw [State.cell_congr h]
  exact ⟨rfl, rfl, rfl⟩

theorem Cell.SameSpot.refl (c : Cell) : c.SameSpot c := ⟨rfl, rfl, rfl⟩

/-- A cell whose instruction meets no transfer in flight executes it (04 R100). -/
theorem State.issueTile_free {s : State} {i : Nat} {ins : Instr} {f : Cell → Foot} {r : State} (hmay : s.mayIssue i = true)
    (hfree : (s.cell i).conflicts (f (s.cell i)) = false) : s.issueTile i ins f r = r := by
  simp [State.issueTile, hmay, hfree]

/-- Two changes of one cell are one. -/
theorem State.updCell_updCell (s : State) (i : Nat) (f g : Cell → Cell) : (s.updCell i f).updCell i g = s.updCell i (fun c => g (f c)) := by
  simp [State.updCell, Tab.upd, Tab.set_set]

theorem Cell.reg_setReg (c : Cell) (r k : Nat) (v : Word32) : (c.setReg r v).reg k = if k = r ∧ k ≠ 0 then v else c.reg k := by
  by_cases hr : r = 0
  · subst hr; by_cases hk : k = 0 <;> simp [Cell.setReg, hk]
  · by_cases hk : k = 0
    · simp [Cell.reg, hk]
    · simp [Cell.setReg, Cell.reg, hr, hk, Tab.get_set]

theorem Cell.setReg_spot (c : Cell) (r : Nat) (v : Word32) : c.SameSpot (c.setReg r v) := by
  unfold Cell.setReg
  split <;> exact ⟨rfl, rfl, rfl⟩

@[simp] theorem Cell.setReg_scratch (c : Cell) (r : Nat) (v : Word32) : (c.setReg r v).scratch = c.scratch := by
  unfold Cell.setReg
  split <;> rfl

/-! Scratchpad bytes (04 R88). -/

theorem Cell.write_spot (c : Cell) (a : Nat) (data : List Byte) (dross : Bool) : c.SameSpot (c.write a data dross) := ⟨rfl, rfl, rfl⟩

theorem Cell.scratch_write (c : Cell) (a : Nat) (data : List Byte) (dross : Bool) (z : Nat) : (c.write a data dross).scratch.get 0 z =
    if a ≤ z ∧ z < a + data.length then data.getD (z - a) 0 else c.scratch.get 0 z := Tab.get_setList ..

theorem Tab.getElem_getList {α : Type} (d : α) (t : Tab α) (k n i : Nat) (h : i < (Tab.getList d t k n).length) :
    (Tab.getList d t k n)[i] = t.get d (k + i) := by
  induction n generalizing k i with
  | zero => simp [Tab.getList] at h
  | succ n ih =>
    cases i with
    | zero => rfl
    | succ i => simp [Tab.getList, ih, Nat.add_assoc, Nat.add_comm 1]

/-- Bytes are a list where each of them is. -/
theorem Cell.bytes_eq {c : Cell} {a : Nat} {l : List Byte} (h : ∀ k, k < l.length → c.scratch.get 0 (a + k) = l.getD k 0) :
    c.bytes a l.length = l := by
  refine List.ext_getElem (Tab.getList_length ..) fun k hk hl => ?_
  calc (c.bytes a l.length)[k] = c.scratch.get 0 (a + k) := Tab.getElem_getList ..
    _ = l[k] := by rw [h k hl, List.getD_eq_getElem _ _ hl]

theorem Cell.bytes_write (c : Cell) (a : Nat) (data : List Byte) (dross : Bool) : (c.write a data dross).bytes a data.length = data :=
  Cell.bytes_eq fun k hk => by rw [Cell.scratch_write, if_pos (by omega), Nat.add_sub_cancel_left]

theorem bslice_length (b : List Byte) (off len : Nat) : (bslice b off len).length = len := by
  simp [bslice, zeros]

theorem Msg.bytes_length (m : Msg) : m.bytes.length = 80 := by simp [Msg.bytes, bslice_length]

/-! Message state (03 R77, R78). -/

@[simp] theorem MsgState.box_updBox (m : MsgState) (b : Nat) (f : Mailbox → Mailbox) : (m.updBox b f).box b = f (m.box b) := Tab.get_upd_same ..
theorem MsgState.box_updBox_ne (m : MsgState) {b x : Nat} (f : Mailbox → Mailbox) (h : x ≠ b) : (m.updBox b f).box x = m.box x :=
  Tab.get_upd_ne _ _ _ h

theorem addrKey_cell {a : Nat} (h : a < 192) (c : Nat) : addrKey a c = msgKey a c := if_pos h
theorem addrKey_core (k : Nat) (c d : Nat) : addrKey (coreAddr k) c = addrKey (coreAddr k) d := by
  have hcore : ¬ coreAddr k < 192 := by unfold coreAddr; omega
  simp [addrKey, hcore]

/-- Message state and what waits at egress may have changed, and nothing else. -/
def State.Messaged (s t : State) : Prop := ∃ m e, t = { s with msgs := m, egress := e }

theorem State.Messaged.refl (s : State) : s.Messaged s := ⟨_, _, rfl⟩
theorem State.Messaged.trans {s t u : State} : s.Messaged t → t.Messaged u → s.Messaged u := by
  rintro ⟨_, _, rfl⟩ ⟨_, _, rfl⟩; exact ⟨_, _, rfl⟩
theorem State.Messaged.cells {s t : State} : s.Messaged t → t.cells = s.cells := by rintro ⟨_, _, rfl⟩; rfl
theorem State.Messaged.cores {s t : State} : s.Messaged t → t.cores = s.cores := by rintro ⟨_, _, rfl⟩; rfl
theorem State.Messaged.mem {s t : State} : s.Messaged t → t.mem = s.mem := by rintro ⟨_, _, rfl⟩; rfl
theorem State.Messaged.dues {s t : State} : s.Messaged t → t.dues = s.dues := by rintro ⟨_, _, rfl⟩; rfl

theorem State.updMsg_messaged (s : State) (k : Nat) (f : MsgState → MsgState) : s.Messaged (s.updMsg k f) := ⟨_, s.egress, rfl⟩
theorem State.release_messaged (s : State) (e : Egress) : s.Messaged (s.release e) := ⟨s.msgs, _, rfl⟩
@[simp] theorem State.egress_release (s : State) (e : Egress) : (s.release e).egress = s.egress ++ [e] := rfl
@[simp] theorem State.msgSt_release (s : State) (e : Egress) (k : Nat) : (s.release e).msgSt k = s.msgSt k := rfl

/-- A change of one mailbox that keeps what it holds keeps what every mailbox holds. -/
theorem State.held_updBox (s : State) (key b : Nat) {f : Mailbox → Mailbox} (hf : ∀ x, (f x).held = x.held) (k x : Nat) :
    (((s.updMsg key (fun m => m.updBox b f)).msgSt k).box x).held = ((s.msgSt k).box x).held := by
  by_cases hk : k = key
  · subst hk
    rw [State.msgSt_updMsg]
    by_cases hx : x = b
    · subst hx; rw [MsgState.box_updBox, hf]
    · rw [MsgState.box_updBox_ne _ _ hx]
  · rw [State.msgSt_updMsg_ne _ _ _ hk]

/-- A grant of n tallies for mailbox b of an address: OUT rises and the grant is released (03 R78). -/
def State.grantReleased (s : State) (part src c dest b n : Nat) : State :=
  (s.updMsg (addrKey src c) (fun m => m.updBox b (fun x => { x with out := x.out + n }))).release
    { src := src, ctx := c, flight := .grant part src dest b n ((s.msgSt (addrKey src c)).box b).urgent c }

theorem State.grantFrom_room {s : State} {part src c dest b n : Nat} (hn : n ≠ 0) (hroom : ((s.msgSt (addrKey src c)).box b).used + n ≤ 32) :
    s.grantFrom part src c dest b n = (s.grantReleased part src c dest b n, St.ok) := by
  simp [State.grantFrom, hn, Nat.not_lt.2 hroom, State.grantReleased]

/-- A grant that is refused, or of 0, changes nothing. -/
theorem State.grantFrom_same {s : State} {part src c dest b n : Nat} (h : n = 0 ∨ 32 < ((s.msgSt (addrKey src c)).box b).used + n) :
    (s.grantFrom part src c dest b n).1 = s := by
  by_cases hn : n = 0
  · simp [State.grantFrom, hn]
  · simp [State.grantFrom, hn, h.resolve_left hn]

theorem State.grantReleased_messaged (s : State) (part src c dest b n : Nat) : s.Messaged (s.grantReleased part src c dest b n) :=
  (s.updMsg_messaged ..).trans (State.release_messaged ..)

@[simp] theorem State.box_grantReleased (s : State) (part src c dest b n : Nat) : ((s.grantReleased part src c dest b n).msgSt (addrKey src c)).box b =
    { (s.msgSt (addrKey src c)).box b with out := ((s.msgSt (addrKey src c)).box b).out + n } := by simp [State.grantReleased]

theorem State.grantFrom_messaged (s : State) (part src c dest b n : Nat) : s.Messaged (s.grantFrom part src c dest b n).1 := by
  by_cases h : n = 0 ∨ 32 < ((s.msgSt (addrKey src c)).box b).used + n
  · rw [State.grantFrom_same h]
    exact State.Messaged.refl s
  · rw [not_or, Nat.not_lt] at h
    rw [State.grantFrom_room h.1 h.2]
    exact State.grantReleased_messaged ..

/-- A grant changes no message that is held. -/
theorem State.held_grantFrom (s : State) (part src c dest b n k x : Nat) :
    (((s.grantFrom part src c dest b n).1.msgSt k).box x).held = ((s.msgSt k).box x).held := by
  by_cases h : n = 0 ∨ 32 < ((s.msgSt (addrKey src c)).box b).used + n
  · rw [State.grantFrom_same h]
  · rw [not_or, Nat.not_lt] at h
    rw [State.grantFrom_room h.1 h.2]
    exact s.held_updBox (f := fun x => { x with out := x.out + n }) _ _ (fun _ => rfl) k x

/-- What an address with k tallies for a destination returns of n (03 R78): the store falls and the return is released. -/
def State.retReleased (s : State) (part src c dest b k grantor : Nat) : State :=
  (s.updMsg (addrKey src c) (fun m => m.takeTallies dest b k)).release { src := src, ctx := c, flight := .ret part src dest b k grantor }

theorem State.returnFrom_holds {s : State} {part src c dest b n : Nat} {x : Tally} (hentry : (s.msgSt (addrKey src c)).entry dest b = some x)
    (hn : min n x.count ≠ 0) : s.returnFrom part src c dest b n = s.retReleased part src c dest b (min n x.count) x.ctx := by
  simp only [State.returnFrom, hentry, if_neg hn, State.retReleased]

theorem State.retReleased_messaged (s : State) (part src c dest b k grantor : Nat) : s.Messaged (s.retReleased part src c dest b k grantor) :=
  (s.updMsg_messaged ..).trans (State.release_messaged ..)

@[simp] theorem State.msgSt_retReleased (s : State) (part src c dest b k grantor : Nat) :
    (s.retReleased part src c dest b k grantor).msgSt (addrKey src c) = (s.msgSt (addrKey src c)).takeTallies dest b k := by
  simp [State.retReleased]

/-! A core's Xfjm instruction (06 R149). -/

theorem State.xfjm_issues {s : State} {k : Nat} (h : s.coreIssues k) (f : State → State) : s.xfjm k f = f s := by
  obtain ⟨-, hruns, hmode⟩ := h
  have hallowed : ((decide ((s.core k).priv = 0)) && !(s.core k).uen) = false := by
    rcases hmode with hpriv | huen
    · simp [hpriv]
    · simp [huen]
  simp only [State.xfjm, hruns, hallowed, if_true]
  rfl

/-- No cell waits, of those in the table and of those that are not. -/
theorem State.waiting_of_noCellWaits {s : State} (h : s.noCellWaits) (i : Nat) : (s.cell i).waiting = none := by
  have hget : ∀ t : Tab Cell, (∀ e ∈ t, e.2.waiting = none) → (Tab.get {} t i).waiting = none := by
    intro t ht
    induction t with
    | nil => rfl
    | cons e t ih =>
      by_cases hk : e.1 = i
      · simp [Tab.get, hk, ht e]
      · simp only [Tab.get, hk, if_false]
        exact ih fun x hx => ht x (List.mem_cons_of_mem _ hx)
  exact hget s.cells h

/-- A cell that waits at nothing has nothing to try again. -/
theorem State.retryCell_none {s : State} {i : Nat} (h : (s.cell i).waiting = none) : s.retryCell i = s := by
  simp [State.retryCell, h]

end Sys2Proof.Machine
end

section
/-!
PROOFS. SND and RCV of a matrix cell (03 R75-R78; 04 R103).
-/

namespace Sys2Proof.Machine

/-! Sending. -/

/-- The message of a SND that takes tally t (03 R75). -/
def State.sndMsg (s : State) (i : Nat) (f : SndF) (t : Tally) : Msg :=
  let c := s.cell i
  { header := headerOf (c.addr f.rb) i f.mailbox f.length t.urgent (c.rangeDross (c.reg f.ra).toNat f.length) c.ctx (c.reg f.rc).toNat
    payload := bslice (c.bytes (c.reg f.ra).toNat (min f.length.val 64)) 0 64 }

/-- A SND takes tally t and releases its message (03 R78). -/
def State.sndReleased (s : State) (i : Nat) (f : SndF) (t : Tally) : State :=
  let c := s.cell i
  (s.updMsg (msgKey i c.ctx) (fun m => m.takeTallies (c.addr f.rb) f.mailbox 1)).release
    { src := i, ctx := c.ctx, flight := .msg (s.cellPart i) i (c.addr f.rb) f.mailbox (s.sndMsg i f t), after := if f.release then c.nextXfer else 0 }

theorem State.sndReleased_messaged (s : State) (i : Nat) (f : SndF) (t : Tally) : s.Messaged (s.sndReleased i f t) :=
  (s.updMsg_messaged ..).trans (State.release_messaged ..)

@[simp] theorem State.msgSt_sndReleased (s : State) (i : Nat) (f : SndF) (t : Tally) : (s.sndReleased i f t).msgSt (msgKey i (s.cell i).ctx) =
    (s.msgSt (msgKey i (s.cell i).ctx)).takeTallies ((s.cell i).addr f.rb) f.mailbox 1 := by simp [State.sndReleased]

/-- Dross in a message that a cell sends is counted in its context and its gang (05 R138, R139). -/
def State.countDrossMsg (s : State) (i : Nat) (g : Guard) (d : Bool) : State :=
  let n := s.cellPart i
  let c := s.cell i
  if d then (s.setGuard n c.ctx g.addMsg).updGang n (c.gang.getD 0) (fun g => { g with dross := true }) else s

section Count
variable (s : State) (i : Nat) (g : Guard) (d : Bool)

@[simp] theorem State.countDrossMsg_cells : (s.countDrossMsg i g d).cells = s.cells := by cases d <;> rfl
@[simp] theorem State.countDrossMsg_msgs : (s.countDrossMsg i g d).msgs = s.msgs := by cases d <;> rfl
@[simp] theorem State.countDrossMsg_egress : (s.countDrossMsg i g d).egress = s.egress := by cases d <;> rfl
@[simp] theorem State.countDrossMsg_mem : (s.countDrossMsg i g d).mem = s.mem := by cases d <;> rfl
@[simp] theorem State.countDrossMsg_dues : (s.countDrossMsg i g d).dues = s.dues := by cases d <;> rfl

end Count

/-- The state of a SND that has sent, before its cell goes on. -/
def State.sndDone (s : State) (i : Nat) (f : SndF) (t : Tally) : State :=
  (s.sndReleased i f t).countDrossMsg i (s.guardOf i) ((s.cell i).rangeDross ((s.cell i).reg f.ra).toNat f.length)

section Done
variable (s : State) (i : Nat) (f : SndF) (t : Tally)

theorem State.sndDone_cells : (s.sndDone i f t).cells = s.cells := (State.countDrossMsg_cells ..).trans (s.sndReleased_messaged i f t).cells
theorem State.sndDone_mem : (s.sndDone i f t).mem = s.mem := (State.countDrossMsg_mem ..).trans (s.sndReleased_messaged i f t).mem
theorem State.sndDone_dues : (s.sndDone i f t).dues = s.dues := (State.countDrossMsg_dues ..).trans (s.sndReleased_messaged i f t).dues
theorem State.msgSt_sndDone (k : Nat) : (s.sndDone i f t).msgSt k = (s.sndReleased i f t).msgSt k := State.msgSt_congr (State.countDrossMsg_msgs ..) k

theorem State.sndDone_spot : (s.cell i).SameSpot ((s.sndDone i f t).cell i) := State.spot_of_cells (s.sndDone_cells i f t) i

end Done

/-- A SND with a tally in hand sends and goes on. -/
theorem State.doSnd_sends {s : State} {i : Nat} {f : SndF} {t : Tally} (ins : Instr) (hmay : s.mayIssue i = true)
    (hfree : (s.cell i).conflicts { reads := [(((s.cell i).reg f.ra).toNat, f.length.val)] } = false)
    (hfits : f.length.val = 0 ∨ ((s.cell i).reg f.ra).toNat + f.length.val ≤ scratchBytes)
    (hentry : (s.msgSt (msgKey i (s.cell i).ctx)).entry ((s.cell i).addr f.rb) f.mailbox = some t) (hdead : t.dead = false)
    (hvoid : t.void = false) : s.doSnd i f ins = (s.sndDone i f t).advance (s.cellPart i) i := by
  have hinside : (f.length.val != 0 && decide (scratchBytes < ((s.cell i).reg f.ra).toNat + f.length.val)) = false := by
    rcases hfits with h | h
    · simp [h]
    · simp [Nat.not_lt.2 h]
  rw [State.doSnd, State.issueTile_free hmay hfree]
  simp only [hinside, hentry, hdead, hvoid]
  rfl

theorem exec_snd_sends {cell : CellId} {f : SndF} {t : Tally} {s : State}
    (hfree : s.runsFree cell { reads := [(((s.cell cell).reg f.ra).toNat, f.length.val)] })
    (hfits : f.length.val = 0 ∨ ((s.cell cell).reg f.ra).toNat + f.length.val ≤ scratchBytes)
    (hentry : (s.msgSt (msgKey cell (s.cell cell).ctx)).entry ((s.cell cell).addr f.rb) f.mailbox = some t) (hdead : t.dead = false)
    (hvoid : t.void = false) : exec (.snd cell f) s = .next ((s.sndDone cell f t).pastInstr cell) := by
  obtain ⟨⟨hquiet, hmay, hcode⟩, hconf⟩ := hfree
  rw [exec_snd, execSnd, State.doSnd_sends _ hmay hconf hfits hentry hdead hvoid,
    closing_goesOn (s.sndDone_spot ..) hquiet (s.sndDone_dues ..) hcode]

/-! Receiving. -/

/-- A cell goes on with register rd written. -/
theorem State.advance_setReg {s : State} {i : Nat} (hcode : s.pcAfter i < (s.cell i).codeLen) (rd : Nat) (v : Word32) (n : Nat) :
    (s.updCell i (fun c => c.setReg rd v)).advance n i = s.wrote i rd v :=
  State.advance_inCode (by rw [State.cell_updCell]; exact Cell.setReg_spot ..) hcode n

/-- The cell once a message has come into its scratchpad, and into rd that it has (04 R103). -/
def Cell.receives (c : Cell) (a : Nat) (m : Msg) (nb : Bool) (rd : Nat) : Cell :=
  let d := c.write a m.bytes (m.header.testBit 95)
  if nb then d.setReg rd 1 else d

theorem Cell.receives_spot (c : Cell) (a : Nat) (m : Msg) (nb : Bool) (rd : Nat) : c.SameSpot (c.receives a m nb rd) := by
  cases nb
  · exact Cell.write_spot ..
  · obtain ⟨hpc, hloops, hlen⟩ := (c.write a m.bytes (m.header.testBit 95)).setReg_spot rd 1
    exact ⟨hpc, hloops, hlen⟩

theorem State.spot_receives (s : State) (i a : Nat) (m : Msg) (nb : Bool) (rd : Nat) :
    (s.cell i).SameSpot ((s.updCell i (fun c => c.receives a m nb rd)).cell i) := by
  rw [State.cell_updCell]
  exact Cell.receives_spot ..

theorem Cell.bytes_receives (c : Cell) (a : Nat) (m : Msg) (nb : Bool) (rd : Nat) : (c.receives a m nb rd).bytes a 80 = m.bytes := by
  have hscratch : (c.receives a m nb rd).scratch = (c.write a m.bytes (m.header.testBit 95)).scratch := by cases nb <;> simp [Cell.receives]
  rw [Cell.bytes, hscratch, ← m.bytes_length]
  exact Cell.bytes_write ..

theorem Cell.reg_receives (c : Cell) (a : Nat) (m : Msg) (nb : Bool) (rd r : Fin 32) :
    (c.receives a m nb rd).reg r = if nb = true ∧ r = rd ∧ r ≠ 0 then 1 else c.reg r := by
  cases nb
  · simp [Cell.receives]; rfl
  · rw [Cell.receives, if_pos rfl, Cell.reg_setReg]
    simp only [Fin.val_inj, ne_eq, Fin.val_eq_zero_iff, true_and]
    rfl

/-- Taking a message that is held leaves the others (03 R78). -/
theorem State.takeMsg_held {s : State} {part a c b : Nat} {m : Msg} {rest : List Msg} (hheld : ((s.msgSt (addrKey a c)).box b).held = m :: rest) :
    ∃ t, s.takeMsg part a c b = (t, some m) ∧ s.Messaged t ∧ ((t.msgSt (addrKey a c)).box b).held = rest := by
  have htaken : (((s.updMsg (addrKey a c) (fun m => m.updBox b (fun x => { x with held := rest }))).msgSt (addrKey a c)).box b).held = rest := by simp
  unfold State.takeMsg
  simp only [hheld]
  split
  · exact ⟨_, rfl, (s.updMsg_messaged ..).trans (State.grantFrom_messaged ..), (State.held_grantFrom ..).trans htaken⟩
  · exact ⟨_, rfl, s.updMsg_messaged .., htaken⟩

theorem State.takeMsg_empty {s : State} {part a c b : Nat} (hheld : ((s.msgSt (addrKey a c)).box b).held = []) :
    s.takeMsg part a c b = (s, none) := by
  unfold State.takeMsg
  simp only [hheld]

section Rcv
variable {cell : CellId} {ra rd : Fin 32} {b : Fin 16} {s : State}
  (hfree : s.runsFree cell { writes := [(((s.cell cell).reg ra).toNat, 80)] }) (hfits : ((s.cell cell).reg ra).toNat + 80 ≤ scratchBytes)
include hfree hfits

/-- A RCV of a mailbox that holds a message takes the oldest (03 R77). -/
theorem exec_rcv_held {nb : Bool} {m : Msg} {rest : List Msg} (hheld : ((s.msgSt (msgKey cell (s.cell cell).ctx)).box b).held = m :: rest) :
    ∃ t, exec (.rcv cell ra b nb rd) s = .next ((t.updCell cell (fun c => c.receives ((s.cell cell).reg ra).toNat m nb rd)).pastInstr cell)
      ∧ s.Messaged t ∧ ((t.msgSt (msgKey cell (s.cell cell).ctx)).box b).held = rest := by
  obtain ⟨⟨hquiet, hmay, hcode⟩, hconf⟩ := hfree
  have hkey : addrKey cell (s.cell cell).ctx = msgKey cell (s.cell cell).ctx := addrKey_cell cell.isLt _
  obtain ⟨t, htake, htouch, hrest⟩ := State.takeMsg_held (part := s.cellPart cell) (hkey ▸ hheld)
  refine ⟨t, ?_, htouch, hkey ▸ hrest⟩
  have hspot := t.spot_receives cell ((s.cell cell).reg ra).toNat m nb rd
  rw [State.cell_congr htouch.cells] at hspot
  rw [exec_rcv, execRcv, State.doRcv, State.issueTile_free hmay hconf]
  simp only [Nat.not_lt.2 hfits, if_false, htake]
  rw [← closing_goesOn hspot hquiet htouch.dues hcode (s.cellPart cell)]
  cases nb
  · rfl
  · simp only [if_true, State.updCell_updCell]
    rfl

/-- A non-blocking RCV of an empty mailbox writes 0 and goes on; a blocking one waits (04 R103). -/
theorem exec_rcv_empty (nb : Bool) (hheld : ((s.msgSt (msgKey cell (s.cell cell).ctx)).box b).held = []) : exec (.rcv cell ra b nb rd) s = .next (
    if nb then s.wrote cell rd 0 else s.holdInstr cell (.rcv cell ra b nb rd) 2) := by
  obtain ⟨⟨hquiet, hmay, hcode⟩, hconf⟩ := hfree
  have hkey : addrKey cell (s.cell cell).ctx = msgKey cell (s.cell cell).ctx := addrKey_cell cell.isLt _
  rw [exec_rcv, execRcv, State.doRcv, State.issueTile_free hmay hconf]
  simp only [Nat.not_lt.2 hfits, if_false, State.takeMsg_empty (hkey ▸ hheld), State.advance_setReg hcode]
  exact closing_quiet (by cases nb <;> exact hquiet)

end Rcv

end Sys2Proof.Machine

open Sys2Proof Sys2Proof.Machine

/-- Settles O11: a SND with a tally in hand, a RCV of a mailbox that holds a message, and a RCV of an empty one. -/
theorem cellSendsAndReceives : Obligations.CellSendsAndReceives := by
  refine ⟨?snd, ?rcv, ?empty⟩
  case snd =>
    intro cell f t s c a dest key hfree hfits hentry hdead hvoid
    refine ⟨_, exec_snd_sends hfree hfits hentry hdead hvoid, ⟨s.sndMsg cell f t, _, State.countDrossMsg_egress .., rfl, rfl⟩, ?_, ?_, ?_⟩
    · exact (State.msgSt_sndDone ..).trans (State.msgSt_sndReleased ..)
    · exact State.pc_pastInstr_of_spot (s.sndDone_spot ..)
    · exact State.sndDone_mem ..
  case rcv =>
    intro cell ra rd b nb m rest s c a key hfree hfits hheld
    obtain ⟨t, hexec, htouch, hrest⟩ := exec_rcv_held (nb := nb) (rd := rd) hfree hfits hheld
    have hcell := State.cell_congr htouch.cells cell
    refine ⟨_, hexec, ?_, hrest, fun r => ?_, ?_, htouch.mem⟩
    · rw [State.bytes_pastInstr, State.cell_updCell, Cell.bytes_receives]
    · rw [State.reg_pastInstr, State.cell_updCell, Cell.reg_receives, hcell]
    · rw [State.pc_pastInstr_of_spot (t.spot_receives ..), State.pcAfter_of_spot (State.spot_of_cells htouch.cells cell)]
  case empty =>
    intro cell ra rd b s c a key hfree hfits hheld
    refine ⟨exec_rcv_empty hfree hfits true hheld, fun t ht => ?_⟩
    rw [exec_rcv_empty hfree hfits false hheld] at ht
    cases ht
    exact ⟨rfl, by simp [State.holdInstr]; rfl, by simp [State.holdInstr]⟩
end

section
/-!
PROOFS. GRANT, RTN, MBCFG and WAIT of a matrix cell (03 R77, R78; 04 R103).
-/

namespace Sys2Proof.Machine

section Configure
variable (s : State) (key b sender : Nat) (standing urgent : Bool)

theorem State.configBox_messaged : s.Messaged (s.configBox key b sender standing urgent) := s.updMsg_messaged ..

@[simp] theorem State.box_configBox : ((s.configBox key b sender standing urgent).msgSt key).box b =
    { (s.msgSt key).box b with standing := standing, urgent := urgent, sender := sender } := by simp [State.configBox]

theorem State.box_configBox_ne {x : Nat} (h : x ≠ b) : ((s.configBox key b sender standing urgent).msgSt key).box x = (s.msgSt key).box x := by
  rw [State.configBox, State.msgSt_updMsg, MsgState.box_updBox_ne _ _ h]

end Configure

/-- A wait of a cell leaves nothing to judge. -/
theorem closing_holds {s : State} (hquiet : s.quiet) (i : Nat) (ins : Instr) (state : Nat) :
    closing (s.holdInstr i ins state) = .next (s.holdInstr i ins state) := closing_quiet hquiet

section Runs
variable {cell : CellId} {s : State} (hruns : s.runs cell)
include hruns

/-- An instruction of a cell that touches message state alone, and its cell goes on. -/
theorem closing_messaged {t : State} (htouch : s.Messaged t) (n : Nat) : closing (t.advance n cell) = .next (t.pastInstr cell) :=
  closing_goesOn (State.spot_of_cells htouch.cells cell) hruns.1 htouch.dues hruns.2.2 n

theorem exec_grant_room {rb : Fin 32} {b : Fin 16} {k : Fin 64} (hk : k.val ≠ 0)
    (hroom : ((s.msgSt (msgKey cell (s.cell cell).ctx)).box b).used + k.val ≤ 32) : exec (.grant cell rb b k) s
      = .next ((s.grantReleased (s.cellPart cell) cell (s.cell cell).ctx ((s.cell cell).addr rb) b k).pastInstr cell) := by
  obtain ⟨hquiet, hmay, hcode⟩ := hruns
  rw [← addrKey_cell cell.isLt] at hroom
  rw [exec_grant, execGrant, State.doGrant, if_pos hmay, State.grantFrom_room hk hroom]
  exact closing_messaged ⟨hquiet, hmay, hcode⟩ (s.grantReleased_messaged ..) _

theorem exec_rtn_holds {rb : Fin 32} {b : Fin 16} {k : Fin 64} {x : Tally}
    (hentry : (s.msgSt (msgKey cell (s.cell cell).ctx)).entry ((s.cell cell).addr rb) b = some x) (hk : min k.val x.count ≠ 0) :
    exec (.rtn cell rb b k) s
      = .next ((s.retReleased (s.cellPart cell) cell (s.cell cell).ctx ((s.cell cell).addr rb) b (min k x.count) x.ctx).pastInstr cell) := by
  obtain ⟨hquiet, hmay, hcode⟩ := hruns
  rw [← addrKey_cell cell.isLt] at hentry
  rw [exec_rtn, execRtn, State.doRtn, if_pos hmay, State.returnFrom_holds hentry hk]
  exact closing_messaged ⟨hquiet, hmay, hcode⟩ (s.retReleased_messaged ..) _

theorem exec_mbcfg_runs (rb : Fin 32) (b : Fin 16) (standing urgent : Bool) : exec (.mbcfg cell rb b standing urgent) s
    = .next ((s.configBox (msgKey cell (s.cell cell).ctx) b ((s.cell cell).addr rb) standing urgent).pastInstr cell) := by
  rw [exec_mbcfg, execMbcfg, State.doMbcfg, if_pos hruns.2.1]
  exact closing_messaged hruns (s.configBox_messaged ..) _

/-- WAIT goes on where the tallies are there, and waits else (04 R103). -/
theorem exec_wait_runs (rb : Fin 32) (b : Fin 16) (k : Fin 64) : exec (.wait cell rb b k) s = .next (
    if k.val ≤ (s.msgSt (msgKey cell (s.cell cell).ctx)).tallies ((s.cell cell).addr rb) b then s.pastInstr cell
    else s.holdInstr cell (.wait cell rb b k) 2) := by
  rw [exec_wait, execWait, State.doWait, if_pos hruns.2.1]
  split
  · exact closing_messaged hruns (State.Messaged.refl s) _
  · exact closing_holds hruns.1 ..

end Runs

end Sys2Proof.Machine

open Sys2Proof Sys2Proof.Machine

/-- Settles O12: each of the four instructions changes message state as its shared operation does, and its cell goes on. -/
theorem cellTallyInstructions : Obligations.CellTallyInstructions := by
  refine ⟨?grant, ?rtn, ?mbcfg, fun cell rb b k s hruns => exec_wait_runs hruns rb b k⟩
  case grant =>
    intro cell rb b k s c key hruns hk hroom
    have hkey : addrKey cell c.ctx = key := addrKey_cell cell.isLt _
    have htouch := s.grantReleased_messaged (s.cellPart cell) cell c.ctx (c.addr rb) b k
    have hbox := s.box_grantReleased (s.cellPart cell) cell c.ctx (c.addr rb) b k
    rw [hkey] at hbox
    have hheld := congrArg Mailbox.held hbox
    refine ⟨_, exec_grant_room hruns hk hroom, ?_, congrArg Mailbox.out hbox, hheld,
      State.pc_pastInstr_of_spot (State.spot_of_cells htouch.cells cell), htouch.mem⟩
    rw [← hkey]
    rfl
  case rtn =>
    intro cell rb b k x s c key hruns hentry hk
    have hkey : addrKey cell c.ctx = key := addrKey_cell cell.isLt _
    have htouch := s.retReleased_messaged (s.cellPart cell) cell c.ctx (c.addr rb) b (min k x.count) x.ctx
    have hstore := s.msgSt_retReleased (s.cellPart cell) cell c.ctx (c.addr rb) b (min k x.count) x.ctx
    rw [hkey] at hstore
    exact ⟨_, exec_rtn_holds hruns hentry hk, rfl, hstore, State.pc_pastInstr_of_spot (State.spot_of_cells htouch.cells cell), htouch.mem⟩
  case mbcfg =>
    intro cell rb b standing urgent s c key hruns
    have htouch := s.configBox_messaged key b (c.addr rb) standing urgent
    exact ⟨_, exec_mbcfg_runs hruns rb b standing urgent, s.box_configBox .., fun x hx => s.box_configBox_ne _ _ _ _ _ hx,
      State.pc_pastInstr_of_spot (State.spot_of_cells htouch.cells cell), htouch.mem⟩
end

section
/-!
PROOFS. The tally instructions of a service core (03 R77, R78; 06 R149-R151).
-/

namespace Sys2Proof.Machine

/-- What a core has once an instruction has returned v in rd. -/
@[simp] theorem State.rd_coreRd (s : State) (k v : Nat) : ((s.coreRd k v).core k).rd = BitVec.ofNat 64 v := by simp [State.coreRd]

/-- A core's return leaves nothing to judge. -/
theorem closing_coreRd {s t : State} (hquiet : s.quiet) (hdues : t.dues = s.dues) (k v : Nat) : closing (t.coreRd k v) = .next (t.coreRd k v) :=
  closing_quiet (hdues.trans hquiet)

section Issues
variable {core : CoreId} {s : State} (hissues : s.coreIssues core) (rs1 rs2 : Word64)
include hissues

theorem exec_fjGrant_room (hk : bits rs2.toNat 9 4 ≠ 0)
    (hroom : ((s.msgSt (addrKey (coreAddr core) 0)).box (bits rs2.toNat 3 0)).used + bits rs2.toNat 9 4 ≤ 32) : exec (.fjGrant core rs1 rs2) s =
    .next ((s.grantReleased (s.corePart core) (coreAddr core) (s.core core).ctx (bits rs1.toNat 9 0) (bits rs2.toNat 3 0)
      (bits rs2.toNat 9 4)).coreRd core 0) := by
  rw [addrKey_core core 0 (s.core core).ctx] at hroom
  rw [exec_fjGrant, execFjGrant]
  simp only [State.xfjm_issues hissues, State.grantFrom_room hk hroom]
  exact closing_coreRd hissues.1 (s.grantReleased_messaged ..).dues ..

theorem exec_fjRtn_holds {x : Tally}
    (hentry : (s.msgSt (addrKey (coreAddr core) 0)).entry (bits rs1.toNat 9 0) (bits rs2.toNat 3 0) = some x)
    (hk : min (bits rs2.toNat 9 4) x.count ≠ 0) : exec (.fjRtn core rs1 rs2) s =
    .next ((s.retReleased (s.corePart core) (coreAddr core) 0 (bits rs1.toNat 9 0) (bits rs2.toNat 3 0) (min (bits rs2.toNat 9 4) x.count)
      x.ctx).coreRd core 0) := by
  rw [exec_fjRtn, execFjRtn]
  simp only [State.xfjm_issues hissues, State.returnFrom_holds hentry hk]
  exact closing_coreRd hissues.1 (s.retReleased_messaged ..).dues ..

theorem exec_fjMbcfg_issues : exec (.fjMbcfg core rs1 rs2) s =
    .next ((s.configBox (addrKey (coreAddr core) 0) (bits rs2.toNat 3 0) (bits rs1.toNat 9 0) (rs2.toNat.testBit 4)
      (rs2.toNat.testBit 5)).coreRd core 0) := by
  rw [exec_fjMbcfg, execFjMbcfg]
  simp only [State.xfjm_issues hissues]
  exact closing_coreRd hissues.1 (s.configBox_messaged ..).dues ..

/-- FJ.WAIT with tallies of the destination in hand ends where they are dead, void or enough, and waits else (06 R149). -/
theorem exec_fjWait_held {x : Tally}
    (hentry : (s.msgSt (addrKey (coreAddr core) 0)).entry (bits rs1.toNat 9 0) (bits rs2.toNat 3 0) = some x) :
    exec (.fjWait core rs1 rs2) s = .next (
      if x.dead then s.coreRd core St.siteDead.toNat
      else if x.void then s.coreRd core St.contextLost.toNat
      else if bits rs2.toNat 9 4 ≤ x.count then s.coreRd core 0 else s.coreHold core (.fjWait core rs1 rs2)) := by
  rw [exec_fjWait, execFjWait, State.xfjm_issues hissues, State.coreWait]
  simp only [MsgState.tallies, hentry]
  refine closing_quiet ?_
  split
  · exact hissues.1
  · split
    · exact hissues.1
    · split <;> exact hissues.1

/-- FJ.WAIT without a tally in hand ends where the destination is dead or it asks for none, and waits else. -/
theorem exec_fjWait_none (hentry : (s.msgSt (addrKey (coreAddr core) 0)).entry (bits rs1.toNat 9 0) (bits rs2.toNat 3 0) = none) :
    exec (.fjWait core rs1 rs2) s = .next (
      if s.onDead (bits rs1.toNat 9 0) then s.coreRd core St.siteDead.toNat
      else if bits rs2.toNat 9 4 = 0 then s.coreRd core 0 else s.coreHold core (.fjWait core rs1 rs2)) := by
  rw [exec_fjWait, execFjWait, State.xfjm_issues hissues, State.coreWait]
  simp only [MsgState.tallies, hentry, Nat.le_zero, Bool.false_eq_true, if_false]
  refine closing_quiet ?_
  split
  · exact hissues.1
  · split <;> exact hissues.1

end Issues

end Sys2Proof.Machine

open Sys2Proof Sys2Proof.Machine

/-- Settles O18: each tally instruction changes message state as its shared operation does and returns in rd; the end of a limited wait only returns. -/
theorem coreTallyInstructions : Obligations.CoreTallyInstructions := by
  refine ⟨?grant, ?rtn, ?mbcfg, ?wait, ?timeout⟩
  case grant =>
    intro core rs1 rs2 s b k key hissues hk hroom
    have hkey : key = addrKey (coreAddr core) (s.core core).ctx := addrKey_core ..
    have hbox := congrArg Mailbox.out (s.box_grantReleased (s.corePart core) (coreAddr core) (s.core core).ctx (bits rs1.toNat 9 0) b k)
    rw [← hkey] at hbox
    refine ⟨_, exec_fjGrant_room hissues rs1 rs2 hk hroom, State.rd_coreRd .., hbox, ?_, rfl⟩
    rw [hkey]
    rfl
  case rtn =>
    intro core rs1 rs2 x s b k key hissues hentry hk
    exact ⟨_, exec_fjRtn_holds hissues rs1 rs2 hentry hk, State.rd_coreRd .., s.msgSt_retReleased (s.corePart core) _ _ _ _ _ x.ctx, rfl, rfl⟩
  case mbcfg =>
    intro core rs1 rs2 s b key hissues
    exact ⟨_, exec_fjMbcfg_issues hissues rs1 rs2, State.rd_coreRd .., s.box_configBox .., rfl⟩
  case wait =>
    intro core rs1 rs2 s hissues
    cases hentry : (s.msgSt (addrKey (coreAddr core) 0)).entry (bits rs1.toNat 9 0) (bits rs2.toNat 3 0) with
    | some x => exact exec_fjWait_held hissues rs1 rs2 hentry
    | none => exact exec_fjWait_none hissues rs1 rs2 hentry
  case timeout =>
    intro core a b s hquiet hwaiting
    rw [exec_fjWaitTimeout, execFjWaitTimeout]
    rcases hwaiting with h | h | h <;> simp only [h] <;> exact closing_coreRd hquiet rfl ..
end

section
/-!
PROOFS. What is presented at an ingress (03 R75, R82, R469).
-/

namespace Sys2Proof.Machine

/-! Fields of a word. -/

theorem testBit_bits (v hi lo k : Nat) : (bits v hi lo).testBit k = (decide (k < hi + 1 - lo) && v.testBit (lo + k)) := by
  simp [bits, Nat.testBit_mod_two_pow, Nat.testBit_shiftRight]

/-- A word in its parts above, in and below a field that has been replaced. -/
theorem setBits_eq {hi lo : Nat} (h : lo ≤ hi) (v x : Nat) :
    setBits v hi lo x = 2 ^ lo * (2 ^ (hi + 1 - lo) * (v >>> (hi + 1)) + x % 2 ^ (hi + 1 - lo)) + v % 2 ^ lo := by
  have hsplit : v = 2 ^ lo * (2 ^ (hi + 1 - lo) * (v >>> (hi + 1)) + bits v hi lo) + v % 2 ^ lo := by
    have hshift : v >>> (hi + 1) = (v >>> lo) / 2 ^ (hi + 1 - lo) := by
      rw [← Nat.shiftRight_eq_div_pow, ← Nat.shiftRight_add]
      congr 1
      omega
    rw [hshift, bits, Nat.div_add_mod, Nat.shiftRight_eq_div_pow, Nat.div_add_mod]
  have hold : bits v hi lo <<< lo = 2 ^ lo * bits v hi lo := by rw [Nat.shiftLeft_eq, Nat.mul_comm]
  have hnew : field hi lo x = 2 ^ lo * (x % 2 ^ (hi + 1 - lo)) := by rw [field, Nat.shiftLeft_eq, Nat.mul_comm]
  rw [setBits, hold, hnew]
  rw [Nat.mul_add] at hsplit ⊢
  omega

/-- A field that has been replaced reads as its new value, and every other bit stands. -/
theorem testBit_setBits {hi lo : Nat} (h : lo ≤ hi) (v x k : Nat) :
    (setBits v hi lo x).testBit k = if lo ≤ k ∧ k ≤ hi then x.testBit (k - lo) else v.testBit k := by
  have hlow : v % 2 ^ lo < 2 ^ lo := Nat.mod_lt _ (Nat.two_pow_pos _)
  have hmid : x % 2 ^ (hi + 1 - lo) < 2 ^ (hi + 1 - lo) := Nat.mod_lt _ (Nat.two_pow_pos _)
  rw [setBits_eq h, Nat.testBit_two_pow_mul_add _ hlow, Nat.testBit_two_pow_mul_add _ hmid]
  by_cases h1 : k < lo
  · rw [if_pos h1, if_neg (by omega), Nat.testBit_mod_two_pow]
    simp [h1]
  · rw [if_neg h1]
    by_cases h2 : k ≤ hi
    · rw [if_pos (by omega), if_pos (by omega), Nat.testBit_mod_two_pow]
      simp only [show k - lo < hi + 1 - lo by omega, decide_true, Bool.true_and]
    · rw [if_neg (by omega), if_neg (by omega), Nat.testBit_shiftRight]
      congr 1
      omega

theorem bits_setBits {hi lo : Nat} (h : lo ≤ hi) (v x : Nat) : bits (setBits v hi lo x) hi lo = x % 2 ^ (hi + 1 - lo) := by
  refine Nat.eq_of_testBit_eq fun k => ?_
  rw [testBit_bits, testBit_setBits h, Nat.testBit_mod_two_pow]
  by_cases hk : k < hi + 1 - lo
  · rw [if_pos (by omega), Nat.add_sub_cancel_left]
  · simp [hk]

/-- A field that has been replaced leaves those beside it. -/
theorem bits_setBits_ne {hi lo hi' lo' : Nat} (h : lo ≤ hi) (hbeside : hi' < lo ∨ hi < lo') (v x : Nat) :
    bits (setBits v hi lo x) hi' lo' = bits v hi' lo' := by
  refine Nat.eq_of_testBit_eq fun k => ?_
  rw [testBit_bits, testBit_bits, testBit_setBits h]
  by_cases hk : k < hi' + 1 - lo'
  · rw [if_neg (by omega)]
  · simp [hk]

section Header
variable (h part ctx : Nat) (urgent : Bool)

theorem bits_hubHeader_part : bits (hubHeader h part ctx urgent) 94 91 = part % 16 := by
  rw [hubHeader, bits_setBits_ne (by omega) (by omega), bits_setBits_ne (by omega) (by omega), bits_setBits_ne (by omega) (by omega),
    bits_setBits (by omega)]
  rfl

theorem bits_hubHeader_ctx : bits (hubHeader h part ctx urgent) 90 79 = ctx % 4096 := by
  rw [hubHeader, bits_setBits_ne (by omega) (by omega), bits_setBits_ne (by omega) (by omega), bits_setBits (by omega)]
  rfl

/-- The hub leaves what lies above its fields and below the reserved bits (03 R75). -/
theorem bits_hubHeader_sender {hi lo : Nat} (hbeside : hi < 64 ∨ 96 < lo) : bits (hubHeader h part ctx urgent) hi lo = bits h hi lo := by
  rw [hubHeader, bits_setBits_ne (by omega) (by omega), bits_setBits_ne (by omega) (by omega), bits_setBits_ne (by omega) (by omega),
    bits_setBits_ne (by omega) (by omega)]

end Header

/-! What an ingress does with a message and a grant. -/

/-- One thing more travels on the fabric. -/
def State.forwards (s : State) (f : Flight) : State := { s with flights := s.flights ++ [f] }

/-- A source that its ingress holds is not a bad one (03 R82 check 1). -/
theorem State.badAt_of_holds {s : State} {at_ : Ingress} {src : Nat} (h : s.holdsSource at_ src = true) : s.badAt at_ src = false := by
  cases at_ <;> simp [State.badAt, h]

section Judge
variable {s : State} {at_ : Ingress} {m : Msg} {n ctx : Nat} {urgent : Bool}
  (hsrc : bits m.header 117 108 < 0x200) (hholds : s.holdsSource at_ (bits m.header 117 108) = true)
  (hheld : s.heldUnit (unitOf (bits m.header 117 108)) = false) (howner : s.addrOwner (bits m.header 117 108) = some n)
  (hready : s.ready n = true)
include hsrc hholds hheld howner hready

/-- A message of a cell or core that passes the five checks of its ingress travels on (03 R82). -/
theorem State.judgeMsg_forwards (hlen : bits m.header 103 97 ≤ 64) (hzero : bits m.header 78 64 = 0)
    (hdest : s.addrOwner (bits m.header 127 118) = some n) (hdead : s.onDead (bits m.header 127 118) = false) :
    s.judgeMsg at_ m ctx urgent = s.forwards (.msg n (bits m.header 117 108) (bits m.header 127 118) (bits m.header 107 104)
      (clipMsg (hubHeader m.header n ctx urgent) m.payload)) := by
  have hep : decide (0x200 ≤ bits m.header 117 108) = false := by simpa using hsrc
  have hcheck : s.msgCheck m.header false = none := by simp [State.msgCheck, howner, hready, hdest, hzero, Nat.not_lt.2 hlen]
  simp [State.judgeMsg, State.badAt_of_holds hholds, hheld, hep, hcheck, howner, hdead, State.forwards]

/-- One whose LENGTH or reserved bits are not in order goes nowhere (03 R82 check 3). -/
theorem State.judgeMsg_malformed (hbad : 64 < bits m.header 103 97 ∨ bits m.header 78 64 ≠ 0) :
    s.judgeMsg at_ m ctx urgent = s.alarm 0x102 n (unitOf (bits m.header 117 108)) := by
  have hep : decide (0x200 ≤ bits m.header 117 108) = false := by simpa using hsrc
  have hcheck : s.msgCheck m.header false = some 0x102 := by simp [State.msgCheck, howner, hready, hbad]
  simp [State.judgeMsg, State.badAt_of_holds hholds, hheld, hep, hcheck, howner]

end Judge

/-- A grant to an address of its own partition travels on (03 R469). -/
theorem State.judgeGrant_forwards {s : State} {src dest p : Nat} (howner : s.addrOwner src = some p) (hheld : s.heldUnit (unitOf src) = false)
    (hdest : s.addrOwner dest = some p) (hdead : s.onDead dest = false) (ctx b n : Nat) (urgent : Bool) :
    s.judgeGrant src ctx dest b n urgent = s.forwards (.grant p src dest b n urgent ctx) := by
  simp [State.judgeGrant, howner, hheld, hdest, hdead, State.forwards]

/-- The message that an ingress judges: its payload is 64 bytes (03 R75). -/
def presentedMsg (h : BitVec 128) (pl : List Byte) : Msg := { header := h.toNat, payload := bslice pl 0 64 }

/-- What is presented whole is judged, and what waits at a cell is tried again. -/
theorem exec_messageIngress_judges (at_ : Ingress) (h : BitVec 128) (pl : List Byte) (s : State) : ∃ urgent,
    exec (.messageIngress (.message at_ h pl)) s
      = closing (s.judgeMsg at_ (presentedMsg h pl) (s.senderCtx (bits h.toNat 117 108)) urgent).wakeCells := ⟨_, rfl⟩

/-- Nothing follows where no cell waits. -/
theorem closing_wakeCells {s : State} (hquiet : s.quiet) (hwaits : s.noCellWaits) : closing s.wakeCells = .next s := by
  rw [State.wakeCells_none hwaits, closing_quiet hquiet]

/-- An alarm whose class in force is Note is counted (15 R413, R414). -/
theorem State.alarm_note {s : State} {src scope : Nat} (h : s.effClass src scope = .note) (unit : Option Held) :
    s.alarm src scope unit = s.countNote src scope := by simp [State.alarm, h]

end Sys2Proof.Machine

open Sys2Proof Sys2Proof.Machine

/-- Settles O15: the ingress forwards a message that its checks pass, notes one that is malformed, and forwards a grant. -/
theorem ingressForwardsOwnTraffic : Obligations.IngressForwardsOwnTraffic := by
  refine ⟨?forwards, ?malformed, ?grant⟩
  case forwards =>
    intro at_ h pl n s src dest hquiet hwaits hsrc hholds hheld howner hready hlen hzero hdest hdead
    obtain ⟨urgent, hexec⟩ := exec_messageIngress_judges at_ h pl s
    rw [State.judgeMsg_forwards (m := presentedMsg h pl) hsrc hholds hheld howner hready hlen hzero hdest hdead,
      closing_wakeCells (s := s.forwards _) hquiet hwaits] at hexec
    refine ⟨_, hexec, _, rfl, ?_, bits_hubHeader_ctx .., bits_hubHeader_sender _ _ _ _ (.inl (by omega)), ?_, rfl⟩
    · exact (bits_hubHeader_part ..).trans (Nat.mod_eq_of_lt n.isLt)
    · simp only [clipMsg, bits_hubHeader_sender _ _ _ _ (.inr (by omega : 96 < 97)), presentedMsg, Nat.min_eq_left hlen]
  case malformed =>
    intro at_ h pl n s src hquiet hwaits hsrc hholds hheld howner hready hbad hclass
    obtain ⟨urgent, hexec⟩ := exec_messageIngress_judges at_ h pl s
    rwa [State.judgeMsg_malformed (m := presentedMsg h pl) hsrc hholds hheld howner hready hbad, State.alarm_note hclass,
      closing_wakeCells (s := s.countNote _ _) hquiet hwaits] at hexec
  case grant =>
    intro at_ src dest b k urgent n s hquiet hholds howner hheld hdest hdead
    refine ⟨s.forwards (.grant n src dest b k urgent (s.senderCtx src)), ?_, rfl, rfl⟩
    rw [exec_messageIngress, execMessageIngress]
    simp only [State.badAt_of_holds hholds, Bool.not_false, if_true, State.judgeGrant_forwards howner hheld hdest hdead]
    exact closing_quiet hquiet
end

section
/-!
PROOFS. What arrives (03 R77, R78, R85): messages, grants and returns.
-/

namespace Sys2Proof.Machine

/-- Taking the k-th of what travels leaves the rest of it. -/
theorem State.takeFlight_state {s s1 : State} {k kind : Nat} {f : Flight} (h : s.takeFlight k kind = some (s1, f)) :
    s1 = { s with flights := s.flights.eraseIdx k } := by
  unfold State.takeFlight at h
  split at h
  · cases h
  · split at h
    · cases h; rfl
    · cases h

/-- At an address where neither cell nor core waits nothing is tried again. -/
theorem State.wake_none {s : State} {a : Nat} (hcell : a < 192 → (s.cell a).waiting = none)
    (hcore : 0x100 ≤ a → a < 0x180 → (s.core (a - 0x100)).waiting = none) : s.wake a = s := by
  unfold State.wake
  split
  · rename_i ha
    exact State.retryCell_none (hcell ha)
  · split
    · rename_i ha
      simp [State.retryCore, hcore ha.1 ha.2]
    · rfl

/-- What comes to such an address ends there, where nothing is left to judge. -/
theorem closing_wake {s t : State} {a : Nat} (hquiet : s.quiet) (hcell : a < 192 → (s.cell a).waiting = none)
    (hcore : 0x100 ≤ a → a < 0x180 → (s.core (a - 0x100)).waiting = none) (hdues : t.dues = s.dues) (hcells : t.cells = s.cells)
    (hcores : t.cores = s.cores) : closing (t.wake a) = .next t := by
  rw [State.wake_none (by rwa [State.cell_congr hcells]) (by rwa [State.core_congr hcores]), closing_quiet (hdues.trans hquiet)]

/-! Tallies (03 R78). -/

/-- The entry that a grant of tallies t adds to. -/
def Tally.plus (x t : Tally) : Tally :=
  { x with count := x.count + t.count, urgent := t.urgent, ctx := t.ctx, dead := x.dead || t.dead, void := x.void || t.void }

/-- Tallies that come to an entry are counted in it. -/
theorem MsgState.addTallies_entry {m : MsgState} {t x : Tally} (hentry : m.entry t.dest t.mailbox = some x) :
    ∃ m', m.addTallies t = some m' ∧ m'.entry t.dest t.mailbox = some (x.plus t) := by
  refine ⟨_, by rw [MsgState.addTallies, hentry]; rfl, ?_⟩
  have hfind : ∀ l : List Tally, l.find? (fun y => y.dest == t.dest && y.mailbox == t.mailbox) = some x →
      (l.map (fun y => if y.dest = t.dest ∧ y.mailbox = t.mailbox then y.plus t else y)).find?
        (fun y => y.dest == t.dest && y.mailbox == t.mailbox) = some (x.plus t) := by
    intro l hl
    induction l with
    | nil => cases hl
    | cons y l ih =>
      by_cases hy : y.dest = t.dest ∧ y.mailbox = t.mailbox
      · have hx : y = x := by simpa [List.find?, hy] using hl
        simp [Tally.plus, hy, ← hx]
      · have hne : (y.dest == t.dest && y.mailbox == t.mailbox) = false := by simpa using hy
        rw [List.find?_cons_of_neg (by simp [hne])] at hl
        rw [List.map_cons, if_neg hy, List.find?_cons_of_neg (by simp [hne])]
        exact ih hl
  exact hfind m.store hentry

/-- Tallies for which there is no entry take a free one. -/
theorem MsgState.addTallies_free {m : MsgState} {t : Tally} (hentry : m.entry t.dest t.mailbox = none) (hfree : m.store.length < 16) :
    ∃ m', m.addTallies t = some m' ∧ m'.entry t.dest t.mailbox = some t := by
  refine ⟨{ m with store := m.store ++ [t] }, by simp [MsgState.addTallies, hentry, hfree], ?_⟩
  have hnone : m.store.find? (fun y => y.dest == t.dest && y.mailbox == t.mailbox) = none := hentry
  simp [MsgState.entry, List.find?_append, hnone]

theorem MsgState.addTallies_full {m : MsgState} {t : Tally} (hentry : m.entry t.dest t.mailbox = none) (hfull : ¬ m.store.length < 16) :
    m.addTallies t = none := by simp [MsgState.addTallies, hentry, hfull]

/-- Where there is an entry or a free place, the tallies that come add to those held. -/
theorem MsgState.addTallies_room {m : MsgState} {t : Tally} (hroom : (m.entry t.dest t.mailbox).isSome ∨ m.store.length < 16) :
    ∃ m', m.addTallies t = some m' ∧ m'.tallies t.dest t.mailbox = m.tallies t.dest t.mailbox + t.count := by
  cases hentry : m.entry t.dest t.mailbox with
  | some x =>
    obtain ⟨m', hadd, hfound⟩ := MsgState.addTallies_entry hentry
    exact ⟨m', hadd, by simp [MsgState.tallies, hentry, hfound, Tally.plus]⟩
  | none =>
    have hfree : m.store.length < 16 := by simpa [hentry] using hroom
    obtain ⟨m', hadd, hfound⟩ := MsgState.addTallies_free hentry hfree
    exact ⟨m', hadd, by simp [MsgState.tallies, hentry, hfound]⟩

/-! Arrivals. -/

/-- A message that comes to mailbox b joins what it holds, and one tally is no longer out (03 R77). -/
def Mailbox.joins (x : Mailbox) (m : Msg) : Mailbox := { x with held := (x.held ++ [m]).take 32, out := x.out - 1 }

/-- A message for a context that is resident joins its mailbox (03 R77). -/
theorem State.arriveMsg_resident {s : State} {p src dest b : Nat} {m : Msg} (hdead : s.onDead dest = false)
    (hopen : s.closedTo p dest (bits m.header 90 79) = false) (hcell : dest < 192)
    (hres : (s.res (dest / 16) p).resident = some (bits m.header 90 79)) :
    s.arriveMsg p src dest b m = s.updMsg (addrKey dest (bits m.header 90 79)) (fun x => x.updBox b (fun x => x.joins m)) := by
  have hlow : ¬ 0x200 ≤ dest := by omega
  simp [State.arriveMsg, hdead, hopen, hlow, State.res_congr (State.updMsg_ress ..), hres, Mailbox.joins]

/-- The tallies that a grant brings: dead from a dead site, void from a context or a core that is gone (03 R84, R85; 06 R146). -/
def State.tallyOf (s : State) (p src b n : Nat) (urgent : Bool) (ctx : Nat) : Tally :=
  { dest := src, mailbox := b, urgent := urgent, count := n, dead := s.onDead src
    void := s.closedTo p src ctx || (decide (0x100 ≤ src) && decide (src < 0x180) && decide (((s.msgSt (addrKey src 0)).box b).out < n))
    ctx := ctx }

section Grant
variable {s : State} {p src dest b n ctx : Nat} {urgent : Bool}

/-- A grant for an address whose image needs no writing adds its tallies where the store has room (03 R78). -/
theorem State.arriveGrant_room (hlow : dest < 0x200) (hres : dest < 192 → (s.res (dest / 16) p).resident = some ctx)
    (hroom : ((s.msgSt (addrKey dest ctx)).entry src b).isSome ∨ (s.msgSt (addrKey dest ctx)).store.length < 16) :
    ∃ m, s.arriveGrant p src dest b n urgent ctx = s.updMsg (addrKey dest ctx) (fun _ => m)
      ∧ m.tallies src b = (s.msgSt (addrKey dest ctx)).tallies src b + n := by
  obtain ⟨m, hadd, htallies⟩ := MsgState.addTallies_room (t := s.tallyOf p src b n urgent ctx) hroom
  have himage : ¬ (dest < 192 ∧ (((s.updMsg (addrKey dest ctx) (fun _ => m)).res (dest / 16) p).resident != some ctx) = true) := by
    rintro ⟨hcell, hne⟩
    simp [State.res_congr (State.updMsg_ress ..), hres hcell] at hne
  have hjoins : s.arriveGrant p src dest b n urgent ctx
      = if dest < 192 ∧ (((s.updMsg (addrKey dest ctx) (fun _ => m)).res (dest / 16) p).resident != some ctx) = true
        then (s.updMsg (addrKey dest ctx) (fun _ => m)).imageTally p ctx dest else s.updMsg (addrKey dest ctx) (fun _ => m) := by
    simp only [State.arriveGrant, State.tallyOf] at hadd ⊢
    simp only [hadd, Nat.not_le.2 hlow, if_false]
    rfl
  exact ⟨m, by rw [hjoins, if_neg himage], htallies⟩

/-- A grant for a store that has no room goes back (03 R78). -/
theorem State.arriveGrant_full (hfull : ¬ (((s.msgSt (addrKey dest ctx)).entry src b).isSome ∨ (s.msgSt (addrKey dest ctx)).store.length < 16)) :
    s.arriveGrant p src dest b n urgent ctx = s.forwards (.ret p dest src b n ctx) := by
  rw [not_or, Option.not_isSome_iff_eq_none] at hfull
  have hadd := MsgState.addTallies_full (t := s.tallyOf p src b n urgent ctx) hfull.1 hfull.2
  simp only [State.arriveGrant, State.tallyOf] at hadd ⊢
  simp only [hadd]
  rfl

end Grant

/-- The state once the k-th of what travels has been taken. -/
def State.landed (s : State) (k : Nat) : State := { s with flights := s.flights.eraseIdx k }

theorem exec_messageArrival_resident {k cycles p src dest b : Nat} {m : Msg} {s s1 : State} (hquiet : s.quiet)
    (htake : s.takeFlight k 0 = some (s1, .msg p src dest b m)) (hplain : m.header.testBit 96 = false) (hcell : dest < 192)
    (hdead : s.onDead dest = false) (hopen : s.closedTo p dest (bits m.header 90 79) = false)
    (hres : (s.res (dest / 16) p).resident = some (bits m.header 90 79)) (hwaits : (s.cell dest).waiting = none) :
    exec (.messageArrival k cycles) s
      = .next ((s.landed k).updMsg (addrKey dest (bits m.header 90 79)) (fun x => x.updBox b (fun x => x.joins m))) := by
  have hs1 : s1 = s.landed k := State.takeFlight_state htake
  subst hs1
  have harrives := State.arriveMsg_resident (s := s.landed k) (src := src) (b := b) hdead hopen hcell hres
  rw [exec_messageArrival, execMessageArrival, htake]
  simp only [hplain, Bool.false_and, Bool.false_eq_true, if_false]
  rw [harrives]
  exact closing_wake hquiet (fun _ => hwaits) (fun h => absurd h (by omega)) rfl rfl rfl

theorem exec_grantArrival_takes {k p src dest b n ctx : Nat} {urgent : Bool} {s s1 : State}
    (htake : s.takeFlight k 1 = some (s1, .grant p src dest b n urgent ctx)) :
    exec (.grantArrival k) s = closing (((s.landed k).arriveGrant p src dest b n urgent ctx).wake dest) := by
  have hs1 : s1 = s.landed k := State.takeFlight_state htake
  subst hs1
  rw [exec_grantArrival, execGrantArrival, htake]

theorem exec_tallyReturnArrival_takes {k p src dest b n ctx : Nat} {s s1 : State} (hquiet : s.quiet)
    (htake : s.takeFlight k 2 = some (s1, .ret p src dest b n ctx)) (hlow : dest < 0x200) :
    exec (.tallyReturnArrival k) s = .next ((s.landed k).outFalls (addrKey dest ctx) b n) := by
  have hs1 : s1 = s.landed k := State.takeFlight_state htake
  subst hs1
  rw [exec_tallyReturnArrival, execTallyReturnArrival, htake]
  simp only [State.arriveRet, Nat.not_le.2 hlow, if_false]
  exact closing_quiet hquiet

end Sys2Proof.Machine

open Sys2Proof Sys2Proof.Machine

/-- Settles O16: a message joins its mailbox, a grant its store where there is room, and a return takes from OUT. -/
theorem arrivalsReachTheirMailbox : Obligations.ArrivalsReachTheirMailbox := by
  refine ⟨?message, ?grant, ?return_⟩
  case message =>
    intro k cycles p src dest b m s s1 c key hquiet htake hplain hcell hdead hopen hres hwaits hroom
    refine ⟨_, exec_messageArrival_resident hquiet htake hplain hcell hdead hopen hres hwaits, ?_, ?_, rfl, rfl⟩
    · rw [State.msgSt_updMsg, MsgState.box_updBox]
      exact List.take_of_length_le (by simp; exact hroom)
    · rw [State.msgSt_updMsg, MsgState.box_updBox]
      rfl
  case grant =>
    intro k p src dest b n ctx urgent s s1 key hquiet htake hlow hcell hcore
    by_cases hroom : ((s.msgSt key).entry src b).isSome ∨ (s.msgSt key).store.length < 16
    · obtain ⟨m, hjoins, htallies⟩ := State.arriveGrant_room (s := s.landed k) (n := n) (urgent := urgent) hlow (fun h => (hcell h).2) hroom
      refine ⟨(s.landed k).updMsg key (fun _ => m), ?_, rfl, ?_⟩
      · rw [exec_grantArrival_takes htake, hjoins]
        exact closing_wake hquiet (fun h => (hcell h).1) hcore rfl rfl rfl
      · rw [if_pos hroom, State.msgSt_updMsg]
        exact ⟨htallies, rfl⟩
    · refine ⟨(s.landed k).forwards (.ret p dest src b n ctx), ?_, rfl, ?_⟩
      · rw [exec_grantArrival_takes htake, State.arriveGrant_full (s := s.landed k) hroom]
        exact closing_wake hquiet (fun h => (hcell h).1) hcore rfl rfl rfl
      · rw [if_neg hroom]
        exact ⟨rfl, rfl⟩
  case return_ =>
    intro k p src dest b n ctx s s1 key hquiet htake hlow
    refine ⟨_, exec_tallyReturnArrival_takes hquiet htake hlow, ?_, ?_, rfl, rfl⟩
    · rw [State.outFalls, State.msgSt_updMsg, MsgState.box_updBox]
      rfl
    · rw [State.outFalls, State.msgSt_updMsg, MsgState.box_updBox]
      rfl
end

section
/-!
PROOFS. Mover instructions, MWAIT and FENCE (03 R70; 04 R103, R106).
-/

namespace Sys2Proof.Machine

/-- The accounts and counts of regulators may have changed, and nothing else (08 R202). -/
def State.Regulated (s t : State) : Prop := ∃ f r, t = { s with fab := f, regs := r }

theorem State.Regulated.refl (s : State) : s.Regulated s := ⟨_, _, rfl⟩
theorem State.Regulated.trans {s t u : State} : s.Regulated t → t.Regulated u → s.Regulated u := by
  rintro ⟨_, _, rfl⟩ ⟨_, _, rfl⟩; exact ⟨_, _, rfl⟩
theorem State.Regulated.cells {s t : State} : s.Regulated t → t.cells = s.cells := by rintro ⟨_, _, rfl⟩; rfl
theorem State.Regulated.mem {s t : State} : s.Regulated t → t.mem = s.mem := by rintro ⟨_, _, rfl⟩; rfl
theorem State.Regulated.dues {s t : State} : s.Regulated t → t.dues = s.dues := by rintro ⟨_, _, rfl⟩; rfl

theorem State.injHold_regulated (s : State) (h i n : Nat) : s.Regulated (s.injHold h i n) := s.injHold_shape h i n
theorem State.inject_regulated (s : State) (h i n bytes : Nat) : s.Regulated (s.inject h i n bytes).1 := by
  unfold State.inject
  split
  · exact ⟨_, s.regs, rfl⟩
  · exact s.injHold_regulated h i n

/-! A transfer issues its accesses in order. -/

/-- One access issues, or is held behind the site's regulator (03 R70; 08 R202). -/
def issueStep (n i base : Nat) (acc : State × List Access) (a : Nat × Nat × Nat) : State × List Access :=
  let r := if acc.2.any (fun x => x.held) then (acc.1.injHold (halfOfSite (i / 16)) (i / 16 % 6) n, false)
    else acc.1.inject (halfOfSite (i / 16)) (i / 16 % 6) n a.2.2
  (r.1, acc.2 ++ [{ off := a.1, ppa := base + a.1, spad := a.2.1, len := a.2.2, held := !r.2 }])

theorem State.issueAccesses_eq (s : State) (n i base : Nat) (l : List (Nat × Nat × Nat)) :
    s.issueAccesses n i base l = l.foldl (issueStep n i base) (s, []) := rfl

/-- The accesses x stand for the ranges l of a window at base, and none has returned. -/
structure Issued (base : Nat) (l : List (Nat × Nat × Nat)) (x : List Access) : Prop where
  ranges : x.map (fun a => (a.off, a.spad, a.len)) = l
  places : ∀ a ∈ x, a.ppa = base + a.off ∧ a.done = false

theorem issueStep_issued {n i base : Nat} {acc : State × List Access} {l : List (Nat × Nat × Nat)} (h : Issued base l acc.2) (a : Nat × Nat × Nat) :
    Issued base (l ++ [a]) (issueStep n i base acc a).2 where
  ranges := by simp [issueStep, h.ranges]
  places x hx := by
    rcases List.mem_append.1 hx with hx | hx
    · exact h.places x hx
    · cases List.mem_singleton.1 hx
      exact ⟨rfl, rfl⟩

theorem issueStep_regulated (n i base : Nat) (acc : State × List Access) (a : Nat × Nat × Nat) :
    acc.1.Regulated (issueStep n i base acc a).1 := by
  unfold issueStep
  dsimp only
  split
  · exact State.injHold_regulated ..
  · exact State.inject_regulated ..

theorem issueSteps_issued {n i base : Nat} (l : List (Nat × Nat × Nat)) {acc : State × List Access} {done : List (Nat × Nat × Nat)}
    (h : Issued base done acc.2) :
    acc.1.Regulated (l.foldl (issueStep n i base) acc).1 ∧ Issued base (done ++ l) (l.foldl (issueStep n i base) acc).2 := by
  induction l generalizing acc done with
  | nil => exact ⟨State.Regulated.refl _, by simpa using h⟩
  | cons a l ih =>
    obtain ⟨hreg, hissued⟩ := ih (issueStep_issued h a)
    exact ⟨(issueStep_regulated ..).trans hreg, by simpa using hissued⟩

/-- The accesses of a transfer: regulators alone change, and each stands for its range. -/
theorem State.issueAccesses_issued (s : State) (n i base : Nat) (l : List (Nat × Nat × Nat)) :
    s.Regulated (s.issueAccesses n i base l).1 ∧ Issued base l (s.issueAccesses n i base l).2 := by
  rw [State.issueAccesses_eq]
  exact issueSteps_issued l (acc := (s, [])) (done := []) ⟨rfl, fun a ha => absurd ha List.not_mem_nil⟩

/-! A mover instruction. -/

/-- The ranges of a mover instruction. -/
def MoveArgs.ranges (a : MoveArgs) : List (Nat × Nat × Nat) := moveAccesses a.off a.spad a.len a.rows a.step

/-- What a mover instruction issues on a cell. -/
def State.moveIssue (s : State) (i : Nat) (a : MoveArgs) : State × List Access := s.issueAccesses (s.cellPart i) i (s.window i a.win).1 a.ranges

/-- A cell's next transfer: it is that of a mover instruction and has these accesses. -/
def Cell.transfer (c : Cell) (a : MoveArgs) (l : List Access) : Transfer := { id := c.nextXfer, write := a.write, pc := c.pc, op := a.op, accesses := l }

/-- A cell with one more transfer in a queue. -/
def Cell.queues (c : Cell) (q : Nat) (t : Transfer) : Cell := { c.updQ q (fun l => l ++ [t]) with nextXfer := c.nextXfer + 1 }

theorem Cell.queues_spot (c : Cell) (q : Nat) (t : Transfer) : c.SameSpot (c.queues q t) := ⟨rfl, rfl, rfl⟩
theorem Cell.movers_queues (c : Cell) (q : Nat) (t : Transfer) : (c.queues q t).movers.get [] q = c.movers.get [] q ++ [t] := by
  show (c.movers.upd [] q (fun l => l ++ [t])).get [] q = _
  exact Tab.get_upd_same ..

/-- The state in which a mover instruction has queued its transfer. -/
def State.moveQueued (s : State) (i : Nat) (a : MoveArgs) : State :=
  (s.moveIssue i a).1.updCell i (fun c => c.queues a.q ((s.cell i).transfer a (s.moveIssue i a).2))

section Move
variable {s : State} {i : Nat} {a : MoveArgs}

theorem State.moveIssue_regulated : s.Regulated (s.moveIssue i a).1 := (s.issueAccesses_issued ..).1
theorem State.moveIssue_issued : Issued (s.window i a.win).1 a.ranges (s.moveIssue i a).2 := (s.issueAccesses_issued ..).2

theorem State.cell_moveQueued : (s.moveQueued i a).cell i = (s.cell i).queues a.q ((s.cell i).transfer a (s.moveIssue i a).2) := by
  rw [State.moveQueued, State.cell_updCell, State.cell_congr State.moveIssue_regulated.cells]

theorem State.moveQueued_spot : (s.cell i).SameSpot ((s.moveQueued i a).cell i) := by
  rw [State.cell_moveQueued]
  exact Cell.queues_spot ..

/-- A mover instruction whose fields and windows are in order queues its transfer where its queue has room (03 R70; 04 R106). -/
theorem State.move_queues (ins : Instr) (hfault : a.fault = none) (hroom : ((s.cell i).movers.get [] a.q).length < 8)
    (hwindow : ∀ x ∈ a.ranges, s.winCheck i a.win a.write x.1 x.2.2 = none) :
    s.move i ins a = (s.moveQueued i a).advance (s.cellPart i) i := by
  have hall : a.ranges.takeWhile (fun x => (s.winCheck i a.win a.write x.1 x.2.2).isNone) = a.ranges :=
    List.takeWhile_eq_self_iff.2 fun x hx => by simp [hwindow x hx]
  have hend : a.ranges[a.ranges.length]? = none := List.getElem?_eq_none (Nat.le_refl _)
  unfold State.move
  simp only [hfault, Nat.not_le.2 hroom, if_false]
  simp only [MoveArgs.ranges] at hall hend
  simp only [hall, hend]
  rfl

end Move

/-- The four mover instructions by their direction and by whether they have rows. -/
def moverInstr (cell : CellId) (f : MovF) (rd re : Fin 32) (w two : Bool) : Instr :=
  if two then (if w then .movw2 cell f rd re else .movr2 cell f rd re) else (if w then .movw cell f else .movr cell f)

/-- The fields that one of them reads. -/
def Cell.moverArgs (c : Cell) (f : MovF) (rd re : Fin 32) (w two : Bool) : MoveArgs :=
  moveArgs c w ((if w then 0x31 else 0x30) + (if two then 2 else 0)) f (if two then (c.reg rd).toNat else 1) (if two then (c.reg re).toNat else 0)

theorem exec_moverInstr (cell : CellId) (f : MovF) (rd re : Fin 32) (w two : Bool) (s : State) : exec (moverInstr cell f rd re w two) s =
    closing (s.doMove cell ((s.cell cell).moverArgs f rd re w two) (moverInstr cell f rd re w two)) := by
  cases two <;> cases w <;> rfl

theorem exec_moverInstr_queues {cell : CellId} {f : MovF} {rd re : Fin 32} {w two : Bool} {s : State}
    (hfree : s.runsFree cell (moveFoot ((s.cell cell).moverArgs f rd re w two) (s.cell cell)))
    (hfault : ((s.cell cell).moverArgs f rd re w two).fault = none) (hroom : ((s.cell cell).movers.get [] f.qid).length < 8)
    (hwindow : ∀ x ∈ ((s.cell cell).moverArgs f rd re w two).ranges, s.winCheck cell f.win w x.1 x.2.2 = none) :
    exec (moverInstr cell f rd re w two) s = .next ((s.moveQueued cell ((s.cell cell).moverArgs f rd re w two)).pastInstr cell) := by
  obtain ⟨⟨hquiet, hmay, hcode⟩, hconf⟩ := hfree
  rw [exec_moverInstr, State.doMove, State.issueTile_free hmay hconf, State.move_queues _ hfault hroom hwindow]
  exact closing_goesOn State.moveQueued_spot hquiet State.moveIssue_regulated.dues hcode _

/-! Waits on the mover. -/

section Runs
variable {cell : CellId} {s : State} (hruns : s.runs cell)
include hruns

theorem exec_mwait_runs (q : Fin 4) (k : Fin 64) (ra : Fin 32) : exec (.mwait cell q k ra) s = .next (
    if ((s.cell cell).movers.get [] q).length ≤ k + ((s.cell cell).reg ra).toNat then s.pastInstr cell
    else s.holdInstr cell (.mwait cell q k ra) 2) := by
  rw [exec_mwait, execMwait, State.doMwait, if_pos hruns.2.1]
  split
  · exact closing_messaged hruns (State.Messaged.refl s) _
  · exact closing_holds hruns.1 ..

/-- FENCE goes on where every earlier write of its context has returned (04 R103). -/
theorem exec_fence_done (hdone : ∀ x ∈ s.fenceSet cell, (s.cell x.1).writesDone x.2 = true) :
    exec (.fence cell) s = .next ((s.updCell cell (fun c => { c with fence := none })).pastInstr cell) := by
  have hspot : (s.cell cell).SameSpot ((s.updCell cell (fun c => { c with fence := none })).cell cell) := by
    rw [State.cell_updCell]
    exact ⟨rfl, rfl, rfl⟩
  rw [exec_fence, execFence, State.doFence, if_pos hruns.2.1]
  simp only [List.all_eq_true.2 hdone, if_true]
  exact closing_goesOn hspot hruns.1 rfl hruns.2.2 _

/-- It waits else, for the writes that it found. -/
theorem exec_fence_waits (hnot : ¬ ∀ x ∈ s.fenceSet cell, (s.cell x.1).writesDone x.2 = true) : exec (.fence cell) s
    = .next (s.updCell cell (fun c => { c with fence := some (s.fenceSet cell), waiting := some (.fence cell), state := 2 })) := by
  rw [exec_fence, execFence, State.doFence, if_pos hruns.2.1]
  simp only [mt List.all_eq_true.1 hnot, State.holdInstr, State.updCell_updCell]
  exact closing_quiet hruns.1

end Runs

end Sys2Proof.Machine

open Sys2Proof Sys2Proof.Machine

/-- Settles O13: the transfer that a mover instruction queues, and the two waits on the mover. -/
theorem moverQueuesTransfers : Obligations.MoverQueuesTransfers := by
  refine ⟨?mover, fun cell q k ra s hruns => exec_mwait_runs hruns q k ra, ?fence, ?fenceSet⟩
  case mover =>
    intro cell f rd re w two s c a ins hfree hfault hroom hwindow
    refine ⟨_, exec_moverInstr_queues hfree hfault hroom hwindow, ⟨(s.moveIssue cell a).2, ?_, ?_, ?_⟩, ?_, ?_, ?_, ?_⟩
    · rw [State.movers_pastInstr, State.cell_moveQueued]
      exact Cell.movers_queues ..
    · exact State.moveIssue_issued.ranges
    · exact State.moveIssue_issued.places
    · exact State.pc_pastInstr_of_spot State.moveQueued_spot
    · rw [State.nextXfer_pastInstr, State.cell_moveQueued]
      rfl
    · rw [State.scratch_pastInstr, State.cell_moveQueued]
      rfl
    · exact State.moveIssue_regulated.mem
  case fence =>
    intro cell s hruns
    split
    · rename_i hdone
      exact exec_fence_done hruns hdone
    · rename_i hnot
      exact exec_fence_waits hruns hnot
  case fenceSet =>
    intro cell s hruns hnone
    rw [State.fenceSet, hnone, Option.getD_none]
end

section
/-!
PROOFS. The cheap points of a cell: barriers, YLD and the end of a limited wait (03 R79; 04 R103, R107, R108; 05 R132).
-/

namespace Sys2Proof.Machine

/-! A barrier (04 R103). -/

/-- A cell that waits at a barrier. -/
def Cell.atBarrier (c : Cell) (mask bid : Nat) (ins : Instr) : Cell := { c with bar := some (mask, bid), waiting := some ins, state := 2 }

/-- A cell that a barrier releases, past its instruction. -/
def Cell.pastBarrier (c : Cell) : Cell :=
  { c with bar := none, waiting := none, state := 1, pc := (nextPc c.loops (c.pc + 1)).1, loops := (nextPc c.loops (c.pc + 1)).2 }

/-- One cell goes past its barrier. -/
def State.leaveBar (n j : Nat) (s : State) : State := (s.updCell j (fun x => { x with bar := none, waiting := none, state := 1 })).advance n j

/-- The cells of a cluster that wait at a barrier. -/
def State.barCells (s : State) (n c mask bid k : Nat) : List Nat := ((List.range 16).map (fun p => k * 16 + p)).filter (s.atBar n c mask bid)

theorem State.doBar_eq {s : State} {i mask bid : Nat} {ins : Instr} (hmay : s.mayIssue i = true) : s.doBar i mask bid ins =
    if (maskList 16 mask).all (fun p => (s.updCell i (fun c => c.atBarrier mask bid ins)).atBar (s.cellPart i) (s.cell i).ctx mask bid (i / 16 * 16 + p)) then
      forAll ((s.updCell i (fun c => c.atBarrier mask bid ins)).barCells (s.cellPart i) (s.cell i).ctx mask bid (i / 16))
        (State.leaveBar (s.cellPart i)) (s.updCell i (fun c => c.atBarrier mask bid ins))
    else s.updCell i (fun c => c.atBarrier mask bid ins) := by
  rw [State.doBar, if_pos hmay]
  simp only [State.holdInstr, State.updCell_updCell]
  rfl

theorem State.leaveBar_inCode {s : State} {n j : Nat} (hcode : s.pcAfter j < (s.cell j).codeLen) : s.leaveBar n j = s.updCell j Cell.pastBarrier := by
  have hspot : (s.cell j).SameSpot ((s.updCell j (fun x => { x with bar := none, waiting := none, state := 1 })).cell j) := by
    rw [State.cell_updCell]
    exact ⟨rfl, rfl, rfl⟩
  rw [State.leaveBar, State.advance_inCode hspot hcode, State.pastInstr, State.updCell_updCell]
  rfl

/-- Each cell of a list leaves its barrier, and no other cell moves. -/
theorem State.cell_leaveBars {n : Nat} {l : List Nat} (hnodup : l.Nodup) {s : State} (hcode : ∀ j ∈ l, s.pcAfter j < (s.cell j).codeLen) :
    (forAll l (State.leaveBar n) s).dues = s.dues
      ∧ ∀ j, (forAll l (State.leaveBar n) s).cell j = if j ∈ l then (s.cell j).pastBarrier else s.cell j := by
  induction l generalizing s with
  | nil => exact ⟨rfl, fun j => by simp [forAll_nil]⟩
  | cons i l ih =>
    obtain ⟨hi, hnodup⟩ := List.nodup_cons.1 hnodup
    have hstep : forAll (i :: l) (State.leaveBar n) s = forAll l (State.leaveBar n) (s.updCell i Cell.pastBarrier) := by
      rw [← State.leaveBar_inCode (hcode i List.mem_cons_self)]
      rfl
    have hrest : ∀ j ∈ l, (s.updCell i Cell.pastBarrier).pcAfter j < ((s.updCell i Cell.pastBarrier).cell j).codeLen := by
      intro j hj
      have hne : j ≠ i := fun h => hi (h ▸ hj)
      rw [State.pcAfter, State.cell_updCell_ne _ _ _ hne]
      exact hcode j (List.mem_cons_of_mem _ hj)
    obtain ⟨hdues, hcells⟩ := ih hnodup hrest
    refine ⟨by rw [hstep, hdues]; rfl, fun j => ?_⟩
    rw [hstep, hcells]
    by_cases hj : j = i
    · subst hj
      simp [hi]
    · simp [hj, State.cell_updCell_ne]

theorem State.barCells_nodup (s : State) (n c mask bid k : Nat) : (s.barCells n c mask bid k).Nodup :=
  (List.nodup_range.map fun _ _ h => Nat.add_left_cancel h).filter _

theorem State.mem_barCells {s : State} {n c mask bid k j : Nat} :
    j ∈ s.barCells n c mask bid k ↔ (∃ p, p < 16 ∧ k * 16 + p = j) ∧ s.atBar n c mask bid j = true := by
  simp [State.barCells]

theorem State.ownerCell_updCell (s : State) (i : Nat) (f : Cell → Cell) (j : Nat) : (s.updCell i f).ownerCell j = s.ownerCell j := rfl

section Bar
variable {s : State} {i mask bid : Nat} {ins : Instr}

/-- The cell that reaches its barrier waits there as one of the context's cells. -/
theorem State.atBar_self (hmay : s.mayIssue i = true) :
    (s.updCell i (fun c => c.atBarrier mask bid ins)).atBar (s.cellPart i) (s.cell i).ctx mask bid i = true := by
  have howner : (s.ownerCell i).isSome = true := by
    simp only [State.mayIssue, Bool.and_eq_true] at hmay
    exact hmay.2
  obtain ⟨n, hn⟩ := Option.isSome_iff_exists.1 howner
  simp [State.atBar, State.ownerCell_updCell, hn, State.cellPart]
  exact ⟨rfl, rfl⟩

/-- Another cell waits at a barrier as it did. -/
theorem State.atBar_ne {n c j : Nat} {f : Cell → Cell} (hne : j ≠ i) : (s.updCell i f).atBar n c mask bid j = s.atBar n c mask bid j := by
  simp only [State.atBar, State.ownerCell_updCell, State.cell_updCell_ne _ _ _ hne]

/-- A cell waits at its barrier while one of its mask is elsewhere. -/
theorem State.doBar_waits (hmay : s.mayIssue i = true) {p : Nat} (hp : p < 16) (hbit : mask.testBit p = true) (hne : i / 16 * 16 + p ≠ i)
    (haway : s.atBar (s.cellPart i) (s.cell i).ctx mask bid (i / 16 * 16 + p) = false) :
    s.doBar i mask bid ins = s.updCell i (fun c => c.atBarrier mask bid ins) := by
  have hnot : ((maskList 16 mask).all fun p =>
      (s.updCell i (fun c => c.atBarrier mask bid ins)).atBar (s.cellPart i) (s.cell i).ctx mask bid (i / 16 * 16 + p)) = false :=
    List.all_eq_false.2 ⟨p, mem_maskList.2 ⟨hp, hbit⟩, by simp [State.atBar_ne hne, haway]⟩
  rw [State.doBar_eq hmay, hnot]
  rfl

/-- The last cell of its mask releases them all. -/
theorem State.doBar_releases (hmay : s.mayIssue i = true)
    (hthere : ∀ p, p < 16 → mask.testBit p = true → i / 16 * 16 + p ≠ i → s.atBar (s.cellPart i) (s.cell i).ctx mask bid (i / 16 * 16 + p) = true)
    (hcode : ∀ p, p < 16 → s.pcAfter (i / 16 * 16 + p) < (s.cell (i / 16 * 16 + p)).codeLen) :
    (s.doBar i mask bid ins).dues = s.dues
      ∧ ∀ p, p < 16 → mask.testBit p = true ∨ i / 16 * 16 + p = i →
        (s.doBar i mask bid ins).cell (i / 16 * 16 + p) = (s.cell (i / 16 * 16 + p)).pastBarrier := by
  have hwaits : ∀ p, p < 16 → mask.testBit p = true ∨ i / 16 * 16 + p = i →
      (s.updCell i (fun c => c.atBarrier mask bid ins)).atBar (s.cellPart i) (s.cell i).ctx mask bid (i / 16 * 16 + p) = true := by
    intro p hp hbit
    by_cases hself : i / 16 * 16 + p = i
    · rw [hself]
      exact State.atBar_self hmay
    · rw [State.atBar_ne hself]
      exact hthere p hp (hbit.resolve_right hself) hself
  have hcell : ∀ j, Cell.pastBarrier ((s.updCell i (fun c => c.atBarrier mask bid ins)).cell j) = (s.cell j).pastBarrier := by
    intro j
    by_cases hj : j = i
    · subst hj
      rw [State.cell_updCell]
      rfl
    · rw [State.cell_updCell_ne _ _ _ hj]
  have hspot : ∀ j, (s.cell j).SameSpot ((s.updCell i (fun c => c.atBarrier mask bid ins)).cell j) := by
    intro j
    by_cases hj : j = i
    · subst hj
      rw [State.cell_updCell]
      exact ⟨rfl, rfl, rfl⟩
    · rw [State.cell_updCell_ne _ _ _ hj]
      exact Cell.SameSpot.refl _
  have hall : ((maskList 16 mask).all fun p =>
      (s.updCell i (fun c => c.atBarrier mask bid ins)).atBar (s.cellPart i) (s.cell i).ctx mask bid (i / 16 * 16 + p)) = true :=
    List.all_eq_true.2 fun p hp => hwaits p (mem_maskList.1 hp).1 (.inl (mem_maskList.1 hp).2)
  rw [State.doBar_eq hmay, if_pos hall]
  obtain ⟨hdues, hcells⟩ := State.cell_leaveBars (n := s.cellPart i) (s := s.updCell i (fun c => c.atBarrier mask bid ins))
    (State.barCells_nodup _ (s.cellPart i) (s.cell i).ctx mask bid (i / 16)) (by
      intro j hj
      obtain ⟨⟨p, hp, rfl⟩, -⟩ := State.mem_barCells.1 hj
      rw [State.pcAfter_of_spot (hspot _), (hspot _).codeLen]
      exact hcode p hp)
  refine ⟨hdues, fun p hp hbit => ?_⟩
  rw [hcells, if_pos (State.mem_barCells.2 ⟨⟨p, hp, rfl⟩, hwaits p hp hbit⟩), hcell]

end Bar

/-! YLD (04 R108; 05 R132). -/

theorem State.Stored.cells {s t : State} : s.Stored t → t.cells = s.cells := by rintro ⟨_, _, _, _, _, _, _, _, _, _, _, rfl⟩; rfl
theorem State.Stored.ctxs {s t : State} : s.Stored t → t.ctxs = s.ctxs := by rintro ⟨_, _, _, _, _, _, _, _, _, _, _, rfl⟩; rfl
theorem State.Stored.egress {s t : State} : s.Stored t → t.egress = s.egress := by rintro ⟨_, _, _, _, _, _, _, _, _, _, _, rfl⟩; rfl
theorem State.Stored.images {s t : State} (h : s.Stored t) (n : Nat) : (t.code n).images = (s.code n).images := by
  rw [State.code, h.codes]
  rfl

/-- A word of a status page is stored and changes nothing that is not memory. -/
theorem State.putWord_stored {s : State} {n : Nat} (h : (s.code n).images = []) (c off w : Nat) : s.Stored (s.putWord n c off w) := by
  unfold State.putWord
  dsimp only
  split
  · exact State.hubWrite_stored h ..
  · exact State.Stored.refl s

/-- Two in a row: the second meets the same images as the first. -/
theorem State.Stored.putWord {s t : State} {n : Nat} (hst : s.Stored t) (h : (s.code n).images = []) (c off w : Nat) : s.Stored (t.putWord n c off w) :=
  hst.trans (State.putWord_stored ((hst.images n).trans h) c off w)

theorem State.putGuard_stored {s : State} {n : Nat} (h : (s.code n).images = []) (c : Nat) : s.Stored (s.putGuard n c) :=
  ((((State.Stored.refl s).putWord h ..).putWord h ..).putWord h ..).putWord h ..

theorem State.putStatus_stored {s : State} {n : Nat} (h : (s.code n).images = []) (c : Nat) : s.Stored (s.putStatus n c) :=
  (((((State.Stored.refl s).putWord h ..).putWord h ..).putWord h ..).putWord h ..).putWord h ..

section Yld
variable {s : State} {i : Nat} (hmay : s.mayIssue i = true) (hnot : (s.guardOf i).pending = false)
include hmay hnot

/-- A cell that nobody asks goes on. -/
theorem State.doYld_unasked (hasked : (s.cell i).asked = false) (lrt : Nat) : s.doYld i lrt = s.advance (s.cellPart i) i := by
  simp [State.doYld, hmay, hnot, hasked]

/-- A cell that is asked saves at its YLD. -/
theorem State.doYld_asked (hasked : (s.cell i).asked = true) (hcode : s.pcAfter i < (s.cell i).codeLen) (lrt : Nat) :
    s.doYld i lrt = (s.putGuard (s.cellPart i) (s.cell i).ctx).updCell i (fun c =>
      { c with pc := s.pcAfter i, loops := (nextPc (s.cell i).loops ((s.cell i).pc + 1)).2, state := 3, yld := some lrt }) := by
  have hin : ¬ (s.cell i).codeLen ≤ (nextPc (s.cell i).loops ((s.cell i).pc + 1)).1 := Nat.not_le.2 hcode
  simp only [State.doYld, hmay, hnot, hasked, hin]
  simp only [if_true, if_false, Bool.true_or, Bool.false_and, Bool.false_eq_true]
  rfl

end Yld

/-! The end of a limited wait (03 R79; 04 R107). -/

/-- A cell whose wait has ended, before it halts. -/
def Cell.endWait (c : Cell) : Cell := { c with waiting := none, bar := none, state := 1 }
def State.endWait (s : State) (i : Nat) : State := s.updCell i Cell.endWait

theorem State.ctxs_updCell (s : State) (i : Nat) (f : Cell → Cell) : (s.updCell i f).ctxs = s.ctxs := rfl

theorem exec_tallyWaitTimeout_ends {cell : CellId} {s : State} {n dest b : Nat} (howner : s.ownerCell cell = some n)
    (htarget : waitTarget cell (s.cell cell) (s.cell cell).waiting = some (dest, b)) (hstate : (s.cell cell).state = 2) :
    exec (.tallyWaitTimeout cell) s = closing ((s.endWait cell).sendFails n cell dest b St.timeout) := by
  have hpart : s.cellPart cell = n := by rw [State.cellPart, howner, Option.getD_some]
  rw [exec_tallyWaitTimeout, execTallyWaitTimeout]
  simp only [htarget, hstate, howner, Option.isSome_some, Bool.and_true, beq_self_eq_true, onlyIf_true]
  rw [hpart]
  rfl

/-- A cell whose transfers are in flight halts when they have ended. -/
theorem State.haltCell_busy {s : State} {i : Nat} (hbusy : (s.cell i).moversIdle = false) (n : Nat) (status : StatusCode) :
    s.haltCell n i status = s.updCell i (fun c => { c with state := 5, halt := some status, waiting := none, bar := none }) := by
  simp [State.haltCell, hbusy]

/-- Two changes of a context that do the same to it are one. -/
theorem State.updCtx_of_eq {s : State} {n c : Nat} {f g : Ctx → Ctx} (h : f (s.ctx n c) = g (s.ctx n c)) : s.updCtx n c f = s.updCtx n c g := by
  simp only [State.updCtx, Tab.upd]
  rw [show f (s.ctxs.get {} (n * 4096 + c)) = g (s.ctxs.get {} (n * 4096 + c)) from h]

/-- A context with its first message failure. -/
def Ctx.firstFail (x : Ctx) (dest box : Nat) (status : StatusCode) : Ctx :=
  { x with msgCount := satAdd 16 x.msgCount 1, msgDest := dest, msgBox := box, msgStatus := status }

/-- A context with one more message failure: the first stands (03 R81). -/
def Ctx.failed (x : Ctx) (dest box : Nat) (status : StatusCode) : Ctx :=
  if x.msgStatus = St.ok then x.firstFail dest box status else { x with msgCount := satAdd 16 x.msgCount 1 }

theorem State.msgFail_eq (s : State) (n c dest box : Nat) (status : StatusCode) :
    s.msgFail n c dest box status = (s.updCtx n c (fun x => x.failed dest box status)).putStatus n c := rfl

/-- The first message failure of a context goes to its message word, and its status page is stored. -/
theorem State.msgFail_first {s : State} {n c : Nat} (himages : (s.code n).images = []) (hfirst : (s.ctx n c).msgStatus = St.ok) (dest box : Nat)
    (status : StatusCode) : (s.updCtx n c (fun x => x.firstFail dest box status)).Stored (s.msgFail n c dest box status) := by
  have hfail : (s.ctx n c).failed dest box status = (s.ctx n c).firstFail dest box status := if_pos hfirst
  rw [State.msgFail_eq, State.updCtx_of_eq (g := fun x => x.firstFail dest box status) (f := fun x => x.failed dest box status) hfail]
  exact State.putStatus_stored (s := s.updCtx n c (fun x => x.firstFail dest box status)) himages c

/-- A cell that halts when its transfers have ended. -/
def Cell.willHalt (c : Cell) (status : StatusCode) : Cell := { c with state := 5, halt := some status, waiting := none, bar := none }

/-- The state in which a context has counted its first message failure. -/
def State.countsFirstFail (s : State) (n c dest box : Nat) (status : StatusCode) : State := s.updCtx n c (fun x => x.firstFail dest box status)

/-- A wait that fails on a cell with transfers in flight: the message word of its context, its status page in memory, and its cell that
will halt are all that changes. -/
theorem State.sendFails_busy {s : State} {n i dest b : Nat} (himages : (s.code n).images = []) (hbusy : (s.cell i).moversIdle = false)
    (hfirst : (s.ctx n (s.cell i).ctx).msgStatus = St.ok) (status : StatusCode) :
    ∃ t, (s.countsFirstFail n (s.cell i).ctx dest b status).Stored t ∧ s.sendFails n i dest b status = t.updCell i (fun c => c.willHalt status) := by
  have hstored := State.msgFail_first himages hfirst dest b status
  have hcells := State.cell_congr hstored.cells i
  exact ⟨_, hstored, State.haltCell_busy (by rw [hcells]; exact hbusy) ..⟩

end Sys2Proof.Machine
end

section
/-!
PROOFS. A home read with NOALLOC leaves memory: its transaction forwards or copies what an agent owns and displaces no line (09 R221, R224, R226).
-/

namespace Sys2Proof.Machine

/-- A home read that allocates nothing: it keeps no copy at a proxy and answers no master of its own command. -/
structure Txn.PlainRead (t : Txn) : Prop where
  kind : t.kind = .read
  hint : t.hint = .noAlloc
  keep : t.keep = false
  forLine : t.forLine = none
  waitsEntry : t.waitsEntry = false
  origin : t.origin = none

/-- Every transaction open on a line is such a read. -/
def State.ReadsPlainly (s : State) (l : Nat) : Prop := ∀ h, h < 2 → ∀ t, (s.dirEnt h l).txn = some t → t.PlainRead

/-- While the line's transactions are plain reads, they stay so and memory stands. -/
structure State.KeepsMem (l : Nat) (s t : State) : Prop where
  keeps : s.ReadsPlainly l → t.ReadsPlainly l ∧ t.mem = s.mem

section Keeps
variable {l : Nat} {s t u : State}

theorem State.KeepsMem.refl (s : State) : s.KeepsMem l s := ⟨fun h => ⟨h, rfl⟩⟩
theorem State.KeepsMem.trans (h : s.KeepsMem l t) (h' : t.KeepsMem l u) : s.KeepsMem l u := by
  refine ⟨fun hs => ?_⟩
  obtain ⟨ht, hst⟩ := h.keeps hs
  obtain ⟨hu, htu⟩ := h'.keeps ht
  exact ⟨hu, htu.trans hst⟩

/-- What leaves memory and the directory keeps memory. -/
theorem State.KeepsMem.of_dir (hmem : t.mem = s.mem) (hdir : t.coh.dir = s.coh.dir) : s.KeepsMem l t where
  keeps hs := ⟨fun h hh x hx => hs h hh x (by rw [← hx, State.dirEnt, State.dirEnt, hdir]), hmem⟩

theorem State.KeepsMem.ite {c : Prop} [Decidable c] (ht : s.KeepsMem l t) (hu : s.KeepsMem l u) : s.KeepsMem l (if c then t else u) := by
  split <;> assumption

theorem State.Metered.keepsMem (h : s.Metered t) : s.KeepsMem l t := by
  obtain ⟨_, _, _, _, _, _, rfl⟩ := h
  exact State.KeepsMem.of_dir rfl rfl

end Keeps

/-! The directory (09 R231). -/

theorem slcKey_ne {h k : Nat} (l : Nat) (hne : k ≠ h) : slcKey k l ≠ slcKey h l := by
  unfold slcKey
  omega

theorem State.txn_setDir (s : State) (h l : Nat) (e : DirEnt) : ((s.setDir h l e).dirEnt h l).txn = e.txn := by
  have hent : (s.setDir h l e).dirEnt h l = if e.st == .i && e.txn.isNone then {} else e := Tab.get_set_same ..
  rw [hent]
  split
  · rename_i hempty
    rw [Bool.and_eq_true, Option.isNone_iff_eq_none] at hempty
    exact hempty.2.symm
  · rfl

theorem State.dirEnt_setDir_ne (s : State) {h k : Nat} (l : Nat) (e : DirEnt) (hne : k ≠ h) : (s.setDir h l e).dirEnt k l = s.dirEnt k l :=
  Tab.get_set_ne _ _ _ (slcKey_ne l hne)

section Line
variable {l h : Nat}

/-- An entry whose transaction is a plain read, or that has none, is stored. -/
theorem State.setDir_keepsMem (s : State) {e : DirEnt} (he : ∀ t, e.txn = some t → t.PlainRead) : s.KeepsMem l (s.setDir h l e) := by
  refine ⟨fun hs => ⟨fun k hk t ht => ?_, rfl⟩⟩
  by_cases hkh : k = h
  · subst hkh
    rw [State.txn_setDir] at ht
    exact he t ht
  · rw [State.dirEnt_setDir_ne _ _ _ hkh] at ht
    exact hs k hk t ht

/-- An entry that keeps its transaction is stored. -/
theorem State.setDir_sameTxn (s : State) (hh : h < 2) {e : DirEnt} (he : e.txn = (s.dirEnt h l).txn) : s.KeepsMem l (s.setDir h l e) where
  keeps hs := (State.setDir_keepsMem s (fun t ht => hs h hh t (by rw [← he, ht]))).keeps hs

/-! What a plain read does when its snoops are answered. -/

theorem State.lineData_keepsMem (s : State) (h n : Nat) : s.KeepsMem l (s.lineData h l n .noAlloc).1 := by
  have hmiss : s.KeepsMem l (s.countLook h n false) := .of_dir rfl rfl
  have hreport : ∀ a : State, a.KeepsMem l (if (a.hbmPeek l).fails then a.reportFail l else a) := fun a =>
    .ite (a.reportFail_metered l).keepsMem (.refl a)
  have hcharge : ∀ a : State, a.KeepsMem l (if a.lineOffline l || a.lineCleared l then a else a.charge l) := fun a =>
    .ite (.refl a) (a.charge_metered l).keepsMem
  unfold State.lineData
  split
  · have htouch : s.touchSlc h l n .noAlloc = s := by
      unfold State.touchSlc
      split <;> rfl
    rw [htouch]
    exact .of_dir rfl rfl
  · by_cases hhome : homeOf l = h
    · simp only [hhome, if_true]
      exact hmiss.trans ((hreport _).trans (hcharge _))
    · simp only [hhome, if_false]
      exact hmiss

theorem State.txnLine_keepsMem (s : State) (h n : Nat) {t : Txn} (ht : t.PlainRead) : s.KeepsMem l (s.txnLine h l n t).1 := by
  unfold State.txnLine
  split
  · exact .refl s
  · rw [ht.hint]
    exact s.lineData_keepsMem h n

theorem State.closeTxn_keepsMem (s : State) : s.KeepsMem l (s.closeTxn h l) :=
  (State.setDir_keepsMem (h := h) s (fun t ht => absurd ht (by simp))).trans (.of_dir rfl rfl)

theorem State.finishRead_keepsMem (s : State) (hh : h < 2) (n : Nat) {t : Txn} (ht : t.PlainRead) : s.KeepsMem l (s.finishRead h l n t) := by
  refine (s.txnLine_keepsMem h n ht).trans ?_
  have hkeep : ∀ (a : State) r, a.keepAtProxy h l n t r = a := fun a r => by simp [State.keepAtProxy, ht.keep]
  have hanswer : ∀ (a : State) r, a.answer t l r = a := fun a r => by simp [State.answer, ht.origin]
  simp only [State.finishRead, hkeep, hanswer, ht.keep, Bool.false_and]
  exact (State.setDir_sameTxn _ hh rfl).trans (State.closeTxn_keepsMem _)

theorem State.finishTxn_keepsMem (s : State) (hh : h < 2) : s.KeepsMem l (s.finishTxn h l) := by
  refine ⟨fun hs => ?_⟩
  rcases ht : (s.dirEnt h l).txn with _ | t
  · rw [show s.finishTxn h l = s by simp [State.finishTxn, ht]]
    exact ⟨hs, rfl⟩
  · have hplain := hs h hh t ht
    rw [show s.finishTxn h l = s.finishRead h l ((s.ownerPch (pchOfLine l)).getD 16) t by simp [State.finishTxn, ht, hplain.kind]]
    exact (s.finishRead_keepsMem hh _ hplain).keeps hs

theorem State.advanceTxn_keepsMem (s : State) (hh : h < 2) : s.KeepsMem l (s.advanceTxn h l) := by
  refine ⟨fun hs => ?_⟩
  unfold State.advanceTxn
  split
  · rename_i t ht
    simp only [(hs h hh t ht).forLine]
    exact (State.KeepsMem.ite (s.finishTxn_keepsMem hh) (.refl s)).keeps hs
  · exact ⟨hs, rfl⟩

/-! Snoops (09 R224, R228). -/

theorem State.setCopy_keepsMem (s : State) (k a : Nat) (c : Copy) : s.KeepsMem l (s.setCopy k a l c) := .of_dir rfl rfl
theorem State.setWb_keepsMem (s : State) (k a : Nat) (w : Option WbEnt) : s.KeepsMem l (s.setWb k a l w) := .of_dir rfl rfl
theorem State.setSlc_keepsMem (s : State) (k : Nat) (c : Option SlcLine) : s.KeepsMem l (s.setSlc k l c) := .of_dir rfl rfl
theorem State.copies_keepsMem (s : State) (c : Tab Copy) : s.KeepsMem l { s with coh := { s.coh with copies := c } } := .of_dir rfl rfl

theorem State.clearHalf_keepsMem (s : State) (hh : h < 2) : s.KeepsMem l (s.clearHalf h l) := by
  refine State.KeepsMem.trans ?_ (State.setDir_sameTxn _ hh rfl)
  exact forAll_rel State.KeepsMem.refl State.KeepsMem.trans _ (fun _ _ => (State.setCopy_keepsMem ..).trans (State.setWb_keepsMem ..)) _ s

theorem State.snoopAgent_keepsMem (s : State) (k : Snoop) (h a : Nat) : s.KeepsMem l (s.snoopAgent k h a l).1 := by
  unfold State.snoopAgent
  split
  · split
    · exact .refl s
    · exact .of_dir rfl rfl
  · exact .of_dir rfl rfl

/-- Every agent of a half that holds a line shares it. -/
def State.copiesShare (s : State) (h l : Nat) : State :=
  forAll (List.range 14) (fun a s => s.setCopy h a l { s.copyOf h a l with st := if (s.copyOf h a l).st == .i then .i else .s }) s

/-- The half's directory has no owner of the line. -/
def State.entryShares (s : State) (h l : Nat) : State :=
  if (s.dirEnt h l).st == .x || (s.dirEnt h l).st == .o then
    s.setDir h l { s.dirEnt h l with st := .s, sharers := setBit (s.dirEnt h l).sharers (s.dirEnt h l).owner, owner := 15 }
  else s

theorem State.copiesShare_keepsMem (s : State) : s.KeepsMem l (s.copiesShare h l) :=
  forAll_rel State.KeepsMem.refl State.KeepsMem.trans _ (fun _ _ => State.setCopy_keepsMem ..) _ s

theorem State.entryShares_keepsMem (s : State) (hh : h < 2) : s.KeepsMem l (s.entryShares h l) :=
  .ite (State.setDir_sameTxn s hh rfl) (.refl s)

theorem State.snoopProxy_keepsMem (s : State) (k : Snoop) : s.KeepsMem l (s.snoopProxy k l).1 := by
  have hp : 1 - homeOf l < 2 := by omega
  have hshare : s.KeepsMem l ((s.copiesShare (1 - homeOf l) l).entryShares (1 - homeOf l) l) :=
    s.copiesShare_keepsMem.trans (State.entryShares_keepsMem _ hp)
  unfold State.snoopProxy
  dsimp only
  split
  · exact .refl s
  · refine State.KeepsMem.trans ?_ (State.copies_keepsMem ..)
    split
    · exact hshare.trans (State.setSlc_keepsMem ..)
    · exact hshare
  · exact ((s.clearHalf_keepsMem hp).trans (State.setSlc_keepsMem ..)).trans (State.copies_keepsMem ..)

theorem State.snoopOther_keepsMem (s : State) (k : Snoop) : s.KeepsMem l (s.snoopOther k l).1 := by
  unfold State.snoopOther
  split
  · exact s.snoopProxy_keepsMem k
  · exact (s.snoopAgent_keepsMem ..).trans (State.snoopProxy_keepsMem ..)

/-- A snoop that is answered leaves a plain read one. -/
theorem Txn.PlainRead.snoopSent {t : Txn} (ht : t.PlainRead) (k : Snoop) (a : Nat) : (snoopSent k t a).PlainRead := by
  obtain ⟨hkind, hhint, hkeep, hline, hentry, horigin⟩ := ht
  cases k <;> exact ⟨hkind, hhint, hkeep, hline, hentry, horigin⟩

/-- So does the data that an owner forwards. -/
theorem Txn.PlainRead.gets {t : Txn} (ht : t.PlainRead) (d : Option (List Byte)) (dross dirty kept : Bool) :
    ({ t with data := d, dross := dross, dirty := dirty, ownerKept := kept } : Txn).PlainRead :=
  ⟨ht.kind, ht.hint, ht.keep, ht.forLine, ht.waitsEntry, ht.origin⟩

theorem State.snoop_keepsMem (s : State) (hh : h < 2) (k : Snoop) (a : Nat) : s.KeepsMem l (s.snoop k h a l) := by
  refine ⟨fun hs => ?_⟩
  unfold State.snoop
  split
  · exact ⟨hs, rfl⟩
  · rename_i t ht
    have hplain := (hs h hh t ht).snoopSent k a
    have hans : s.KeepsMem l (if a = 14 then s.snoopOther k l else s.snoopAgent k h a l).1 := by
      split
      · exact s.snoopOther_keepsMem k
      · exact s.snoopAgent_keepsMem k h a
    refine (State.KeepsMem.ite (hans.trans (State.setDir_keepsMem _ fun x hx => ?_)) (.refl s)).keeps hs
    cases hx
    split
    · exact hplain.gets ..
    · exact hplain

theorem State.snoopAnswer_keepsMem (s : State) (hh : h < 2) (a : Nat) : s.KeepsMem l (s.snoopAnswer h a l) := by
  refine ⟨fun hs => ?_⟩
  unfold State.snoopAnswer
  split
  · rename_i t ht
    obtain ⟨hkind, hhint, hkeep, hline, hentry, horigin⟩ := hs h hh t ht
    refine (State.KeepsMem.ite ((State.setDir_keepsMem s fun x hx => ?_).trans (State.advanceTxn_keepsMem _ hh)) (.refl s)).keeps hs
    cases hx
    exact ⟨hkind, hhint, hkeep, hline, hentry, horigin⟩
  · exact ⟨hs, rfl⟩

theorem State.runSnoops_keepsMem (s : State) (hh : h < 2) : s.KeepsMem l (s.runSnoops h l) :=
  forAll_rel State.KeepsMem.refl State.KeepsMem.trans _ (fun a _ => .ite
    ((foldl_rel State.KeepsMem.refl State.KeepsMem.trans _ (fun b k => b.snoop_keepsMem hh k a) _ _).trans (State.snoopAnswer_keepsMem _ hh a)) (.refl _)) _ s

theorem State.runTxn_keepsMem (s : State) (hh : h < 2) : s.KeepsMem l (s.runTxn h l) := by
  refine ⟨fun hs => ?_⟩
  unfold State.runTxn
  split
  · exact ⟨hs, rfl⟩
  · rename_i t ht
    simp only [(hs h hh t ht).waitsEntry]
    exact (s.runSnoops_keepsMem hh).keeps hs

/-! The request itself (09 R226, R229). -/

/-- The entry opened for a plain read holds one. -/
theorem openEntry_plain {e : DirEnt} {t : Txn} (ht : t.PlainRead) (n clock : Nat) (held cap : Bool) :
    ∀ x, (openEntry e t n clock held cap).txn = some x → x.PlainRead := by
  obtain ⟨hkind, hhint, hkeep, hline, hentry, horigin⟩ := ht
  intro x hx
  simp only [openEntry, hkind, hkeep, Bool.false_eq_true, if_false, Option.some.injEq] at hx
  rw [← hx]
  split
  · exact ⟨rfl, hhint, rfl, hline, hentry, horigin⟩
  · exact ⟨hkind, hhint, hkeep, hline, hentry, horigin⟩

section Request
variable {t : Txn} (ht : t.PlainRead) (hh : h < 2) (n : Nat)
include ht hh

theorem State.serveEntry_keepsMem (s : State) : s.KeepsMem l (s.serveEntry h l n t) := by
  have hplain : ({ t with waitsEntry := false, waitsHome := false } : Txn).PlainRead := ⟨ht.kind, ht.hint, ht.keep, ht.forLine, rfl, ht.origin⟩
  have htick : s.KeepsMem l s.cohTick := .of_dir rfl rfl
  have hopen := fun e c held cap => htick.trans (State.setDir_keepsMem (h := h) s.cohTick (openEntry_plain (e := e) hplain n c held cap))
  unfold State.serveEntry
  dsimp only
  split
  · exact .ite ((hopen ..).trans (State.finishTxn_keepsMem _ hh)) (hopen ..)
  · exact hopen ..

theorem State.serve_keepsMem (s : State) : s.KeepsMem l (s.serve h l n t) := by
  refine .ite (s.serveEntry_keepsMem ht hh n) (State.setDir_keepsMem s fun x hx => ?_)
  cases hx
  exact ⟨ht.kind, ht.hint, ht.keep, ht.forLine, rfl, ht.origin⟩

theorem State.takeIn_keepsMem (s : State) : s.KeepsMem l (s.takeIn h l n t) := by
  have htaken : s.takeIn h l n t = s.serve h l n t := by simp [State.takeIn, ht.kind, ht.keep, isHome]
  rw [htaken]
  exact s.serve_keepsMem ht hh n

theorem State.request_keepsMem (s : State) (tally : Bool) : s.KeepsMem l (s.request h l n tally t) := by
  have hrefuse : ∀ a : State, a.KeepsMem l (a.refuse h t.requester l n false) := fun a => .ite (.refl a) (.of_dir rfl rfl)
  have hin := fun a : State => State.KeepsMem.ite (c := (a.dirEnt h l).txn.isSome) (hrefuse a)
    (.ite (c := !tally && a.coh.tallies.any (fun x => x.half == h && x.line == l)) (hrefuse a) (a.takeIn_keepsMem ht hh n))
  refine .ite (.refl s) (State.KeepsMem.trans ?_ (hin _))
  split
  · exact .of_dir rfl rfl
  · exact .refl s

end Request

theorem homeOf_lt (l : Nat) : homeOf l < 2 := by
  unfold homeOf
  split <;> omega

theorem State.homeSend_keepsMem (s : State) (hh : h < 2) (n : Nat) (tally : Bool) {t : Txn} (ht : t.PlainRead) :
    s.KeepsMem l (s.homeSend h l n tally t) := by
  have hfar : ∀ k, k = false → ({ t with requester := 14, keep := k } : Txn).PlainRead := fun k hk =>
    ⟨ht.kind, ht.hint, hk, ht.forLine, ht.waitsEntry, ht.origin⟩
  refine .ite (s.request_keepsMem ht hh n tally) (State.KeepsMem.trans ?_ (State.request_keepsMem (hfar _ (by simp [ht.hint])) (homeOf_lt l) n _ tally))
  split
  · exact .of_dir rfl rfl
  · exact .refl s

theorem State.homeRun_keepsMem (s : State) (hh : h < 2) (n : Nat) {t : Txn} (ht : t.PlainRead) : s.KeepsMem l (s.homeRun h l n t) := by
  refine (s.homeSend_keepsMem hh n _ ht).trans (State.runTxn_keepsMem _ ?_)
  split
  · exact hh
  · exact homeOf_lt l

/-- A line that nothing waits at has no transaction that is not a plain read. -/
theorem State.readsPlainly_of_free {s : State} (hfree : s.lineBusy l = false) : s.ReadsPlainly l := by
  intro h hh t ht
  simp only [State.lineBusy, Bool.or_eq_false_iff, Option.isSome_eq_false_iff, Option.isNone_iff_eq_none] at hfree
  obtain ⟨⟨hfirst, hsecond⟩, -⟩ := hfree
  interval_cases h
  · simp [hfirst] at ht
  · simp [hsecond] at ht

end Line

/-! Reads of lines, and of a range of a partition (01 R22). -/

/-- A port that reads with NOALLOC through the proxy of a half. -/
structure Via.PlainPort (p : Via) : Prop where
  half : p.half.getD 0 < 2
  cluster : p.cluster = none
  hint : p.hint = .noAlloc

theorem State.readAtHome_metered (s : State) (l : Nat) : s.Metered (s.readAtHome l) := by
  have hreport : s.Metered (if (s.newest l).fails then s.reportFail l else s) := by
    split
    · exact s.reportFail_metered l
    · exact .refl s
  have hcharge : ∀ a : State, a.Metered (if a.fromHbm l then a.charge l else a) := by
    intro a
    split
    · exact a.charge_metered l
    · exact .refl a
  exact hreport.trans (hcharge _)

theorem Via.PlainPort.txn {p : Via} (hp : p.PlainPort) : ({ kind := .read, requester := 15 + p.master, hint := p.hint } : Txn).PlainRead :=
  ⟨rfl, hp.hint, rfl, rfl, rfl, rfl⟩

theorem Via.PlainPort.half_lt {p : Via} (hp : p.PlainPort) (l : Nat) : p.half.getD (homeOf l) < 2 := by
  have hhalf := hp.half
  cases hport : p.half with
  | none => exact homeOf_lt l
  | some h => simpa [hport] using hhalf

theorem State.homeRead_mem (s : State) (l n : Nat) {p : Via} (hp : p.PlainPort) : (s.homeRead l n p).mem = s.mem := by
  unfold State.homeRead
  split
  · exact (s.readAtHome_metered l).mem
  · rename_i hopen
    rw [Bool.not_eq_true, Bool.or_eq_false_iff] at hopen
    exact ((s.homeRun_keepsMem (hp.half_lt l) n hp.txn).keeps (State.readsPlainly_of_free hopen.1)).2

theorem State.noteRead_mem (s : State) (l : Nat) {p : Via} (hp : p.PlainPort) : (s.noteRead l p).mem = s.mem := by
  unfold State.noteRead
  rw [hp.cluster]
  split
  · exact (s.readAtHome_metered l).mem
  · exact s.homeRead_mem l _ hp
  · contradiction

/-- A range of PPA is read with NOALLOC: memory stands. -/
theorem State.ppaReport_mem (s : State) (n ppa len : Nat) {p : Via} (hp : p.PlainPort) : (s.ppaReport n ppa len p).mem = s.mem := by
  have hlines : ∀ (l : List (Nat × Nat)) (a : State), (l.foldl (fun b x => b.noteRead ((b.ppaToHpa n x.1).getD 0 / 64) p) a).mem = a.mem := by
    intro l
    induction l with
    | nil => exact fun _ => rfl
    | cons x l ih =>
      intro a
      rw [List.foldl_cons, ih, a.noteRead_mem _ hp]
  unfold State.ppaReport
  split
  · exact hlines _ s
  · rfl

end Sys2Proof.Machine
end

section
/-!
PROOFS. A mover read returns: its bytes fill the scratchpad range of its access (04 R106).
-/

namespace Sys2Proof.Machine

/-! The scratchpad that a returned access fills. -/

/-- A byte of a slice: that of the list, and 0 beyond its end. -/
theorem bslice_getD (b : List Byte) {off len k : Nat} (hk : k < len) : (bslice b off len).getD k 0 = b.getD (off + k) 0 := by
  by_cases hin : off + k < b.length
  · have hlen : k < ((b.drop off).take len).length := by simp; omega
    rw [bslice, List.getD_append _ _ _ _ hlen]
    simp [List.getD_eq_getElem?_getD, hk]
  · have hlen : ((b.drop off).take len).length ≤ k := by simp; omega
    rw [bslice, List.getD_append_right _ _ _ _ hlen, List.getD_eq_default _ _ (Nat.not_lt.1 hin)]
    simp only [zeros, List.getD_eq_getElem?_getD, List.getElem?_replicate]
    split <;> rfl

/-- A cell with the first lines of an access filled. -/
def Cell.fillLines (c : Cell) (a : Access) (data : List Byte) (marks : List Bool) (m : Nat) : Cell :=
  (List.range m).foldl (fun c l => c.write (a.spad + 64 * l) (bslice data (64 * l) 64) (((marks.drop (64 * l)).take 64).any (fun b => b))) c

theorem Cell.fillLines_succ (c : Cell) (a : Access) (data : List Byte) (marks : List Bool) (m : Nat) : c.fillLines a data marks (m + 1) =
    (c.fillLines a data marks m).write (a.spad + 64 * m) (bslice data (64 * m) 64) (((marks.drop (64 * m)).take 64).any (fun b => b)) := by
  simp [Cell.fillLines, List.range_succ]

/-- Each byte of the filled lines is that of the data, and no other changes. -/
theorem Cell.scratch_fillLines (c : Cell) (a : Access) (data : List Byte) (marks : List Bool) (m z : Nat) :
    (c.fillLines a data marks m).scratch.get 0 z =
      if a.spad ≤ z ∧ z < a.spad + 64 * m then data.getD (z - a.spad) 0 else c.scratch.get 0 z := by
  induction m with
  | zero => rw [if_neg (by omega)]; rfl
  | succ m ih =>
    rw [Cell.fillLines_succ, Cell.scratch_write, bslice_length, ih]
    by_cases hlast : a.spad + 64 * m ≤ z ∧ z < a.spad + 64 * m + 64
    · rw [if_pos hlast, if_pos (by omega), bslice_getD _ (by omega)]
      congr 1
      omega
    · rw [if_neg hlast]
      exact if_congr (by omega) rfl rfl

/-- A scratchpad write changes only the scratchpad and its marks. -/
theorem Cell.fillLines_frame (c : Cell) (a : Access) (data : List Byte) (marks : List Bool) (m : Nat) :
    (c.fillLines a data marks m).waiting = c.waiting ∧ (c.fillLines a data marks m).halt = c.halt := by
  induction m with
  | zero => exact ⟨rfl, rfl⟩
  | succ m ih => rw [Cell.fillLines_succ]; exact ih

theorem Cell.fill_eq (c : Cell) (a : Access) (data : List Byte) (marks : List Bool) : c.fill a data marks = c.fillLines a data marks (a.len / 64) := rfl

/-- An access of whole lines fills its range. -/
theorem Cell.bytes_fill (c : Cell) {a : Access} (data : List Byte) (marks : List Bool) (hlines : a.len % 64 = 0) :
    (c.fill a data marks).bytes a.spad a.len = bslice data 0 a.len := by
  have hbytes := Cell.bytes_eq (c := c.fill a data marks) (a := a.spad) (l := bslice data 0 a.len) fun k hk => by
    rw [bslice_length] at hk
    rw [Cell.fill_eq, Cell.scratch_fillLines, if_pos (by omega), bslice_getD _ hk, Nat.zero_add, Nat.add_sub_cancel_left]
  rwa [bslice_length] at hbytes

theorem Cell.scratch_fill_outside (c : Cell) {a : Access} (data : List Byte) (marks : List Bool) {z : Nat} (hz : z < a.spad ∨ a.spad + a.len ≤ z) :
    (c.fill a data marks).scratch.get 0 z = c.scratch.get 0 z := by
  rw [Cell.fill_eq, Cell.scratch_fillLines, if_neg (by omega)]

/-! The access returns. -/

theorem forAll_fixed {l : List Nat} {f : Nat → State → State} {s : State} (h : ∀ j, f j s = s) : forAll l f s = s := by
  induction l with
  | nil => rfl
  | cons j l ih => rw [show forAll (j :: l) f s = forAll l f (f j s) from rfl, h, ih]

/-- What follows a return where no cell waits and the task has not ended. -/
theorem State.afterAccess_still {s : State} {n i : Nat} (hstill : ∀ j, (s.cell j).waiting = none) (hhalt : (s.cell i).halt = none) :
    s.afterAccess n i = s := by
  have hwake : s.wakeFences n (s.cell i).ctx = s := forAll_fixed fun j => State.retryCell_none (hstill j)
  simp only [State.afterAccess, hhalt, hwake]
  exact State.retryCell_none (hstill i)

/-- An access whose lines the fabric lets pass runs. -/
theorem State.onLines_lets {s : State} {n ppa len : Nat} {p : Via} (hlets : s.lets n ppa len p) (f : State → State) : s.onLines n ppa len p f = f s := by
  have hnone : (pieces (len / 64 + 2) ppa len).findSome? (fun pc => s.lineWaits ((s.ppaToHpa n pc.1).getD 0 / 64) p) = none :=
    List.findSome?_eq_none_iff.2 hlets
  unfold State.onLines
  split
  · rw [hnone]
  · rfl

/-- A cell with the bytes of a read in its scratchpad and the access done. -/
def Cell.returned (c : Cell) (q : Nat) (t : Transfer) (a : Access) (data : List Byte) (marks : List Bool) : Cell :=
  (c.fill a data marks).updQ q (doneAccess t.id a.spad)

/-- The state in which a mover read has returned. -/
def State.readReturned (s : State) (n i q : Nat) (t : Transfer) (a : Access) : State :=
  (s.ppaReport n a.ppa a.len (s.moverReads (i / 16) n)).updCell i (fun c =>
    c.returned q t a (s.ppaPeek n a.ppa a.len).1 (s.ppaMarks n a.ppa a.len))

section Return
variable {s : State} {n i q : Nat} {t : Transfer} {a : Access}

theorem State.cell_readReturned : (s.readReturned n i q t a).cell i =
    (s.cell i).returned q t a (s.ppaPeek n a.ppa a.len).1 (s.ppaMarks n a.ppa a.len) := by
  rw [State.readReturned, State.cell_updCell, State.cell_congr (State.ppaReport_stored ..).cells]

theorem State.cell_readReturned_ne {j : Nat} (hj : j ≠ i) : (s.readReturned n i q t a).cell j = s.cell j := by
  rw [State.readReturned, State.cell_updCell_ne _ _ _ hj, State.cell_congr (State.ppaReport_stored ..).cells]

theorem Cell.returned_frame (c : Cell) (data : List Byte) (marks : List Bool) :
    (c.returned q t a data marks).waiting = c.waiting ∧ (c.returned q t a data marks).halt = c.halt := Cell.fillLines_frame ..

theorem State.readReturned_still (hstill : ∀ j, (s.cell j).waiting = none) (j : Nat) : ((s.readReturned n i q t a).cell j).waiting = none := by
  by_cases hj : j = i
  · rw [hj, State.cell_readReturned, (Cell.returned_frame ..).1, hstill]
  · rw [State.cell_readReturned_ne hj, hstill]

theorem State.readReturned_halt (hhalt : (s.cell i).halt = none) : ((s.readReturned n i q t a).cell i).halt = none := by
  rw [State.cell_readReturned, (Cell.returned_frame ..).2, hhalt]

/-- A mover read whose bytes are all there fills its range and is done. -/
theorem State.accessReturn_reads {k : Nat} (howner : s.ownerCell i = some n) (haccess : (s.cell i).outstanding[k]? = some (q, t, a))
    (hheld : a.held = false) (hread : t.write = false) (hok : (s.ppaPeek n a.ppa a.len).2.2 = St.ok) (hlets : s.lets n a.ppa a.len (s.moverReads (i / 16) n)) :
    s.accessReturn i k none = (s.readReturned n i q t a).afterAccess n i := by
  have hpart : s.cellPart i = n := by rw [State.cellPart, howner, Option.getD_some]
  unfold State.accessReturn
  simp only [haccess, hheld, howner, hread, hpart, Option.isNone_some, Bool.or_false, Bool.false_eq_true, if_false, Option.filter_none, Option.isSome_none]
  rw [State.onLines_lets hlets]
  simp only [State.moverAccess, hread, State.ppaRead, hok, Option.filter_none, Bool.false_eq_true, if_false, if_true, State.updCell_updCell]
  rfl

end Return

end Sys2Proof.Machine
end

section
open Sys2Proof Sys2Proof.Machine

/-- Settles O14: the lines that a returned read fills (log 64), with memory kept because every transaction open on its line is a plain read; the
message word of a wait that ends and the cell that will halt (log 33, 62); the barrier's cells one by one; the two ends of YLD. -/
theorem waitsReturnsAndCheapPoints : Obligations.WaitsReturnsAndCheapPoints := by
  refine ⟨⟨?moverReturn, ?timeout⟩, ?barWaits, ?barReleases, ?yldUnasked, ?yldAsked⟩
  case moverReturn =>
    intro cell n k q x a s hquiet howner haccess hheld hread hlines hok hhalt hwaits hlets
    have hstored := State.ppaReport_stored s n a.ppa a.len (s.moverReads (cell / 16) n)
    have hcell := State.cell_readReturned (s := s) (n := n) (i := cell) (q := q) (t := x) (a := a)
    rw [Gives, exec_moverAccessReturn, execMoverAccessReturn, State.accessReturn_reads howner haccess hheld hread hok hlets,
      State.afterAccess_still (State.readReturned_still (State.waiting_of_noCellWaits hwaits)) (State.readReturned_halt hhalt)]
    refine ⟨_, closing_quiet (hstored.dues.trans hquiet), ?_, ?_, ?_⟩
    · rw [hcell]
      exact Cell.bytes_fill _ _ _ hlines
    · exact fun hhint => State.ppaReport_mem s n a.ppa a.len ⟨by show cell.val / 16 / 6 < 2; omega, rfl, hhint⟩
    · intro z hz
      rw [hcell]
      exact Cell.scratch_fill_outside _ _ _ hz
  case timeout =>
    intro cell n ins dest b s ⟨hquiet, himages⟩ howner hwaiting htarget hstate hbusy hfirst
    have hcell : (s.endWait cell).cell cell = (s.cell cell).endWait := State.cell_updCell ..
    obtain ⟨t, hstored, hfails⟩ := State.sendFails_busy (s := s.endWait cell) (i := cell) (n := n) (dest := dest) (b := b) himages
      (by rw [hcell]; exact hbusy) (by rw [hcell]; exact hfirst) St.timeout
    rw [hcell] at hstored
    have hctx : t.ctx n (s.cell cell).ctx = (s.ctx n (s.cell cell).ctx).firstFail dest b St.timeout :=
      (State.ctx_congr hstored.ctxs ..).trans (State.ctx_updCtx ..)
    rw [Gives, exec_tallyWaitTimeout_ends howner (by rw [hwaiting]; exact htarget) hstate, hfails]
    refine ⟨_, closing_quiet (hstored.dues.trans hquiet), ?_⟩
    dsimp only
    rw [State.ctx_congr (State.ctxs_updCell ..), hctx, State.cell_updCell]
    exact ⟨rfl, rfl, rfl, rfl, rfl, rfl, hstored.egress⟩
  case barWaits =>
    intro cell mask bid s p hquiet hmay hp hbit hne haway
    rw [exec_bar, execBar, State.doBar_waits hmay hp hbit (by omega) haway]
    exact closing_quiet hquiet
  case barReleases =>
    intro cell mask bid s hquiet hmay hthere hcode
    obtain ⟨hdues, hcells⟩ := State.doBar_releases (mask := mask.toNat) (bid := bid) (ins := .bar cell mask bid) hmay
      (fun p hp hbit hne => hthere p hp hbit (by omega)) hcode
    have hself := hcells (cell % 16) (by omega) (.inr (by omega))
    rw [show cell.val / 16 * 16 + cell.val % 16 = cell from by omega] at hself
    refine ⟨_, closing_quiet (hdues.trans hquiet), ?_, ?_, ?_, fun p hp hbit => ?_⟩
    · rw [hself]; rfl
    · rw [hself]; rfl
    · rw [hself]; rfl
    · dsimp only
      rw [hcells p hp (.inl hbit)]
      exact ⟨rfl, rfl, rfl, rfl⟩
  case yldUnasked =>
    intro cell lrt s ⟨hquiet, hmay, hcode⟩ hasked hnot
    rw [exec_yld, execYld, State.doYld_unasked hmay hnot hasked]
    exact closing_goesOn (Cell.SameSpot.refl _) hquiet rfl hcode _
  case yldAsked =>
    intro cell n lrt s ⟨hquiet, hmay, hcode⟩ ⟨_, himages⟩ howner hasked hnot
    have hpart : s.cellPart cell = n := by rw [State.cellPart, howner, Option.getD_some]
    have hstored := State.putGuard_stored (s := s) (n := s.cellPart cell) (by rw [hpart]; exact himages) (s.cell cell).ctx
    rw [Gives, exec_yld, execYld, State.doYld_asked hmay hnot hasked hcode]
    refine ⟨_, closing_quiet (hstored.dues.trans hquiet), ?_⟩
    rw [State.cell_updCell, State.cell_congr hstored.cells]
    exact ⟨rfl, rfl, rfl, rfl, fun i hi => (State.cell_updCell_ne _ _ _ hi).trans (State.cell_congr hstored.cells i)⟩
end

section
/-!
PROOFS. Scalar instructions of a matrix cell (04 R88, R103).
-/

namespace Sys2Proof.Machine

/-- A scalar instruction of a cell that runs writes its register, and the cell goes on. -/
theorem closing_scalar {cell : CellId} {s : State} (hruns : s.runs cell) (rd : Nat) (v : Word32) :
    closing (s.scalar cell rd v) = .next (s.wrote cell rd v) := by
  obtain ⟨hquiet, hmay, hcode⟩ := hruns
  rw [State.scalar, if_pos hmay, State.advance_setReg hcode]
  exact closing_quiet hquiet

/-- What the registers read once one of them is written: s0 stays 0 (04 R88). -/
theorem State.reg_wrote (s : State) (i : Nat) (rd r : Fin 32) (v : Word32) :
    ((s.wrote i rd v).cell i).reg r = if r = 0 then 0 else if r = rd then v else (s.cell i).reg r := by
  rw [State.wrote, State.reg_pastInstr, State.cell_updCell, Cell.reg_setReg]
  by_cases hr : r = 0
  · simp [hr, Cell.reg]
  · have hval : r.val ≠ 0 := mt Fin.val_eq_zero_iff.1 hr
    simp [hr, hval, Fin.val_inj]

end Sys2Proof.Machine

open Sys2Proof Sys2Proof.Machine

/-- Settles O6: each form is a scalar instruction with its value, and a register written is read back. -/
theorem scalarInstructionsWriteOneRegister : Obligations.ScalarInstructionsWriteOneRegister := by
  refine ⟨fun cell rd ra rb sh imm s hruns => ?_, fun cell rd r v s => s.reg_wrote cell rd r v⟩
  rw [exec_li, exec_addi, exec_andi, exec_add, exec_sub, exec_mul, exec_shli, exec_shri]
  exact ⟨closing_scalar hruns .., closing_scalar hruns .., closing_scalar hruns .., closing_scalar hruns .., closing_scalar hruns ..,
    closing_scalar hruns .., closing_scalar hruns .., closing_scalar hruns ..⟩
end

section
/-!
PROOFS. Branches and loops of a matrix cell (04 R103, R104), and the end of its task (04 R95, R101, R102; 05 R139; 07 R182). First the PC that
an instruction sets. Then a cell that halts: with transfers in flight it waits for them, with none it leaves its gang.
-/

namespace Sys2Proof.Machine

/-! The next PC (04 R103). -/

/-- A cell whose next PC lies in its code goes there. -/
theorem State.arrivePc_inCode {s : State} {i pc : Nat} (hcode : pc < (s.cell i).codeLen) (n : Nat) (loops : List Loop) :
    s.arrivePc n i pc loops = s.updCell i (fun c => { c with pc := pc, loops := loops }) := by
  simp [State.arrivePc, Nat.not_le.2 hcode]

/-- A cell with the PC that a branch to t sets, out of the loops that do not hold t (04 R104). -/
def Cell.branched (c : Cell) (off : Word32) : Cell :=
  { c with pc := (c.pc + off.toInt).toNat, loops := leaveLoops c.loops (c.pc + off.toInt).toNat }

section Branch
variable {s : State} {off : Word32}

theorem State.branch_inCode {i : Nat} (hlow : 0 ≤ ((s.cell i).pc : Int) + off.toInt) (hcode : ((s.cell i).pc : Int) + off.toInt < (s.cell i).codeLen)
    (n : Nat) : s.branch n i off = s.updCell i (fun c => c.branched off) := by
  rw [State.branch, if_neg (Int.not_lt.2 hlow), State.arrivePc_inCode (by omega)]
  rfl

theorem exec_br_inCode {cell : CellId} (hquiet : s.quiet) (hmay : s.mayIssue cell = true) (hlow : 0 ≤ ((s.cell cell).pc : Int) + off.toInt)
    (hcode : ((s.cell cell).pc : Int) + off.toInt < (s.cell cell).codeLen) :
    exec (.br cell off) s = .next (s.updCell cell (fun c => c.branched off)) := by
  rw [exec_br, execBr, onlyIf_of hmay, State.branch_inCode hlow hcode]
  exact closing_quiet hquiet

/-- BRC branches where its condition holds, and goes past it else. -/
theorem exec_brc_inCode {cell : CellId} (hruns : s.runs cell) {ra rb : Fin 32} {cond : BitVec 3} (hcond : cond.toNat < 6)
    (hlow : 0 ≤ ((s.cell cell).pc : Int) + off.toInt) (hcode : ((s.cell cell).pc : Int) + off.toInt < (s.cell cell).codeLen) :
    exec (.brc cell ra rb cond off) s = .next (
      if branchTaken cond.toNat ((s.cell cell).reg ra) ((s.cell cell).reg rb) then s.updCell cell (fun c => c.branched off) else s.pastInstr cell) := by
  obtain ⟨hquiet, hmay, hpast⟩ := hruns
  simp only [exec_brc, execBrc, onlyIf_of hmay, if_neg (Nat.not_le.2 hcond), State.branch_inCode hlow hcode,
    State.advance_inCode (Cell.SameSpot.refl (s.cell cell)) hpast]
  split <;> exact closing_quiet hquiet

end Branch

section Loop
variable {cell : CellId} {ra : Fin 32} {len : BitVec 16} {s : State} (hquiet : s.quiet) (hmay : s.mayIssue cell = true)
include hquiet hmay

/-- LOOP begins the first pass of its body. -/
theorem exec_loop_enters (hpasses : ((s.cell cell).reg ra).toNat ≠ 0) (hlen : len.toNat ≠ 0) (hdepth : (s.cell cell).loops.length < 4)
    (hcode : (s.cell cell).pc + 1 < (s.cell cell).codeLen) :
    exec (.loop cell ra len) s = .next (s.updCell cell (fun c => { c with pc := c.pc + 1, loops :=
      { first := c.pc + 1, last := c.pc + 1 + len.toNat, left := (c.reg ra).toNat - 1 } :: c.loops })) := by
  simp only [exec_loop, execLoop, State.doLoop, if_pos hmay, hpasses, hlen, or_self, if_false, Nat.not_le.2 hdepth, State.arrivePc_inCode hcode]
  exact closing_quiet hquiet

/-- A LOOP of no pass, or of no instruction, runs no body. -/
theorem exec_loop_skips (hnone : ((s.cell cell).reg ra).toNat = 0 ∨ len.toNat = 0)
    (hcode : (nextPc (s.cell cell).loops ((s.cell cell).pc + 1 + len.toNat)).1 < (s.cell cell).codeLen) :
    exec (.loop cell ra len) s = .next (s.updCell cell (fun c =>
      { c with pc := (nextPc c.loops (c.pc + 1 + len.toNat)).1, loops := (nextPc c.loops (c.pc + 1 + len.toNat)).2 })) := by
  simp only [exec_loop, execLoop, State.doLoop, if_pos hmay, if_pos hnone, State.arrivePc_inCode hcode]
  exact closing_quiet hquiet

end Loop

/-! A gang (07 R175, R182). -/

theorem State.Stored.schs {s t : State} : s.Stored t → t.schs = s.schs := by rintro ⟨_, _, _, _, _, _, _, _, _, _, _, rfl⟩; rfl

theorem State.gangOf_congr {s t : State} (h : t.schs = s.schs) (n gid : Nat) : t.gangOf n gid = s.gangOf n gid := by
  rw [State.gangOf, State.sch_congr h]
  rfl

/-- A change of a gang that keeps its number is what is found under the number. -/
theorem State.gangOf_updGang {s : State} {n gid : Nat} {g : Gang} {f : Gang → Gang} (hgang : s.gangOf n gid = some g) (hid : ∀ g, (f g).id = g.id) :
    (s.updGang n gid f).gangOf n gid = some (f g) := by
  have hfound : g.id = gid := by simpa using List.find?_some hgang
  have hnumber : ((fun x : Gang => x.id == gid) ∘ fun x => if x.id = gid then f x else x) = fun x => x.id == gid := by
    funext x
    by_cases hx : x.id = gid <;> simp [hx, hid]
  have hfind : (s.sch n).gangs.find? (fun x => x.id == gid) = some g := hgang
  rw [State.gangOf, State.updGang, State.sch_updSch, List.find?_map, hnumber, hfind, Option.map_some, if_pos hfound]

/-- A key that reads as another value than the default is listed. -/
theorem Tab.mem_of_get_ne {α : Type} {d : α} {t : Tab α} {k : Nat} (h : t.get d k ≠ d) : (k, t.get d k) ∈ t := by
  induction t with
  | nil => exact absurd rfl h
  | cons e t ih =>
    obtain ⟨k', v⟩ := e
    by_cases hk : k' = k
    · simp [Tab.get, hk]
    · simp only [Tab.get, hk, if_false] at h ⊢
      exact List.mem_cons_of_mem _ (ih h)

theorem State.mem_gangCells {s : State} {n gid j : Nat} (hgang : (s.cell j).gang = some gid) (howner : s.ownerCell j = some n) :
    j ∈ s.gangCells n gid := by
  have hlisted : (j, s.cell j) ∈ s.cells := Tab.mem_of_get_ne fun hnone => by
    rw [show s.cell j = {} from hnone] at hgang
    cases hgang
  exact List.mem_map.2 ⟨_, List.mem_filter.2 ⟨hlisted, by simp [hgang, howner]⟩, rfl⟩

/-- While another cell holds work of a gang, nothing follows a cell's leaving it. -/
theorem State.afterCell_shared {s : State} {n gid j : Nat} (hgang : (s.cell j).gang = some gid) (howner : s.ownerCell j = some n) (k : Nat) :
    s.afterCell n k gid = s := by
  have hcells : (s.gangCells n gid).isEmpty = false := by
    rw [List.isEmpty_eq_false_iff_exists_mem]
    exact ⟨j, State.mem_gangCells hgang howner⟩
  unfold State.afterCell
  split
  · rfl
  · simp [hcells]

/-! A cell leaves its gang (05 R132; 07 R182). -/

@[simp] theorem State.cell_updGang (s : State) (n gid : Nat) (f : Gang → Gang) (i : Nat) : (s.updGang n gid f).cell i = s.cell i := rfl
@[simp] theorem State.ctx_updGang (s : State) (n gid : Nat) (f : Gang → Gang) (m c : Nat) : (s.updGang n gid f).ctx m c = s.ctx m c := rfl
@[simp] theorem State.updGang_pat (s : State) (n gid : Nat) (f : Gang → Gang) : (s.updGang n gid f).pat = s.pat := rfl
@[simp] theorem State.updGang_dues (s : State) (n gid : Nat) (f : Gang → Gang) : (s.updGang n gid f).dues = s.dues := rfl

theorem State.ownerCell_congr {s t : State} (h : t.pat = s.pat) (i : Nat) : t.ownerCell i = s.ownerCell i := by
  simp only [State.ownerCell, State.ownerBy, State.slice_congr h]

/-- Two changes of a cell that do the same to it are one. -/
theorem State.updCell_of_eq {s : State} {i : Nat} {f g : Cell → Cell} (h : f (s.cell i) = g (s.cell i)) : s.updCell i f = s.updCell i g := by
  simp only [State.updCell, Tab.upd]
  rw [show f (s.cells.get {} i) = g (s.cells.get {} i) from h]

/-- What the end of a cell's work writes before the cell is freed: the context's safeguard words and run time, and the gang's run time. Cells,
partitions and what is to judge stand. -/
structure State.RunCounted (s t : State) (n c gid : Nat) : Prop where
  cells : t.cells = s.cells
  pat : t.pat = s.pat
  dues : t.dues = s.dues
  aborting : (t.ctx n c).aborting = (s.ctx n c).aborting
  gang : ∀ g, s.gangOf n gid = some g → ∃ us, t.gangOf n gid = some { g with runUs := g.runUs + us }

theorem State.addCellRun_counted {s : State} {n : Nat} (himages : (s.code n).images = []) (c gid : Nat) : s.RunCounted (s.addCellRun n c gid) n c gid := by
  let us := (Config.freeValue s.freeCtr).toNat % 2 ^ 32
  let t := (s.tick.updCtx n c (fun x => { x with run := x.run + us })).updGang n gid (fun g => { g with runUs := g.runUs + us })
  have hstored : t.Stored (s.addCellRun n c gid) := State.putWord_stored (s := t) himages ..
  exact {
    cells := hstored.cells
    pat := hstored.pat
    dues := hstored.dues
    aborting := by
      rw [State.ctx_congr hstored.ctxs, State.ctx_updGang, State.ctx_updCtx]
      rfl
    gang := fun g hgang => ⟨us, by
      rw [State.gangOf_congr hstored.schs]
      exact State.gangOf_updGang hgang fun _ => rfl⟩ }

/-- The state in which the end of cell i's work has been counted, and the cell holds its task still. -/
def State.runEnds (s : State) (n i : Nat) : State :=
  ((s.dropUnmet i).putGuard n (s.cell i).ctx).addCellRun n (s.cell i).ctx ((s.cell i).gang.getD 0)

theorem State.runEnds_counted {s : State} {n : Nat} (himages : (s.code n).images = []) (i : Nat) :
    s.RunCounted (s.runEnds n i) n (s.cell i).ctx ((s.cell i).gang.getD 0) := by
  have hstored := State.putGuard_stored (s := s.dropUnmet i) himages (s.cell i).ctx
  have hcounted := State.addCellRun_counted ((hstored.images n).trans himages) (s.cell i).ctx ((s.cell i).gang.getD 0)
  exact {
    cells := hcounted.cells.trans hstored.cells
    pat := hcounted.pat.trans hstored.pat
    dues := hcounted.dues.trans hstored.dues
    aborting := hcounted.aborting.trans (congrArg Ctx.aborting (State.ctx_congr hstored.ctxs ..))
    gang := fun g hgang => hcounted.gang g ((State.gangOf_congr hstored.schs ..).trans hgang) }

/-- A gang in which a cell has ended the task with a status. -/
def Gang.endedBy (g : Gang) (i : Nat) (status : StatusCode) : Gang := { g with ended := g.ended.set none (i % 16) (some status) }

theorem Gang.ended_endedBy (g : Gang) (i : Nat) (status : StatusCode) : (g.endedBy i status).ended.get none (i % 16) = some status :=
  Tab.get_set_same none g.ended (i % 16) (some status)

/-- The state in which cell i's gang holds the status with which the cell has ended its task. -/
def State.gangTold (s : State) (n i : Nat) (status : StatusCode) : State :=
  (s.runEnds n i).updGang n ((s.cell i).gang.getD 0) (fun g => g.endedBy i status)

/-- The state in which the cell has left its gang. -/
def State.leavesGang (s : State) (n i : Nat) (status : StatusCode) : State := (s.gangTold n i status).updCell i Cell.freed

section Leaves
variable {s : State} {n i : Nat} (himages : (s.code n).images = []) (status : StatusCode)
include himages

theorem State.cell_gangTold (j : Nat) : (s.gangTold n i status).cell j = s.cell j := by
  rw [State.gangTold, State.cell_updGang, State.cell_congr (State.runEnds_counted himages i).cells]

theorem State.cell_leavesGang : (s.leavesGang n i status).cell i = (s.cell i).freed := by
  rw [State.leavesGang, State.cell_updCell, State.cell_gangTold himages]

theorem State.cell_leavesGang_ne {j : Nat} (hj : j ≠ i) : (s.leavesGang n i status).cell j = s.cell j := by
  rw [State.leavesGang, State.cell_updCell_ne _ _ _ hj, State.cell_gangTold himages]

theorem State.ownerCell_leavesGang (j : Nat) : (s.leavesGang n i status).ownerCell j = s.ownerCell j := by
  refine State.ownerCell_congr ?_ j
  rw [State.leavesGang, State.updCell_pat, State.gangTold, State.updGang_pat, (State.runEnds_counted himages i).pat]

theorem State.dues_leavesGang : (s.leavesGang n i status).dues = s.dues := by
  rw [State.leavesGang, State.updCell_dues, State.gangTold, State.updGang_dues, (State.runEnds_counted himages i).dues]

theorem State.gangOf_leavesGang {g : Gang} (hgang : s.gangOf n ((s.cell i).gang.getD 0) = some g) :
    ∃ us, (s.leavesGang n i status).gangOf n ((s.cell i).gang.getD 0) = some (({ g with runUs := g.runUs + us } : Gang).endedBy i status) := by
  obtain ⟨us, hcounted⟩ := (State.runEnds_counted himages i).gang g hgang
  have hfree : (s.leavesGang n i status).schs = (s.gangTold n i status).schs := State.updCell_schs ..
  exact ⟨us, (State.gangOf_congr hfree ..).trans (State.gangOf_updGang hcounted fun _ => rfl)⟩

/-- A cell of a context that nothing aborts is freed with its scratchpad and tiles (07 R175, R182). -/
theorem State.endCell_leaves (hnot : (s.ctx n (s.cell i).ctx).aborting = false) :
    s.endCell n i status false = (s.leavesGang n i status).afterCell n (i / 16) ((s.cell i).gang.getD 0) := by
  have hfreed : ((s.gangTold n i status).updCell i fun c => if ((s.gangTold n i status).ctx n c.ctx).aborting then
      { mmaCycles := c.mmaCycles, bankWait := c.bankWait, retired := c.retired, nextXfer := c.nextXfer } else c.freed) = s.leavesGang n i status :=
    State.updCell_of_eq (by
      rw [State.cell_gangTold himages, State.gangTold, State.ctx_updGang, (State.runEnds_counted himages i).aborting, hnot]
      rfl)
  unfold State.gangTold State.runEnds at hfreed
  simp only [State.endCell, Bool.false_and, Bool.false_eq_true, if_false]
  split <;> exact congrArg (fun t => State.afterCell t n (i / 16) ((s.cell i).gang.getD 0)) hfreed

/-- A cell whose task ends without ending its gang leaves it to the other cells that hold work of it. -/
theorem State.endCell_shared {j : Nat} (hnot : (s.ctx n (s.cell i).ctx).aborting = false) (hin : (s.cell i).gang.isSome = true) (hj : j ≠ i)
    (hsame : (s.cell j).gang = (s.cell i).gang) (howner : s.ownerCell j = some n) :
    s.endCell n i status false = s.leavesGang n i status := by
  obtain ⟨gid, hgid⟩ := Option.isSome_iff_exists.1 hin
  rw [State.endCell_leaves himages status hnot]
  refine State.afterCell_shared (j := j) ?_ ((State.ownerCell_leavesGang himages status j).trans howner) _
  rw [State.cell_leavesGang_ne himages status hj, hsame, hgid, Option.getD_some]

end Leaves

/-- HALT with status OK on a cell with no transfer in flight, whose gang has sent no dross, ends its task with OK (05 R139). -/
theorem State.haltCell_idle {s : State} {n i : Nat} {g : Gang} (hidle : (s.cell i).moversIdle = true)
    (hgang : s.gangOf n ((s.cell i).gang.getD 0) = some g) (hclean : g.dross = false) : s.haltCell n i St.ok = s.endCell n i St.ok false := by
  rw [State.haltCell, if_pos hidle, State.endTask]
  simp [hgang, hclean]

/-- A cell that may issue works for a gang (04 R100). -/
theorem State.gang_of_mayIssue {s : State} {i : Nat} (hmay : s.mayIssue i = true) : (s.cell i).gang.isSome = true := by
  simp only [State.mayIssue, Bool.and_eq_true] at hmay
  obtain ⟨⟨-, hgang⟩, -⟩ := hmay
  exact hgang

theorem State.cellPart_of_owner {s : State} {i n : Nat} (howner : s.ownerCell i = some n) : s.cellPart i = n := by
  rw [State.cellPart, howner, Option.getD_some]

/-! The tile fault of a word that is no instruction (04 R101, R102). -/

/-- The first fault of a context goes to its fault word, and its status page is stored. -/
theorem State.recordFault_first {s : State} {n c : Nat} (himages : (s.code n).images = []) (hfirst : (s.ctx n c).fault = 0) (w : Nat) :
    (s.updCtx n c (fun x => { x with fault := w })).Stored (s.recordFault n c w) := by
  rw [State.recordFault, if_pos hfirst]
  exact State.putWord_stored (s := s.updCtx n c (fun x => { x with fault := w })) himages ..

/-- A first fault on a cell with transfers in flight: the fault word of its context, its status page in memory, and its cell that will halt are
all that changes. -/
theorem State.faultCell_busy {s : State} {n i : Nat} (himages : (s.code n).images = []) (hbusy : (s.cell i).moversIdle = false)
    (hfirst : (s.ctx n (s.cell i).ctx).fault = 0) (op detail aux : Nat) (status : StatusCode) :
    ∃ t, (s.updCtx n (s.cell i).ctx (fun x => { x with fault := faultWord ((s.cell i).pc % 8192) op detail aux status })).Stored t
      ∧ s.faultCell n i op detail aux status = t.updCell i (fun c => c.willHalt status) := by
  have hstored := State.recordFault_first himages hfirst (faultWord ((s.cell i).pc % 8192) op detail aux status)
  exact ⟨_, hstored, State.haltCell_busy (by rw [State.faultAt, State.cell_congr hstored.cells]; exact hbusy) ..⟩

end Sys2Proof.Machine

open Sys2Proof Sys2Proof.Machine

/-- Settles O7: the next PC of each instruction that only goes on, and the two ends of a task. -/
theorem controlFlowAndTaskEnd : Obligations.ControlFlowAndTaskEnd := by
  refine ⟨⟨?nop, ?br, ?brc, ?loopEnters, ?loopSkips⟩, ?haltBusy, ?haltIdle, ?reserved⟩
  case nop =>
    intro cell s ⟨hquiet, hmay, hcode⟩
    rw [exec_nop, execNop, State.doNop, if_pos hmay]
    exact closing_goesOn (Cell.SameSpot.refl _) hquiet rfl hcode _
  case br => exact fun cell off s hquiet hmay hlow hcode => exec_br_inCode hquiet hmay hlow hcode
  case brc => exact fun cell ra rb cond off s hruns hcond hlow hcode => exec_brc_inCode hruns hcond hlow hcode
  case loopEnters => exact fun cell ra len s hquiet hmay hpasses hlen hdepth hcode => exec_loop_enters hquiet hmay hpasses hlen hdepth hcode
  case loopSkips => exact fun cell ra len s hquiet hmay hnone hcode => exec_loop_skips hquiet hmay hnone hcode
  case haltBusy =>
    intro cell st s hquiet hmay hbusy
    rw [exec_halt, execHalt, onlyIf_of hmay, State.haltCell_busy hbusy]
    exact closing_quiet hquiet
  case haltIdle =>
    intro cell n s g j ⟨hquiet, himages⟩ hmay hidle howner hnot hgang hclean hj hsame hother
    obtain ⟨us, hended⟩ := State.gangOf_leavesGang himages St.ok hgang
    refine ⟨s.leavesGang n cell St.ok, ?_, State.cell_leavesGang himages _, fun i hi => State.cell_leavesGang_ne himages _ hi, _, hended,
      Gang.ended_endedBy .., rfl⟩
    rw [exec_halt, execHalt, onlyIf_of hmay, State.cellPart_of_owner howner, State.haltCell_idle hidle hgang hclean,
      State.endCell_shared himages _ hnot (State.gang_of_mayIssue hmay) hj hsame hother]
    exact closing_quiet ((State.dues_leavesGang himages _).trans hquiet)
  case reserved =>
    intro cell n w s ⟨hquiet, himages⟩ hmay hbusy howner hfirst hnone
    obtain ⟨t, hstored, hfault⟩ := State.faultCell_busy himages hbusy hfirst (opcodeOf w.toNat) 1 0 St.denied
    refine ⟨t.updCell cell (fun c => c.willHalt St.denied), ?_, ?_, ?_, ?_, fun i hi => ?_⟩
    · rw [exec_reservedOpcode, execReservedOpcode, onlyIf_of (by rw [hmay, hnone]; rfl), State.cellPart_of_owner howner, hfault]
      exact closing_quiet (hstored.dues.trans hquiet)
    · rw [State.ctx_congr (State.ctxs_updCell ..), State.ctx_congr hstored.ctxs, State.ctx_updCtx]
    · rw [State.cell_updCell, Cell.willHalt]
    · rw [State.cell_updCell, Cell.willHalt]
    · rw [State.cell_updCell_ne _ _ _ hi]
      exact State.cell_congr hstored.cells i
end

section
/-!
PROOFS. The tiles of a matrix cell (04 R96): an instruction that computes a region of a tile writes every element of it, and leaves the other
elements, the scratchpad and the registers. Then the vector instructions (04 R103-R105; 05 R123, R136, R466).
-/

namespace Sys2Proof.Machine

/-! Elements by their keys. -/

theorem tileKey_eq_iff {t u r r' k k' : Nat} (hr : r < 128) (hk : k < 128) (hr' : r' < 128) (hk' : k' < 128) :
    tileKey u r k = tileKey t r' k' ↔ u = t ∧ r = r' ∧ k = k' := by
  unfold tileKey
  omega

theorem tileKey_tile {u r k : Nat} (hr : r < 128) (hk : k < 128) : tileKey u r k / 16384 = u := by
  unfold tileKey
  omega

/-- A table of elements with the first j of tile t's set, row by row of n. -/
def Tab.setFirst {α : Type} [DecidableEq α] (d : α) (tab : Tab α) (t n : Nat) (v : Nat → Nat → α) (j : Nat) : Tab α :=
  (List.range j).foldl (fun tab i => tab.set d (tileKey t (i / n) (i % n)) (v (i / n) (i % n))) tab

/-- A table of elements with those of a region of m rows of n of tile t set. -/
def Tab.setRegion {α : Type} [DecidableEq α] (d : α) (tab : Tab α) (t m n : Nat) (v : Nat → Nat → α) : Tab α := tab.setFirst d t n v (m * n)

theorem Tab.setFirst_succ {α : Type} [DecidableEq α] (d : α) (tab : Tab α) (t n : Nat) (v : Nat → Nat → α) (j : Nat) :
    tab.setFirst d t n v (j + 1) = (tab.setFirst d t n v j).set d (tileKey t (j / n) (j % n)) (v (j / n) (j % n)) := by
  simp [Tab.setFirst, List.range_succ]

theorem Tab.get_setFirst {α : Type} [DecidableEq α] {d : α} {tab : Tab α} {t n j u r k : Nat} {v : Nat → Nat → α} (hn : n ≤ 128) (hj : j ≤ 128 * n)
    (hr : r < 128) (hk : k < 128) : (tab.setFirst d t n v j).get d (tileKey u r k) =
      if u = t ∧ k < n ∧ r * n + k < j then v r k else tab.get d (tileKey u r k) := by
  induction j with
  | zero => simp [Tab.setFirst]
  | succ j ih =>
    have hpos : 0 < n := Nat.pos_of_ne_zero fun h => by subst h; omega
    have hrow : j / n < 128 := Nat.div_lt_of_lt_mul (by rw [Nat.mul_comm]; omega)
    have hcol : j % n < n := Nat.mod_lt _ hpos
    have hhere : (r = j / n ∧ k = j % n) ↔ k < n ∧ r * n + k = j := by
      constructor
      · rintro ⟨rfl, rfl⟩
        exact ⟨hcol, by rw [Nat.mul_comm]; exact Nat.div_add_mod j n⟩
      · rintro ⟨hkn, rfl⟩
        rw [Nat.mul_comm, Nat.mul_add_div hpos, Nat.mul_add_mod, Nat.div_eq_of_lt hkn, Nat.mod_eq_of_lt hkn]
        exact ⟨rfl, rfl⟩
    rw [Tab.setFirst_succ, Tab.get_set, ih (by omega)]
    by_cases hlast : u = t ∧ r = j / n ∧ k = j % n
    · obtain ⟨rfl, rfl, rfl⟩ := hlast
      obtain ⟨hkn, hplace⟩ := hhere.1 ⟨rfl, rfl⟩
      rw [if_pos rfl, if_pos ⟨rfl, hkn, by omega⟩]
    · rw [if_neg (mt (tileKey_eq_iff hr hk hrow (hcol.trans_le hn)).1 hlast)]
      rw [hhere] at hlast
      exact if_congr (by omega) rfl rfl

theorem Tab.get_setRegion {α : Type} [DecidableEq α] (d : α) (tab : Tab α) (t : Nat) {m n : Nat} (v : Nat → Nat → α) (hm : m ≤ 128) (hn : n ≤ 128)
    (u : Nat) {r k : Nat} (hr : r < 128) (hk : k < 128) :
    (tab.setRegion d t m n v).get d (tileKey u r k) = if u = t ∧ r < m ∧ k < n then v r k else tab.get d (tileKey u r k) := by
  rw [Tab.setRegion, Tab.get_setFirst hn (Nat.mul_le_mul_right n hm) hr hk]
  refine if_congr (and_congr_right fun _ => ?_) rfl rfl
  constructor
  · rintro ⟨hkn, hlt⟩
    exact ⟨Nat.lt_of_mul_lt_mul_right (Nat.lt_of_le_of_lt (Nat.le_add_right ..) hlt), hkn⟩
  · rintro ⟨hrm, hkn⟩
    refine ⟨hkn, ?_⟩
    calc r * n + k < r * n + n := by omega
      _ = (r + 1) * n := by ring
      _ ≤ m * n := Nat.mul_le_mul_right n hrm

/-! What writing a region of a tile gives (04 R96; 05 R136). -/

/-- A cell with a region of tile t written: f gives each element's word and its dross mark. -/
def Cell.tileWritten (c : Cell) (t m n : Nat) (int : Bool) (f : Nat → Nat → Word32 × Bool × Bool) : Cell :=
  { c with tiles := c.tiles.setRegion 0 t m n (fun r k => (f r k).1), tileDross := c.tileDross.setRegion false t m n (fun r k => (f r k).2.2)
           tileInt := c.tileInt.set false t int }

theorem Cell.writeTile_eq (c : Cell) (g : Guard) (t m n : Nat) (int : Bool) (f : Nat → Nat → Word32 × Bool × Bool) :
    ∃ g', c.writeTile g t m n int f = .ok (c.tileWritten t m n int f) g' := by
  refine ⟨_, congrArg₂ TileOut.ok ?_ rfl⟩
  rw [Cell.tileWritten, Tab.setRegion, Tab.setRegion, Tab.setFirst, Tab.setFirst]
  congr 1
  · exact (List.foldl_hom TileAcc.tiles (fun _ _ => rfl)).symm
  · exact (List.foldl_hom TileAcc.marks (fun _ _ => rfl)).symm

section Written
variable (c : Cell) {t m n : Nat} {int : Bool} {f : Nat → Nat → Word32 × Bool × Bool}

theorem Cell.tileWritten_spot : c.SameSpot (c.tileWritten t m n int f) := ⟨rfl, rfl, rfl⟩

/-- A region written of a tile, as the statements say it: el is what the elements of the whole tile become. -/
theorem Cell.tileBecame_tileWritten {el : Nat → Nat → Word32} (hm : m ≤ 128) (hn : n ≤ 128)
    (hel : ∀ r k, r < 128 → k < 128 → el r k = if r < m ∧ k < n then (f r k).1 else c.elem t r k) : c.tileBecame (c.tileWritten t m n int f) t int el := by
  refine ⟨fun r k hr hk => ?_, Tab.get_set_same .., fun u r k hu hr hk => ?_, rfl, rfl, rfl⟩
  · rw [hel r k hr hk, Cell.elem, Cell.tileWritten, Tab.get_setRegion 0 _ t _ hm hn t hr hk]
    simp only [true_and]
    rfl
  · rw [Cell.elem, Cell.tileWritten, Tab.get_setRegion 0 _ t _ hm hn u hr hk, if_neg fun h => hu h.1]
    rfl

theorem Cell.elemDross_tileWritten (hm : m ≤ 128) (hn : n ≤ 128) {r k : Nat} (hr : r < m) (hk : k < n) :
    (c.tileWritten t m n int f).elemDross t r k = (f r k).2.2 := by
  rw [Cell.elemDross, Cell.tileWritten, Tab.get_setRegion false _ t _ hm hn t (hr.trans_le hm) (hk.trans_le hn), if_pos ⟨rfl, hr, hk⟩]

end Written

/-! A computing instruction that ends without a fault (04 R103). -/

/-- Its cell goes past it, with its results and counts. -/
theorem closing_compute {s : State} {i : Nat} {d : Cell} (hquiet : s.quiet) (hcode : s.pcAfter i < (s.cell i).codeLen)
    (hspot : (s.cell i).SameSpot d) (op : Nat) (g : Guard) : closing (s.compute i op (.ok d g)) = .next (s.computed i d g) := by
  have hat : (s.cell i).SameSpot (((s.updCell i fun _ => d).setGuard (s.cellPart i) d.ctx g).cell i) := by
    rw [State.setGuard, State.cell_congr (State.updCtx_cells ..), State.cell_updCell]
    exact hspot
  exact closing_goesOn hat hquiet rfl hcode _

/-- What an instruction writes: every element of the region of m by n elements of tile t of cell c is as el says, and the tile's TYPE is int. -/
def TileOut.Writes (o : TileOut) (c : Cell) (g : Guard) (t m n : Nat) (int : Bool) (el : Nat → Nat → Word32) : Prop :=
  ∃ f, o = c.writeTile g t m n int f ∧ ∀ r k, r < m → k < n → (f r k).1 = el r k

section Runs
variable {cell : CellId} {s : State} (hruns : s.runs cell)
include hruns

/-- An instruction whose result stands at its instruction computes it. -/
theorem computes_ok {c : Instr} {op : Nat} {o : TileOut} {d : Cell} {g : Guard} {p : Cell → Prop} (hexec : exec c s = closing (s.compute cell op o))
    (hok : o = .ok d g) (hspot : (s.cell cell).SameSpot d) (hp : p d) : Computes c s cell p := by
  obtain ⟨hquiet, -, hcode⟩ := hruns
  exact ⟨d, g, by rw [hexec, hok, closing_compute hquiet hcode hspot], hp⟩

/-- An instruction that computes a whole tile, with the dross marks of its elements. -/
theorem computes_writeTile {c : Instr} {op td : Nat} {o : TileOut} {int : Bool} {f : Nat → Nat → Word32 × Bool × Bool}
    (hexec : exec c s = closing (s.compute cell op o)) (hwrite : o = (s.cell cell).writeTile (s.guardOf cell) td 128 128 int f) :
    Computes c s cell fun d => (s.cell cell).tileBecame d td int (fun r k => (f r k).1)
      ∧ ∀ r k, r < 128 → k < 128 → d.elemDross td r k = (f r k).2.2 := by
  obtain ⟨g, hok⟩ := (s.cell cell).writeTile_eq (s.guardOf cell) td 128 128 int f
  exact computes_ok hruns hexec (hwrite.trans hok) (Cell.tileWritten_spot _)
    ⟨Cell.tileBecame_tileWritten _ le_rfl le_rfl fun r k hr hk => (if_pos ⟨hr, hk⟩).symm,
      fun r k hr hk => Cell.elemDross_tileWritten _ le_rfl le_rfl hr hk⟩

/-- An instruction that computes a whole tile. -/
theorem computes_wholeTile {c : Instr} {op td : Nat} {o : TileOut} {int : Bool} {el : Nat → Nat → Word32}
    (hexec : exec c s = closing (s.compute cell op o)) (hwrites : o.Writes (s.cell cell) (s.guardOf cell) td 128 128 int el) :
    Computes c s cell fun d => (s.cell cell).tileBecame d td int el := by
  obtain ⟨f, hwrite, hel⟩ := hwrites
  obtain ⟨g, hok⟩ := (s.cell cell).writeTile_eq (s.guardOf cell) td 128 128 int f
  exact computes_ok hruns hexec (hwrite.trans hok) (Cell.tileWritten_spot _)
    (Cell.tileBecame_tileWritten _ le_rfl le_rfl fun r k hr hk => by rw [if_pos ⟨hr, hk⟩, hel r k hr hk])

theorem State.doElt_runs (op : Nat) (run : Cell → Guard → TileOut) :
    s.doElt cell op run = s.compute cell op (run (s.cell cell) (s.guardOf cell)) := if_pos hruns.2.1

end Runs

/-! Ranges of the scratchpad (04 R100, R101, R104). -/

/-- Every range of a list has an aligned address and lies in the scratchpad. -/
def spansFit (l : List (Nat × Nat)) : Prop := ∀ x ∈ l, x.1 % 64 = 0 ∧ x.1 + x.2 ≤ scratchBytes

theorem spansFit_nil : spansFit [] := by simp [spansFit]
theorem spansFit_single {a len : Nat} : spansFit [(a, len)] ↔ a % 64 = 0 ∧ a + len ≤ scratchBytes := by simp [spansFit]
theorem spansFit_append {l k : List (Nat × Nat)} : spansFit (l ++ k) ↔ spansFit l ∧ spansFit k := List.forall_mem_append

/-- A range that is read only where p does not hold. -/
theorem spansFit_unless {p : Prop} [Decidable p] {a len : Nat} (h : ¬ p → a % 64 = 0 ∧ a + len ≤ scratchBytes) :
    spansFit (if p then [] else [(a, len)]) := by
  split
  · exact spansFit_nil
  · next hnot => exact spansFit_single.2 (h hnot)

/-- Ranges that fit make no fault. -/
theorem spanFault_none {l : List (Nat × Nat)} (h : spansFit l) : spanFault l = none := by
  have haligned : l.any (fun x => x.1 % 64 != 0) = false := by simpa using fun a b hx => (h (a, b) hx).1
  have hinside : l.any (fun x => decide (scratchBytes < x.1 + x.2)) = false := by simpa using fun a b hx => (h (a, b) hx).2
  rw [spanFault, haligned, hinside]
  rfl

theorem spanFault_single {a len : Nat} (halign : a % 64 = 0) (hfits : a + len ≤ scratchBytes) : spanFault [(a, len)] = none :=
  spanFault_none (spansFit_single.2 ⟨halign, hfits⟩)

/-- An instruction that reads an empty range conflicts with nothing. -/
theorem Cell.conflicts_empty (c : Cell) (a : Nat) : c.conflicts { reads := [(a, 0)] } = false := by
  simp [Cell.conflicts, overlaps]

/-- An instruction of a cell that runs free executes. -/
theorem State.issueTile_runsFree {s : State} {i : Nat} {ins : Instr} {f : Cell → Foot} {r : State} (hfree : s.runsFree i (f (s.cell i))) :
    s.issueTile i ins f r = r := by
  obtain ⟨⟨-, hmay, -⟩, hconf⟩ := hfree
  exact State.issueTile_free hmay hconf

theorem State.doVec_free {s : State} {i ra len : Nat} (hfree : s.runsFree i { reads := [(((s.cell i).reg ra).toNat, len)] }) (op : Nat)
    (run : Cell → Guard → TileOut) (ins : Instr) :
    s.doVec i op ra len run ins = s.compute i op (run (s.cell i) (s.guardOf i)) := State.issueTile_runsFree hfree

/-! The vector instructions that read the scratchpad (04 R103-R105; 05 R123, R136): what each writes, where nothing makes it a fault. -/

section Vector
variable {c : Cell} {td ra : Nat}

/-- ESCL and EBIAS. -/
theorem vecRun_writes (halign : (c.reg ra).toNat % 64 = 0) (hfits : (c.reg ra).toNat + 512 ≤ scratchBytes) (htype : c.isInt td = false) (g : Guard)
    (axis : Bool) (op : Fp → Fp → Fp) : (vecRun c g td ra axis op).Writes c g td 128 128 false
      (fun r k => (rne32 (op (f32 (c.elem td r k)) (c.vec (c.reg ra).toNat (if axis then k else r)))).1) := by
  simp only [vecRun, spanFault_single halign hfits, htype, Bool.false_eq_true, if_false]
  exact ⟨_, rfl, fun _ _ _ _ => rfl⟩

theorem eactRun_writes (halign : (c.reg ra).toNat % 64 = 0) (hfits : (c.reg ra).toNat + 384 ≤ scratchBytes) (htype : c.isInt td = false) (g : Guard) :
    (eactRun c g td ra).Writes c g td 128 128 false (fun r k =>
      let x := f32 (c.elem td r k)
      let j := actIndex ((List.range 32).map (c.vec (c.reg ra).toNat)) x
      if x = .nan then nan32 else (rne32 ((Fp.mul (c.vec ((c.reg ra).toNat + 128) j) x).add (c.vec ((c.reg ra).toNat + 256) j))).1) := by
  simp only [eactRun, spanFault_single halign hfits, htype, Bool.false_eq_true, if_false]
  refine ⟨_, rfl, fun r k _ _ => ?_⟩
  by_cases hnan : f32 (c.elem td r k) = .nan <;> simp [hnan]

/-- ECVT to FP32. -/
theorem ecvtRun_writes (halign : (c.reg ra).toNat % 64 = 0) (hfits : (c.reg ra).toNat + 512 ≤ scratchBytes) (htype : c.isInt td = true) (g : Guard)
    (axis : Bool) : (ecvtRun c g td ra axis false).Writes c g td 128 128 false
      (fun r k => (rne32 (Fp.mul (fpInt (c.elem td r k).toInt) (c.vec (c.reg ra).toNat (if axis then k else r)))).1) := by
  simp only [ecvtRun, spanFault_single halign hfits, htype, Bool.not_true, Bool.false_eq_true, if_false]
  exact ⟨_, rfl, fun _ _ _ _ => rfl⟩

/-- ECVT to INT32. -/
theorem ecvtRun_writes_int (htype : c.isInt td = false) (g : Guard) (axis : Bool) :
    (ecvtRun c g td ra axis true).Writes c g td 128 128 true (fun r k => (toInt32 (f32 (c.elem td r k))).1) := by
  simp only [ecvtRun, htype, if_true, Bool.false_eq_true, if_false]
  exact ⟨_, rfl, fun _ _ _ _ => rfl⟩

end Vector

/-! ZAC (04 R96, R103). -/

/-- A cell with tile td 0 and unmarked. -/
def Cell.tileZeroed (c : Cell) (td : Nat) (int : Bool) : Cell :=
  { c with tiles := c.tiles.keep (fun k => !(k / 16384 == td)), tileDross := c.tileDross.keep (fun k => !(k / 16384 == td))
           tileInt := c.tileInt.set false td int }

theorem Cell.tileBecame_tileZeroed (c : Cell) (td : Nat) (int : Bool) : c.tileBecame (c.tileZeroed td int) td int (fun _ _ => 0) := by
  refine ⟨fun r k hr hk => ?_, Tab.get_set_same .., fun u r k hu hr hk => ?_, rfl, rfl, rfl⟩
  · rw [Cell.elem, Cell.tileZeroed, Tab.get_keep, tileKey_tile hr hk]
    simp
  · rw [Cell.elem, Cell.tileZeroed, Tab.get_keep, tileKey_tile hr hk]
    simp [hu, Cell.elem]

theorem Cell.elemDross_tileZeroed (c : Cell) (td : Nat) (int : Bool) {r k : Nat} (hr : r < 128) (hk : k < 128) :
    (c.tileZeroed td int).elemDross td r k = false := by
  rw [Cell.elemDross, Cell.tileZeroed, Tab.get_keep, tileKey_tile hr hk]
  simp

end Sys2Proof.Machine

open Sys2Proof Sys2Proof.Machine

/-- Settles O8: each instruction writes its whole tile, element by element. -/
theorem tileInstructionsAreElementwise : Obligations.TileInstructionsAreElementwise := by
  refine ⟨⟨?zac, ?eadd, ?emul, ?emax, ?ecpy⟩, ?vector, ?eact, ?ecvt, ?ecvtInt⟩
  case zac =>
    intro cell td int s hruns
    refine computes_ok hruns (op := 8) (o := .ok ((s.cell cell).tileZeroed td int) (s.guardOf cell)) ?_ rfl ⟨rfl, rfl, rfl⟩
      ⟨Cell.tileBecame_tileZeroed .., fun r k hr hk => Cell.elemDross_tileZeroed _ _ _ hr hk⟩
    rw [exec_zac, execZac, State.doZac, if_pos hruns.2.1]
    rfl
  case eadd =>
    intro cell td ts s hruns htype
    have hwritten := computes_writeTile hruns (o := eaddRun (s.cell cell) (s.guardOf cell) td ts) (by rw [exec_eadd, execEadd, State.doElt_runs hruns])
      (if_neg (by simp [htype]))
    exact hwritten
  case emul =>
    intro cell td ts s hruns htd hts
    have hwritten := computes_writeTile hruns (o := emulRun (s.cell cell) (s.guardOf cell) td ts) (by rw [exec_emul, execEmul, State.doElt_runs hruns])
      (if_neg (by simp [htd, hts]))
    exact hwritten
  case emax =>
    intro cell td ts s hruns htype
    have hwritten := computes_writeTile hruns (o := emaxRun (s.cell cell) (s.guardOf cell) td ts) (by rw [exec_emax, execEmax, State.doElt_runs hruns])
      (if_neg (by simp [htype]))
    exact hwritten
  case ecpy =>
    intro cell td ts s hruns
    have hwritten := computes_writeTile hruns (o := ecpyRun (s.cell cell) (s.guardOf cell) td ts) (by rw [exec_ecpy, execEcpy, State.doElt_runs hruns])
      rfl
    exact hwritten
  case vector =>
    intro cell td ra axis s c a hfree halign hfits htype
    constructor
    · exact computes_wholeTile hfree.1 (by rw [exec_escl, execEscl, State.doEscl, State.doVec_free hfree]) (vecRun_writes halign hfits htype _ axis Fp.mul)
    · exact computes_wholeTile hfree.1 (by rw [exec_ebias, execEbias, State.doEbias, State.doVec_free hfree]) (vecRun_writes halign hfits htype _ axis Fp.add)
  case eact =>
    intro cell td ra s c a hfree halign hfits htype
    exact computes_wholeTile hfree.1 (by rw [exec_eact, execEact, State.doEact, State.doVec_free hfree]) (eactRun_writes halign hfits htype _)
  case ecvt =>
    intro cell td ra axis s c a hfree halign hfits htype
    refine computes_wholeTile hfree.1 (op := 0x20) ?_ (ecvtRun_writes halign hfits htype _ axis)
    rw [exec_ecvt, execEcvt, State.doEcvt, if_neg Bool.false_ne_true, State.doVec_free hfree]
  case ecvtInt =>
    intro cell td ra axis s hruns htype
    refine computes_wholeTile hruns (op := 0x20) ?_ (ecvtRun_writes_int (ra := ra) htype _ axis)
    rw [exec_ecvt, execEcvt, State.doEcvt, if_pos rfl, State.doVec_free ⟨hruns, Cell.conflicts_empty ..⟩]
end

section
/-!
PROOFS. LDA, STA and EROW (04 R96, R103, R104; 05 R123). A scratchpad range is written a 64-byte line at a time, each line of elements of one
size: so each element is found where its number puts it, and no byte outside the range changes.
-/

namespace Sys2Proof.Machine

/-! Lists of elements of one size. -/

section Flatten
variable {α : Type} {el : Nat → List α} {b : Nat} (hsize : ∀ i, (el i).length = b)
include hsize

theorem length_flatten_range (n : Nat) : ((List.range n).map el).flatten.length = n * b := by
  simp [List.length_flatten, Function.comp_def, hsize]

theorem getD_flatten_range {n i j : Nat} (hi : i < n) (hj : j < b) (d : α) : ((List.range n).map el).flatten.getD (i * b + j) d = (el i).getD j d := by
  induction n with
  | zero => omega
  | succ n ih =>
    rw [List.range_succ, List.map_append, List.flatten_append]
    rcases Nat.lt_succ_iff_lt_or_eq.1 hi with hlt | rfl
    · have hbefore : i * b + j < n * b := by
        calc i * b + j < (i + 1) * b := by rw [Nat.succ_mul]; omega
          _ ≤ n * b := Nat.mul_le_mul_right b hlt
      rw [List.getD_append _ _ _ _ (by rw [length_flatten_range hsize]; exact hbefore), ih hlt]
    · rw [List.getD_append_right _ _ _ _ (by rw [length_flatten_range hsize]; omega), length_flatten_range hsize, Nat.add_sub_cancel_left]
      simp

end Flatten

/-! Lines of the scratchpad (05 R136, R137). -/

/-- A cell with n lines of its scratchpad written from address a on. -/
def Cell.writeEach (c : Cell) (a n : Nat) (line : Nat → List Byte) (mark : Nat → Bool) : Cell :=
  (List.range n).foldl (fun x l => x.write (a + 64 * l) (line l) (mark l)) c

/-- Each byte of the lines is that of its line, and no other changes. -/
theorem Cell.scratch_writeEach (c : Cell) {a n : Nat} {line : Nat → List Byte} (mark : Nat → Bool) (hline : ∀ l, l < n → (line l).length = 64) (z : Nat) :
    (c.writeEach a n line mark).scratch.get 0 z =
      if a ≤ z ∧ z < a + 64 * n then (line ((z - a) / 64)).getD ((z - a) % 64) 0 else c.scratch.get 0 z := by
  induction n with
  | zero => rw [if_neg (by omega)]; rfl
  | succ n ih =>
    have hstep : c.writeEach a (n + 1) line mark = (c.writeEach a n line mark).write (a + 64 * n) (line n) (mark n) := by
      simp [Cell.writeEach, List.range_succ]
    rw [hstep, Cell.scratch_write, hline n n.lt_succ_self, ih fun l hl => hline l (hl.trans n.lt_succ_self)]
    by_cases hlast : a + 64 * n ≤ z ∧ z < a + 64 * n + 64
    · rw [if_pos hlast, if_pos (by omega), show (z - a) / 64 = n by omega, show (z - a) % 64 = z - (a + 64 * n) by omega]
    · rw [if_neg hlast]
      exact if_congr (by omega) rfl rfl

/-- Only the scratchpad and its marks may differ. -/
def Cell.ScratchOnly (c d : Cell) : Prop := ∃ x y, d = { c with scratch := x, lineDross := y }

section ScratchOnly
variable {c d e : Cell}

theorem Cell.ScratchOnly.refl (c : Cell) : c.ScratchOnly c := ⟨_, _, rfl⟩
theorem Cell.ScratchOnly.trans : c.ScratchOnly d → d.ScratchOnly e → c.ScratchOnly e := by rintro ⟨_, _, rfl⟩ ⟨_, _, rfl⟩; exact ⟨_, _, rfl⟩
theorem Cell.ScratchOnly.spot : c.ScratchOnly d → c.SameSpot d := by rintro ⟨_, _, rfl⟩; exact ⟨rfl, rfl, rfl⟩
theorem Cell.ScratchOnly.stands : c.ScratchOnly d → d.tiles = c.tiles ∧ d.tileInt = c.tileInt ∧ d.sregs = c.sregs ∧ d.pc = c.pc := by
  rintro ⟨_, _, rfl⟩; exact ⟨rfl, rfl, rfl, rfl⟩

theorem Cell.write_scratchOnly (c : Cell) (a : Nat) (data : List Byte) (dross : Bool) : c.ScratchOnly (c.write a data dross) := ⟨_, _, rfl⟩

theorem Cell.writeEach_scratchOnly (c : Cell) (a n : Nat) (line : Nat → List Byte) (mark : Nat → Bool) : c.ScratchOnly (c.writeEach a n line mark) :=
  foldl_rel .refl .trans _ (fun x _ => x.write_scratchOnly ..) _ _

end ScratchOnly

/-- Line l of elements that come per to a line. -/
def elemLine (per : Nat) (el : Nat → List Byte) (l : Nat) : List Byte := ((List.range per).map (fun i => el (l * per + i))).flatten

section Elems
variable (c : Cell) {a n per b : Nat} {line el : Nat → List Byte} (mark : Nat → Bool) (hsize : ∀ e, (el e).length = b) (hper : per * b = 64)
  (hline : ∀ l, l < n → line l = elemLine per el l)
include hsize hper hline

theorem length_elemLine {l : Nat} (hl : l < n) : (line l).length = 64 := by
  rw [hline l hl, elemLine, length_flatten_range fun i => hsize (l * per + i), hper]

/-- An element of b bytes is found at its number's place. -/
theorem Cell.bytes_writeEach {e : Nat} (he : e < n * per) : (c.writeEach a n line mark).bytes (a + e * b) b = el e := by
  have hpos : 0 < per := Nat.pos_of_ne_zero fun h => by simp [h] at hper
  have hin : e % per < per := Nat.mod_lt _ hpos
  have hl : e / per < n := Nat.div_lt_of_lt_mul (by rwa [Nat.mul_comm])
  have hplace : e * b = 64 * (e / per) + e % per * b := by
    calc e * b = (per * (e / per) + e % per) * b := by rw [Nat.div_add_mod]
      _ = per * b * (e / per) + e % per * b := by ring
      _ = 64 * (e / per) + e % per * b := by rw [hper]
  have hbytes := Cell.bytes_eq (c := c.writeEach a n line mark) (a := a + e * b) (l := el e) fun k hk => by
    rw [hsize] at hk
    have hend : e % per * b + k < 64 := by
      calc e % per * b + k < (e % per + 1) * b := by rw [Nat.succ_mul]; omega
        _ ≤ 64 := hper ▸ Nat.mul_le_mul_right b hin
    rw [Cell.scratch_writeEach c mark (fun l hl => length_elemLine hsize hper hline hl), if_pos (by omega),
      show (a + e * b + k - a) / 64 = e / per by omega, show (a + e * b + k - a) % 64 = e % per * b + k by omega, hline _ hl, elemLine,
      getD_flatten_range (fun i => hsize (e / per * per + i)) hin hk, Nat.mul_comm, Nat.div_add_mod]
  rwa [hsize] at hbytes

theorem Cell.scratch_writeEach_outside {x : Nat} (hx : x < a ∨ a + 64 * n ≤ x) :
    (c.writeEach a n line mark).scratch.get 0 x = c.scratch.get 0 x := by
  rw [Cell.scratch_writeEach c mark (fun l hl => length_elemLine hsize hper hline hl), if_neg (by omega)]

end Elems

/-! LDA. -/

theorem ldaRun_writes {c : Cell} {f ra : Nat} (halign : (c.reg ra).toNat % 64 = 0) (hfits : (c.reg ra).toNat + 16384 * ldaBytes f ≤ scratchBytes)
    (g : Guard) (td : Nat) : (ldaRun c g td f ra).Writes c g td 128 128 (f == 1) (fun r k =>
      let w := c.word ((c.reg ra).toNat + (r * 128 + k) * ldaBytes f) (ldaBytes f)
      if f ≤ 1 then BitVec.ofNat 32 w else (rne32 ((if f = 2 then bf16 else fp16).decode w)).1) := by
  simp only [ldaRun, spanFault_single halign hfits]
  exact ⟨_, rfl, fun _ _ _ _ => rfl⟩

/-! STA. -/

/-- The bytes that STA writes for element e of a tile. -/
def Cell.staBytes (c : Cell) (ts f e : Nat) : List Byte :=
  leBytes (ldaBytes f) (if f ≤ 1 then (c.elem ts (e / 128) (e % 128)).toNat
    else ((if f = 2 then bf16 else fp16).encode (f32 (c.elem ts (e / 128) (e % 128)))).1)

theorem Cell.staBytes_length (c : Cell) (ts f e : Nat) : (c.staBytes ts f e).length = ldaBytes f := leBytes_length ..

theorem ldaBytes_line (f : Nat) : 64 / ldaBytes f * ldaBytes f = 64 := by
  unfold ldaBytes
  split <;> rfl

theorem ldaBytes_count (f : Nat) : 16384 / (64 / ldaBytes f) * (64 / ldaBytes f) = 16384 := by
  unfold ldaBytes
  split <;> rfl

theorem ldaBytes_range (f : Nat) : 64 * (16384 / (64 / ldaBytes f)) = 16384 * ldaBytes f := by
  unfold ldaBytes
  split <;> rfl

/-- Form 1 of LDA and STA is that of an INT32 tile. -/
theorem ldaForm_int (f : Fin 4) : (f == 1) = (f.val == 1) := by decide +revert

/-- STA writes its tile line by line. -/
theorem staRun_ok {c : Cell} {ts f ra : Nat} (halign : (c.reg ra).toNat % 64 = 0) (hfits : (c.reg ra).toNat + 16384 * ldaBytes f ≤ scratchBytes)
    (htype : c.isInt ts = (f == 1)) (g : Guard) : ∃ mark g', staRun c g ts f ra =
      .ok (c.writeEach (c.reg ra).toNat (16384 / (64 / ldaBytes f)) (elemLine (64 / ldaBytes f) (c.staBytes ts f)) mark) g' := by
  simp only [staRun, spanFault_single halign hfits, htype, bne_self_eq_false, Bool.false_eq_true, if_false]
  refine ⟨fun l => ((List.range (64 / ldaBytes f)).map (fun i => l * (64 / ldaBytes f) + i)).any (fun i => c.elemDross ts (i / 128) (i % 128)), _,
    congrArg₂ TileOut.ok (List.foldl_hom Prod.fst fun x l => ?_).symm rfl⟩
  dsimp only
  rw [elemLine, List.map_map, List.map_map, Nat.mul_comm 64 l]
  refine congrArg (fun line => x.1.write _ (List.flatten line) _) (List.map_congr_left fun i _ => ?_)
  simp only [Cell.staBytes, Function.comp_apply]
  split <;> rfl

/-! EROW. -/

theorem take_drop_map_range {α : Type} (f : Nat → α) {k m n : Nat} (h : k + m ≤ n) :
    (((List.range n).map f).drop k).take m = (List.range m).map (fun i => f (k + i)) := by
  apply List.ext_getElem
  · simp; omega
  · simp

/-- The bytes that EROW writes for row or column i of a tile. -/
def Cell.erowBytes (c : Cell) (ts : Nat) (axis : Bool) (fn i : Nat) : List Byte :=
  leBytes 4 (reduce fn ((List.range 128).map (fun j => if axis then c.elem ts j i else c.elem ts i j))).1.toNat

theorem Cell.erowBytes_length (c : Cell) (ts : Nat) (axis : Bool) (fn i : Nat) : (c.erowBytes ts axis fn i).length = 4 := leBytes_length ..

/-- EROW writes its results in eight lines. -/
theorem erowRun_ok {c : Cell} {ts ra fn : Nat} (halign : (c.reg ra).toNat % 64 = 0) (hfits : (c.reg ra).toNat + 512 ≤ scratchBytes)
    (htype : c.isInt ts = false) (hfn : fn ≠ 3) (g : Guard) (axis : Bool) : ∃ line mark g', erowRun c g ts ra axis fn =
      .ok (c.writeEach (c.reg ra).toNat 8 line mark) g' ∧ ∀ l, l < 8 → line l = elemLine 16 (c.erowBytes ts axis fn) l := by
  simp only [erowRun, if_neg hfn, spanFault_single halign hfits, htype, Bool.false_eq_true, if_false]
  refine ⟨_, _, _, rfl, fun l hl => ?_⟩
  have hslice := take_drop_map_range (fun i => reduce fn ((List.range 128).map (fun j => c.elem ts (if axis then (j, i) else (i, j)).1
    (if axis then (j, i) else (i, j)).2))) (k := 16 * l) (m := 16) (n := 128) (by omega)
  rw [hslice, elemLine, List.map_map, Nat.mul_comm 16 l]
  refine congrArg List.flatten (List.map_congr_left fun i _ => ?_)
  simp only [Cell.erowBytes, Function.comp_apply]
  cases axis <;> rfl

end Sys2Proof.Machine

open Sys2Proof Sys2Proof.Machine

/-- Settles O9: LDA writes a whole tile; what STA and EROW write is found element by element, and the rest of the scratchpad is left. -/
theorem tileLoadStoreAndReduce : Obligations.TileLoadStoreAndReduce := by
  refine ⟨?lda, ?sta, ?erow⟩
  case lda =>
    intro cell td f ra s c a b hfree halign hfits
    rw [ldaForm_int]
    refine computes_wholeTile hfree.1 (op := 9) ?_ (ldaRun_writes halign hfits _ td)
    rw [exec_lda, execLda, State.doLda, State.issueTile_runsFree]
    exact hfree
  case sta =>
    intro cell ts f ra s c a b hfree halign hfits htype
    obtain ⟨mark, g, hok⟩ := staRun_ok halign hfits (htype.trans (ldaForm_int f)) (s.guardOf cell)
    have honly := c.writeEach_scratchOnly a (16384 / (64 / b)) (elemLine (64 / b) (c.staBytes ts f)) mark
    refine computes_ok hfree.1 (op := 0x0A) ?_ hok honly.spot ?_
    · rw [exec_sta, execSta, State.doSta, State.issueTile_runsFree]
      exact hfree
    · obtain ⟨htiles, hints, hregs, hpc⟩ := honly.stands
      refine ⟨htiles, hints, hregs, hpc, fun r k hr hk => ?_, fun x hx => ?_⟩
      · rw [Cell.bytes_writeEach c mark (c.staBytes_length ts f) (ldaBytes_line f) (fun _ _ => rfl) (e := r * 128 + k)
          (by rw [ldaBytes_count]; omega), Cell.staBytes,
          show (r * 128 + k) / 128 = r by omega, show (r * 128 + k) % 128 = k by omega]
      · exact Cell.scratch_writeEach_outside c mark (c.staBytes_length ts f) (ldaBytes_line f) (fun _ _ => rfl)
          (by rwa [ldaBytes_range])
  case erow =>
    intro cell ts ra axis fn s c a hfree halign hfits htype hfn
    obtain ⟨line, mark, g, hok, hline⟩ := erowRun_ok halign hfits htype hfn (s.guardOf cell) axis
    have honly := c.writeEach_scratchOnly a 8 line mark
    refine computes_ok hfree.1 (op := 0x1F) ?_ hok honly.spot ?_
    · rw [exec_erow, execErow, State.doErow, State.issueTile_runsFree]
      exact hfree
    · obtain ⟨htiles, hints, hregs, hpc⟩ := honly.stands
      refine ⟨htiles, hints, hregs, hpc, fun i hi => ?_, fun x hx => ?_⟩
      · rw [Nat.mul_comm 4 i]
        exact Cell.bytes_writeEach c mark (c.erowBytes_length ts axis fn.toNat) rfl hline (by omega)
      · exact Cell.scratch_writeEach_outside c mark (c.erowBytes_length ts axis fn.toNat) rfl hline (by omega)
end

section
/-!
PROOFS. MMA (04 R89-R96; 05 R115-R122), QNT and QNTS (05 R124-R136): what MMA writes into its region where no field, address or block makes it a
fault, and that the quantizers write the scratchpad only.
-/

namespace Sys2Proof.Machine

theorem getD_map_range {α : Type} (f : Nat → α) {n i : Nat} (h : i < n) (d : α) : ((List.range n).map f).getD i d = f i := by
  simp [List.getD_eq_getElem?_getD, h]

/-! MMA. -/

/-- The ranges that an MMA reads: its operands, the scales of those that have them, and the sidecar. -/
def Cell.mmaSpans (c : Cell) (f : MmaF) : List (Nat × Nat) :=
  let m := 32 * (f.ms.val + 1)
  let n := 32 * (f.ns.val + 1)
  let k := f.kb.val + 1
  [((c.reg f.ra).toNat, operandLen f.fa.toNat k m), ((c.reg f.rb).toNat, operandLen f.fb.toNat k n)]
    ++ (if f.sa.toNat = 0 then [] else [((c.reg f.rs).toNat, scaleLen f.sa.toNat k m)])
    ++ (if f.sb.toNat = 0 then [] else [((c.reg f.rt).toNat, scaleLen f.sb.toNat k n)])
    ++ (if f.esc then [((c.reg f.rx).toNat, (k - 1) * 512 + n * 4)] else [])

/-- Nothing makes an MMA of a cell a fault (04 R90-R95, R101). -/
structure Cell.MmaRuns (c : Cell) (f : MmaF) : Prop where
  formats : fmtDefined f.fa.toNat = true ∧ fmtDefined f.fb.toNat = true
  escape : f.esc = true → f.fb.toNat = 11 ∧ intPair f.fa.toNat f.fb.toNat = false
  scales : if intPair f.fa.toNat f.fb.toNat then f.sa = 0 ∧ f.sb = 0
    else scaleAllowed f.fa.toNat f.sa.toNat = true ∧ scaleAllowed f.fb.toNat f.sb.toNat = true
  spans : spansFit (c.mmaSpans f)
  type : f.z = true ∨ c.isInt f.dt = intPair f.fa.toNat f.fb.toNat
  blocks : c.firstBad f.fa.toNat f.fb.toNat (c.reg f.ra).toNat (c.reg f.rb).toNat (32 * (f.ms.val + 1)) (32 * (f.ns.val + 1)) (f.kb.val + 1)
    (if f.esc then some (c.reg f.rx).toNat else none) = none

/-- What element (r, q) of an MMA's region becomes: block by block and panel by panel, the products of A's row r and B's column q are added to it. -/
def Cell.mmaElem (c : Cell) (f : MmaF) (r q : Nat) : Word32 :=
  let fa := f.fa.toNat
  let fb := f.fb.toNat
  let k := f.kb.val + 1
  let rs := (c.reg f.rs).toNat
  let rt := (c.reg f.rt).toNat
  let p := f32 (rne32 ((c.tileScale f.sa.toNat rs).mul (c.tileScale f.sb.toNat rt))).1
  let x := c.line fa f.sa.toNat (c.reg f.ra).toNat rs k r none
  let y := c.line fb f.sb.toNat (c.reg f.rb).toNat rt k q (if f.esc then some (c.reg f.rx).toNat else none)
  let start := (if f.z then (0 : Word32) else c.elem f.dt r q, false)
  (if intPair fa fb then (List.zip x.blks y.blks).foldl (fun acc z => accumulateInt acc z.1 z.2) start
    else (List.zip x.blks y.blks).foldl (fun acc z => accumulate acc (blockSum (decide (fa ≤ 1) || decide (fb ≤ 1)) p z.1 z.2)) start).1

/-- The checks of an MMA's scales, of the fault DETAIL 0x07, pass (04 R90, R91). -/
theorem Cell.MmaRuns.scalesPass {c : Cell} {f : MmaF} (h : c.MmaRuns f) :
    (intPair f.fa.toNat f.fb.toNat && (f.sa.toNat != 0 || f.sb.toNat != 0)) = false
      ∧ (!intPair f.fa.toNat f.fb.toNat && (!scaleAllowed f.fa.toNat f.sa.toNat || !scaleAllowed f.fb.toNat f.sb.toNat)) = false := by
  have hscales := h.scales
  cases hpair : intPair f.fa.toNat f.fb.toNat
  · rw [hpair, if_neg Bool.false_ne_true] at hscales
    simp [hscales]
  · rw [hpair, if_pos rfl] at hscales
    simp [hscales]

theorem mmaRun_writes {c : Cell} {f : MmaF} (h : c.MmaRuns f) (g : Guard) : (mmaRun c g f).Writes c g f.dt (32 * (f.ms.val + 1)) (32 * (f.ns.val + 1))
    (intPair f.fa.toNat f.fb.toNat) (c.mmaElem f) := by
  obtain ⟨hfa, hfb⟩ := h.formats
  obtain ⟨hint, hfloat⟩ := h.scalesPass
  have hescape : (f.esc && (f.fb.toNat != 11 || intPair f.fa.toNat f.fb.toNat)) = false := by
    cases hesc : f.esc
    · rfl
    · obtain ⟨hform, hpair⟩ := h.escape hesc
      rw [hpair, hform]
      rfl
  have htype : (!f.z && c.isInt f.dt != intPair f.fa.toNat f.fb.toNat) = false := by
    rcases h.type with hz | htype
    · simp [hz]
    · simp [htype]
  have hspans := spanFault_none h.spans
  simp only [Cell.mmaSpans] at hspans
  simp only [mmaRun, hfa, hfb, hescape, hint, hfloat, htype, hspans, h.blocks, Bool.not_true, Bool.or_self, Bool.false_eq_true, if_false]
  refine ⟨_, rfl, fun r q hr hq => ?_⟩
  simp only [getD_map_range _ hr, getD_map_range _ hq]
  rfl

/-- A cell with the cycles of its array counted (04 R113). -/
def Cell.counted (c : Cell) (cycles wait : Nat) : Cell := { c with mmaCycles := cycles, bankWait := wait }

theorem Cell.tileBecame_counted {c d : Cell} {t : Nat} {int : Bool} {el : Nat → Nat → Word32} (h : c.tileBecame d t int el) (cycles wait : Nat) :
    c.tileBecame (d.counted cycles wait) t int el := h

/-- An MMA that nothing makes a fault computes its region, and its cell goes past it. -/
theorem exec_mma_computes {cell : CellId} {f : MmaF} {s : State} (hfree : s.runsFree cell (mmaFoot f (s.cell cell))) (hmma : (s.cell cell).MmaRuns f) :
    ∃ d g, exec (.mma cell f) s = .next (s.tick.computed cell d g)
      ∧ (s.cell cell).tileBecame d f.dt (intPair f.fa.toNat f.fb.toNat) (fun r q =>
        if r < 32 * (f.ms.val + 1) ∧ q < 32 * (f.ns.val + 1) then (s.cell cell).mmaElem f r q else (s.cell cell).elem f.dt r q)
      ∧ d.mmaCycles = satAdd 64 (s.cell cell).mmaCycles (mmaCyclesOf f) := by
  obtain ⟨⟨hquiet, hmay, hcode⟩, hconf⟩ := hfree
  obtain ⟨w, hwrite, hel⟩ := mmaRun_writes hmma (s.guardOf cell)
  obtain ⟨g, hok⟩ := (s.cell cell).writeTile_eq (s.guardOf cell) f.dt (32 * (f.ms.val + 1)) (32 * (f.ns.val + 1)) (intPair f.fa.toNat f.fb.toNat) w
  let cycles := satAdd 64 (s.cell cell).mmaCycles (mmaCyclesOf f)
  let wait := satAdd 64 (s.cell cell).bankWait (Config.freeValue s.freeCtr).toNat
  have hm : 32 * (f.ms.val + 1) ≤ 128 := by omega
  have hn : 32 * (f.ns.val + 1) ≤ 128 := by omega
  let d := (s.cell cell).tileWritten f.dt (32 * (f.ms.val + 1)) (32 * (f.ns.val + 1)) (intPair f.fa.toNat f.fb.toNat) w
  have hspot : (s.tick.cell cell).SameSpot (d.counted cycles wait) := ⟨rfl, rfl, rfl⟩
  refine ⟨d.counted cycles wait, g, ?_, Cell.tileBecame_counted (Cell.tileBecame_tileWritten _ (f := w) hm hn fun r q _ _ => ?_) cycles wait, rfl⟩
  · rw [exec_mma, execMma, State.doMma, State.issueTile_free hmay hconf, hwrite, hok]
    exact closing_compute (s := s.tick) hquiet hcode hspot 1 g
  · by_cases hin : r < 32 * (f.ms.val + 1) ∧ q < 32 * (f.ns.val + 1)
    · rw [if_pos hin, if_pos hin, hel r q hin.1 hin.2]
    · rw [if_neg hin, if_neg hin]

/-! QNT and QNTS. -/

theorem Cell.writeLines_scratchOnly (c : Cell) (a : Nat) (data : List Byte) (mark : Nat → Bool) : c.ScratchOnly (c.writeLines a data mark) :=
  foldl_rel .refl .trans _ (fun x _ => x.write_scratchOnly ..) _ _

theorem fmtDefined_of_target {f : Nat} (h : isTarget f = true) : fmtDefined f = true := by
  simp only [isTarget, fmtDefined, decide_eq_true_eq] at h ⊢
  omega

/-- A quantizer whose fields and addresses make no fault writes its codes and scales, and nothing of its cell but the scratchpad. -/
theorem qntRun_ok {c : Cell} {a : QntArgs} (hrnd : a.rnd < 2) (htarget : isTarget a.f = true) (hscale : scaleAllowed a.f a.sm = true)
    (hdata : spansFit [(a.ra, 512 * blockBytes a.f)]) (hscales : a.sm ≠ 0 → spansFit [(a.rb, scaleLen a.sm 4 128)])
    (hgiven : a.sm ≠ 0 → ∀ r, a.given = some r → spansFit [(r, scaleLen a.sm 4 128)]) (g : Guard) (thr pc : Nat) (trap : Bool) :
    ∃ d g', qntRun c g a thr pc trap = .ok d g' ∧ c.ScratchOnly d := by
  have hfields : (!fmtDefined a.f || decide (2 ≤ a.rnd)) = false := by simp [fmtDefined_of_target htarget, hrnd]
  simp only [qntRun, hfields, htarget, hscale, Bool.not_true, Bool.or_self, Bool.false_eq_true, if_false]
  split
  case h_1 d hfault =>
    rw [spanFault_none] at hfault
    · cases hfault
    · rw [spansFit_append, spansFit_append]
      refine ⟨⟨hdata, ?_⟩, ?_⟩
      · exact spansFit_unless fun hsm => spansFit_single.1 (hscales hsm)
      · split
        · next r hr =>
          by_cases hsm : a.sm = 0
          · rw [if_pos hsm] at hr
            cases hr
          · exact hgiven hsm r ((if_neg hsm).symm.trans hr)
        · exact spansFit_nil
  case h_2 =>
    refine ⟨_, _, rfl, ?_⟩
    split
    · exact c.writeLines_scratchOnly ..
    · exact (c.writeLines_scratchOnly ..).trans (Cell.writeLines_scratchOnly ..)
    · exact ((c.writeLines_scratchOnly ..).trans (Cell.write_scratchOnly ..)).trans (Cell.writeLines_scratchOnly ..)

theorem State.doQuant_free {cell : CellId} {s : State} {f : QntF} {rc : Option Nat} (hfree : s.runsFree cell (qntFoot f rc (s.cell cell))) (op : Nat)
    (ins : Instr) : s.doQuant cell op f rc ins = s.compute cell op (qntRun (s.cell cell) (s.guardOf cell) (qntArgs (s.cell cell) f rc)
      (s.cell cell).excThr (s.cell cell).pc (s.cell cell).excTrap) := State.issueTile_runsFree hfree

end Sys2Proof.Machine

open Sys2Proof Sys2Proof.Machine

/-- Settles O10: an MMA that its checks pass computes its region; a quantizer that its checks pass leaves all but the scratchpad. -/
theorem mmaAndQuantizeCompute : Obligations.MmaAndQuantizeCompute := by
  refine ⟨?mma, ?qnt, ?qnts⟩
  case mma =>
    intro cell f s c fa fb m n k a b rs rt rx side hfree hfa hfb hesc hscales haAlign haFits hbAlign hbFits hsa hsb hx htype hblocks
    have hmode : ∀ {x : BitVec 2}, x.toNat ≠ 0 → x ≠ 0 := fun hx hzero => hx (by rw [hzero]; rfl)
    refine exec_mma_computes hfree ⟨⟨hfa, hfb⟩, hesc, hscales, ?spans, htype, hblocks⟩
    rw [Cell.mmaSpans, spansFit_append, spansFit_append, spansFit_append]
    refine ⟨⟨⟨?_, spansFit_unless fun hne => hsa (hmode hne)⟩, spansFit_unless fun hne => hsb (hmode hne)⟩, ?_⟩
    · exact (spansFit_append (l := [_])).2 ⟨spansFit_single.2 ⟨haAlign, haFits⟩, spansFit_single.2 ⟨hbAlign, hbFits⟩⟩
    · split
      · next htrue => exact spansFit_single.2 (hx htrue)
      · exact spansFit_nil
  case qnt =>
    intro cell f s c q hfree hrnd htarget hscale halign hfits hscales
    obtain ⟨d, g, hok, honly⟩ := qntRun_ok (c := c) (a := q) hrnd htarget hscale (spansFit_single.2 ⟨halign, hfits⟩)
      (fun hsm => spansFit_single.2 (hscales hsm)) (fun _ _ hnone => nomatch hnone) (s.guardOf cell) c.excThr c.pc c.excTrap
    obtain ⟨htiles, hints, hregs, hpc⟩ := honly.stands
    refine computes_ok hfree.1 (op := 0x10) ?_ hok honly.spot ⟨htiles, hints, hregs, hpc, g, hok⟩
    rw [exec_qnt, execQnt, State.doQuant_free hfree]
  case qnts =>
    intro cell f rc s c q given hfree hrnd htarget hscale halign hfits hscales
    have hgiven : ∀ r, q.given = some r → r = given := fun r hr => (Option.some.inj hr).symm
    obtain ⟨d, g, hok, honly⟩ := qntRun_ok (c := c) (a := q) hrnd htarget hscale (spansFit_single.2 ⟨halign, hfits⟩)
      (fun hsm => spansFit_single.2 ⟨(hscales hsm).1, (hscales hsm).2.1⟩)
      (fun hsm r hr => spansFit_single.2 (hgiven r hr ▸ (hscales hsm).2.2)) (s.guardOf cell) c.excThr c.pc c.excTrap
    obtain ⟨htiles, hints, hregs, hpc⟩ := honly.stands
    refine computes_ok hfree.1 (op := 0x11) ?_ hok honly.spot ⟨htiles, hints, hregs, hpc, g, hok⟩
    rw [exec_qnts, execQnts, State.doQuant_free hfree]
end

section
/-!
PROOFS. The pool operations of a service core (06 R158-R163).
-/

namespace Sys2Proof.Machine

/-! Slots and free pages of a pool. -/

@[simp] theorem Pool.slot_updSlot (q : Pool) (k : Nat) (f : Slot → Slot) : (q.updSlot k f).slot k = f (q.slot k) := Tab.get_upd_same _ _ _ _

/-- The page that is picked is a free one, where the pool has any (06 R159). -/
theorem State.pickPage_free (s : State) {q : Pool} (h : q.freePages ≠ []) : ∃ x ∈ q.freePages, s.pickPage q = (s.tick, x) := by
  have hlt : (Config.freeValue s.freeCtr).toNat % max 1 q.freePages.length < q.freePages.length := by
    have hpos := List.length_pos_iff.2 h
    rw [Nat.max_eq_right hpos]
    exact Nat.mod_lt _ hpos
  refine ⟨_, List.getElem_mem hlt, ?_⟩
  rw [State.pickPage, List.getD_eq_getElem _ _ hlt]

@[simp] theorem State.pool_coreRd (s : State) (core v n p : Nat) : (s.coreRd core v).pool n p = s.pool n p := rfl

theorem State.Stored.pools {s t : State} : s.Stored t → t.pools = s.pools := by rintro ⟨_, _, _, _, _, _, _, _, _, _, _, rfl⟩; rfl
theorem State.pool_congr {s t : State} (h : t.pools = s.pools) (n p : Nat) : t.pool n p = s.pool n p := by unfold State.pool; rw [h]

/-! The operation that rs1 and rs2 name. -/

section Names
variable {rs1 rs2 : Word64} (s : State) (n p : Nat)

theorem State.poolFn_join (h : poolNames rs1 0 true) (hhigh : bits rs2.toNat 63 52 = 0) (hlow : bits rs2.toNat 1 0 = 0) :
    s.poolFn n p rs1.toNat rs2.toNat = some (s.poolJoin n p (bits rs1.toNat 28 16) rs2.toNat) := by
  obtain ⟨hop, hjoin, h63, h15, h7, h3⟩ := h
  simp [State.poolFn, hop, hjoin, h63, h15, h7, h3, hhigh, hlow]

theorem State.poolFn_grow (h : poolNames rs1 0 false) :
    s.poolFn n p rs1.toNat (0 : Word64).toNat = some (s.poolGrow n p (bits rs1.toNat 28 16)) := by
  obtain ⟨hop, hjoin, h63, h15, h7, h3⟩ := h
  simp [State.poolFn, hop, hjoin, h63, h15, h7, h3]

theorem State.poolFn_free (h : poolNames rs1 1 false) :
    s.poolFn n p rs1.toNat (0 : Word64).toNat = some (s.poolFree n p (bits rs1.toNat 28 16)) := by
  obtain ⟨hop, hjoin, h63, h15, h7, h3⟩ := h
  simp [State.poolFn, hop, hjoin, h63, h15, h7, h3]

theorem State.poolFn_begin (h : poolNames rs1 2 false) : s.poolFn n p rs1.toNat (0 : Word64).toNat = some (s.stepBegin n p) := by
  obtain ⟨hop, hjoin, h63, h15, h7, h3⟩ := h
  simp [State.poolFn, hop, hjoin, h63, h15, h7, h3]

theorem State.poolFn_end (h : poolNames rs1 3 false) : s.poolFn n p rs1.toNat (0 : Word64).toNat = some (s.stepEnd n p) := by
  obtain ⟨hop, hjoin, h63, h15, h7, h3⟩ := h
  simp [State.poolFn, hop, hjoin, h63, h15, h7, h3]

theorem State.poolFn_reserve (h : poolNames rs1 4 false) (hhigh : bits rs2.toNat 63 16 = 0) :
    s.poolFn n p rs1.toNat rs2.toNat = some (s.reserveSet n p (bits rs2.toNat 15 0)) := by
  obtain ⟨hop, hjoin, h63, h15, h7, h3⟩ := h
  simp [State.poolFn, hop, hjoin, h63, h15, h7, h3, hhigh]

/-- A reserved OP names nothing (06 R161). -/
theorem State.poolFn_reserved (h : 4 < bits rs1.toNat 10 8) : s.poolFn n p rs1.toNat rs2.toNat = none := by
  unfold State.poolFn
  split
  case h_6 => rfl
  all_goals omega

end Names

/-! FJ.POOL. -/

section Issues
variable {core : CoreId} {s : State} (hissues : s.coreIssues core) {rs1 rs2 : Word64}
include hissues

/-- FJ.POOL on a pool that the partition has returns what the operation named gives (06 R161). -/
theorem State.closing_fjPool {r : State × Nat} (htotal : (s.pool (s.corePart core) (bits rs1.toNat 1 0)).total ≠ 0)
    (hfn : s.poolFn (s.corePart core) (bits rs1.toNat 1 0) rs1.toNat rs2.toNat = some r) (hdues : r.1.dues = s.dues) :
    closing (s.fjPool core rs1 rs2) = .next (r.1.coreRd core r.2) := by
  simp only [State.fjPool, State.xfjm_issues hissues, hfn, if_neg htotal]
  exact closing_coreRd hissues.1 hdues ..

/-- FJ.POOL that names no operation is DENIED (06 R161). -/
theorem State.closing_fjPool_reserved (hop : 4 < bits rs1.toNat 10 8) :
    closing (s.fjPool core rs1 rs2) = .next (s.coreRd core St.denied.toNat) := by
  simp only [State.fjPool, State.xfjm_issues hissues, State.poolFn_reserved _ _ _ hop]
  exact closing_coreRd hissues.1 rfl ..

end Issues

/-! What each operation gives on its way through (06 R162, R163). -/

section Operations
variable {s : State} {n p k : Nat}

/-- Pool p once a join of slot k waits. -/
def Pool.joined (q : Pool) (k need list : Nat) : Pool :=
  { q.updSlot k (fun _ => { state := 1, need := need, list := list, status := St.pending }) with queue := q.queue ++ [k] }

theorem Pool.slot_joined (q : Pool) (k need list : Nat) :
    (q.joined k need list).slot k = { state := 1, need := need, list := list, status := St.pending } := by
  simp [Pool.slot, Pool.joined, Pool.updSlot]

theorem State.poolJoin_queues {rs2 : Nat} (hstate : ((s.pool n p).slot k).state = 0) (hneed : bits rs2 51 40 ≠ 0)
    (hlist : bits rs2 39 0 + 16384 ≤ s.ppaSize n) (hroom : (s.pool n p).queue.length < 1024) :
    s.poolJoin n p k rs2 =
      (s.updPool n p (fun q => q.joined k (bits rs2 51 40) (bits rs2 39 0)), poolRd St.pending (s.pool n p).queue.length 0) := by
  simp [State.poolJoin, Pool.joined, hstate, hneed, Nat.not_lt.2 hlist, Nat.not_le.2 hroom]

/-- A slot with page x more. -/
def Slot.gave (y : Slot) (x : Nat) : Slot := { y with pages := y.pages ++ [x] }
/-- A slot that has grown in the open step. -/
def Slot.grown (y : Slot) : Slot := { y with grew := true }

/-- Pool p once slot k has its free page x. -/
def Pool.gave (q : Pool) (k x : Nat) : Pool := { q.updSlot k (fun y => y.gave x) with free := q.free - 1 }
/-- Pool p once slot k counts as grown: its growth was reserved (06 R163 rule 5). -/
def Pool.grown (q : Pool) (k : Nat) : Pool := { q.updSlot k Slot.grown with reserve := q.reserve - 1 }

theorem Pool.slot_gave (q : Pool) (k x : Nat) : (q.gave k x).slot k = (q.slot k).gave x := q.slot_updSlot k (fun y => y.gave x)
theorem Pool.slot_grown (q : Pool) (k : Nat) : (q.grown k).slot k = (q.slot k).grown := q.slot_updSlot k Slot.grown

section Gives
variable (himages : (s.code n).images = []) (hfree : (s.pool n p).freePages ≠ [])
  (hok : ∀ x ∈ (s.pool n p).freePages,
    (s.tick.hubWrite n (((s.pool n p).slot k).list + 4 * ((s.pool n p).slot k).pages.length) (leBytes 4 x)).2 = St.ok)
include himages hfree hok

/-- A free page is given where its list word can be written; what that write stores is no pool's (06 R159). -/
theorem State.givePage_gives : ∃ x ∈ (s.pool n p).freePages, ∃ t, s.Stored t ∧ s.givePage n p k = (t.updPool n p (fun q => q.gave k x), x, St.ok) := by
  obtain ⟨x, hx, hpick⟩ := s.pickPage_free hfree
  refine ⟨x, hx, _, s.tick_stored.trans (State.hubWrite_stored (s := s.tick) himages
    (((s.pool n p).slot k).list + 4 * ((s.pool n p).slot k).pages.length) (leBytes 4 x) {}), ?_⟩
  simp only [State.givePage, hpick, hok x hx, if_true]
  rfl

/-- A stream's growth in the open step takes a free page. -/
theorem State.poolGrow_grows (hopen : (s.pool n p).isOpen = true) (hstate : ((s.pool n p).slot k).state = 2)
    (hgrew : ((s.pool n p).slot k).grew = false) (hpages : ((s.pool n p).slot k).pages.length < 4095) :
    ∃ x ∈ (s.pool n p).freePages, ∃ t, s.Stored t ∧ s.poolGrow n p k =
      ((t.updPool n p (fun q => q.gave k x)).updPool n p (fun q => q.grown k), poolRd St.ok x (((s.pool n p).slot k).pages.length + 1)) := by
  obtain ⟨x, hx, t, ht, hgive⟩ := State.givePage_gives himages hfree hok
  refine ⟨x, hx, t, ht, ?_⟩
  simp only [State.poolGrow, hgrew, hopen, hstate, hgive, Nat.not_le.2 hpages, bne_self_eq_false, Bool.not_true, decide_false, Bool.or_self,
    Bool.false_eq_true, if_false, if_true]
  rfl

end Gives

/-- Pool p once slot k is ended: a queued join leaves the queue, a stream's pages go back at the end of the open step, else at the next
STEP_BEGIN (06 R162). -/
def Pool.freed (q : Pool) (k : Nat) : Pool :=
  if (q.slot k).state = 1 then { q.updSlot k (fun _ => {}) with queue := q.queue.filter (fun j => j != k) }
  else if q.isOpen then { q.updSlot k (fun x => { x with state := 3 }) with
    reserve := if (q.slot k).grew then q.reserve else q.reserve - 1, running := q.running - 1 }
  else { q.updSlot k (fun _ => {}) with deferPages := q.deferPages ++ (q.slot k).pages, running := q.running - 1 }

/-- A pool changes by what the change makes of the pool it is. -/
theorem State.updPool_congr {f g : Pool → Pool} (h : f (s.pool n p) = g (s.pool n p)) : s.updPool n p f = s.updPool n p g := by
  simp only [State.updPool, Tab.upd]
  exact congrArg (fun q => { s with pools := Tab.set {} s.pools (n * 4 + p) q }) h

theorem State.poolFree_frees (h : ((s.pool n p).slot k).state = 1 ∨ ((s.pool n p).slot k).state = 2) :
    s.poolFree n p k = (s.updPool n p (fun q => q.freed k), poolRd St.ok ((s.pool n p).slot k).pages.length 0) := by
  rcases h with hqueued | hstream
  · rw [State.poolFree, if_pos hqueued, State.updPool_congr]
    simp only [Pool.freed, if_pos hqueued]
  · have hne : ((s.pool n p).slot k).state ≠ 1 := by omega
    rw [State.poolFree, if_neg hne, if_pos hstream]
    by_cases hopen : (s.pool n p).isOpen = true
    · rw [if_pos hopen, State.updPool_congr]
      simp only [Pool.freed, if_neg hne, if_pos hopen]
    · rw [if_neg hopen, State.updPool_congr]
      simp only [Pool.freed, if_neg hne, if_neg hopen]

section Freed
variable {q : Pool} {k : Nat}

theorem Pool.state_slot_freed (h : (q.slot k).state = 1 ∨ (q.slot k).state = 2) :
    ((q.freed k).slot k).state = if (q.slot k).state = 2 ∧ q.isOpen = true then 3 else 0 := by
  unfold Pool.freed
  rcases h with hqueued | hstream
  · simp only [hqueued, if_true, Nat.reduceEqDiff, false_and, if_false]
    simp [Pool.slot, Pool.updSlot]
  · cases hopen : q.isOpen
    all_goals
      simp only [hstream, Nat.reduceEqDiff, Bool.false_eq_true, and_false, and_self, if_false, if_true]
      simp [Pool.slot, Pool.updSlot]

theorem Pool.deferPages_freed (h : (q.slot k).state = 1 ∨ (q.slot k).state = 2) :
    (q.freed k).deferPages = if (q.slot k).state = 2 ∧ q.isOpen = false then q.deferPages ++ (q.slot k).pages else q.deferPages := by
  unfold Pool.freed
  rcases h with hqueued | hstream
  · simp [hqueued, Pool.updSlot]
  · cases hopen : q.isOpen <;> simp [hstream, Pool.updSlot]

theorem Pool.queue_freed : (q.freed k).queue = if (q.slot k).state = 1 then q.queue.filter (fun j => j != k) else q.queue := by
  unfold Pool.freed
  split
  · rfl
  · split <;> rfl

theorem Pool.free_freed : (q.freed k).free = q.free := by
  unfold Pool.freed
  split
  · rfl
  · split <;> rfl

end Freed

/-- Pool p once its deferred pages are free again (06 R163 rule 1). -/
def Pool.refilled (q : Pool) : Pool := { q with free := q.free + q.deferPages.length, deferPages := [] }
/-- Pool p once STEP_BEGIN finds no join queued: a step is open where the free pages cover the reserve (06 R163 rule 2). -/
def Pool.begun (q : Pool) : Pool :=
  if q.free + q.deferPages.length < q.running + q.extra then q.refilled
  else { q.refilled with isOpen := true, step := satAdd 32 q.step 1, reserve := q.running + q.extra }

/-- With no join queued none is let in. -/
theorem State.letIn_none (h : (s.pool n p).queue = []) (fuel joins : Nat) : State.letIn n p fuel joins s = (s, joins, St.ok) := by
  cases fuel with
  | zero => rfl
  | succ fuel => simp only [State.letIn, h]

theorem State.stepBegin_begins (hclosed : (s.pool n p).isOpen = false) (hqueue : (s.pool n p).queue = []) :
    ∃ t v, s.stepBegin n p = (t, v) ∧ t.pool n p = (s.pool n p).begun ∧ t.dues = s.dues ∧ t.mem = s.mem := by
  simp only [State.stepBegin, hclosed, Bool.false_eq_true, if_false]
  split
  · next hshort =>
    refine ⟨_, _, rfl, ?_, rfl, rfl⟩
    rw [State.pool_updPool, State.pool_updPool, hqueue, Pool.begun, if_pos hshort]
    simp [Pool.refilled, hqueue]
  · next hcovers =>
    rw [State.letIn_none (by simpa using hqueue)]
    refine ⟨_, _, rfl, ?_, by simp, by simp⟩
    simp only [State.pool_updPool]
    rw [hqueue, Pool.begun, if_neg hcovers]
    simp [Pool.refilled, hqueue]

/-- A slot at the end of a step: one that was freed in it is empty, the others may grow again (06 R162). -/
def Slot.ended (x : Slot) : Slot := if x.state = 3 then {} else { x with grew := false }

/-- Pool p once its step ends. -/
def Pool.ended (q : Pool) : Pool :=
  { q with deferPages := q.deferPages ++ ((q.slots.filter (fun e => e.2.state == 3)).map (fun e => e.2.pages)).flatten, reserve := 0, isOpen := false
           slots := Tab.mapVals {} (fun _ x => x.ended) q.slots }

theorem Pool.slot_ended {q : Pool} (h : Tab.wf {} q.slots = true) (k : Nat) : (q.ended).slot k = (q.slot k).ended :=
  Tab.get_mapVals _ _ (fun _ => rfl) _ h k

theorem State.stepEnd_ends (hopen : (s.pool n p).isOpen = true) :
    ∃ v, s.stepEnd n p = (s.updPool n p Pool.ended, v) := by
  simp only [State.stepEnd, hopen, Bool.not_true, Bool.false_eq_true, if_false]
  exact ⟨_, rfl⟩

theorem State.reserveSet_sets (hclosed : (s.pool n p).isOpen = false) (extra : Nat) :
    s.reserveSet n p extra = (s.updPool n p (fun q => { q with extra := extra }), poolRd St.ok extra 0) := by
  simp only [State.reserveSet, hclosed, Bool.false_eq_true, if_false]

end Operations

end Sys2Proof.Machine

open Sys2Proof Sys2Proof.Machine

/-- Settles O20: each operation that is named runs on its pool, and what it gives there is what rd and the pool show. -/
theorem poolOperations : Obligations.PoolOperations := by
  refine ⟨?join, ?growth, ?free, ?begin_, ?end_, ?reserve, ?reserved⟩
  case join =>
    intro core rs1 rs2 s n p k q hissues hnames hhigh hlow htotal hstate hneed hlist hroom
    have hfn := (s.poolFn_join n p hnames hhigh hlow).trans (congrArg some (State.poolJoin_queues hstate hneed hlist hroom))
    have hpool : ((s.updPool n p (fun q => q.joined k (bits rs2.toNat 51 40) (bits rs2.toNat 39 0))).coreRd core
      (poolRd St.pending q.queue.length 0)).pool n p = q.joined k (bits rs2.toNat 51 40) (bits rs2.toNat 39 0) :=
      (State.pool_coreRd ..).trans (State.pool_updPool ..)
    refine ⟨_, State.closing_fjPool hissues (rs2 := rs2) htotal hfn rfl, ?_, ?_, ?_, State.rd_coreRd .., rfl⟩ <;> rw [hpool]
    · exact q.slot_joined ..
    · rfl
    · rfl
  case growth =>
    intro core rs1 s n p k q hun hissues hnames htotal hopen hstate hgrew hpages hfree hok
    obtain ⟨x, hx, t, ht, hgrow⟩ := State.poolGrow_grows hun.2 hfree hok hopen hstate hgrew hpages
    have hfn := (s.poolFn_grow n p hnames).trans (congrArg some hgrow)
    have hgrown : (((t.updPool n p (fun q => q.gave k x)).updPool n p (fun q => q.grown k)).coreRd core
        (poolRd St.ok x ((q.slot k).pages.length + 1))).pool n p = (q.gave k x).grown k := by
      rw [State.pool_coreRd, State.pool_updPool, State.pool_updPool, State.pool_congr ht.pools]
    have hslot : (((q.gave k x).grown k).slot k) = ((q.slot k).gave x).grown := by rw [Pool.slot_grown, Pool.slot_gave]
    refine ⟨_, State.closing_fjPool hissues (rs2 := 0) htotal hfn ht.dues, x, hx, ?_, ?_, ?_, ?_, State.rd_coreRd ..⟩ <;> rw [hgrown]
    · rw [hslot]
      rfl
    · rw [hslot]
      rfl
    · rfl
    · rfl
  case free =>
    intro core rs1 s n p k q hissues hnames htotal hstate
    have hfn := (s.poolFn_free n p hnames).trans (congrArg some (State.poolFree_frees hstate))
    have hpool : ((s.updPool n p (fun q => q.freed k)).coreRd core (poolRd St.ok (q.slot k).pages.length 0)).pool n p = q.freed k :=
      (State.pool_coreRd ..).trans (State.pool_updPool ..)
    refine ⟨_, State.closing_fjPool hissues (rs2 := 0) htotal hfn rfl, ?_, ?_, ?_, ?_, State.rd_coreRd .., rfl⟩ <;> rw [hpool]
    · exact Pool.state_slot_freed hstate
    · exact Pool.deferPages_freed hstate
    · exact Pool.queue_freed
    · exact Pool.free_freed
  case begin_ =>
    intro core rs1 s n p q hissues hnames htotal hclosed hqueue
    obtain ⟨t, v, hbegin, hpool, hdues, hmem⟩ := State.stepBegin_begins hclosed hqueue
    have hfn := (s.poolFn_begin n p hnames).trans (congrArg some hbegin)
    have hpool' : (t.coreRd core v).pool n p = q.begun := (State.pool_coreRd ..).trans hpool
    refine ⟨_, State.closing_fjPool hissues (rs2 := 0) htotal hfn hdues, ?_, ?_, ?_, fun hcovers => ?_, hmem⟩ <;> rw [hpool', Pool.begun]
    · split <;> rfl
    · split <;> rfl
    · split
      · next hshort => exact hclosed.trans (decide_eq_false (Nat.not_le.2 hshort)).symm
      · next hcovers => exact (decide_eq_true (Nat.not_lt.1 hcovers)).symm
    · rw [if_neg (Nat.not_lt.2 hcovers)]
  case end_ =>
    intro core rs1 s n p q hissues hnames htotal hopen hwf
    obtain ⟨v, hend⟩ := State.stepEnd_ends hopen
    have hfn := (s.poolFn_end n p hnames).trans (congrArg some hend)
    have hpool : ((s.updPool n p Pool.ended).coreRd core v).pool n p = q.ended := (State.pool_coreRd ..).trans (State.pool_updPool ..)
    refine ⟨_, State.closing_fjPool hissues (rs2 := 0) htotal hfn rfl, ?_, ?_, ?_, fun k => ?_, rfl⟩ <;> rw [hpool]
    · rfl
    · rfl
    · rfl
    · exact Pool.slot_ended hwf k
  case reserve =>
    intro core rs1 rs2 s n p q hissues hnames hhigh htotal hclosed
    have hfn := (s.poolFn_reserve n p hnames hhigh).trans (congrArg some (State.reserveSet_sets hclosed _))
    exact ⟨_, State.closing_fjPool hissues (rs2 := rs2) htotal hfn rfl, (State.pool_coreRd ..).trans (State.pool_updPool ..), State.rd_coreRd .., rfl⟩
  case reserved =>
    intro core rs1 rs2 c s hissues hop hc
    have hdenied := State.closing_fjPool_reserved hissues (rs2 := rs2) hop
    simp only [List.mem_cons, List.not_mem_nil, or_false] at hc
    rcases hc with rfl | rfl | rfl | rfl | rfl | rfl <;> exact hdenied
end

section
/-!
PROOFS. Receive queues and received frames (06 R153-R157; 14 R362, R364, R367).
-/

namespace Sys2Proof.Machine

theorem testBit_setBit_self (v i : Nat) : (setBit v i).testBit i = true := by
  simp [setBit, Nat.testBit_or, Nat.one_shiftLeft, Nat.testBit_two_pow_self]

/-- Setting a bit that is set changes nothing. -/
theorem setBit_of_set {v i : Nat} (h : v.testBit i = true) : setBit v i = v := by
  refine Nat.eq_of_testBit_eq fun k => ?_
  by_cases hk : k = i
  · subst hk
    rw [testBit_setBit_self, h]
  · simp [setBit, Nat.testBit_or, Nat.one_shiftLeft, Nat.testBit_two_pow_of_ne (Ne.symm hk)]

/-- Clearing a bit that is clear changes nothing. -/
theorem clearBit_of_clear {v i : Nat} (h : v.testBit i = false) : clearBit v i = v := by
  simp [clearBit, h]

/-- A set of steps none of which changes the state. -/
theorem forAll_unchanged {l : List Nat} {f : Nat → State → State} {s : State} (h : ∀ j ∈ l, f j s = s) : forAll l f s = s := by
  induction l with
  | nil => rfl
  | cons j l ih =>
    rw [show forAll (j :: l) f s = forAll l f (f j s) from rfl, h j List.mem_cons_self]
    exact ih fun i hi => h i (List.mem_cons_of_mem _ hi)

/-! The registers of a queue (06 R153, R154). -/

/-- The owner's VF reaches its Ethernet queue. -/
theorem State.onEthQ_reached {s : State} {n : PartId} {q : Nat} (hpath : s.pathShut (.vf n) = false) (howner : s.ownerEthQ q = some n.val)
    (f : Nat → State → State) : s.onEthQ (.vf n) q f = f n s := by
  simp [State.onEthQ, hpath, howner, reaches]

theorem keepBits_one (v : Nat) : keepBits v 0 0 = bit (v.testBit 0) := by
  rw [keepBits_eq_bits_mul]
  simp only [bits, bit, Nat.testBit_zero]
  rcases Nat.mod_two_eq_zero_or_one v with h | h <;> simp [h]

/-- The kept fields of CTRL lie above EN. -/
theorem keepBits_even (v hi : Nat) : keepBits v hi 11 % 2 = 0 := by
  rw [keepBits_eq_bits_mul]
  omega

/-- CTRL's value as a write v leaves it: its kept fields and EN. -/
def ctrlKept (v : Nat) : Nat := keepBits v 47 11 + bit (v.testBit 0)

theorem testBit_ctrlKept (v : Nat) : (ctrlKept v).testBit 0 = v.testBit 0 := by
  rw [ctrlKept, Nat.testBit_zero, Nat.add_mod, keepBits_even]
  cases v.testBit 0 <;> rfl

theorem boundFields_ctrlKept (v : Nat) : boundFields (ctrlKept v) = boundFields v := by
  have hbit : bit (v.testBit 0) < 2 := by cases v.testBit 0 <;> decide
  rw [ctrlKept, keepBits_eq_bits_mul]
  simp only [boundFields, bits, Nat.shiftRight_eq_div_pow, Nat.reducePow, Nat.reduceAdd, Nat.reduceSub]
  omega

/-- CTRL takes its kept fields and EN, where the rings allow it and no bound field changes (06 R154). -/
theorem ctrlWrite_taken {c v : Nat} {rings : Bool} (hbound : c.testBit 0 = true → boundFields c = boundFields v)
    (hrings : v.testBit 0 = true → rings = true) : ctrlWrite c v rings = some (ctrlKept v) := by
  have hfree : ¬ (c.testBit 0 && boundFields c != boundFields v) = true := by
    cases hc : c.testBit 0
    · simp
    · simp [hbound hc]
  have hready : ¬ (v.testBit 0 && !rings) = true := by
    cases hv : v.testBit 0
    · simp
    · simp [hrings hv]
  simp only [ctrlWrite, keepBits_one]
  rw [← ctrlKept, boundFields_ctrlKept, testBit_ctrlKept, if_neg hfree, if_neg hready]

/-- Queue q once EN is set (06 R154). -/
def RxQ.enabled (r : RxQ) (v : Nat) : RxQ :=
  { r with ctrl := v, unsignalled := 0, dIdx := r.tail % ringOf r.desc, cIdx := r.cqHead % ringOf r.cq, cFree := r.cqHead % ringOf r.cq }

section Registers
variable {n : PartId} {q : EthQId} {s : State}

/-- A queue changes by what the change makes of the queue it is. -/
theorem State.updRxq_congr {q : Nat} {f g : RxQ → RxQ} (h : f (s.rxq q) = g (s.rxq q)) : s.updRxq q f = s.updRxq q g := by
  simp only [State.updRxq, Tab.upd]
  exact congrArg (fun r => { s with rxqs := Tab.set {} s.rxqs q r }) h

theorem State.writeRxqCtrl_enables {p : Path} {n q v : Nat} (hen : v.testBit 0 = true) (hcore : s.ownerCore (bits v 23 17) = some n)
    (hrings : canEnable (s.rxq q).desc (s.rxq q).cq = true) (hoff : (s.rxq q).ctrl.testBit 0 = false) :
    s.writeRxqCtrl p n q v = s.updRxq q (fun r => r.enabled (keepBits v 47 11 + 1)) := by
  have htaken := ctrlWrite_taken (c := (s.rxq q).ctrl) (v := v) (fun hon => by simp [hoff] at hon) (fun _ => hrings)
  have hkept : ctrlKept v = keepBits v 47 11 + 1 := by simp [ctrlKept, hen, bit]
  simp only [State.writeRxqCtrl, hen, hcore, htaken, bne_self_eq_false, Bool.and_false, Bool.false_eq_true, if_false]
  refine State.updRxq_congr ?_
  rw [testBit_ctrlKept, hen, hoff, if_pos (by rfl), hkept]
  rfl

theorem State.writeRxqCtrl_disables {p : Path} {n q v : Nat} (hoff : v.testBit 0 = false)
    (hbound : (s.rxq q).ctrl.testBit 0 = true → boundFields (s.rxq q).ctrl = boundFields v) :
    s.writeRxqCtrl p n q v = s.updRxq q (fun r => { r with ctrl := keepBits v 47 11 }) := by
  have htaken := ctrlWrite_taken (rings := canEnable (s.rxq q).desc (s.rxq q).cq) hbound (fun hon => by simp [hoff] at hon)
  have hkept : ctrlKept v = keepBits v 47 11 := by simp [ctrlKept, hoff, bit]
  simp only [State.writeRxqCtrl, hoff, htaken, Bool.false_and, Bool.false_eq_true, if_false]
  refine State.updRxq_congr ?_
  rw [testBit_ctrlKept, hoff, hkept]
  rfl

/-- A queue for which no port holds a frame takes none (06 R157). -/
theorem State.drainQueue_empty {q : Nat} (h : ∀ p, p < 16 → (s.port p).held = []) : s.drainQueue q = s :=
  forAll_unchanged fun p hp => by rw [h p (List.mem_range.1 hp)]; rfl

end Registers

/-! What a received frame does (06 R155, R157). -/

theorem State.Stored.rxqs {s t : State} : s.Stored t → t.rxqs = s.rxqs := by rintro ⟨_, _, _, _, _, _, _, _, _, _, _, rfl⟩; rfl
theorem State.Stored.net {s t : State} : s.Stored t → t.net = s.net := by rintro ⟨_, _, _, _, _, _, _, _, _, _, _, rfl⟩; rfl
theorem State.rxq_congr {s t : State} (h : t.rxqs = s.rxqs) (q : Nat) : t.rxq q = s.rxq q := by unfold State.rxq; rw [h]
theorem State.port_congr {s t : State} (h : t.net = s.net) (p : Nat) : t.port p = s.port p := by unfold State.port; rw [h]

/-- Where Pn runs no protected image, its own write stores or changes nothing. -/
theorem State.ppaWrite_stored {s : State} {n : Nat} (h : (s.code n).images = []) (ppa : Nat) (bytes : List Byte) (dross : Bool) (unit : Option Held)
    (p : Via) : s.Stored (s.ppaWrite n ppa bytes dross unit p).1 := by
  unfold State.ppaWrite
  split
  · exact State.Stored.refl s
  · split
    · next hprot => simp [State.protected, h] at hprot
    · split
      · exact State.Stored.refl s
      · exact State.ppaStore_stored ..

/-- What a queue's work leaves: its ring indices moved on by d descriptors and c completions, its drop counter, the ports, and nothing to judge. -/
structure State.RxMoved (s t : State) (q d c : Nat) : Prop where
  dIdx : (t.rxq q).dIdx = (s.rxq q).dIdx + d
  cIdx : (t.rxq q).cIdx = (s.rxq q).cIdx + c
  drop : (t.rxq q).drop = (s.rxq q).drop
  net : t.net = s.net
  dues : t.dues = s.dues
  codes : t.codes = s.codes

theorem State.RxMoved.trans {s t u : State} {q d c d' c' : Nat} (h : s.RxMoved t q d c) (h' : t.RxMoved u q d' c') : s.RxMoved u q (d + d') (c + c') :=
  ⟨by rw [h'.dIdx, h.dIdx, Nat.add_assoc], by rw [h'.cIdx, h.cIdx, Nat.add_assoc], h'.drop.trans h.drop, h'.net.trans h.net, h'.dues.trans h.dues,
    h'.codes.trans h.codes⟩

theorem State.Stored.rxMoved {s t : State} (h : s.Stored t) (q : Nat) : s.RxMoved t q 0 0 := by
  have hq := State.rxq_congr h.rxqs q
  exact ⟨by rw [hq]; rfl, by rw [hq]; rfl, by rw [hq], h.net, h.dues, h.codes⟩

theorem State.queueEvent_rxMoved (s : State) (ctrl q : Nat) : s.RxMoved (s.queueEvent ctrl) q 0 0 := ⟨rfl, rfl, rfl, rfl, rfl, rfl⟩

@[simp] theorem State.rxq_queueEvent (s : State) (ctrl q : Nat) : (s.queueEvent ctrl).rxq q = s.rxq q := rfl

/-- An event of a core that waits in nothing becomes pending (06 R152). -/
theorem State.evt_setEvent {s : State} {core b : Nat} (hwaiting : (s.core core).waiting = none) :
    ((s.setEvent core b).core core).evt = setBit (s.core core).evt b := by
  rw [State.setEvent, State.core_updCore, Core.settleEvents, hwaiting]

/-- A frame that is no RoCEv2 packet is received on Pn's queue where nothing holds it up (14 R367; 06 R157). -/
theorem State.steer_takes {s : State} {p n : Nat} {f : Frame} (hdgram : f.qpn = none) (hready : s.ready n = true)
    (howner : s.ownerEthQ (s.dgramQueue n f) = some n) (hmode : s.portMode p = 1) (hroom : (s.rxq (s.dgramQueue n f)).room = true)
    (hheld : (s.port p).held = []) : s.steer p n f = s.rxTake n (s.dgramQueue n f) 0 0 (s.flowHash n f) 0 f.bytes true := by
  simp [State.steer, hdgram, hready, State.datagram, howner, hmode, hroom, State.rxBehind, hheld]

section Counters
variable (s : State) (q : Nat)

/-- A completion moves the completion ring's index on by one, written or not (06 R155, R156). -/
theorem State.rxComplete_rxMoved {n : Nat} (h : (s.code n).images = []) (trunc : Bool) (status : StatusCode) (len user didx w2 w3 : Nat) :
    s.RxMoved (s.rxComplete n q trunc status len user didx w2 w3) q 0 1 := by
  have hcount : ∀ (t : State) (u : Nat), t.RxMoved (t.updRxq q (fun r => { r with cIdx := r.cIdx + 1, unsignalled := u })) q 0 1 :=
    fun t u => ⟨by simp, by simp, by simp, rfl, rfl, rfl⟩
  have hwrote := fun ppa bytes => (State.ppaWrite_stored h ppa bytes false none {}).rxMoved q
  unfold State.rxComplete
  dsimp only
  split
  · exact ((hwrote _ _).trans (hcount _ _)).trans (State.queueEvent_rxMoved ..)
  · exact (hwrote _ _).trans (hcount _ _)

/-- A receive takes one descriptor and gives one completion (06 R155). -/
theorem State.rxTake_rxMoved {n : Nat} (h : (s.code n).images = []) (kind qpn hash imm : Nat) (bytes : List Byte) (toBuf : Bool) :
    s.RxMoved (s.rxTake n q kind qpn hash imm bytes toBuf) q 1 1 := by
  have htakes : ∀ t : State, s.Stored t → ∀ trunc status len user didx w2 w3, s.RxMoved
      ((t.updRxq q (fun r => { r with dIdx := r.dIdx + 1 })).rxComplete n q trunc status len user didx w2 w3) q 1 1 := by
    intro t ht trunc status len user didx w2 w3
    have htaken : t.RxMoved (t.updRxq q (fun r => { r with dIdx := r.dIdx + 1 })) q 1 0 := ⟨by simp, by simp, by simp, rfl, rfl, rfl⟩
    have himages : ((t.updRxq q (fun r => { r with dIdx := r.dIdx + 1 })).code n).images = [] := (ht.images n).trans h
    exact ((ht.rxMoved q).trans htaken).trans (State.rxComplete_rxMoved _ q himages ..)
  have hread : s.Stored (s.ppaRead n (ringAt (s.rxq q).desc (s.rxq q).dIdx 16) 16).1 := State.ppaReport_stored ..
  unfold State.rxTake
  refine htakes _ ?_ _ _ _ _ _ _ _
  split
  · exact hread
  · split
    · exact hread
    · exact hread.trans (State.ppaWrite_stored ((hread.images n).trans h) ..)

end Counters

end Sys2Proof.Machine

open Sys2Proof Sys2Proof.Machine

/-- Settles O22: a queue's registers change it alone; a frame of one partition takes a descriptor and gives a completion, one of none is counted. -/
theorem receiveQueuesTakeFrames : Obligations.ReceiveQueuesTakeFrames := by
  refine ⟨?enable, ?disable, ?post, ?timer, ?frame⟩
  case enable =>
    intro n q v s hcarries howner hen hcore hrings hoff
    obtain ⟨hquiet, hpath⟩ := hcarries
    refine ⟨s.updRxq q (fun r => r.enabled (keepBits v.toNat 47 11 + 1)), ?_, State.rxq_updRxq .., State.updRxq_mem ..⟩
    rw [exec_rxqEnable, execRxqEnable, State.onEthQ_reached hpath howner, setBit_of_set hen, State.writeRxqCtrl_enables hen hcore hrings hoff]
    exact closing_quiet ((State.updRxq_dues ..).trans hquiet)
  case disable =>
    intro n q v s hcarries howner hoff hbound
    obtain ⟨hquiet, hpath⟩ := hcarries
    refine ⟨s.updRxq q (fun r => { r with ctrl := keepBits v.toNat 47 11 }), ?_, State.rxq_updRxq .., State.updRxq_mem ..⟩
    rw [exec_rxqDisable, execRxqDisable, State.onEthQ_reached hpath howner, clearBit_of_clear hoff, State.writeRxqCtrl_disables hoff hbound]
    exact closing_quiet ((State.updRxq_dues ..).trans hquiet)
  case post =>
    intro n q v s hcarries howner hheld
    obtain ⟨hquiet, hpath⟩ := hcarries
    have hpost : ∀ b : Bool, exec (.rxqPost (.vf n) q b v) s = .next (s.updRxq q (fun r =>
        if b then { r with cqHead := v.toNat % 65536,
                           cFree := if r.ctrl.testBit 0 then releaseTo (ringOf r.cq) (v.toNat % 65536) r.cFree r.cIdx else r.cFree }
        else { r with tail := v.toNat % 65536 })) := by
      intro b
      rw [exec_rxqPost, execRxqPost, State.onEthQ_reached hpath howner, State.writeRxqIndex]
      rw [State.drainQueue_empty (s := s.updRxq _ _) hheld]
      exact closing_quiet ((State.updRxq_dues ..).trans hquiet)
    exact ⟨⟨_, hpost false, State.rxq_updRxq .., State.updRxq_mem ..⟩, ⟨_, hpost true, by simp, by simp, State.updRxq_mem ..⟩⟩
  case timer =>
    intro q s hquiet hseen htime hwaiting
    have hfires : ((s.rxq q).unsignalled != 0 && bits (s.rxq q).ctrl 47 32 != 0) = true := by simp [hseen, htime]
    refine ⟨(s.updRxq q (fun r => { r with unsignalled := 0 })).queueEvent (s.rxq q).ctrl, ?_, ?_, State.evt_setEvent hwaiting, rfl⟩
    · rw [exec_rxqEventTimer, execRxqEventTimer]
      exact (congrArg closing (onlyIf_of hfires)).trans (closing_quiet hquiet)
    · rw [State.rxq_queueEvent, State.rxq_updRxq]
  case frame =>
    intro port f s hquiet hup hmin hmax
    have htaken : ((s.port port).state == 2 && decide (64 ≤ f.bytes.length) && decide (f.bytes.length ≤ 9216)) = true := by simp [hup, hmin, hmax]
    refine ⟨fun hnone => ⟨s.portDrop port, ?_, ?_, rfl, rfl⟩, ?_⟩
    · rw [exec_frameReceived, execFrameReceived, onlyIf_of htaken, hnone]
      exact closing_quiet hquiet
    · simp [State.portDrop]
    · intro n q hone hdgram hready hun howner hmode hroom hheld
      have hsteer := State.steer_takes hdgram hready howner hmode hroom hheld
      have hmoved := s.rxTake_rxMoved q hun.2 0 0 (s.flowHash n f) 0 f.bytes true
      refine ⟨_, ?_, hmoved.dIdx, hmoved.cIdx, hmoved.drop, congrArg Port.drop (State.port_congr hmoved.net port)⟩
      rw [exec_frameReceived, execFrameReceived, onlyIf_of htaken, hone]
      exact (congrArg closing hsteer).trans (closing_quiet (hmoved.dues.trans hquiet))
end

section
/-!
PROOFS. A service core's accesses of one piece (06 R142, R143).
-/

namespace Sys2Proof.Machine

/-- A read of one piece gives what the piece gives. -/
theorem readPieces_one (rd : State → Nat × Nat → State × Except Bool (List Byte)) (s : State) (x : Nat × Nat) : readPieces rd s [x] = rd s x := by
  rcases hread : rd s x with ⟨t, r⟩
  cases r <;> simp [readPieces, hread]

/-- A write of one piece that is taken. -/
theorem writePieces_one {wr : State → Nat × List Byte → State × StatusCode} {s : State} {x : Nat × List Byte} (hok : (wr s x).2 = St.ok) :
    writePieces wr s [x] = ((wr s x).1, true) := by
  simp [writePieces, hok]

/-- A write of one piece that is refused. -/
theorem writePieces_refused {wr : State → Nat × List Byte → State × StatusCode} {s : State} {x : Nat × List Byte} (hbad : (wr s x).2 ≠ St.ok) :
    writePieces wr s [x] = ((wr s x).1, false) := by
  simp [writePieces, hbad]

theorem cutData_one (pa : Nat) (data : List Byte) : cutData [(pa, data.length)] data = [(pa, data)] := by
  simp [cutData]

/-- A range whose bytes a read gives lies in the partition's PPA (01 R22). -/
theorem State.inPpa_of_peek {s : State} {n ppa len : Nat} (hok : (s.ppaPeek n ppa len).2 = (false, St.ok)) : s.inPpa n ppa len = true := by
  by_contra hout
  simp [State.ppaPeek, hout, St.faultBounds, St.ok] at hok

/-- Pn's own write where it runs no protected image and is not on standby. -/
theorem State.ppaWrite_within {s : State} {n ppa : Nat} {bytes : List Byte} (hin : s.inPpa n ppa bytes.length = true) (himages : (s.code n).images = [])
    (hstandby : (s.twin n).state ≠ 4) (dross : Bool) (unit : Option Held) (p : Via) :
    s.ppaWrite n ppa bytes dross unit p = s.ppaStore n ppa bytes dross p := by
  simp [State.ppaWrite, hin, State.protected, himages, hstandby]

section Piece
variable {s : State} {k pa len : Nat} {data : List Byte}

theorem State.readPiece_gives (hok : (s.ppaPeek (s.corePart k) pa len).2 = (false, St.ok)) :
    s.readPiece k pa len = (s.ppaReport (s.corePart k) pa len (corePort k), .ok (s.ppaPeek (s.corePart k) pa len).1) := by
  simp [State.readPiece, State.ppaRead, hok, corePort]

theorem State.writePiece_stores (hin : s.inPpa (s.corePart k) pa data.length = true) (himages : (s.code (s.corePart k)).images = [])
    (hstandby : (s.twin (s.corePart k)).state ≠ 4) : s.writePiece k pa data = s.ppaStore (s.corePart k) pa data false (corePort k) :=
  State.ppaWrite_within hin himages hstandby ..

/-- A core reads one piece of its partition's PPA. -/
theorem State.coreRead_gives {va : Nat} (hplace : s.corePlace k .load va len pa) (hok : (s.ppaPeek (s.corePart k) pa len).2 = (false, St.ok)) :
    s.coreRead k va len = (s.ppaReport (s.corePart k) pa len (corePort k), .ok (s.ppaPeek (s.corePart k) pa len).1) := by
  simp only [State.coreRead, show s.corePieces k .load va len = _ from hplace, readPieces_one, State.readPiece_gives hok]

/-- A core writes one piece of its partition's PPA. -/
theorem State.coreWrite_stores {va : Nat} (hplace : s.corePlace k .store va data.length pa) (hin : s.inPpa (s.corePart k) pa data.length = true)
    (himages : (s.code (s.corePart k)).images = []) (hstandby : (s.twin (s.corePart k)).state ≠ 4)
    (hok : (s.ppaStore (s.corePart k) pa data false (corePort k)).2 = St.ok) :
    s.coreWrite k va data = ((s.ppaStore (s.corePart k) pa data false (corePort k)).1, none) := by
  have hwrite := State.writePiece_stores hin himages hstandby
  have hpieces := writePieces_one (wr := fun (s : State) p => s.writePiece k p.1 p.2) (x := (pa, data)) ((congrArg Prod.snd hwrite).trans hok)
  simp only [State.coreWrite, show s.corePieces k .store va data.length = _ from hplace, cutData_one, hpieces, hwrite, if_true]

end Piece

/-! What a store of memory leaves of a core's view. -/

section Stored
variable {s t : State} (h : s.Stored t)
include h

theorem State.Stored.cores : t.cores = s.cores := by obtain ⟨_, _, _, _, _, _, _, _, _, _, _, rfl⟩ := h; rfl
theorem State.Stored.msgs : t.msgs = s.msgs := by obtain ⟨_, _, _, _, _, _, _, _, _, _, _, rfl⟩ := h; rfl
theorem State.Stored.corePart (k : Nat) : t.corePart k = s.corePart k := by obtain ⟨_, _, _, _, _, _, _, _, _, _, _, rfl⟩ := h; rfl
theorem State.Stored.core (k : Nat) : t.core k = s.core k := State.core_congr h.cores k

end Stored

end Sys2Proof.Machine
end

section
/-!
PROOFS. Events, CSRs, exceptions, task submission and memory accesses of a service core (06 R142, R143, R148, R149; 07 R167, R168).
-/

namespace Sys2Proof.Machine

/-! Traps (06 R143, R149). -/

section Fault
variable (s : State) (k cause tval : Nat) (dross : Bool)

@[simp] theorem State.coreFault_dues : (s.coreFault k cause tval dross).dues = s.dues := rfl
@[simp] theorem State.coreFault_mem : (s.coreFault k cause tval dross).mem = s.mem := rfl
@[simp] theorem State.coreFault_egress : (s.coreFault k cause tval dross).egress = s.egress := rfl
@[simp] theorem State.coreFault_msgs : (s.coreFault k cause tval dross).msgs = s.msgs := rfl
@[simp] theorem State.coreFault_schs : (s.coreFault k cause tval dross).schs = s.schs := rfl

/-- The core that takes an exception. -/
theorem State.core_coreFault : (s.coreFault k cause tval dross).core k = { (s.core k).trap (Config.freeValue s.freeCtr) cause with
    tval := tval, errDross := if cause = 1 || cause = 5 || cause = 7 then dross else (s.core k).errDross } :=
  State.core_updCore ..

theorem State.coreTrapped_coreFault : s.coreTrapped (s.coreFault k cause tval dross) k cause tval := by
  rw [State.coreTrapped, State.core_coreFault]
  exact ⟨rfl, rfl, rfl, rfl, rfl⟩

end Fault

/-- What a core has when an exception of a quiet state ends its command. -/
theorem closing_coreFault {s : State} (hquiet : s.quiet) (k cause tval : Nat) (dross : Bool) :
    closing (s.coreFault k cause tval dross) = .next (s.coreFault k cause tval dross) :=
  closing_quiet ((State.coreFault_dues ..).trans hquiet)

/-! Xfjm CSRs and events (06 R148, R149). -/

/-- A core changes by what the change makes of the core it is. -/
theorem State.updCore_congr {s : State} {k : Nat} {f g : Core → Core} (h : f (s.core k) = g (s.core k)) : s.updCore k f = s.updCore k g := by
  simp only [State.updCore, Tab.upd]
  exact congrArg (fun c => { s with cores := Tab.set {} s.cores k c }) h

theorem closing_updCore {s : State} (hquiet : s.quiet) (k : Nat) (f : Core → Core) : closing (s.updCore k f) = .next (s.updCore k f) :=
  closing_quiet ((State.updCore_dues ..).trans hquiet)

/-- An Xfjm CSR is reached from M- and S-mode (06 R148). -/
theorem State.xfjmCsr_runs {s : State} {k : Nat} (hruns : s.coreRuns k = true) (hpriv : (s.core k).priv ≠ 0) (f : State → State) :
    s.xfjmCsr k f = f s := by
  simp only [State.xfjmCsr, hruns, if_true, if_neg hpriv]

/-- What a write of an Xfjm CSR makes of a core (06 R148): fjevt loses bits and gains none, fjerr ignores it. -/
def Core.csrWritten (c : Core) (v : Nat) : Csr → Core
  | .fjctx => { c with ctx := bits v 11 0 }
  | .fjtwait => { c with twait := max 100 (min v 1000000) }
  | .fjevt => { c with evt := c.evt &&& v }
  | .fjevtie => { c with evtie := v }
  | .fjctl => { c with uen := v.testBit 0 }
  | .fjerr => c

theorem exec_xfjmCsrWrite_runs {core : CoreId} {s : State} (hquiet : s.quiet) (hruns : s.coreRuns core = true) (hpriv : (s.core core).priv ≠ 0)
    (csr : Csr) (v : Word64) : exec (.xfjmCsrWrite core csr v) s = .next (s.updCore core (fun c => c.csrWritten v.toNat csr)) := by
  rw [exec_xfjmCsrWrite, execXfjmCsrWrite, State.xfjmCsr_runs hruns hpriv, ← closing_updCore hquiet]
  cases csr <;> rfl

/-- A core that is left as it is leaves every core so. -/
theorem State.core_updCore_id (s : State) (k j : Nat) : (s.updCore k (fun c => c)).core j = s.core j := by
  by_cases hj : j = k
  · rw [hj, State.core_updCore]
  · rw [State.core_updCore_ne _ _ _ hj]

/-- In U-mode without UEN an Xfjm instruction is illegal (06 R149). -/
theorem closing_xfjm_illegal {s : State} {k : Nat} (hquiet : s.quiet) (hruns : s.coreRuns k = true) (hpriv : (s.core k).priv = 0)
    (huen : (s.core k).uen = false) (f : State → State) : closing (s.xfjm k f) = .next (s.tick.coreFault k 2 (Config.freeValue s.freeCtr).toNat false) := by
  simp only [State.xfjm, hruns, hpriv, huen, if_true, decide_true, Bool.not_false, Bool.and_self]
  exact closing_coreFault (s := s.tick) hquiet ..

/-- What FJ.EVWAIT makes of a core that runs (06 R149, R151). -/
def Core.evWait (c : Core) (core : CoreId) (mask : Word64) : Core := ({ c with waiting := some (.fjEvwait core mask) } : Core).settleEvents

theorem Core.evWait_waits {c : Core} {mask : Word64} (core : CoreId) (h : c.evt &&& mask.toNat = 0) :
    c.evWait core mask = { c with waiting := some (.fjEvwait core mask) } := by
  simp [Core.evWait, Core.settleEvents, h]

theorem Core.evWait_takes {c : Core} {mask : Word64} (core : CoreId) (h : c.evt &&& mask.toNat ≠ 0) : c.evWait core mask =
    { c with waiting := none, rd := BitVec.ofNat 64 (c.evt &&& mask.toNat), evt := c.evt - (c.evt &&& mask.toNat) } := by
  simp [Core.evWait, Core.settleEvents, h]

theorem exec_fjEvwait_issues {core : CoreId} {s : State} (hissues : s.coreIssues core) (mask : Word64) : exec (.fjEvwait core mask) s =
    .next (if mask = 0 then s.coreRd core 0 else s.updCore core (fun c => c.evWait core mask)) := by
  rw [exec_fjEvwait, execFjEvwait, State.xfjm_issues hissues]
  split
  · exact closing_coreRd hissues.1 rfl ..
  · exact closing_updCore hissues.1 ..

/-! Task submission (07 R167, R168). -/

section Stored
variable {s t : State} (h : s.Stored t)
include h

theorem State.Stored.taskDenied (n : Nat) (b : List Byte) (x : Task) : t.taskDenied n b x = s.taskDenied n b x := by
  obtain ⟨_, _, _, _, _, _, _, _, _, _, _, rfl⟩ := h
  rfl

theorem State.Stored.ready (n : Nat) : t.ready n = s.ready n := by obtain ⟨_, _, _, _, _, _, _, _, _, _, _, rfl⟩ := h; rfl
theorem State.Stored.ctxLost (n c : Nat) : t.ctxLost n c = s.ctxLost n c := by obtain ⟨_, _, _, _, _, _, _, _, _, _, _, rfl⟩ := h; rfl
theorem State.Stored.ctx (n c : Nat) : t.ctx n c = s.ctx n c := State.ctx_congr h.ctxs n c
theorem State.Stored.sch (n : Nat) : t.sch n = s.sch n := State.sch_congr h.schs n
theorem State.Stored.ctxStateNow (n c : Nat) : t.ctxStateNow n c = s.ctxStateNow n c := by
  obtain ⟨_, _, _, _, _, _, _, _, _, _, _, rfl⟩ := h
  rfl

end Stored

/-- What showing a context's state leaves: the scheduler, the code images and nothing to judge. -/
structure State.Shown (s t : State) : Prop where
  schs : t.schs = s.schs
  codes : t.codes = s.codes
  dues : t.dues = s.dues

theorem State.Shown.trans {s t u : State} (h : s.Shown t) (h' : t.Shown u) : s.Shown u :=
  ⟨h'.schs.trans h.schs, h'.codes.trans h.codes, h'.dues.trans h.dues⟩

theorem State.Stored.shown {s t : State} (h : s.Stored t) : s.Shown t := ⟨h.schs, h.codes, h.dues⟩
theorem State.updCtx_shown (s : State) (n c : Nat) (f : Ctx → Ctx) : s.Shown (s.updCtx n c f) := ⟨rfl, rfl, rfl⟩

/-- A latch reads the record and changes the context alone. The definition is unfolded before it is applied: applied to its arguments, the kernel
would run the read it looks at. -/
theorem State.latch_updCtx (s : State) (n c : Nat) : ∃ f, s.latch n c = (s.readRecord n c).1.updCtx n c f := by
  obtain ⟨g, hg⟩ : ∃ g, g = State.latch := ⟨_, rfl⟩
  rw [← hg]
  delta State.latch at hg
  subst hg
  beta_reduce
  generalize s.readRecord n c = r
  rcases r with ⟨t, st | b⟩
  · exact ⟨_, rfl⟩
  · dsimp only
    split
    · exact ⟨_, rfl⟩
    · exact ⟨_, rfl⟩
section Show
variable {s : State} {n c : Nat}

theorem State.readRecord_shown : s.Shown (s.readRecord n c).1 := by
  simp only [State.readRecord, State.ppaRead]
  exact (State.ppaReport_stored ..).shown

theorem State.latch_shown : s.Shown (s.latch n c) := by
  obtain ⟨f, hlatch⟩ := s.latch_updCtx n c
  rw [hlatch]
  exact State.readRecord_shown.trans (State.updCtx_shown ..)

theorem State.setCtxState_shown (h : (s.code n).images = []) (st : CtxSt) (status : StatusCode) : s.Shown (s.setCtxState n c st status) := by
  have himages : ((s.updCtx n c (fun x => { x with state := st, status := status })).code n).images = [] := by
    rw [State.code_congr (State.updCtx_codes ..)]
    exact h
  exact (State.updCtx_shown ..).trans (State.putStatus_stored himages c).shown

/-- A context that does not become PREEMPTED changes its record and its status page alone (07 R170). -/
theorem State.reState_shown (h : (s.code n).images = []) (hstays : s.ctxStateNow n c = (s.ctx n c).state ∨ s.ctxStateNow n c ≠ .preempted) :
    s.Shown (s.reState n c) := by
  unfold State.reState
  dsimp only
  split
  · exact ⟨rfl, rfl, rfl⟩
  · next hchanges =>
    rw [if_neg (hstays.resolve_left hchanges)]
    split
    · have hlatch := State.latch_shown (s := s) (n := n) (c := c)
      exact hlatch.trans (State.setCtxState_shown (by rw [State.code_congr hlatch.codes]; exact h) ..)
    · exact State.setCtxState_shown h ..

/-- Task x joins the waiting tasks of Pn. -/
def State.queueTask (s : State) (n : Nat) (x : Task) : State := s.updSch n (fun h => { h with waiting := h.waiting ++ [x] })

theorem State.waiting_queueTask (s : State) (n : Nat) (x : Task) : ((s.queueTask n x).sch n).waiting = (s.sch n).waiting ++ [x] := by
  rw [State.queueTask, State.sch_updSch]

/-- A task more does not preempt its context: with work it is resident, has no gang, or was preempted before. -/
theorem State.ctxStateNow_queueTask {x : Task} (hctx : x.ctx = c) (hshown : (s.ctx n c).state = s.ctxStateNow n c) :
    (s.queueTask n x).ctxStateNow n c = ((s.queueTask n x).ctx n c).state ∨ (s.queueTask n x).ctxStateNow n c ≠ .preempted := by
  refine Classical.or_iff_not_imp_right.2 fun hpre => ?_
  rw [not_not] at hpre
  have hany : ((s.sch n).waiting ++ [x]).any (fun t => t.ctx == c) = true := by simp [hctx]
  have hkeep : (s.queueTask n x).ctx n c = s.ctx n c := rfl
  have hres : (s.queueTask n x).residentOn n c = s.residentOn n c := rfl
  have hgang : ((s.queueTask n x).sch n).gangs = (s.sch n).gangs := by rw [State.queueTask, State.sch_updSch]
  rw [hpre, hkeep, hshown]
  simp only [State.ctxStateNow, State.waiting_queueTask, hgang, hany, hres, hkeep, Bool.not_true, Bool.and_false, Bool.false_eq_true, if_false] at hpre ⊢
  split_ifs at hpre with hlost hheld hsome hgangs
  rw [if_neg hlost, if_neg hheld, if_neg (by simp [hgangs]), if_neg hsome, if_pos hgangs]

/-- A descriptor that passes its checks waits (07 R167, R168). -/
theorem State.submitTask_queues {b : List Byte} {src : TaskSrc} {x : Task} (hx : taskOf c b src = x) (himages : (s.code n).images = [])
    (hallowed : s.taskDenied n b x = false)
    (hroom : ((s.sch n).waiting.filter (fun y => halfOfSite y.site == halfOfSite x.site)).length < 1024)
    (hready : s.ready n = true) (hctx : s.ctxLost n c = false) (hshown : (s.ctx n c).state = s.ctxStateNow n c) :
    ∃ t, s.submitTask n c b src = (t, St.ok) ∧ t.dues = s.dues ∧ (t.sch n).waiting = (s.sch n).waiting ++ [x] := by
  have hbuilt : ((s.part n).state == PState.building) = false := by
    rw [State.ready, beq_iff_eq] at hready
    rw [hready]
    rfl
  have hshows : (s.queueTask n x).Shown ((s.queueTask n x).reState n c) :=
    State.reState_shown himages (State.ctxStateNow_queueTask (hx ▸ rfl) hshown)
  refine ⟨(s.queueTask n x).reState n c, ?_, hshows.dues, ?_⟩
  · simp only [State.submitTask, hx, hallowed, hbuilt, hctx, Nat.not_le.2 hroom, Bool.false_eq_true, if_false]
    rfl
  · rw [State.sch_congr hshows.schs, State.waiting_queueTask]

end Show

/-- FJ.TASK of a descriptor that a core reads and that passes its checks returns OK, and its task waits. -/
theorem exec_fjTask_queues {core : CoreId} {addr : Word64} {pa n c : Nat} {b : List Byte} {x : Task} {s : State} (hissues : s.coreIssues core)
    (hn : s.corePart core = n) (hc : (s.core core).ctx = c) (hx : taskOf c b (.core core) = x)
    (himages : (s.code n).images = []) (hstandby : (s.twin n).state ≠ 4) (hplace : s.corePlace core .load addr.toNat 64 pa)
    (hb : (s.ppaPeek n pa 64).1 = b) (hok : (s.ppaPeek n pa 64).2 = (false, St.ok))
    (hallowed : s.taskDenied n b x = false)
    (hroom : ((s.sch n).waiting.filter (fun y => halfOfSite y.site == halfOfSite x.site)).length < 1024)
    (hready : s.ready n = true) (hlost : s.ctxLost n c = false) (hshown : (s.ctx n c).state = s.ctxStateNow n c) :
    ∃ t : State, exec (.fjTask core addr) s = .next (t.coreRd core 0) ∧ (t.sch n).waiting = (s.sch n).waiting ++ [x] := by
  subst hn
  obtain ⟨r, hr, hst⟩ : ∃ r, s.coreRead core addr.toNat 64 = (r, .ok b) ∧ s.Stored r := by
    have hread := State.coreRead_gives hplace hok
    rw [hb] at hread
    exact ⟨_, hread, State.ppaReport_stored ..⟩
  obtain ⟨t, hsubmit, hdues, hwaits⟩ := State.submitTask_queues (s := r) hx ((hst.images _).trans himages) ((hst.taskDenied ..).trans hallowed)
    ((hst.sch _).symm ▸ hroom) ((hst.ready _).trans hready) ((hst.ctxLost ..).trans hlost)
    ((congrArg Ctx.state (hst.ctx ..)).trans (hshown.trans (hst.ctxStateNow ..).symm))
  refine ⟨t, ?_, by rw [hwaits, hst.sch]⟩
  rw [exec_fjTask, execFjTask]
  simp only [State.xfjm_issues hissues, if_neg hstandby, hr, hst.corePart, hst.core, hc, hsubmit]
  exact closing_coreRd hissues.1 (hdues.trans hst.dues) ..

/-! Memory accesses (06 R142, R143). -/

section Access
variable {s : State} {k va pa len : Nat} {a : VaKind}

/-- An access whose lines no other access holds runs. -/
theorem State.coreOn_lets (hplace : s.corePlace k a va len pa) (hlets : s.lets (s.corePart k) pa len { corePort k with store := a == .store })
    (f : State → State) : s.coreOn k a va len f = f s := by
  have hnone := List.findSome?_eq_none_iff.2 hlets
  simp only [corePort] at hnone
  simp only [State.coreOn, show s.corePieces k a va len = _ from hplace, List.findSome?_cons, List.findSome?_nil, hnone, ite_self]

/-- An access that does not name the PPA waits for no line. -/
theorem State.coreOn_beyond (hplace : s.corePlace k a va len pa) (hout : s.inPpa (s.corePart k) pa len = false) (f : State → State) :
    s.coreOn k a va len f = f s := by
  simp only [State.coreOn, show s.corePieces k a va len = _ from hplace, List.findSome?_cons, List.findSome?_nil, hout, Bool.false_eq_true, if_false]

theorem State.coreTarget_ppa {n : Nat} (hin : s.inPpa n pa len = true) : s.coreTarget n pa len = .ppa := by
  rw [State.coreTarget, if_pos hin]

theorem State.inPpa_of_coreTarget_none {n : Nat} (hnone : s.coreTarget n pa len = .none) : s.inPpa n pa len = false := by
  by_contra hin
  rw [State.coreTarget_ppa (by simpa using hin)] at hnone
  cases hnone

/-- A read that its lines answer returns their bytes to the core. -/
theorem State.coreFetch_gives (hplace : s.corePlace k a va len pa) (hok : (s.ppaPeek (s.corePart k) pa len).2 = (false, St.ok)) :
    s.coreFetch k va len a = (s.ppaReport (s.corePart k) pa len (corePort k)).emit (.coreData k (s.ppaPeek (s.corePart k) pa len).1) := by
  have hload : s.loadPiece k pa len = (s.ppaReport (s.corePart k) pa len (corePort k), .ok (s.ppaPeek (s.corePart k) pa len).1) := by
    rw [State.loadPiece, State.coreTarget_ppa (State.inPpa_of_peek hok)]
    exact State.readPiece_gives hok
  simp only [State.coreFetch, show s.corePieces k a va len = _ from hplace, readPieces_one, hload]

/-- A read of an address with no target is an access fault (06 R143). -/
theorem State.coreFetch_faults (hplace : s.corePlace k a va len pa) (hnone : s.coreTarget (s.corePart k) pa len = .none) :
    s.coreFetch k va len a = s.coreFault k a.accessFault va false := by
  have hload : s.loadPiece k pa len = (s, .error false) := by rw [State.loadPiece, hnone]
  simp only [State.coreFetch, show s.corePieces k a va len = _ from hplace, readPieces_one, hload]

section Store
variable {data : List Byte}

theorem State.coreStores_stores (hplace : s.corePlace k .store va data.length pa) (hin : s.inPpa (s.corePart k) pa data.length = true)
    (himages : (s.code (s.corePart k)).images = []) (hstandby : (s.twin (s.corePart k)).state ≠ 4)
    (hok : (s.ppaStore (s.corePart k) pa data false (corePort k)).2 = St.ok) :
    s.coreStores k va data = (s.ppaStore (s.corePart k) pa data false (corePort k)).1 := by
  have hstore : s.storePiece k pa data = s.ppaStore (s.corePart k) pa data false (corePort k) := by
    rw [State.storePiece, State.coreTarget_ppa hin]
    exact State.writePiece_stores hin himages hstandby
  have hpieces := writePieces_one (wr := fun (s : State) p => s.storePiece k p.1 p.2) (x := (pa, data)) ((congrArg Prod.snd hstore).trans hok)
  simp only [State.coreStores, show s.corePieces k .store va data.length = _ from hplace, cutData_one, hpieces, hstore, if_true]

/-- A store to an address with no target is an access fault (06 R143). -/
theorem State.coreStores_faults (hplace : s.corePlace k .store va data.length pa)
    (hnone : s.coreTarget (s.corePart k) pa data.length = .none) : s.coreStores k va data = s.coreFault k 7 va false := by
  have hstore : s.storePiece k pa data = (s, St.faultBounds) := by rw [State.storePiece, hnone]
  have hpieces := writePieces_refused (wr := fun (s : State) p => s.storePiece k p.1 p.2) (s := s) (x := (pa, data))
    (by simp [hstore, St.faultBounds, St.ok])
  simp only [State.coreStores, show s.corePieces k .store va data.length = _ from hplace, cutData_one, hpieces, hstore, Bool.false_eq_true, if_false]

/-- So is an AMO. -/
theorem State.coreAmo_faults (hplace : s.corePlace k .store va data.length pa)
    (hnone : s.coreTarget (s.corePart k) pa data.length = .none) : s.coreAmo k va data = s.coreFault k 7 va false := by
  have hload : s.loadPiece k pa data.length = (s, .error false) := by rw [State.loadPiece, hnone]
  simp only [State.coreAmo, show s.corePieces k .store va data.length = _ from hplace, readPieces_one, hload]

end Store

end Access

section Presents
variable {core : CoreId} {s : State} (hruns : s.coreRuns core = true) (hfree : s.heldUnit (some (.cluster (core.val / 8))) = false)
include hruns hfree

/-- A core of a cluster that no Fence holds presents its access (15 R414). -/
theorem exec_coreMemoryAccess_load (a len : Nat) : exec (.coreMemoryAccess core a (.load len)) s =
    closing (s.coreOn core .load a len (fun s => s.coreFetch core a len .load)) := by
  rw [exec_coreMemoryAccess, execCoreMemoryAccess]
  exact congrArg closing (onlyIf_of (by simp [hruns, hfree]))

theorem exec_coreMemoryAccess_fetch (a len : Nat) : exec (.coreMemoryAccess core a (.fetch len)) s =
    closing (s.coreOn core .fetch a len (fun s => s.coreFetch core a len .fetch)) := by
  rw [exec_coreMemoryAccess, execCoreMemoryAccess]
  exact congrArg closing (onlyIf_of (by simp [hruns, hfree]))

theorem exec_coreMemoryAccess_store (a : Nat) (data : List Byte) : exec (.coreMemoryAccess core a (.store data)) s =
    closing (s.coreOn core .store a data.length (fun s => s.coreStores core a data)) := by
  rw [exec_coreMemoryAccess, execCoreMemoryAccess]
  exact congrArg closing (onlyIf_of (by simp [hruns, hfree]))

theorem exec_coreMemoryAccess_amo (a : Nat) (data : List Byte) : exec (.coreMemoryAccess core a (.amo data)) s =
    closing (s.coreOn core .store a data.length (fun s => s.coreAmo core a data)) := by
  rw [exec_coreMemoryAccess, execCoreMemoryAccess]
  exact congrArg closing (onlyIf_of (by simp [hruns, hfree]))

end Presents

end Sys2Proof.Machine

open Sys2Proof Sys2Proof.Machine

/-- Settles O19: an instruction that issues does what its registers and CSRs say, one that may not traps, and an access runs where its lines let it and
faults where its address has no target. -/
theorem coreEventsCsrsAndMemory : Obligations.CoreEventsCsrsAndMemory := by
  refine ⟨?events, ?csrs, ?illegal, ?user, ?interrupt, ?task, ?access, ?faults⟩
  case events =>
    intro core mask s hissues
    have hwait := exec_fjEvwait_issues hissues mask
    refine ⟨fun hzero => by rw [hwait, if_pos hzero], fun hmask hnone => ?_, fun hmask hsome => ?_, fun hpriv => ?_⟩
    · rw [hwait, if_neg hmask]
      exact congrArg Host.Outcome.next (State.updCore_congr (g := fun c => { c with waiting := some (.fjEvwait core mask) })
        (Core.evWait_waits core hnone))
    · rw [if_neg hmask] at hwait
      refine ⟨_, hwait, ?_⟩
      beta_reduce
      rw [State.core_updCore, Core.evWait_takes core hsome]
      exact ⟨rfl, rfl, rfl⟩
    · rw [exec_fjevtClear, execFjevtClear, State.xfjmCsr_runs hissues.2.1 hpriv]
      exact closing_updCore hissues.1 ..
  case csrs =>
    intro core v s hquiet hruns hpriv
    have hwrite := fun csr => exec_xfjmCsrWrite_runs hquiet hruns hpriv csr v
    refine ⟨hwrite .fjctx, hwrite .fjtwait, hwrite .fjevtie, hwrite .fjctl, fun hkept => ?_, fun w hexec k => ?_⟩
    · rw [hwrite .fjevt, State.updCore_congr]
      rw [Core.csrWritten, Nat.and_comm, hkept]
    · rw [hwrite .fjerr] at hexec
      cases hexec
      exact State.core_updCore_id ..
  case illegal =>
    intro core w s hquiet hruns hillegal
    refine ⟨s.coreFault core 2 w.toNat false, ?_, State.coreTrapped_coreFault .., ?_, State.coreFault_mem ..⟩
    · rw [exec_illegalInstruction, execIllegalInstruction, onlyIf_of (by rw [hruns, hillegal]; rfl)]
      exact closing_coreFault hquiet ..
    · rw [State.core_coreFault]
      rfl
  case user =>
    intro core c a b s hquiet hruns hpriv huen hc
    have htraps := fun f => closing_xfjm_illegal hquiet hruns hpriv huen f
    refine ⟨s.tick.coreFault core 2 (Config.freeValue s.freeCtr).toNat false, ?_, ⟨_, State.coreTrapped_coreFault s.tick ..⟩, rfl, rfl, rfl, rfl⟩
    simp only [List.mem_cons, List.not_mem_nil, or_false] at hc
    rcases hc with rfl | rfl | rfl | rfl | rfl | rfl | rfl | rfl | rfl | rfl <;> exact htraps _
  case interrupt =>
    intro core s hquiet hreset
    have htrap : (s.tick.updCore core (fun c => c.trap (Config.freeValue s.freeCtr) (s.intCause core))).core core =
      (s.core core).trap (Config.freeValue s.freeCtr) (s.intCause core) := State.core_updCore ..
    refine ⟨s.tick.updCore core (fun c => c.trap (Config.freeValue s.freeCtr) (s.intCause core)), ?_, ?_⟩
    · rw [exec_coreInterrupt, execCoreInterrupt]
      exact (congrArg closing (onlyIf_of (by simp [hreset]))).trans (closing_updCore (s := s.tick) hquiet ..)
    · beta_reduce
      rw [htrap]
      exact ⟨rfl, rfl, rfl, rfl, rfl, rfl, rfl, rfl, rfl⟩
  case task =>
    intro core addr pa s n b task hun hissues hstandby hplace hok hallowed hroom hready hlost hshown
    obtain ⟨t, hexec, hwaits⟩ := exec_fjTask_queues (n := n) (b := b) hissues rfl rfl rfl hun.2 hstandby hplace rfl hok hallowed hroom hready hlost
      hshown
    exact ⟨_, hexec, State.rd_coreRd .., hwaits⟩
  case access =>
    intro core a pa len data s n hun hruns hfree
    refine ⟨fun hplace hlets hok => ?_, fun hplace hlets hin hstandby hok => ?_⟩
    · rw [exec_coreMemoryAccess_load hruns hfree, State.coreOn_lets hplace hlets, State.coreFetch_gives hplace hok]
      exact closing_quiet ((State.emit_dues ..).trans ((State.ppaReport_stored ..).dues.trans hun.1))
    · rw [exec_coreMemoryAccess_store hruns hfree, State.coreOn_lets hplace hlets, State.coreStores_stores hplace hin hun.2 hstandby hok]
      exact closing_quiet ((State.ppaStore_stored ..).dues.trans hun.1)
  case faults =>
    intro core a pa len data s n faults hquiet hruns hfree
    have htraps : ∀ {c : Instr} {cause : Nat}, exec c s = closing (s.coreFault core cause a false) → faults c cause := fun hexec =>
      ⟨_, hexec.trans (closing_coreFault hquiet ..), State.coreTrapped_coreFault .., State.coreFault_mem ..⟩
    refine ⟨fun hnone => ⟨fun hplace => htraps ?_, fun hplace => htraps ?_⟩, fun hnone hplace => ⟨htraps ?_, htraps ?_⟩⟩
    all_goals have hout := State.inPpa_of_coreTarget_none hnone
    · rw [exec_coreMemoryAccess_load hruns hfree, State.coreOn_beyond hplace hout, State.coreFetch_faults hplace hnone]
      rfl
    · rw [exec_coreMemoryAccess_fetch hruns hfree, State.coreOn_beyond hplace hout, State.coreFetch_faults hplace hnone]
      rfl
    · rw [exec_coreMemoryAccess_store hruns hfree, State.coreOn_beyond hplace hout, State.coreStores_faults hplace hnone]
    · rw [exec_coreMemoryAccess_amo hruns hfree, State.coreOn_beyond hplace hout, State.coreAmo_faults hplace hnone]
end

section
/-!
PROOFS. What a read of a line leaves of FAB_ISOLATED: the registers that memory, caches and directories count in are others (08 R208; 09 R235;
10 R263).
-/

namespace Sys2Proof.Machine

/-- FAB_ISOLATED of every half stands. -/
structure State.KeepsIso (s t : State) : Prop where
  iso (h : Nat) : t.reg (isoAddr h) = s.reg (isoAddr h)

section Keeps
variable {s t u : State}

theorem State.KeepsIso.refl (s : State) : s.KeepsIso s := ⟨fun _ => rfl⟩
theorem State.KeepsIso.trans (h : s.KeepsIso t) (h' : t.KeepsIso u) : s.KeepsIso u := ⟨fun k => (h'.iso k).trans (h.iso k)⟩
theorem State.KeepsIso.ite {c : Prop} [Decidable c] (ht : s.KeepsIso t) (hu : s.KeepsIso u) : s.KeepsIso (if c then t else u) := by
  split <;> assumption

/-- What changes no register keeps it. -/
theorem State.KeepsIso.of_regs (h : t.regs = s.regs) : s.KeepsIso t := ⟨fun _ => State.reg_congr h _⟩

theorem State.Noted.keepsIso (h : s.Noted t) : s.KeepsIso t := by
  obtain ⟨_, _, _, _, rfl⟩ := h
  exact .of_regs rfl

end Keeps

/-! The registers that count (09 R235; 10 R263). -/

theorem State.addReg_keepsIso (s : State) {a : Nat} (ha : ∀ h, isoAddr h ≠ a) (w k : Nat) : s.KeepsIso (s.addReg a w k) :=
  ⟨fun h => State.reg_setReg_ne _ _ _ (ha h)⟩

theorem isoAddr_ne_slcPartAddr {g h n o : Nat} (hn : n ≤ 16) (ho : o < 0x40) : isoAddr g ≠ slcPartAddr h n o := by
  simp only [isoAddr, slcPartAddr, regAddr, regBase]
  omega

theorem isoAddr_ne_hmcAddr (g k n : Nat) : isoAddr g ≠ hmcAddr k (0x110 + n * 0x20) := by
  simp only [isoAddr, hmcAddr, regAddr, regBase]
  omega

theorem State.ownerPch_lt {s : State} {i n : Nat} (h : s.ownerPch i = some n) : n < 16 := by
  unfold State.ownerPch State.ownerBy at h
  exact List.mem_range.1 (List.mem_of_find?_eq_some h)

theorem State.ownerPch_le (s : State) (i : Nat) : (s.ownerPch i).getD 16 ≤ 16 := by
  cases h : s.ownerPch i with
  | none => exact Nat.le_refl 16
  | some n => exact (State.ownerPch_lt h).le

/-! HBM (10 R243, R247, R251). -/

theorem State.updPch_keepsIso (s : State) (i : Nat) (f : Pch → Pch) : s.KeepsIso (s.updPch i f) := .of_regs rfl

theorem State.reportFail_keepsIso (s : State) (l : Nat) : s.KeepsIso (s.reportFail l) := by
  unfold State.reportFail
  exact (s.updPch_keepsIso ..).trans (State.rasError_noted ..).keepsIso

theorem State.charge_keepsIso (s : State) (l : Nat) : s.KeepsIso (s.charge l) := by
  unfold State.charge
  split
  · unfold State.stkCharge
    exact ⟨fun g => (State.addReg_keepsIso _ (fun g => isoAddr_ne_hmcAddr g _ _) _ _).iso g⟩
  · exact .refl s

theorem State.hbmWrite_keepsIso (s : State) (l : Nat) (data : List Byte) (dross : Bool) : s.KeepsIso (s.hbmWrite l data dross) :=
  (s.updPch_keepsIso ..).trans (.ite (.refl _) ((State.charge_keepsIso ..).trans (.of_regs rfl)))

theorem State.rmw_keepsIso (s : State) (e : Wcb) : s.KeepsIso (s.rmw e) :=
  ((s.updPch_keepsIso ..).trans (.ite (State.reportFail_keepsIso ..) (.refl _))).trans (State.hbmWrite_keepsIso ..)

theorem State.hbmPartial_keepsIso (s : State) (l mask : Nat) (data : List Byte) (dross : Bool) : s.KeepsIso (s.hbmPartial l mask data dross) := by
  have hfree : ∀ o : List Wcb, s.KeepsIso (match o with | [] => s | e :: _ => s.rmw e) := by
    intro o
    cases o with
    | nil => exact .refl s
    | cons e o => exact s.rmw_keepsIso e
  exact .ite (.refl s) (.ite ((s.hbmWrite_keepsIso ..).trans (State.updPch_keepsIso ..)) (.ite (s.updPch_keepsIso ..)
    (State.KeepsIso.trans (.ite (hfree _) (.refl s)) (State.updPch_keepsIso ..))))

/-! Caches and directories (09 R219-R235). -/

section Slc
variable (s : State) (l : Nat)

theorem State.coh_keepsIso (k : Coh) : s.KeepsIso { s with coh := k } := .of_regs rfl
theorem State.setSlc_keepsIso (h : Nat) (c : Option SlcLine) : s.KeepsIso (s.setSlc h l c) := .of_regs rfl
theorem State.setDir_keepsIso (h : Nat) (e : DirEnt) : s.KeepsIso (s.setDir h l e) := .of_regs rfl
theorem State.setCopy_keepsIso (h a : Nat) (c : Copy) : s.KeepsIso (s.setCopy h a l c) := .of_regs rfl
theorem State.setWb_keepsIso (h a : Nat) (w : Option WbEnt) : s.KeepsIso (s.setWb h a l w) := .of_regs rfl
theorem State.closeTxn_keepsIso (h : Nat) : s.KeepsIso (s.closeTxn h l) := .of_regs rfl
theorem State.strayResponse_keepsIso (h : Nat) : s.KeepsIso (s.strayResponse h) := .of_regs rfl

theorem State.countLook_keepsIso {h n : Nat} (hn : n ≤ 16) (hit : Bool) : s.KeepsIso (s.countLook h n hit) :=
  s.addReg_keepsIso (fun _ => isoAddr_ne_slcPartAddr hn (by cases hit <;> decide)) ..

theorem State.refuse_keepsIso {h n : Nat} (hn : n ≤ 16) (r : Nat) (full : Bool) : s.KeepsIso (s.refuse h r l n full) :=
  .ite (.refl s) ((s.coh_keepsIso _).trans (State.addReg_keepsIso _ (fun _ => isoAddr_ne_slcPartAddr hn (by decide)) ..))

theorem State.answer_keepsIso (t : Txn) (r : Rd) : s.KeepsIso (s.answer t l r) := by
  unfold State.answer
  split
  · exact .ite (s.strayResponse_keepsIso _) (.of_regs rfl)
  · exact .refl s

theorem State.clearHalf_keepsIso (h : Nat) : s.KeepsIso (s.clearHalf h l) :=
  (forAll_rel State.KeepsIso.refl State.KeepsIso.trans _ (fun _ _ => (State.setCopy_keepsIso ..).trans (State.setWb_keepsIso ..)) _ s).trans
    (State.setDir_keepsIso ..)

theorem State.evictProxy_keepsIso (got : Option Copy) : s.KeepsIso (s.evictProxy l got) := by
  have hgone := ((s.clearHalf_keepsIso l (1 - homeOf l)).trans (State.setSlc_keepsIso _ l (1 - homeOf l) none)).trans
    (State.setCopy_keepsIso _ l (homeOf l) 14 {})
  unfold State.evictProxy
  dsimp only
  split
  · exact .ite (hgone.trans (State.setWb_keepsIso ..)) (.ite (hgone.trans (State.setWb_keepsIso ..)) hgone)
  · exact hgone

theorem State.evictSlc_keepsIso (h : Nat) : s.KeepsIso (s.evictSlc h l) := by
  unfold State.evictSlc
  split
  · exact .refl s
  · exact .ite (.ite ((s.setSlc_keepsIso ..).trans (State.hbmWrite_keepsIso ..)) (s.setSlc_keepsIso ..)) (s.evictProxy_keepsIso ..)

theorem State.fillSlc_keepsIso (h n : Nat) (data : List Byte) (dross dirty : Bool) (hint : Hint) :
    s.KeepsIso (s.fillSlc h l n data dross dirty hint) := by
  have hout := s.setSlc_keepsIso l h none
  have hput : ∀ (a : State) c, a.KeepsIso (a.cohTick.setSlc h l c) := fun _ _ => .of_regs rfl
  unfold State.fillSlc
  dsimp only
  split
  · next place t way hplace =>
    refine State.KeepsIso.trans (t := t) ?_ (hput ..)
    split at hplace
    · cases hplace
      exact hout
    · simp only [Option.map_eq_some_iff, Prod.mk.injEq] at hplace
      obtain ⟨v, -, rfl, -⟩ := hplace
      exact hout.trans (State.evictSlc_keepsIso ..)
  · exact hout

theorem State.touchSlc_keepsIso (h n : Nat) (hint : Hint) : s.KeepsIso (s.touchSlc h l n hint) := by
  unfold State.touchSlc
  split
  · exact .refl s
  · exact .ite (.refl s) (.of_regs rfl)

theorem State.putLine_keepsIso (h n : Nat) (data : List Byte) (dross : Bool) (hint : Hint) : s.KeepsIso (s.putLine h l n data dross hint) := by
  refine .ite ((s.setSlc_keepsIso ..).trans (State.hbmWrite_keepsIso ..)) ?_
  split
  · exact (s.setSlc_keepsIso ..).trans (State.touchSlc_keepsIso ..)
  · exact .ite (s.fillSlc_keepsIso ..) (.ite (s.hbmWrite_keepsIso ..) (.refl s))

theorem State.keepAtProxy_keepsIso (h n : Nat) (t : Txn) (r : Rd) : s.KeepsIso (s.keepAtProxy h l n t r) :=
  .ite ((s.coh_keepsIso _).trans (State.fillSlc_keepsIso ..)) (.refl s)

theorem State.dropCopies_keepsIso : s.KeepsIso (s.dropCopies l) := .of_regs rfl

/-- A lookup at a half that counts it there. -/
theorem State.lineData_keepsIso {h n : Nat} (hn : n ≤ 16) (hint : Hint) : s.KeepsIso (s.lineData h l n hint).1 := by
  have hmiss := s.countLook_keepsIso (h := h) hn false
  have hreport : ∀ a : State, a.KeepsIso (if (a.hbmPeek l).fails then a.reportFail l else a) := fun a => .ite (a.reportFail_keepsIso l) (.refl a)
  have hcharge : ∀ a : State, a.KeepsIso (if a.lineOffline l || a.lineCleared l then a else a.charge l) := fun a => .ite (.refl a) (a.charge_keepsIso l)
  unfold State.lineData
  split
  · exact (s.touchSlc_keepsIso ..).trans (State.countLook_keepsIso _ hn _)
  · by_cases hhome : homeOf l = h
    · simp only [hhome, if_true]
      have hread := hmiss.trans ((hreport _).trans (hcharge _))
      exact .ite (hread.trans (State.fillSlc_keepsIso ..)) hread
    · simp only [hhome, if_false]
      exact hmiss

theorem State.txnLine_keepsIso {h n : Nat} (hn : n ≤ 16) (t : Txn) : s.KeepsIso (s.txnLine h l n t).1 := by
  unfold State.txnLine
  split
  · exact .refl s
  · exact s.lineData_keepsIso l hn _

/-! Transactions (09 R225-R232). -/

theorem State.finishGrant_keepsIso (h : Nat) {n : Nat} (hn : n ≤ 16) (t : Txn) : s.KeepsIso (s.finishGrant h l n t) := by
  have hline : s.KeepsIso (if t.noData then ((s, { data := [], dross := false, status := St.ok, fails := false }) : State × Rd)
      else s.txnLine h l n t).1 := by
    split
    · exact .refl s
    · exact s.txnLine_keepsIso l hn t
  unfold State.finishGrant
  dsimp only
  refine .ite (State.KeepsIso.trans hline (State.KeepsIso.trans ?_ (State.closeTxn_keepsIso ..))) (hline.trans (State.setDir_keepsIso ..))
  refine (State.KeepsIso.trans ?_ (State.setDir_keepsIso ..)).trans (State.strayResponse_keepsIso ..)
  exact .ite (State.putLine_keepsIso ..) (.refl _)

theorem State.finishRead_keepsIso (h : Nat) {n : Nat} (hn : n ≤ 16) (t : Txn) : s.KeepsIso (s.finishRead h l n t) :=
  (s.txnLine_keepsIso l hn t).trans ((((State.setDir_keepsIso ..).trans (State.keepAtProxy_keepsIso ..)).trans (State.answer_keepsIso ..)).trans
    (State.closeTxn_keepsIso ..))

theorem State.finishWrite_keepsIso (h : Nat) (t : Txn) (st : StatusCode) : s.KeepsIso (s.finishWrite h l t st) :=
  ((State.setDir_keepsIso ..).trans (State.answer_keepsIso ..)).trans (State.closeTxn_keepsIso ..)

theorem State.mergeLine_keepsIso (h n : Nat) (t : Txn) : s.KeepsIso (s.mergeLine h l n t) := by
  unfold State.mergeLine
  split
  · exact (s.dropCopies_keepsIso l).trans (State.putLine_keepsIso ..)
  · exact (s.dropCopies_keepsIso l).trans (State.hbmPartial_keepsIso ..)

theorem State.finishEvict_keepsIso (h n : Nat) (t : Txn) : s.KeepsIso (s.finishEvict h l n t) := by
  refine State.KeepsIso.trans ?_ ((State.setDir_keepsIso ..).trans (State.closeTxn_keepsIso ..))
  refine .ite ?_ (State.evictProxy_keepsIso ..)
  split
  · exact .ite (State.putLine_keepsIso ..) (.refl s)
  · exact .refl s

theorem State.finishTxn_keepsIso (h : Nat) : s.KeepsIso (s.finishTxn h l) := by
  have hn := s.ownerPch_le (pchOfLine l)
  unfold State.finishTxn
  dsimp only
  split
  · exact .refl s
  · split
    · exact s.finishGrant_keepsIso l h hn _
    · exact s.finishGrant_keepsIso l h hn _
    · exact s.finishGrant_keepsIso l h hn _
    · exact s.finishRead_keepsIso l h hn _
    · exact (((s.dropCopies_keepsIso l).trans (State.putLine_keepsIso ..)).trans (State.countLook_keepsIso _ hn _)).trans (State.finishWrite_keepsIso ..)
    · exact ((s.mergeLine_keepsIso ..).trans (State.countLook_keepsIso _ hn _)).trans (State.finishWrite_keepsIso ..)
    · exact .refl s
    · exact s.finishEvict_keepsIso ..

theorem State.serveEntry_keepsIso (h n : Nat) (t : Txn) : s.KeepsIso (s.serveEntry h l n t) := by
  have hopen : ∀ e, s.KeepsIso (s.cohTick.setDir h l e) := fun _ => .of_regs rfl
  unfold State.serveEntry
  dsimp only
  split
  · exact .ite ((hopen _).trans (State.finishTxn_keepsIso ..)) (hopen _)
  · exact hopen _

theorem State.serve_keepsIso (h n : Nat) (t : Txn) : s.KeepsIso (s.serve h l n t) := .ite (s.serveEntry_keepsIso ..) (s.setDir_keepsIso ..)

theorem State.takeIn_keepsIso (h : Nat) {n : Nat} (hn : n ≤ 16) (t : Txn) : s.KeepsIso (s.takeIn h l n t) := by
  refine .ite (s.serve_keepsIso ..) (.ite (s.serve_keepsIso ..) ?_)
  split
  · exact s.refuse_keepsIso l hn ..
  · have hevict : ∀ e k x, s.KeepsIso (((s.setDir h l e).addReg (slcPartAddr h n 0x20) 64 1).serveEntry h k n x) := fun e k x =>
      ((s.setDir_keepsIso ..).trans (State.addReg_keepsIso _ (fun _ => isoAddr_ne_slcPartAddr hn (by decide)) ..)).trans (State.serveEntry_keepsIso ..)
    exact .ite ((hevict ..).trans (State.serve_keepsIso ..)) (hevict ..)

theorem State.request_keepsIso (h : Nat) {n : Nat} (hn : n ≤ 16) (tally : Bool) (t : Txn) : s.KeepsIso (s.request h l n tally t) := by
  have hin : ∀ a : State, a.KeepsIso (if (a.dirEnt h l).txn.isSome then a.refuse h t.requester l n false
      else if !tally && a.coh.tallies.any (fun x => x.half == h && x.line == l) then a.refuse h t.requester l n false else a.takeIn h l n t) := fun a =>
    .ite (a.refuse_keepsIso l hn ..) (.ite (a.refuse_keepsIso l hn ..) (a.takeIn_keepsIso l h hn t))
  refine .ite (.refl s) (State.KeepsIso.trans ?_ (hin _))
  split
  · exact s.coh_keepsIso _
  · exact .refl s

theorem State.afterEvict_keepsIso (h : Nat) (f : Option Nat) : s.KeepsIso (s.afterEvict h f) := by
  unfold State.afterEvict
  split
  · exact .refl s
  · split
    · exact .ite (s.serve_keepsIso ..) (.refl s)
    · exact .refl s

theorem State.advanceTxn_keepsIso (h : Nat) : s.KeepsIso (s.advanceTxn h l) := by
  unfold State.advanceTxn
  split
  · exact .ite ((s.finishTxn_keepsIso ..).trans (State.afterEvict_keepsIso ..)) (.refl s)
  · exact .refl s

/-! Snoops (09 R224, R228). -/

theorem State.snoopAgent_keepsIso (k : Snoop) (h a : Nat) : s.KeepsIso (s.snoopAgent k h a l).1 := by
  unfold State.snoopAgent
  split
  · split
    · exact .refl s
    · exact .of_regs rfl
  · exact .of_regs rfl

theorem State.snoopProxy_keepsIso (k : Snoop) : s.KeepsIso (s.snoopProxy k l).1 := by
  have hshares : s.KeepsIso ((s.copiesShare (1 - homeOf l) l).entryShares (1 - homeOf l) l) :=
    (forAll_rel State.KeepsIso.refl State.KeepsIso.trans _ (fun _ _ => State.setCopy_keepsIso ..) _ s).trans (.ite (State.setDir_keepsIso ..) (.refl _))
  unfold State.snoopProxy
  dsimp only
  split
  · exact .refl s
  · refine State.KeepsIso.trans ?_ (State.coh_keepsIso ..)
    split
    · exact hshares.trans (State.setSlc_keepsIso ..)
    · exact hshares
  · exact ((s.clearHalf_keepsIso ..).trans (State.setSlc_keepsIso ..)).trans (State.coh_keepsIso ..)

theorem State.snoopOther_keepsIso (k : Snoop) : s.KeepsIso (s.snoopOther k l).1 := by
  unfold State.snoopOther
  split
  · exact s.snoopProxy_keepsIso ..
  · exact (s.snoopAgent_keepsIso ..).trans (State.snoopProxy_keepsIso ..)

theorem State.snoop_keepsIso (k : Snoop) (h a : Nat) : s.KeepsIso (s.snoop k h a l) := by
  have hreach : s.KeepsIso (if a = 14 then s.snoopOther k l else s.snoopAgent k h a l).1 := by
    split
    · exact s.snoopOther_keepsIso ..
    · exact s.snoopAgent_keepsIso ..
  unfold State.snoop
  split
  · exact .refl s
  · exact .ite (hreach.trans (State.setDir_keepsIso ..)) (.refl s)

theorem State.snoopAnswer_keepsIso (h a : Nat) : s.KeepsIso (s.snoopAnswer h a l) := by
  unfold State.snoopAnswer
  split
  · exact .ite ((s.setDir_keepsIso ..).trans (State.advanceTxn_keepsIso ..)) (.refl s)
  · exact .refl s

theorem State.runSnoops_keepsIso (h : Nat) : s.KeepsIso (s.runSnoops h l) :=
  forAll_rel State.KeepsIso.refl State.KeepsIso.trans _ (fun a _ => .ite
    ((foldl_rel State.KeepsIso.refl State.KeepsIso.trans _ (fun b k => b.snoop_keepsIso l k h a) _ _).trans (State.snoopAnswer_keepsIso ..)) (.refl _)) _ s

theorem State.runTxn_keepsIso (h : Nat) : s.KeepsIso (s.runTxn h l) := by
  unfold State.runTxn
  split
  · exact .refl s
  · refine State.KeepsIso.trans (.ite ?_ (.refl s)) (State.runSnoops_keepsIso ..)
    split
    · exact s.runSnoops_keepsIso ..
    · exact .refl s

/-! The requester gets its line (09 R230). -/

theorem State.givenLine_keepsIso (h a : Nat) (t : Txn) : s.KeepsIso (s.givenLine h a l t).1 := by
  unfold State.givenLine
  dsimp only
  split
  · exact .refl s
  · split
    · exact .refl s
    · exact s.lineData_keepsIso l (s.ownerPch_le _) _

theorem State.takeAtProxy_keepsIso (h : Nat) (t : Txn) (data : List Byte) (dross : Bool) : s.KeepsIso (s.takeAtProxy h l t data dross) := by
  have hfill : ∀ k n d x b hint, s.KeepsIso (({ s with coh := k } : State).fillSlc (1 - h) l n d x b hint) := fun k _ _ _ _ _ =>
    (s.coh_keepsIso k).trans (State.fillSlc_keepsIso ..)
  unfold State.takeAtProxy
  dsimp only
  split
  · exact .ite ((hfill ..).trans (State.serveEntry_keepsIso ..)) (hfill ..)
  · exact hfill ..

theorem State.takeAtAgent_keepsIso (h a : Nat) (t : Txn) (data : List Byte) (dross : Bool) : s.KeepsIso (s.takeAtAgent h a l t data dross) := by
  have htick : ∀ b : Bool, s.KeepsIso (if b then s.tick else s) := fun _ => .ite (.of_regs rfl) (.refl s)
  unfold State.takeAtAgent
  exact .ite (((htick _).trans (State.setCopy_keepsIso ..)).trans (State.coh_keepsIso ..)) ((htick _).trans (State.setCopy_keepsIso ..))

theorem State.complete_keepsIso (h a : Nat) : s.KeepsIso (s.complete h a l) := by
  unfold State.complete
  split
  · refine .ite (State.KeepsIso.trans ?_ (State.closeTxn_keepsIso ..)) (.refl s)
    exact .ite ((s.givenLine_keepsIso ..).trans (State.takeAtProxy_keepsIso ..)) ((s.givenLine_keepsIso ..).trans (State.takeAtAgent_keepsIso ..))
  · exact .refl s

/-! Accesses of an agent and of a home (09 R225, R226). -/

theorem State.fetchLine_keepsIso (h a : Nat) {n : Nat} (hn : n ≤ 16) (store : Bool) : s.KeepsIso (s.fetchLine h a l n store) := by
  have hask : ∀ (b : State) k tally t, b.KeepsIso ((b.request k l n tally t).runTxn k l) := fun b k tally t =>
    (b.request_keepsIso l k hn tally t).trans (State.runTxn_keepsIso ..)
  refine .ite (.refl s) (State.KeepsIso.trans ?_ (State.complete_keepsIso ..))
  exact .ite ((((hask ..).trans (hask ..)).trans (State.complete_keepsIso ..)).trans (State.runTxn_keepsIso ..)) (hask ..)

theorem State.homeRun_keepsIso (h : Nat) {n : Nat} (hn : n ≤ 16) (t : Txn) : s.KeepsIso (s.homeRun h l n t) := by
  have hsend : ∀ tally, s.KeepsIso (s.homeSend h l n tally t) := fun tally =>
    .ite (s.request_keepsIso l h hn tally t) (State.KeepsIso.trans (.ite (s.countLook_keepsIso hn _) (.refl s)) (State.request_keepsIso _ l _ hn ..))
  exact (hsend _).trans (State.runTxn_keepsIso ..)

theorem State.readAtHome_keepsIso : s.KeepsIso (s.readAtHome l) :=
  State.KeepsIso.trans (.ite (s.reportFail_keepsIso l) (.refl s)) (.ite (State.charge_keepsIso ..) (.refl _))

theorem State.homeRead_keepsIso {n : Nat} (hn : n ≤ 16) (p : Via) : s.KeepsIso (s.homeRead l n p) :=
  .ite (s.readAtHome_keepsIso l) (s.homeRun_keepsIso l _ hn _)

theorem State.noteRead_keepsIso (p : Via) : s.KeepsIso (s.noteRead l p) := by
  unfold State.noteRead
  split
  · exact s.readAtHome_keepsIso l
  · next hn _ => exact s.homeRead_keepsIso l (State.ownerPch_lt hn).le p
  · next hn _ =>
    have hfetch : ∀ h a, s.KeepsIso (if s.lineBusy l then s else s.fetchLine h a l _ false) := fun h a =>
      .ite (.refl s) (s.fetchLine_keepsIso l h a (State.ownerPch_lt hn).le false)
    exact .ite (hfetch ..) ((hfetch ..).trans (State.homeRead_keepsIso _ l (State.ownerPch_lt hn).le _))

end Slc

/-- A read of a range of a partition isolates nothing and ends no isolation. -/
theorem State.ppaReport_keepsIso (s : State) (n ppa len : Nat) (p : Via) : s.KeepsIso (s.ppaReport n ppa len p) :=
  .ite (foldl_rel State.KeepsIso.refl State.KeepsIso.trans _ (fun _ _ => State.noteRead_keepsIso ..) _ s) (.refl s)

end Sys2Proof.Machine
end

section
/-!
PROOFS. FJ.SND, FJ.SNDNB, FJ.RCV and FJ.RCVNB of a service core (06 R149-R151).
-/

namespace Sys2Proof.Machine

/-! Sending. -/

theorem State.Stored.sites {s t : State} : s.Stored t → t.sites = s.sites := by rintro ⟨_, _, _, _, _, _, _, _, _, _, _, rfl⟩; rfl

/-- A read tells nothing new of a dead site or an isolated cluster. -/
theorem State.onDead_ppaReport (s : State) (n ppa len : Nat) (p : Via) (a : Nat) : (s.ppaReport n ppa len p).onDead a = s.onDead a := by
  have hiso := (s.ppaReport_keepsIso n ppa len p).iso ((a - 0x100) / 64)
  have hsites : (s.ppaReport n ppa len p).sites = s.sites := (State.ppaReport_stored ..).sites
  simp only [State.onDead, State.isolated, hiso, State.site_congr hsites]

/-- A core takes a tally for mailbox b of an address and releases message m there (03 R78; 06 R149). -/
def State.coreReleased (s : State) (k n dest b : Nat) (m : Msg) : State :=
  (s.updMsg (addrKey (coreAddr k) 0) (fun x => x.takeTallies dest b 1)).release
    { src := coreAddr k, ctx := (s.core k).ctx, flight := .msg n (coreAddr k) dest b m }

section Released
variable (s : State) (k n dest b : Nat) (m : Msg)

theorem State.coreReleased_messaged : s.Messaged (s.coreReleased k n dest b m) := (s.updMsg_messaged ..).trans (State.release_messaged ..)
theorem State.msgSt_coreReleased :
    (s.coreReleased k n dest b m).msgSt (addrKey (coreAddr k) 0) = (s.msgSt (addrKey (coreAddr k) 0)).takeTallies dest b 1 := by
  simp [State.coreReleased]
theorem State.egress_coreReleased : (s.coreReleased k n dest b m).egress =
    s.egress ++ [{ src := coreAddr k, ctx := (s.core k).ctx, flight := .msg n (coreAddr k) dest b m }] := rfl

end Released

section Send
variable {s : State} {k addr desc pa n : Nat} (hlen : bits desc 20 14 ≤ 64) (hbits : bits desc 31 22 = 0) (halign : addr % 64 = 0)
  (hplace : s.corePlace k .load addr (bits desc 20 14) pa) (hn : s.corePart k = n) (hok : (s.ppaPeek n pa (bits desc 20 14)).2 = (false, St.ok))
include hlen hbits halign hplace hn hok

/-- A send with a tally in hand takes it and releases its message. -/
theorem State.coreSnd_sends {x : Tally}
    (hentry : (s.msgSt (addrKey (coreAddr k) 0)).entry (bits desc 9 0) (bits desc 13 10) = some x) (hdead : x.dead = false) (hvoid : x.void = false) :
    ∃ m, (∀ nb ins, s.coreSnd k addr desc nb ins =
        ((s.ppaReport n pa (bits desc 20 14) (corePort k)).coreReleased k n (bits desc 9 0) (bits desc 13 10) m).coreRd k 0)
      ∧ m.payload = bslice (s.ppaPeek n pa (bits desc 20 14)).1 0 64 := by
  subst hn
  have hst := s.ppaReport_stored (s.corePart k) pa (bits desc 20 14) (corePort k)
  have hread := State.coreRead_gives hplace hok
  rw [← State.msgSt_congr hst.msgs] at hentry
  have hdenied : (decide (64 < bits desc 20 14) || bits desc 31 22 != 0) = false := by simp [hlen, hbits]
  simp only [State.coreSnd, hdenied, halign, hread, hentry, hdead, hvoid, bne_self_eq_false, Bool.false_eq_true, if_false]
  exact ⟨_, fun _ _ => rfl, rfl⟩

/-- A send without a tally that does not wait is BUSY. -/
theorem State.coreSnd_busy (ins : Instr) (hentry : (s.msgSt (addrKey (coreAddr k) 0)).entry (bits desc 9 0) (bits desc 13 10) = none)
    (hlive : s.onDead (bits desc 9 0) = false) :
    s.coreSnd k addr desc true ins = (s.ppaReport n pa (bits desc 20 14) (corePort k)).coreRd k St.busy.toNat := by
  subst hn
  have hst := s.ppaReport_stored (s.corePart k) pa (bits desc 20 14) (corePort k)
  have hread := State.coreRead_gives hplace hok
  rw [← State.msgSt_congr hst.msgs] at hentry
  rw [← s.onDead_ppaReport (s.corePart k) pa (bits desc 20 14) (corePort k)] at hlive
  simp [State.coreSnd, Nat.not_lt.2 hlen, hbits, halign, hread, hentry, hlive]

end Send

/-! Receiving. -/

section Receive
variable {s : State} {k addr rs2 : Nat} (halign : addr % 16 = 0)
include halign

/-- A receive of a mailbox that holds a message writes the oldest to memory and takes it. -/
theorem State.coreRcv_takes {pa n : Nat} {m : Msg} {rest : List Msg} (hn : s.corePart k = n)
    (himages : (s.code n).images = []) (hplace : s.corePlace k .store addr m.bytes.length pa) (hin : s.inPpa n pa m.bytes.length = true)
    (hstandby : (s.twin n).state ≠ 4) (hheld : ((s.msgSt (addrKey (coreAddr k) 0)).box (bits rs2 3 0)).held = m :: rest)
    (hok : (s.ppaStore n pa m.bytes false (corePort k)).2 = St.ok) :
    ∃ t, (∀ nb ins, s.coreRcv k addr rs2 nb ins = t.coreRd k 0) ∧ (s.ppaStore n pa m.bytes false (corePort k)).1.Messaged t
      ∧ ((t.msgSt (addrKey (coreAddr k) 0)).box (bits rs2 3 0)).held = rest := by
  subst hn
  have hst := s.ppaStore_stored (s.corePart k) pa m.bytes false (corePort k)
  have hwrite := State.coreWrite_stores hplace hin himages hstandby hok
  have hheld' := hheld
  rw [← State.msgSt_congr hst.msgs] at hheld'
  obtain ⟨t, htake, htouch, hrest⟩ := State.takeMsg_held (part := s.corePart k) hheld'
  refine ⟨t, fun nb ins => ?_, htouch, hrest⟩
  simp only [State.coreRcv, halign, hheld, hwrite, htake, bne_self_eq_false, Bool.false_eq_true, if_false]
  rfl

/-- A receive of an empty mailbox that does not wait is PENDING. -/
theorem State.coreRcv_pending (ins : Instr) (hheld : ((s.msgSt (addrKey (coreAddr k) 0)).box (bits rs2 3 0)).held = []) :
    s.coreRcv k addr rs2 true ins = s.coreRd k St.pending.toNat := by
  simp only [State.coreRcv, halign, hheld, bne_self_eq_false, Bool.false_eq_true, if_false, if_true]

end Receive

/-! The instructions. -/

section Issues
variable {core : CoreId} {s t : State} {addr rs2 : Word64} {v : Nat} (hissues : s.coreIssues core) (hdues : t.dues = s.dues)
include hissues hdues

theorem exec_fjSnd_returns (nb : Bool) (h : ∀ ins, s.coreSnd core addr.toNat rs2.toNat nb ins = t.coreRd core v) :
    exec (if nb then .fjSndnb core addr rs2 else .fjSnd core addr rs2) s = .next (t.coreRd core v) := by
  rw [← closing_coreRd hissues.1 hdues, ← h (if nb then .fjSndnb core addr rs2 else .fjSnd core addr rs2)]
  cases nb
  · exact congrArg closing (State.xfjm_issues hissues _)
  · exact congrArg closing (State.xfjm_issues hissues _)

theorem exec_fjRcv_returns (nb : Bool) (h : ∀ ins, s.coreRcv core addr.toNat rs2.toNat nb ins = t.coreRd core v) :
    exec (if nb then .fjRcvnb core addr rs2 else .fjRcv core addr rs2) s = .next (t.coreRd core v) := by
  rw [← closing_coreRd hissues.1 hdues, ← h (if nb then .fjRcvnb core addr rs2 else .fjRcv core addr rs2)]
  cases nb
  · exact congrArg closing (State.xfjm_issues hissues _)
  · exact congrArg closing (State.xfjm_issues hissues _)

end Issues

end Sys2Proof.Machine

open Sys2Proof Sys2Proof.Machine

/-- Settles O17: a send reads its payload, takes a tally and releases its message, a receive writes the oldest message and takes it; what the access
touches beside memory is neither a mailbox nor a core. -/
theorem coreSendsAndReceives : Obligations.CoreSendsAndReceives := by
  refine ⟨?send, ?busy, ?receive, ?empty⟩
  case send =>
    intro core addr desc x nb pa s dest b len key n hissues hlen hbits halign hplace hok hentry hdead hvoid
    have hst := s.ppaReport_stored n pa len (corePort core)
    obtain ⟨m, hsend, hpayload⟩ := State.coreSnd_sends hlen hbits halign hplace rfl hok hentry hdead hvoid
    have htouch := (s.ppaReport n pa len (corePort core)).coreReleased_messaged core n dest b m
    refine ⟨_, exec_fjSnd_returns hissues (htouch.dues.trans hst.dues) nb (hsend nb), State.rd_coreRd .., ?_, ⟨m, ?_, hpayload⟩, htouch.mem⟩
    · exact (State.msgSt_coreReleased _ core n dest b m).trans (congrArg (fun x => x.takeTallies dest b 1) (State.msgSt_congr hst.msgs key))
    · rw [← hst.egress, ← hst.core]
      exact State.egress_coreReleased _ core n dest b m
  case busy =>
    intro core addr desc pa s dest n len hissues hlen hbits halign hplace hok hentry hlive
    have hst := s.ppaReport_stored n pa len (corePort core)
    exact ⟨_, exec_fjSnd_returns hissues hst.dues true (fun ins => State.coreSnd_busy hlen hbits halign hplace rfl hok ins hentry hlive),
      State.rd_coreRd .., hst.egress, hst.msgs, rfl⟩
  case receive =>
    intro core addr rs2 m rest nb pa s b key n hun hissues halign hplace hin hstandby hheld hok
    have hst := s.ppaStore_stored n pa m.bytes false (corePort core)
    obtain ⟨t, hreceive, htouch, hrest⟩ := State.coreRcv_takes halign rfl hun.2 hplace hin hstandby hheld hok
    exact ⟨_, exec_fjRcv_returns hissues (htouch.dues.trans hst.dues) nb (hreceive nb), State.rd_coreRd .., hrest, htouch.mem⟩
  case empty =>
    intro core addr rs2 s hissues halign hheld
    exact exec_fjRcv_returns hissues rfl true (fun ins => State.coreRcv_pending halign ins hheld)
end

section
/-!
PROOFS. A home read with NOALLOC changes no line as a reader sees it: its transaction copies what an agent owns and leaves every copy (09 R221, R224,
R226).
-/

namespace Sys2Proof.Machine

/-! What a reader of a line sees. -/

/-- Two states whose memory, caches and copies of lines agree, copies of no line aside, and whose directories agree but at the keys of J. -/
structure State.SameBut (J : Nat → Prop) (s t : State) : Prop where
  pat : t.pat = s.pat
  mem : t.mem = s.mem
  lines : t.lines = s.lines
  stackTab : t.hbm.stackTab = s.hbm.stackTab
  retired : t.hbm.retired = s.hbm.retired
  keys : t.hbm.keys = s.hbm.keys
  pchs (i : Nat) : ({ t.pch i with fails := 0 } : Pch) = { s.pch i with fails := 0 }
  slc : t.coh.slc = s.coh.slc
  copies (k : Nat) : t.coh.copies.get {} k = s.coh.copies.get {} k ∨ (t.coh.copies.get {} k).st = .i ∧ (s.coh.copies.get {} k).st = .i
  wbs (k : Nat) : t.coh.wbs.get none k = s.coh.wbs.get none k
  dir (k : Nat) : ¬ J k → t.coh.dir.get {} k = s.coh.dir.get {} k

section Same
variable {J : Nat → Prop} {s t u : State}

/-- What changes neither memory nor HBM's books, nor a cache or a directory. -/
theorem State.SameBut.of_coh (hpat : t.pat = s.pat) (hmem : t.mem = s.mem) (hlines : t.lines = s.lines) (hhbm : t.hbm = s.hbm)
    (hslc : t.coh.slc = s.coh.slc) (hcopies : t.coh.copies = s.coh.copies) (hwbs : t.coh.wbs = s.coh.wbs) (hdir : t.coh.dir = s.coh.dir) :
    s.SameBut J t where
  pat := hpat
  mem := hmem
  lines := hlines
  stackTab := by rw [hhbm]
  retired := by rw [hhbm]
  keys := by rw [hhbm]
  pchs i := by rw [State.pch, State.pch, hhbm]
  slc := hslc
  copies k := .inl (by rw [hcopies])
  wbs k := by rw [hwbs]
  dir k _ := by rw [hdir]

theorem State.SameBut.refl (s : State) : s.SameBut J s := .of_coh rfl rfl rfl rfl rfl rfl rfl rfl

theorem State.SameBut.trans (h : s.SameBut J t) (h' : t.SameBut J u) : s.SameBut J u where
  pat := h'.pat.trans h.pat
  mem := h'.mem.trans h.mem
  lines := h'.lines.trans h.lines
  stackTab := h'.stackTab.trans h.stackTab
  retired := h'.retired.trans h.retired
  keys := h'.keys.trans h.keys
  pchs i := (h'.pchs i).trans (h.pchs i)
  slc := h'.slc.trans h.slc
  copies k := by
    rcases h'.copies k with heq | ⟨hu, ht⟩
    · rw [heq]
      exact h.copies k
    · rcases h.copies k with heq | ⟨-, hs⟩
      · exact .inr ⟨hu, heq ▸ ht⟩
      · exact .inr ⟨hu, hs⟩
  wbs k := (h'.wbs k).trans (h.wbs k)
  dir k hk := (h'.dir k hk).trans (h.dir k hk)

theorem State.SameBut.ite {c : Prop} [Decidable c] (ht : s.SameBut J t) (hu : s.SameBut J u) : s.SameBut J (if c then t else u) := by
  split <;> assumption

theorem State.Noted.sameBut (h : s.Noted t) : s.SameBut J t := by
  obtain ⟨_, _, _, _, rfl⟩ := h
  exact .of_coh rfl rfl rfl rfl rfl rfl rfl rfl

theorem State.addReg_sameBut (s : State) (a w k : Nat) : s.SameBut J (s.addReg a w k) := .of_coh rfl rfl rfl rfl rfl rfl rfl rfl

theorem State.reportFail_sameBut (s : State) (l : Nat) : s.SameBut J (s.reportFail l) := by
  have hcount : s.SameBut J (s.updPch (pchOfLine l) (fun p => { p with fails := satAdd 32 p.fails 1 })) := by
    refine ⟨rfl, rfl, rfl, rfl, rfl, rfl, fun i => ?_, rfl, fun _ => .inl rfl, fun _ => rfl, fun _ _ => rfl⟩
    by_cases hi : i = pchOfLine l
    · rw [hi, State.pch_updPch]
    · rw [State.pch_updPch_ne s _ _ hi]
  unfold State.reportFail
  exact hcount.trans (State.rasError_noted ..).sameBut

theorem State.charge_sameBut (s : State) (l : Nat) : s.SameBut J (s.charge l) := by
  unfold State.charge
  split
  · unfold State.stkCharge
    refine State.SameBut.trans ?_ (State.addReg_sameBut ..)
    exact ⟨rfl, rfl, rfl, rfl, rfl, rfl, fun _ => rfl, rfl, fun _ => .inl rfl, fun _ => rfl, fun _ _ => rfl⟩
  · exact .refl s

theorem State.readAtHome_sameBut (s : State) (l : Nat) : s.SameBut J (s.readAtHome l) :=
  State.SameBut.trans (.ite (s.reportFail_sameBut l) (.refl s)) (.ite (State.charge_sameBut ..) (.refl _))

end Same

/-- No open transaction of the entry at a key of J holds data. -/
def State.holdsNoData (s : State) (J : Nat → Prop) : Prop := ∀ j, J j → ∀ x, (s.coh.dir.get {} j).txn = some x → x.data = none

/-- What agent i gives of a line as its owner: its copy, else what its live buffer holds dirty. -/
def ownedBy (i : Nat) (c : Copy) (w : Option WbEnt) : Option Copy :=
  if i % 16 < 14 && (c.st == .m || c.st == .o || c.st == .e) then some c else
  match w with
  | some w => if !w.dead && (w.st == .m || w.st == .o) then some { st := w.st, data := w.data, dross := w.dross } else none
  | none => none

theorem ownedBy_invalid (i : Nat) {c : Copy} (w : Option WbEnt) (hc : c.st = .i) : ownedBy i c w = ownedBy i {} w := by
  have hnone : ∀ x : Copy, x.st = .i → (decide (i % 16 < 14) && (x.st == .m || x.st == .o || x.st == .e)) = false := by
    intro x hx
    rw [hx]
    exact Bool.and_false _
  unfold ownedBy
  rw [hnone c hc, hnone {} rfl]
  rfl

theorem State.ownerCopy_eq (s : State) (l : Nat) : s.ownerCopy l = ((s.txnCopy 0 l).orElse (fun _ => s.txnCopy 1 l)).orElse (fun _ =>
    allAgents.findSome? (fun i => ownedBy i (s.coh.copies.get {} (i * 2 ^ 38 + l)) (s.coh.wbs.get none (i * 2 ^ 38 + l)))) := rfl

section Newest
variable {J : Nat → Prop} {s t : State} (h : s.SameBut J t) (hs : s.holdsNoData J) (ht : t.holdsNoData J)
include h

theorem State.SameBut.isRetired (l : Nat) : t.isRetired l = s.isRetired l := by simp only [State.isRetired, h.retired]
theorem State.SameBut.lineOffline (l : Nat) : t.lineOffline l = s.lineOffline l := by simp only [State.lineOffline, State.stack, h.stackTab]

theorem State.SameBut.part (n : Nat) : t.part n = s.part n := by simp only [State.part, h.pat]
theorem State.SameBut.ownerPch (i : Nat) : t.ownerPch i = s.ownerPch i := by simp only [State.ownerPch, State.ownerBy, State.slice, h.part]
theorem State.SameBut.slotKey (n e : Nat) : t.slotKey n e = s.slotKey n e := by simp only [State.slotKey, State.keys, h.keys]

theorem State.SameBut.lineCleared (l : Nat) : t.lineCleared l = s.lineCleared l := by
  obtain ⟨-, hcleared, hzeroed, hwritten, -⟩ := Pch.mk.inj (h.pchs (pchOfLine l))
  simp only [State.lineCleared, hcleared, hzeroed, hwritten]

theorem State.SameBut.wcbOf (l : Nat) : t.wcbOf l = s.wcbOf l := by
  have hwcb := congrArg Pch.wcb (h.pchs (pchOfLine l))
  exact congrArg (fun w => w.find? (fun e => e.line == l)) hwcb

theorem State.SameBut.lineFails (l : Nat) : t.lineFails l = s.lineFails l := by
  simp only [State.lineFails, State.lineMeta, h.lines, h.ownerPch, h.slotKey, h.part]

theorem State.SameBut.hbmPeek (l : Nat) : t.hbmPeek l = s.hbmPeek l := by
  simp only [State.hbmPeek, h.lineOffline, h.isRetired, h.lineCleared, h.lineFails, h.wcbOf, State.memLine, State.lineMeta, h.mem, h.lines]

include hs ht

theorem State.SameBut.txnCopy (k l : Nat) : t.txnCopy k l = s.txnCopy k l := by
  by_cases hkey : J (slcKey k l)
  · have hnone : ∀ u : State, u.holdsNoData J → u.txnCopy k l = none := by
      intro u hu
      unfold State.txnCopy
      split
      · next x hx => rw [hu _ hkey x hx]; rfl
      · rfl
    rw [hnone s hs, hnone t ht]
  · simp only [State.txnCopy, h.dir _ hkey]

theorem State.SameBut.ownerCopy (l : Nat) : t.ownerCopy l = s.ownerCopy l := by
  have hagent : ∀ k i, ownedBy i (t.coh.copies.get {} k) (t.coh.wbs.get none k) = ownedBy i (s.coh.copies.get {} k) (s.coh.wbs.get none k) := by
    intro k i
    rw [h.wbs]
    rcases h.copies k with heq | ⟨ht, hs⟩
    · rw [heq]
    · rw [ownedBy_invalid i _ ht, ownedBy_invalid i _ hs]
  simp only [State.ownerCopy_eq, h.txnCopy hs ht, hagent]

theorem State.SameBut.newest (l : Nat) : t.newest l = s.newest l := by
  simp only [State.newest, h.lineOffline, h.isRetired, h.ownerCopy hs ht, State.slcLine, h.slc, h.hbmPeek]

end Newest

/-! The home's own steps of a read (09 R221, R222, R226). -/

/-- The key of a line's entry at its home. -/
def homeKey (l k : Nat) : Prop := k = slcKey (homeOf l) l

section Home
variable {l : Nat} {s : State}

theorem State.setDir_sameBut (s : State) (e : DirEnt) : s.SameBut (homeKey l) (s.setDir (homeOf l) l e) :=
  ⟨rfl, rfl, rfl, rfl, rfl, rfl, fun _ => rfl, rfl, fun _ => .inl rfl, fun _ => rfl, fun _ hk => Tab.get_set_ne _ _ _ hk⟩

theorem State.closeTxn_sameBut (s : State) : s.SameBut (homeKey l) (s.closeTxn (homeOf l) l) :=
  (s.setDir_sameBut _).trans (.of_coh rfl rfl rfl rfl rfl rfl rfl rfl)

theorem State.txn_closeTxn (s : State) : ((s.closeTxn (homeOf l) l).dirEnt (homeOf l) l).txn = none := State.txn_setDir ..

theorem State.lineData_sameBut (s : State) (n : Nat) : s.SameBut (homeKey l) (s.lineData (homeOf l) l n .noAlloc).1 := by
  have hlook : ∀ hit, s.SameBut (homeKey l) (s.countLook (homeOf l) n hit) := fun _ => s.addReg_sameBut ..
  have hreport : ∀ a : State, a.SameBut (homeKey l) (if (a.hbmPeek l).fails then a.reportFail l else a) := fun a =>
    .ite (a.reportFail_sameBut l) (.refl a)
  have hcharge : ∀ a : State, a.SameBut (homeKey l) (if a.lineOffline l || a.lineCleared l then a else a.charge l) := fun a =>
    .ite (.refl a) (a.charge_sameBut l)
  unfold State.lineData
  split
  · have htouch : s.touchSlc (homeOf l) l n .noAlloc = s := by
      unfold State.touchSlc
      split <;> rfl
    rw [htouch]
    exact hlook true
  · simp only [if_true]
    exact (hlook false).trans ((hreport _).trans (hcharge _))

theorem State.txnLine_sameBut (s : State) (n : Nat) {t : Txn} (ht : t.PlainRead) : s.SameBut (homeKey l) (s.txnLine (homeOf l) l n t).1 := by
  unfold State.txnLine
  split
  · exact .refl s
  · rw [ht.hint]
    exact s.lineData_sameBut n

/-- An answered read is closed, and no line has changed. -/
theorem State.finishTxn_sameBut {t : Txn} (htxn : (s.dirEnt (homeOf l) l).txn = some t) (ht : t.PlainRead) :
    s.SameBut (homeKey l) (s.finishTxn (homeOf l) l) ∧ ((s.finishTxn (homeOf l) l).dirEnt (homeOf l) l).txn = none := by
  have hkeep : ∀ (a : State) n r, a.keepAtProxy (homeOf l) l n t r = a := fun a n r => by simp [State.keepAtProxy, ht.keep]
  have hanswer : ∀ (a : State) r, a.answer t l r = a := fun a r => by simp [State.answer, ht.origin]
  simp only [State.finishTxn, htxn, ht.kind, State.finishRead, hkeep, hanswer]
  exact ⟨((s.txnLine_sameBut _ ht).trans (State.setDir_sameBut _ _)).trans (State.closeTxn_sameBut _), State.txn_closeTxn _⟩

end Home

/-! A read waits for the owner's copy alone (09 R224, R226). -/

/-- A home read of requester r that waits for the copy of agent o. -/
def awaitRead (r o : Nat) : Txn := { kind := .read, requester := r, hint := .noAlloc, cur := 1 <<< o }

theorem awaitRead_plain (r o : Nat) : (awaitRead r o).PlainRead := ⟨rfl, rfl, rfl, rfl, rfl, rfl⟩

/-- The line's entry at its home is free, or a read waits there. -/
def State.readOpen (s : State) (l : Nat) : Prop := ∀ x, (s.dirEnt (homeOf l) l).txn = some x → ∃ r o, x = awaitRead r o

theorem State.readOpen.holdsNoData {s : State} {l : Nat} (h : s.readOpen l) : s.holdsNoData (homeKey l) := by
  rintro j rfl x hx
  obtain ⟨r, o, rfl⟩ := h x hx
  rfl

theorem State.readOpen_of_none {s : State} {l : Nat} (h : (s.dirEnt (homeOf l) l).txn = none) : s.readOpen l := by
  intro x hx
  rw [h] at hx
  cases hx

/-- From a line at whose home at most a read waits, to such a state with every line the same. -/
structure State.KeepsLines (l : Nat) (s t : State) : Prop where
  keeps : s.readOpen l → s.SameBut (homeKey l) t ∧ t.readOpen l

section KeepsLines
variable {l : Nat} {s t u : State}

theorem State.KeepsLines.refl (s : State) : s.KeepsLines l s := ⟨fun h => ⟨.refl s, h⟩⟩
theorem State.KeepsLines.trans (h : s.KeepsLines l t) (h' : t.KeepsLines l u) : s.KeepsLines l u := by
  refine ⟨fun hs => ?_⟩
  obtain ⟨hst, ht⟩ := h.keeps hs
  obtain ⟨htu, hu⟩ := h'.keeps ht
  exact ⟨hst.trans htu, hu⟩

theorem State.KeepsLines.of_coh (hpat : t.pat = s.pat) (hmem : t.mem = s.mem) (hlines : t.lines = s.lines) (hhbm : t.hbm = s.hbm)
    (hslc : t.coh.slc = s.coh.slc) (hcopies : t.coh.copies = s.coh.copies) (hwbs : t.coh.wbs = s.coh.wbs) (hdir : t.coh.dir = s.coh.dir) :
    s.KeepsLines l t :=
  ⟨fun hs => ⟨.of_coh hpat hmem hlines hhbm hslc hcopies hwbs hdir, fun x hx => hs x (by rw [← hx, State.dirEnt, State.dirEnt, hdir])⟩⟩

theorem State.KeepsLines.ite {c : Prop} [Decidable c] (ht : s.KeepsLines l t) (hu : s.KeepsLines l u) : s.KeepsLines l (if c then t else u) := by
  split <;> assumption

end KeepsLines

/-! The owner is asked for a copy, and keeps its own (09 R224, R228). -/

section Snoops
variable {l r o : Nat} {s : State}

/-- A buffer entry put back as it was. -/
theorem State.setWb_self {h a : Nat} {w : Option WbEnt} (hw : s.wbOf h a l = w) : s.SameBut (homeKey l) (s.setWb h a l w) := by
  refine ⟨rfl, rfl, rfl, rfl, rfl, rfl, fun _ => rfl, rfl, fun _ => .inl rfl, fun k => ?_, fun _ _ => rfl⟩
  by_cases hk : k = agentKey h a l
  · rw [hk]
    exact (Tab.get_set_same none s.coh.wbs _ w).trans hw.symm
  · exact Tab.get_set_ne none s.coh.wbs w hk

/-- A copy put back as it was. -/
theorem State.setCopy_self (s : State) (h a : Nat) : s.SameBut (homeKey l) (s.setCopy h a l (s.copyOf h a l)) := by
  refine ⟨rfl, rfl, rfl, rfl, rfl, rfl, fun _ => rfl, rfl, fun k => ?_, fun _ => rfl, fun _ _ => rfl⟩
  by_cases hk : k = agentKey h a l
  · have hput : (s.setCopy h a l (s.copyOf h a l)).coh.copies.get {} k = if (s.copyOf h a l).st == .i then {} else s.copyOf h a l := by
      rw [hk]
      exact Tab.get_set_same ..
    by_cases hst : (s.copyOf h a l).st = .i
    · exact .inr ⟨by rw [hput, hst]; rfl, by rw [hk]; exact hst⟩
    · exact .inl (by rw [hput, if_neg (by simpa using hst), hk]; rfl)
  · exact .inl (Tab.get_set_ne {} s.coh.copies _ hk)

/-- A buffer or a copy that is read stands as it was. -/
theorem State.snoopAgent_cur (s : State) (h a : Nat) : s.SameBut (homeKey l) (s.snoopAgent .cur h a l).1 := by
  unfold State.snoopAgent
  split
  · rename_i w hw
    split
    · exact .refl s
    · rename_i hlive
      have hsame : ({ w with dead := false } : WbEnt) = w := by rw [← Bool.eq_false_iff.2 hlive]
      exact State.setWb_self (hw.trans (congrArg some hsame.symm))
  · exact s.setCopy_self h a

theorem State.snoopOther_cur (s : State) : s.SameBut (homeKey l) (s.snoopOther .cur l).1 := by
  unfold State.snoopOther
  split
  · exact .refl s
  · exact s.snoopAgent_cur ..

/-- A snoop that the transaction does not ask for does nothing. -/
theorem State.snoop_unasked {t : Txn} {h a : Nat} {k : Snoop} (htxn : (s.dirEnt h l).txn = some t) (hout : snoopOut k t a = false) :
    s.snoop k h a l = s := by
  simp [State.snoop, htxn, hout]

/-- A read whose owner has answered, the answer on its way. -/
structure Txn.Answered (t : Txn) (o : Nat) : Prop where
  plain : t.PlainRead
  shared : t.shared = 0
  unique : t.unique = 0
  inv : t.inv = 0
  cur : t.cur = 0
  due : t.due = setBit 0 o
  delivered : t.delivered = false
  waitsHome : t.waitsHome = false

theorem clearBit_shiftLeft (o : Nat) : clearBit (1 <<< o) o = 0 := by simp [clearBit, Nat.shiftLeft_eq]

/-- The owner's copy goes into the transaction; the owner keeps it. -/
theorem State.snoop_cur (htxn : (s.dirEnt (homeOf l) l).txn = some (awaitRead r o)) (hfree : o = 14 → s.proxyFree l = true) :
    s.SameBut (homeKey l) (s.snoop .cur (homeOf l) o l)
      ∧ ∃ x, ((s.snoop .cur (homeOf l) o l).dirEnt (homeOf l) l).txn = some x ∧ x.Answered o := by
  have hans : s.SameBut (homeKey l) (if o = 14 then s.snoopOther .cur l else s.snoopAgent .cur (homeOf l) o l).1 := by
    split
    · exact s.snoopOther_cur
    · exact s.snoopAgent_cur ..
  have hout : (snoopOut .cur (awaitRead r o) o && (o != 14 || s.proxyFree l)) = true := by
    by_cases ho : o = 14
    · simp [snoopOut, awaitRead, hfree ho]
    · simp [snoopOut, awaitRead, ho]
  have hanswered : ∀ d x y z, ({ snoopSent .cur (awaitRead r o) o with data := d, dross := x, dirty := y, ownerKept := z } : Txn).Answered o :=
    fun _ _ _ _ => ⟨⟨rfl, rfl, rfl, rfl, rfl, rfl⟩, rfl, rfl, rfl, clearBit_shiftLeft o, rfl, rfl, rfl⟩
  simp only [State.snoop, htxn, hout, if_true]
  refine ⟨hans.trans (State.setDir_sameBut _ _), _, State.txn_setDir .., ?_⟩
  split
  · exact hanswered ..
  · exact hanswered ..

/-- A read with every snoop answered is finished. -/
theorem State.advanceTxn_reads {x : Txn} {h : Nat} (htxn : (s.dirEnt h l).txn = some x) (hx : x.PlainRead) (hwaits : x.waits = 0)
    (hdelivered : x.delivered = false) (hhome : x.waitsHome = false) : s.advanceTxn h l = s.finishTxn h l := by
  simp [State.advanceTxn, htxn, hwaits, hdelivered, hhome, hx.waitsEntry, hx.kind, hx.forLine, State.afterEvict]

/-- The answer of the owner ends the read. -/
theorem State.snoopAnswer_answered {x : Txn} (htxn : (s.dirEnt (homeOf l) l).txn = some x) (hx : x.Answered o) :
    s.SameBut (homeKey l) (s.snoopAnswer (homeOf l) o l) ∧ ((s.snoopAnswer (homeOf l) o l).dirEnt (homeOf l) l).txn = none := by
  obtain ⟨hkind, hhint, hkeep, hline, hentry, horigin⟩ := hx.plain
  have hdue : x.due.testBit o = true := by simp [hx.due, setBit]
  have hwaits : ({ x with due := clearBit x.due o } : Txn).waits = 0 := by
    simp [Txn.waits, hx.shared, hx.unique, hx.inv, hx.cur, hx.due, setBit, clearBit_shiftLeft]
  have hplain : ({ x with due := clearBit x.due o } : Txn).PlainRead := ⟨hkind, hhint, hkeep, hline, hentry, horigin⟩
  have hput := State.txn_setDir s (homeOf l) l { s.dirEnt (homeOf l) l with txn := some { x with due := clearBit x.due o } }
  obtain ⟨hsame, hnone⟩ := State.finishTxn_sameBut hput hplain
  simp only [State.snoopAnswer, htxn, hdue, if_true]
  rw [State.advanceTxn_reads hput hplain hwaits hx.delivered hx.waitsHome]
  exact ⟨(s.setDir_sameBut _).trans hsame, hnone⟩

/-- The four snoops of agent a, and its answer. -/
def State.askAgent (s : State) (h l a : Nat) : State :=
  ([Snoop.shared, .unique, .inv, .cur].foldl (fun (s : State) k => s.snoop k h a l) s).snoopAnswer h a l

theorem State.runSnoops_eq (s : State) (h : Nat) : s.runSnoops h l =
    forAll (List.range 15) (fun a s => if (s.dirEnt h l).txn.isSome then s.askAgent h l a else s) s := rfl

/-- Of the snoops of a waiting read only that of the owner's copy goes out. -/
theorem State.askAgent_awaits (htxn : (s.dirEnt (homeOf l) l).txn = some (awaitRead r o)) (a : Nat) :
    s.askAgent (homeOf l) l a = (s.snoop .cur (homeOf l) a l).snoopAnswer (homeOf l) a l := by
  have hzero : ∀ k, k ≠ .cur → snoopOut k (awaitRead r o) a = false := by
    intro k hk
    cases k with
    | cur => exact absurd rfl hk
    | shared | unique | inv => exact Nat.zero_testBit a
  simp only [State.askAgent, List.foldl_cons, List.foldl_nil, State.snoop_unasked htxn (hzero .shared (by decide)),
    State.snoop_unasked htxn (hzero .unique (by decide)), State.snoop_unasked htxn (hzero .inv (by decide))]

/-- A waiting read that agent a does not answer stays. -/
theorem State.askAgent_waits {a : Nat} (htxn : (s.dirEnt (homeOf l) l).txn = some (awaitRead r o)) (hno : a = o → a = 14 ∧ s.proxyFree l = false) :
    s.askAgent (homeOf l) l a = s := by
  have hout : (snoopOut .cur (awaitRead r o) a && (a != 14 || s.proxyFree l)) = false := by
    by_cases ha : a = o
    · obtain ⟨h14, hbusy⟩ := hno ha
      simp [h14, hbusy]
    · simp [snoopOut, awaitRead, Nat.one_shiftLeft, Ne.symm ha]
  have hsnoop : s.snoop .cur (homeOf l) a l = s := by simp only [State.snoop, htxn, hout, Bool.false_eq_true, if_false]
  rw [State.askAgent_awaits htxn, hsnoop]
  simp [State.snoopAnswer, htxn, awaitRead]

theorem State.askAgent_keepsLines (s : State) (a : Nat) :
    s.KeepsLines l (if (s.dirEnt (homeOf l) l).txn.isSome then s.askAgent (homeOf l) l a else s) := by
  refine ⟨fun hs => ?_⟩
  rcases htxn : (s.dirEnt (homeOf l) l).txn with _ | x
  · exact ⟨.refl s, hs⟩
  · obtain ⟨r, o, rfl⟩ := hs x htxn
    simp only [Option.isSome_some, if_true]
    by_cases hasked : a = o ∧ (o = 14 → s.proxyFree l = true)
    · obtain ⟨rfl, hfree⟩ := hasked
      obtain ⟨hsnoop, x, hx, hanswered⟩ := State.snoop_cur htxn hfree
      obtain ⟨hend, hnone⟩ := State.snoopAnswer_answered hx hanswered
      rw [State.askAgent_awaits htxn]
      exact ⟨hsnoop.trans hend, State.readOpen_of_none hnone⟩
    · have hno : a = o → a = 14 ∧ s.proxyFree l = false := by
        rintro rfl
        simpa using hasked
      rw [State.askAgent_waits htxn hno]
      exact ⟨.refl s, hs⟩

theorem State.runTxn_keepsLines (s : State) : s.KeepsLines l (s.runTxn (homeOf l) l) := by
  refine ⟨fun hs => ?_⟩
  unfold State.runTxn
  split
  · exact ⟨.refl s, hs⟩
  · rename_i x hx
    obtain ⟨r, o, rfl⟩ := hs x hx
    exact (forAll_rel State.KeepsLines.refl State.KeepsLines.trans _ (fun a b => b.askAgent_keepsLines a) _ s).keeps hs

end Snoops

/-! The request (09 R226, R229). -/

section Request
variable {l : Nat}

/-- A home read as it is sent. -/
def sentRead (r : Nat) : Txn := { kind := .read, requester := r, hint := .noAlloc }

theorem sentRead_plain (r : Nat) : (sentRead r).PlainRead := ⟨rfl, rfl, rfl, rfl, rfl, rfl⟩

theorem State.cohTick_sameBut (s : State) : s.SameBut (homeKey l) s.cohTick := .of_coh rfl rfl rfl rfl rfl rfl rfl rfl

/-- A read opens its entry: it asks the owner, or nobody. -/
theorem openEntry_read (e : DirEnt) (r n clock : Nat) (held cap : Bool) :
    (openEntry e (sentRead r) n clock held cap).txn = some (if e.st == .o || e.st == .x then awaitRead r e.owner else sentRead r) := rfl

/-- A read that is served asks the owner, or ends at once. -/
theorem State.serveEntry_keepsLines (s : State) (n r : Nat) : s.KeepsLines l (s.serveEntry (homeOf l) l n (sentRead r)) := by
  have hput : ∀ e : DirEnt, s.SameBut (homeKey l) (s.cohTick.setDir (homeOf l) l e) := fun e =>
    State.SameBut.trans (t := s.cohTick) (.of_coh rfl rfl rfl rfl rfl rfl rfl rfl) (State.setDir_sameBut _ e)
  have htxn := fun c held cap => State.txn_setDir s.cohTick (homeOf l) l
    (openEntry { s.dirEnt (homeOf l) l with txn := none } (sentRead r) n c held cap)
  simp only [openEntry_read] at htxn
  refine ⟨fun _ => ?_⟩
  unfold State.serveEntry
  simp only [show ({ sentRead r with waitsEntry := false, waitsHome := false } : Txn) = sentRead r from rfl, openEntry_read]
  by_cases howned : ((s.dirEnt (homeOf l) l).st == .o || (s.dirEnt (homeOf l) l).st == .x) = true
  · simp only [howned, if_true] at htxn ⊢
    have hwaits : (awaitRead r (s.dirEnt (homeOf l) l).owner).waits ≠ 0 := by simp [Txn.waits, awaitRead, Nat.shiftLeft_eq]
    rw [if_neg hwaits]
    refine ⟨hput _, fun x hx => ⟨r, _, Option.some.inj (hx.symm.trans (htxn ..))⟩⟩
  · simp only [howned, Bool.false_eq_true, if_false] at htxn ⊢
    rw [if_pos (show (sentRead r).waits = 0 by simp [Txn.waits, sentRead])]
    obtain ⟨hsame, hnone⟩ := State.finishTxn_sameBut (htxn ..) (sentRead_plain r)
    exact ⟨(hput _).trans hsame, State.readOpen_of_none hnone⟩

/-- A read is not issued, refused with a tally, or served (09 R229). -/
theorem State.request_keepsLines (s : State) (n r : Nat) (tally : Bool) : s.KeepsLines l (s.request (homeOf l) l n tally (sentRead r)) := by
  have hrefuse : ∀ a : State, a.KeepsLines l (a.refuse (homeOf l) r l n false) := fun a => .ite (.refl a) (.of_coh rfl rfl rfl rfl rfl rfl rfl rfl)
  have hin : ∀ a : State, a.takeIn (homeOf l) l n (sentRead r) = a.serveEntry (homeOf l) l n (sentRead r) := fun a => by
    simp [State.takeIn, State.serve, sentRead, isHome]
  have htaken := fun a : State => State.KeepsLines.ite (c := (a.dirEnt (homeOf l) l).txn.isSome) (hrefuse a)
    (.ite (c := !tally && a.coh.tallies.any (fun x => x.half == homeOf l && x.line == l)) (hrefuse a) (a.serveEntry_keepsLines n r))
  simp only [← hin] at htaken
  refine .ite (.refl s) (State.KeepsLines.trans ?_ (htaken _))
  split
  · exact .of_coh rfl rfl rfl rfl rfl rfl rfl rfl
  · exact .refl s

/-- A home read at the line's home runs whole. -/
theorem State.homeRun_keepsLines (s : State) (n r : Nat) : s.KeepsLines l (s.homeRun (homeOf l) l n (sentRead r)) := by
  simp only [State.homeRun, State.homeSend, decide_true, Bool.true_or, if_true]
  exact (s.request_keepsLines n r _).trans (State.runTxn_keepsLines _)

end Request

/-! Reads of lines, and of a range of a partition, leave what the next read gives (01 R22; 09 R226). -/

/-- What a reader of PPA sees is the same. -/
structure State.SameToReaders (s t : State) : Prop where
  pat : t.pat = s.pat
  newest (l : Nat) : t.newest l = s.newest l

section Readers
variable {s t u : State}

theorem State.SameToReaders.refl (s : State) : s.SameToReaders s := ⟨rfl, fun _ => rfl⟩
theorem State.SameToReaders.trans (h : s.SameToReaders t) (h' : t.SameToReaders u) : s.SameToReaders u :=
  ⟨h'.pat.trans h.pat, fun l => (h'.newest l).trans (h.newest l)⟩

theorem State.readAtHome_sameToReaders (s : State) (l : Nat) : s.SameToReaders (s.readAtHome l) := by
  have hsame : s.SameBut (fun _ => False) (s.readAtHome l) := s.readAtHome_sameBut l
  exact ⟨hsame.pat, hsame.newest (fun _ h => h.elim) (fun _ h => h.elim)⟩

/-- No transaction is open on a line that nothing waits at. -/
theorem State.readOpen_of_free {l : Nat} (hfree : s.lineBusy l = false) : s.readOpen l := by
  simp only [State.lineBusy, Bool.or_eq_false_iff, Option.isSome_eq_false_iff, Option.isNone_iff_eq_none] at hfree
  obtain ⟨⟨hfirst, hsecond⟩, -⟩ := hfree
  refine State.readOpen_of_none ?_
  have hhome := homeOf_lt l
  interval_cases homeOf l
  · exact hfirst
  · exact hsecond

theorem State.noteRead_sameToReaders (s : State) (l : Nat) : s.SameToReaders (s.noteRead l) := by
  unfold State.noteRead
  split
  · exact s.readAtHome_sameToReaders l
  · rename_i n _ _
    unfold State.homeRead
    split
    · exact s.readAtHome_sameToReaders l
    · rename_i hopen
      rw [Bool.not_eq_true, Bool.or_eq_false_iff] at hopen
      have hs := State.readOpen_of_free hopen.1
      change s.SameToReaders (s.homeRun (homeOf l) l n (sentRead 56))
      obtain ⟨hsame, ht⟩ := (s.homeRun_keepsLines n 56).keeps hs
      exact ⟨hsame.pat, hsame.newest hs.holdsNoData ht.holdsNoData⟩
  · contradiction

theorem State.ppaReport_sameToReaders (s : State) (n ppa len : Nat) : s.SameToReaders (s.ppaReport n ppa len) := by
  unfold State.ppaReport
  split
  · exact foldl_rel State.SameToReaders.refl State.SameToReaders.trans _ (fun a pc => a.noteRead_sameToReaders _) _ s
  · exact .refl s

theorem State.SameToReaders.slice (h : s.SameToReaders t) (n : Nat) : t.slice n = s.slice n := by simp only [State.slice, State.part, h.pat]

theorem State.SameToReaders.inPpa (h : s.SameToReaders t) (n ppa len : Nat) : t.inPpa n ppa len = s.inPpa n ppa len := by
  rw [State.inPpa, State.inPpa, State.ppaSize, State.ppaSize, h.slice]

theorem State.SameToReaders.ppaToHpa (h : s.SameToReaders t) (n ppa : Nat) : t.ppaToHpa n ppa = s.ppaToHpa n ppa := by
  unfold State.ppaToHpa State.ppaSize
  rw [h.slice]

theorem State.SameToReaders.ppaPeek (h : s.SameToReaders t) (n ppa len : Nat) : t.ppaPeek n ppa len = s.ppaPeek n ppa len := by
  simp only [State.ppaPeek, h.inPpa, h.ppaToHpa, h.newest]

end Readers

end Sys2Proof.Machine
end

section
/-!
PROOFS. Loads and stops of service code: the command, the stop of its clusters, the check of its image (06 R145, R146).
-/

namespace Sys2Proof.Machine

/-! The command (06 R145). -/

section Command
variable {s : State} {n v : Nat}

/-- The clusters that a command names are the partition's. -/
def State.ownsClusters (s : State) (n clusters : Nat) : Prop :=
  ∀ c, c < 16 → clusters.testBit c = true → (s.slice n).clusters.testBit c = true

theorem State.ownsClusters.any {clusters : Nat} (h : s.ownsClusters n clusters) :
    (maskList 16 clusters).any (fun c => !((s.part n).slice.clusters.testBit c)) = false := by
  rw [List.any_eq_false]
  intro c hc
  obtain ⟨hlt, hbit⟩ := mem_maskList.1 hc
  rw [show (s.part n).slice.clusters.testBit c = true from h c hlt hbit]
  exact Bool.false_ne_true

/-- A load or stop of a value that has been taken in. -/
def Code.taken (c : Code) (v : Nat) : Code :=
  { c with token := bits v 63 56, job := bits v 63 56, status := St.pending, step := 1, stop := v.testBit 0, clusters := bits v 55 40
           image := bits v 39 12 * 4096 }

/-- A command whose clusters are the partition's, and that nothing refuses or delays, is taken in. -/
theorem State.writeCode_taken (hready : s.ready n = true) (howns : s.ownsClusters n (bits v 55 40)) (hstep : (s.code n).step = 0)
    (hlog : s.logRoom = true)
    (hload : v.testBit 0 = false → (s.sec.fuses.confOnly = true → s.confidential n = true) ∧ (s.twin n).state ≠ 4 ∧ s.sec.fwState ≠ 4) :
    s.writeCode n v = s.updCode n (fun c => c.taken v) := by
  have hmay : (!(v.testBit 0) && ((s.sec.fuses.confOnly && !(s.part n).conf) || decide ((s.twin n).state = 4))) = false := by
    cases hstop : v.testBit 0 with
    | true => rfl
    | false =>
      obtain ⟨hconf, htwin, -⟩ := hload hstop
      have hok : (s.sec.fuses.confOnly && !(s.part n).conf) = false := by
        cases honly : s.sec.fuses.confOnly with
        | false => rfl
        | true => rw [show (s.part n).conf = true from hconf honly]; rfl
      simp [hok, htwin]
  have hidle : ((s.code n).step != 0 || !s.logRoom || (!(v.testBit 0) && decide (s.sec.fwState = 4))) = false := by
    rw [hstep, hlog]
    cases hstop : v.testBit 0 with
    | true => rfl
    | false => simpa using (hload hstop).2.2
  simp only [State.writeCode, howns.any, hready, hmay, hidle, Bool.not_true, Bool.or_self, Bool.false_eq_true, if_false]
  rfl

end Command

/-! Clusters stop (06 R146 step 2). -/

/-- Every listed core under an address is in reset. -/
def State.allReset (s : State) (k : Nat) : Prop := ∀ e ∈ s.cores, e.1 = k → e.2.inReset = true

theorem State.allReset.core {s : State} {k : Nat} (h : s.allReset k) : (s.core k).inReset = true := by
  by_cases hlisted : s.cores.get {} k = {}
  · rw [State.core, hlisted]
  · exact h _ (Tab.mem_of_get_ne hlisted) rfl

/-- What a stop does beside the clusters' caches: no core leaves its reset. -/
structure State.Halts (s t : State) : Prop where
  dues : t.dues = s.dues
  codes : t.codes = s.codes
  cells : t.cells = s.cells
  resets (k : Nat) : s.allReset k → t.allReset k
  mem : s.coh.copies = [] → t.mem = s.mem ∧ t.coh.copies = []

theorem State.Halts.refl (s : State) : s.Halts s := ⟨rfl, rfl, rfl, fun _ h => h, fun h => ⟨rfl, h⟩⟩
theorem State.Halts.trans {s t u : State} (h : s.Halts t) (h' : t.Halts u) : s.Halts u where
  dues := h'.dues.trans h.dues
  codes := h'.codes.trans h.codes
  cells := h'.cells.trans h.cells
  resets k hs := h'.resets k (h.resets k hs)
  mem hs := by
    obtain ⟨hmem, hcopies⟩ := h.mem hs
    obtain ⟨hmem', hcopies'⟩ := h'.mem hcopies
    exact ⟨hmem'.trans hmem, hcopies'⟩

/-- What leaves cores and caches alone. -/
theorem State.Halts.of_eq {s t : State} (hdues : t.dues = s.dues) (hcodes : t.codes = s.codes) (hcells : t.cells = s.cells) (hcores : t.cores = s.cores)
    (hcoh : t.coh = s.coh) (hmem : t.mem = s.mem) : s.Halts t :=
  ⟨hdues, hcodes, hcells, fun k h => by unfold State.allReset; rw [hcores]; exact h, fun h => ⟨hmem, by rw [hcoh]; exact h⟩⟩

theorem Tab.mem_upd {α : Type} [DecidableEq α] {d : α} {t : Tab α} {k : Nat} {f : α → α} {e : Nat × α} (h : e ∈ Tab.upd d t k f) :
    e = (k, f (t.get d k)) ∨ e ∈ t ∧ e.1 ≠ k := by
  unfold Tab.upd Tab.set at h
  split at h
  · exact .inr (Tab.mem_erase h)
  · exact (Tab.mem_insert h).imp_right Tab.mem_erase

/-- A core as a stop leaves it. -/
def Core.halted (c : Core) : Core := { c with inReset := true, waiting := none }

theorem State.allReset_updCore (s : State) (k : Nat) : (s.updCore k Core.halted).allReset k := by
  intro e he hk
  rcases Tab.mem_upd he with rfl | ⟨-, hne⟩
  · rfl
  · exact absurd hk hne

theorem State.updCore_halts (s : State) (k : Nat) : s.Halts (s.updCore k Core.halted) := by
  refine ⟨rfl, rfl, rfl, fun j hj e he hej => ?_, fun h => ⟨rfl, h⟩⟩
  rcases Tab.mem_upd he with rfl | ⟨hmem, -⟩
  · rfl
  · exact hj e hmem hej

/-- The cores of the clusters go into reset. -/
def State.haltCores (s : State) (cores : List Nat) : State := forAll cores (fun k s => s.updCore k Core.halted) s

theorem State.haltCores_resets (s : State) (cores : List Nat) :
    s.Halts (s.haltCores cores) ∧ ∀ k ∈ cores, (s.haltCores cores).allReset k :=
  forAll_each (I := fun t => s.Halts t) (Q := fun k t => t.allReset k) (fun k t ht => ht.trans (t.updCore_halts k))
    (fun k t _ => t.allReset_updCore k) (fun k j t _ hj => (t.updCore_halts k).resets j hj) cores (.refl s)

theorem State.flushLine_stored (s : State) (h a l : Nat) : s.Stored (s.flushLine h a l) := by
  unfold State.flushLine
  refine .ite (.refl s) ?_
  refine State.Stored.trans ?_ (State.sendGrants_stored ..)
  refine State.Stored.trans ?_ (.ite (.refl _) (State.coh_stored ..))
  refine State.Stored.trans ?_ (State.putLine_stored ..)
  exact (State.setCopy_stored ..).trans (.ite (State.setDir_stored ..) (.refl _))

theorem State.flushClusters_stored (s : State) (clusters : Nat) : s.Stored (s.flushClusters clusters) :=
  forAll_rel State.Stored.refl State.Stored.trans _
    (fun _ _ => forAll_rel State.Stored.refl State.Stored.trans _ (fun _ _ => State.flushLine_stored ..) _ _) _ s

/-- Caches without a line have none to write back. -/
theorem State.flushClusters_empty {s : State} (h : s.coh.copies = []) (clusters : Nat) : s.flushClusters clusters = s := by
  have hline : ∀ k a l, s.flushLine k a l = s := fun k a l => by simp [State.flushLine, State.copyOf, h, moesiDirty]
  exact forAll_fixed fun c => forAll_fixed fun l => hline ..

theorem State.flushClusters_halts (s : State) (clusters : Nat) : s.Halts (s.flushClusters clusters) := by
  have hst := s.flushClusters_stored clusters
  refine ⟨hst.dues, hst.codes, hst.cells, fun k hk => ?_, fun h => by rw [State.flushClusters_empty h]; exact ⟨rfl, h⟩⟩
  unfold State.allReset
  rw [hst.cores]
  exact hk

/-- Tallies that the clusters' cores hold go back. -/
def State.returnTallies (s : State) (n : Nat) (cores : List Nat) : State :=
  forAll cores (fun k s => ((s.msgSt (addrKey (coreAddr k) 0)).store).foldl (fun (s : State) t =>
    s.release { src := coreAddr k, ctx := 0, flight := .ret n (coreAddr k) t.dest t.mailbox t.count t.ctx }) s) s

theorem State.release_halts (s : State) (e : Egress) : s.Halts (s.release e) := .of_eq rfl rfl rfl rfl rfl rfl

theorem State.returnTallies_halts (s : State) (n : Nat) (cores : List Nat) : s.Halts (s.returnTallies n cores) :=
  forAll_rel State.Halts.refl State.Halts.trans _
    (fun _ _ => foldl_rel State.Halts.refl State.Halts.trans _ (fun _ _ => State.release_halts ..) _ _) _ s

/-- Their mailboxes are emptied, and the tallies they granted are void. -/
def State.voidBoxes (s : State) (clusters : Nat) (cores : List Nat) : State :=
  let s := forAll cores (fun k s => { s with msgs := s.msgs.set {} (addrKey (coreAddr k) 0) {} }) s
  { s with msgs := Tab.mapVals {} (fun _ (m : MsgState) =>
      { m with store := m.store.map (fun (t : Tally) => if inClusters clusters t.dest then { t with void := true } else t) }) s.msgs }

theorem State.msgs_halts (s : State) (m : Tab MsgState) : s.Halts { s with msgs := m } := .of_eq rfl rfl rfl rfl rfl rfl

theorem State.voidBoxes_halts (s : State) (clusters : Nat) (cores : List Nat) : s.Halts (s.voidBoxes clusters cores) :=
  (forAll_rel State.Halts.refl State.Halts.trans _ (fun _ _ => State.msgs_halts ..) _ s).trans (State.msgs_halts ..)

/-- A core whose wait ends stays in reset. -/
theorem State.endCoreWaits_halts (s : State) (n : Nat) (p : Core → Bool) (st : StatusCode) : s.Halts (s.endCoreWaits n p st) := by
  refine ⟨rfl, rfl, rfl, fun k hk e he hek => ?_, fun h => ⟨rfl, h⟩⟩
  obtain ⟨c, hmem, hval⟩ := Tab.mem_mapVals he
  have hreset : c.inReset = true := hk _ hmem hek
  rw [hval]
  split
  · exact hreset
  · exact hreset

/-- The sends of cells to the clusters' cores end with them. -/
def State.endCellSends (s : State) (clusters : Nat) : State :=
  forAll ((s.cells.filter (fun e => match e.2.waiting with
    | some (.snd _ f) => inClusters clusters (e.2.addr f.rb.val)
    | _ => false)).map (·.1)) (fun i s =>
      match (s.cell i).waiting with
      | some (.snd _ f) =>
        (s.updCell i (fun c => { c with waiting := none, state := 1 })).sendFails (s.cellPart i) i ((s.cell i).addr f.rb.val) f.mailbox.val
          St.contextLost
      | _ => s) s

theorem State.endCellSends_none {s : State} (h : s.noCellWaits) (clusters : Nat) : s.endCellSends clusters = s := by
  have hnone : ∀ p : Cell → Bool, (∀ c : Cell, c.waiting = none → p c = false) → s.cells.filter (fun e => p e.2) = [] := by
    intro p hp
    rw [List.filter_eq_nil_iff]
    intro e he
    rw [hp _ (h e he)]
    exact Bool.false_ne_true
  unfold State.endCellSends
  rw [hnone (fun c => match c.waiting with | some (.snd _ f) => inClusters clusters (c.addr f.rb.val) | _ => false) (fun c hc => by simp only [hc])]
  rfl

/-- The books of a partition's code without the clusters that stop. -/
def Code.without (c : Code) (clusters : Nat) : Code :=
  { c with running := (maskList 16 clusters).foldl clearBit c.running
           images := (c.images.map (fun i => { i with clusters := (maskList 16 clusters).foldl clearBit i.clusters })).filter (fun i => i.clusters != 0) }

theorem State.stopClusters_eq (s : State) (n clusters : Nat) : s.stopClusters n clusters =
    ((((((s.haltCores (clusterCores clusters)).flushClusters clusters).returnTallies n (clusterCores clusters)).voidBoxes clusters
      (clusterCores clusters)).endCoreWaits n (fun c => waitsFor (inClusters clusters) c.waiting) St.contextLost).endCellSends clusters).updCode n
        (fun c => c.without clusters) := rfl

/-- A stop of clusters: their cores are in reset, and what it keeps. -/
theorem State.stopClusters_halts {s : State} (n clusters : Nat) (h : s.noCellWaits) :
    ∃ t, s.Halts t ∧ (∀ k ∈ clusterCores clusters, t.allReset k) ∧ s.stopClusters n clusters = t.updCode n (fun c => c.without clusters) := by
  obtain ⟨hhalt, hreset⟩ := s.haltCores_resets (clusterCores clusters)
  have hrest := (((State.flushClusters_halts (s.haltCores (clusterCores clusters)) clusters).trans
    (State.returnTallies_halts _ n (clusterCores clusters))).trans (State.voidBoxes_halts _ clusters (clusterCores clusters))).trans
      (State.endCoreWaits_halts _ n (fun c => waitsFor (inClusters clusters) c.waiting) St.contextLost)
  refine ⟨_, hhalt.trans hrest, fun k hk => hrest.resets k (hreset k hk), ?_⟩
  rw [State.stopClusters_eq, State.endCellSends_none]
  rw [State.noCellWaits, (hhalt.trans hrest).cells]
  exact h

/-- Without its bit i a number stands, but for that bit. -/
theorem testBit_sub_two_pow {m i : Nat} (hset : m.testBit i = true) (k : Nat) : (m - 2 ^ i).testBit k = (m.testBit k && decide (k ≠ i)) := by
  obtain ⟨q, r, hr, rfl⟩ : ∃ q r, r < 2 ^ i ∧ m = 2 ^ i * q + r :=
    ⟨m / 2 ^ i, m % 2 ^ i, Nat.mod_lt m (Nat.two_pow_pos i), (Nat.div_add_mod m (2 ^ i)).symm⟩
  have hodd : q % 2 = 1 := by simpa [Nat.testBit_two_pow_mul_add _ hr] using hset
  have hsub : 2 ^ i * q + r - 2 ^ i = 2 ^ i * (q - 1) + r := by
    have hle : 2 ^ i ≤ 2 ^ i * q := Nat.le_mul_of_pos_right _ (by omega)
    rw [Nat.mul_sub_one]
    omega
  rw [hsub, Nat.testBit_two_pow_mul_add _ hr, Nat.testBit_two_pow_mul_add _ hr]
  by_cases hlt : k < i
  · simp [hlt, hlt.ne]
  · obtain ⟨j, rfl⟩ := Nat.exists_eq_add_of_le (Nat.not_lt.1 hlt)
    cases j with
    | zero => simp [show (q - 1) % 2 = 0 by omega]
    | succ j => simp [Nat.testBit_succ, show (q - 1) / 2 = q / 2 by omega]

theorem testBit_clearBit (m i k : Nat) : (clearBit m i).testBit k = (m.testBit k && decide (k ≠ i)) := by
  unfold clearBit
  split
  · next hset => rw [Nat.one_shiftLeft, testBit_sub_two_pow hset]
  · next hclear =>
    by_cases hk : k = i
    · simp [hk, hclear]
    · simp [hk]

/-- The bits of a list are clear once it has been gone through. -/
theorem testBit_foldl_clearBit (l : List Nat) (m : Nat) {k : Nat} (hk : k ∈ l) : (l.foldl clearBit m).testBit k = false := by
  have hstays : ∀ (l : List Nat) (m : Nat), m.testBit k = false → (l.foldl clearBit m).testBit k = false := by
    intro l
    induction l with
    | nil => exact fun _ h => h
    | cons i l ih => exact fun m h => ih _ (by rw [testBit_clearBit, h, Bool.false_and])
  induction l generalizing m with
  | nil => exact absurd hk List.not_mem_nil
  | cons i l ih =>
    rcases List.mem_cons.1 hk with rfl | hl
    · exact hstays l _ (by simp [testBit_clearBit])
    · exact ih _ hl

/-- What follows a stop of clusters, in the books of the code alone. -/
theorem State.stopClusters_then {s : State} (h : s.noCellWaits) (n clusters : Nat) {g : Code → Code} (hg : ∀ c, (g c).running = c.running) :
    let t := (s.stopClusters n clusters).updCode n g
    t.dues = s.dues ∧ t.code n = g ((s.code n).without clusters) ∧ (∀ k ∈ clusterCores clusters, (t.core k).inReset = true)
      ∧ (∀ c, c < 16 → clusters.testBit c = true → (t.code n).running.testBit c = false) ∧ (s.coh.copies = [] → t.mem = s.mem) := by
  obtain ⟨u, hhalt, hreset, heq⟩ := State.stopClusters_halts n clusters h
  have hcode : ((s.stopClusters n clusters).updCode n g).code n = g ((s.code n).without clusters) := by
    rw [State.code_updCode, heq, State.code_updCode, State.code, hhalt.codes]
    rfl
  refine ⟨?_, hcode, fun k hk => ?_, fun c hc hbit => ?_, fun hnone => ?_⟩
  · rw [heq]
    exact hhalt.dues
  · rw [heq]
    exact (hreset k hk).core
  · rw [hcode, hg]
    exact testBit_foldl_clearBit _ _ (mem_maskList.2 ⟨hc, hbit⟩)
  · rw [heq]
    exact (hhalt.mem hnone).1

/-! The check of an image (06 R146 steps 3 to 5). -/

/-- A check ends: nothing is left to judge, memory stands, and the load's step is over. -/
structure State.CheckEnds (n : Nat) (s t : State) : Prop where
  dues : t.dues = s.dues
  mem : t.mem = s.mem
  step : (t.code n).step = 0

section Check
variable {s : State} {n : Nat}

theorem State.code_codeEnds (st : StatusCode) : (s.codeEnds n st).code n = { s.code n with step := 0, token := (s.code n).job, status := st } :=
  State.code_updCode ..

theorem State.codeEnds_ends (st : StatusCode) : s.CheckEnds n (s.codeEnds n st) := ⟨rfl, rfl, by rw [State.code_codeEnds]⟩

/-- The measurement of a partition's code goes on with an image, and its SVN is kept (06 R146 step 4). -/
def State.measuresCode (s : State) (n : Nat) (c : Code) (image : List Byte) : State :=
  let m := Config.sha384 (digestBytes (s.part n).codeMeas ++ digestBytes (Config.sha384 image) ++ leBytes 2 c.clusters)
  s.updPart n (fun p => { p with codeMeas := m, tenantSvns := p.tenantSvns ++ [fld image 0x10 2] })

/-- The books of a partition's code with the image that it has loaded. -/
def Code.loaded (c : Code) (len : Nat) : Code :=
  { c with running := c.running ||| c.clusters, images := c.images ++ [{ base := c.image, len := len, clusters := c.clusters }] }

/-- The state in which a valid image has been measured, logged and booked. -/
def State.codeBooked (s : State) (n : Nat) (c : Code) (len : Nat) (image : List Byte) : State :=
  (((s.measuresCode n c image).log 0x53 n St.ok 3 []).codeEnds n St.ok).updCode n (fun c => c.loaded len)

/-- A core starts at an entry: its counts of exceptions stand. -/
def Core.startsAt (c : Core) (entry : Nat) : Core := { inReset := false, pc := entry, excs := c.excs }

/-- A valid image starts: its clusters run from its entry. -/
def State.codeStarts (s : State) (n : Nat) (c : Code) (len : Nat) (image : List Byte) : State :=
  forAll (clusterCores c.clusters) (fun k s => s.updCore k (fun x => x.startsAt (c.image + fld image 0xC 4))) (s.codeBooked n c len image)

theorem State.codeBooked_books (c : Code) (len : Nat) (image : List Byte) : s.CheckEnds n (s.codeBooked n c len image)
    ∧ ((s.codeBooked n c len image).code n).status = St.ok
    ∧ ((s.codeBooked n c len image).code n).running = (s.code n).running ||| (s.code n).clusters := by
  have hlog := (s.measuresCode n c image).log_told 0x53 n St.ok 3 []
  have hcode : ((s.measuresCode n c image).log 0x53 n St.ok 3 []).code n = s.code n := by
    obtain ⟨_, _, _, _, heq⟩ := hlog
    rw [heq]
    rfl
  have hbooked := State.code_updCode (s := ((s.measuresCode n c image).log 0x53 n St.ok 3 []).codeEnds n St.ok) n (fun c => c.loaded len)
  rw [State.code_codeEnds, hcode] at hbooked
  have hdues : (s.codeBooked n c len image).dues = s.dues := ((State.updCode_dues ..).trans (State.updCode_dues ..)).trans hlog.dues
  have hmem : (s.codeBooked n c len image).mem = s.mem := ((State.updCode_mem ..).trans (State.updCode_mem ..)).trans hlog.mem
  exact ⟨⟨hdues, hmem, congrArg Code.step hbooked⟩, congrArg Code.status hbooked, congrArg Code.running hbooked⟩

theorem State.codeStarts_starts (c : Code) (len : Nat) (image : List Byte) : s.CheckEnds n (s.codeStarts n c len image)
    ∧ ((s.codeStarts n c len image).code n).status = St.ok
    ∧ ((s.codeStarts n c len image).code n).running = (s.code n).running ||| (s.code n).clusters
    ∧ ∀ k ∈ clusterCores c.clusters, ((s.codeStarts n c len image).core k).inReset = false
      ∧ ((s.codeStarts n c len image).core k).pc = c.image + fld image 0xC 4 := by
  obtain ⟨⟨hdues, hmem, hstep⟩, hstatus, hrunning⟩ := s.codeBooked_books (n := n) c len image
  obtain ⟨⟨hdues', hmem', hcodes⟩, hcores⟩ := forAll_each (s := s.codeBooked n c len image)
    (f := fun k s => s.updCore k (fun x => x.startsAt (c.image + fld image 0xC 4)))
    (I := fun t => t.dues = s.dues ∧ t.mem = s.mem ∧ t.codes = (s.codeBooked n c len image).codes)
    (Q := fun k t => (t.core k).inReset = false ∧ (t.core k).pc = c.image + fld image 0xC 4)
    (fun _ _ h => h) (fun k t _ => by rw [State.core_updCore]; exact ⟨rfl, rfl⟩)
    (fun k j t _ hj => by
      by_cases hkj : j = k
      · rw [hkj, State.core_updCore]
        exact ⟨rfl, rfl⟩
      · rw [State.core_updCore_ne t _ _ hkj]
        exact hj)
    (clusterCores c.clusters) ⟨hdues, hmem, rfl⟩
  have hcode : (s.codeStarts n c len image).code n = (s.codeBooked n c len image).code n := by
    unfold State.code
    rw [← hcodes]
    rfl
  exact ⟨⟨hdues', hmem', by rw [hcode, hstep]⟩, by rw [hcode, hstatus], by rw [hcode, hrunning], hcores⟩

/-- What a check has read fails it: not all of it came, some of it is dross, or it is not as it has to be. -/
def readBad (r : List Byte × Bool × StatusCode) (good : Bool) : Bool := r.2.2 != St.ok || r.2.1 || !good

/-- The check of an image whose header has been read as h: the image is read, and it ends where one of them fails. -/
def State.codeCheckedFrom (s : State) (n : Nat) (h : List Byte × Bool × StatusCode) : State :=
  let c := s.code n
  let len := fld h.1 8 4
  let r := s.ppaPeek n c.image len
  if !(s.inPpa n c.image 256) then s.codeEnds n St.faultBounds
  else if readBad h (codeHeaderOk h.1) then s.codeEnds n St.denied
  else if !(s.inPpa n c.image len) then s.codeEnds n St.faultBounds
  else if readBad r (codeSigned (s.slice n).tenant r.1) then (s.ppaReport n c.image len).codeEnds n St.denied
  else (s.ppaReport n c.image len).codeStarts n c len r.1

/-- The image is read after its lines have been reported: as it stood before. -/
theorem State.codeChecked_eq (s : State) (n : Nat) : s.codeChecked n = s.codeCheckedFrom n (s.ppaPeek n (s.code n).image 256) := by
  have hsame := s.ppaReport_sameToReaders n (s.code n).image (fld (s.ppaPeek n (s.code n).image 256).1 8 4)
  unfold State.codeChecked
  dsimp only
  generalize s.ppaPeek n (s.code n).image 256 = h at hsame ⊢
  simp only [hsame.ppaPeek, hsame.slice]
  rfl

section Header
variable (h : List Byte × Bool × StatusCode)

/-- However it ends, the load is over and memory stands. -/
theorem State.codeCheckedFrom_ends : s.CheckEnds n (s.codeCheckedFrom n h) := by
  have hread := s.ppaReport_stored n (s.code n).image (fld h.1 8 4) {}
  have hmem : (s.ppaReport n (s.code n).image (fld h.1 8 4)).mem = s.mem := s.ppaReport_mem _ _ _ ⟨by decide, rfl, rfl⟩
  have hafter : ∀ {t}, State.CheckEnds n (s.ppaReport n (s.code n).image (fld h.1 8 4)) t → s.CheckEnds n t :=
    fun h => ⟨h.dues.trans hread.dues, h.mem.trans hmem, h.step⟩
  unfold State.codeCheckedFrom
  dsimp only
  split
  · exact State.codeEnds_ends _
  split
  · exact State.codeEnds_ends _
  split
  · exact State.codeEnds_ends _
  split
  · exact hafter (State.codeEnds_ends _)
  · exact hafter (State.codeStarts_starts ..).1

/-- An image whose header lies beyond the partition is not loaded. -/
theorem State.codeCheckedFrom_far (hin : s.inPpa n (s.code n).image 256 = false) : s.codeCheckedFrom n h = s.codeEnds n St.faultBounds := by
  unfold State.codeCheckedFrom
  dsimp only
  rw [hin, Bool.not_false, if_pos rfl]

/-- An image whose header is not as it has to be is not loaded. -/
theorem State.codeCheckedFrom_malformed (hin : s.inPpa n (s.code n).image 256 = true) (hbad : codeHeaderOk h.1 = false) :
    s.codeCheckedFrom n h = s.codeEnds n St.denied := by
  have hheader : readBad h (codeHeaderOk h.1) = true := by rw [hbad, readBad, Bool.not_false, Bool.or_true]
  unfold State.codeCheckedFrom
  dsimp only
  rw [hin, hheader, Bool.not_true, if_neg Bool.false_ne_true, if_pos rfl]

/-- An image that has been read whole is loaded where it is signed for the tenant. -/
theorem State.codeCheckedFrom_read (hin : s.inPpa n (s.code n).image 256 = true) (hpeek : h.2 = (false, St.ok)) (hok : codeHeaderOk h.1 = true)
    (hlen : s.inPpa n (s.code n).image (fld h.1 8 4) = true) (hread : (s.ppaPeek n (s.code n).image (fld h.1 8 4)).2 = (false, St.ok)) :
    let u := s.ppaReport n (s.code n).image (fld h.1 8 4)
    let image := (s.ppaPeek n (s.code n).image (fld h.1 8 4)).1
    s.codeCheckedFrom n h
      = if codeSigned (s.slice n).tenant image = true then u.codeStarts n (s.code n) (fld h.1 8 4) image else u.codeEnds n St.denied := by
  have hwhole : ∀ r good, r.2 = (false, St.ok) → readBad r good = !good := by
    intro r good hr
    rw [readBad, hr]
    rfl
  unfold State.codeCheckedFrom
  dsimp only
  rw [hin, hwhole _ _ hpeek, hok, hlen, hwhole _ _ hread, Bool.not_true, if_neg Bool.false_ne_true, if_neg Bool.false_ne_true, if_neg Bool.false_ne_true]
  cases codeSigned (s.slice n).tenant (s.ppaPeek n (s.code n).image (fld h.1 8 4)).1 <;> rfl

/-- The outcomes of a check, by what has been read. -/
theorem State.codeCheckedFrom_outcomes : let t := s.codeCheckedFrom n h; let c := s.code n; let len := fld h.1 8 4
    (s.inPpa n c.image 256 = false → (t.code n).status = St.faultBounds ∧ t.cores = s.cores)
      ∧ (s.inPpa n c.image 256 = true → codeHeaderOk h.1 = false → (t.code n).status = St.denied ∧ t.cores = s.cores)
      ∧ (s.inPpa n c.image 256 = true → h.2 = (false, St.ok) → codeHeaderOk h.1 = true → s.inPpa n c.image len = true →
          (s.ppaPeek n c.image len).2 = (false, St.ok) → if codeSigned (s.slice n).tenant (s.ppaPeek n c.image len).1 = true then
            (t.code n).status = St.ok ∧ (t.code n).running = c.running ||| c.clusters
            ∧ ∀ k ∈ clusterCores c.clusters, (t.core k).inReset = false ∧ (t.core k).pc = c.image + fld (s.ppaPeek n c.image len).1 0xC 4
          else (t.code n).status = St.denied ∧ t.cores = s.cores) := by
  refine ⟨fun hfar => ?_, fun hin hbad => ?_, fun hin hpeek hok hlen hread => ?_⟩
  · rw [State.codeCheckedFrom_far h hfar, State.code_codeEnds]
    exact ⟨rfl, rfl⟩
  · rw [State.codeCheckedFrom_malformed h hin hbad, State.code_codeEnds]
    exact ⟨rfl, rfl⟩
  · have hst := s.ppaReport_stored n (s.code n).image (fld h.1 8 4) {}
    rw [State.codeCheckedFrom_read h hin hpeek hok hlen hread]
    by_cases hsigned : codeSigned (s.slice n).tenant (s.ppaPeek n (s.code n).image (fld h.1 8 4)).1 = true
    · rw [if_pos hsigned, if_pos hsigned]
      obtain ⟨-, hstatus, hrunning, hcores⟩ := State.codeStarts_starts (s := s.ppaReport n (s.code n).image (fld h.1 8 4)) (n := n) (s.code n)
        (fld h.1 8 4) (s.ppaPeek n (s.code n).image (fld h.1 8 4)).1
      exact ⟨hstatus, by rw [hrunning, State.code_congr hst.codes], hcores⟩
    · rw [if_neg hsigned, if_neg hsigned, State.code_codeEnds]
      exact ⟨rfl, hst.cores⟩

end Header

end Check

end Sys2Proof.Machine

open Sys2Proof Sys2Proof.Machine

/-- Settles O21: a command that nothing refuses is taken in; a stop resets every core of its clusters; a check reads the image as it stood, for its
reads with NOALLOC change no line, and starts the clusters where the image is signed. -/
theorem codeLoadsRunInSteps : Obligations.CodeLoadsRunInSteps := by
  refine ⟨?load, ?stop, ?stopped, ?checked⟩
  case load =>
    intro n v s hcarries hbit hready howns hconf htwin hstep hlog hfw
    obtain ⟨hquiet, hpath⟩ := hcarries
    refine ⟨s.updCode n (fun c => c.taken v.toNat), ?_, ?_⟩
    · rw [exec_codeLoad, execCodeLoad, State.onPart_reached hpath (by simp [reaches]), clearBit_of_clear hbit,
        State.writeCode_taken hready howns hstep hlog (fun _ => ⟨hconf, htwin, hfw⟩)]
      exact closing_quiet ((State.updCode_dues ..).trans hquiet)
    · beta_reduce
      rw [State.code_updCode]
      exact ⟨rfl, rfl, rfl, hbit, rfl, rfl, rfl, State.updCode_mem ..⟩
  case stop =>
    intro n v s hcarries hbit hready howns hstep hlog
    obtain ⟨hquiet, hpath⟩ := hcarries
    refine ⟨s.updCode n (fun c => c.taken v.toNat), ?_, ?_⟩
    · rw [exec_codeStop, execCodeStop, State.onPart_reached hpath (by simp [reaches]), setBit_of_set hbit,
        State.writeCode_taken hready howns hstep hlog (fun hload => absurd (hload.symm.trans hbit) Bool.false_ne_true)]
      exact closing_quiet ((State.updCode_dues ..).trans hquiet)
    · beta_reduce
      rw [State.code_updCode]
      exact ⟨rfl, rfl, rfl, hbit, rfl, rfl, State.updCode_mem ..⟩
  case stopped =>
    intro n s hquiet hstep hcells
    rw [Gives, exec_clustersStopped, execClustersStopped, hstep, beq_self_eq_true, onlyIf_true]
    cases hstop : (s.code n).stop with
    | true =>
      obtain ⟨hdues, hcode, hreset, hclear, hmem⟩ := State.stopClusters_then hcells n (s.code n).clusters
        (g := fun c => { c with step := 0, token := c.job, status := St.ok }) (fun _ => rfl)
      refine ⟨_, closing_quiet (hdues.trans hquiet), hreset, ?_, hclear, hmem⟩
      exact ⟨congrArg Code.step hcode, congrArg Code.status hcode⟩
    | false =>
      obtain ⟨hdues, hcode, hreset, hclear, hmem⟩ := State.stopClusters_then hcells n (s.code n).clusters
        (g := fun c => { c with step := 2 }) (fun _ => rfl)
      exact ⟨_, closing_quiet (hdues.trans hquiet), hreset, congrArg Code.step hcode, hclear, hmem⟩
  case checked =>
    intro n s
    have hcheck := s.codeChecked_eq n
    dsimp only
    generalize s.ppaPeek n (s.code n).image 256 = h at hcheck ⊢
    intro hquiet hstep
    obtain ⟨hdues, hmem, hend⟩ := s.codeCheckedFrom_ends (n := n) h
    refine ⟨s.codeCheckedFrom n h, ?_, hend, hmem, s.codeCheckedFrom_outcomes h⟩
    rw [exec_codeImageChecked, execCodeImageChecked, hstep, beq_self_eq_true, onlyIf_true, hcheck]
    exact closing_quiet (hdues.trans hquiet)
end

section
/-!
PROOFS. A stop of a context whose record is not latched can write memory where a table of cells is not canonical (log entry 5; 12 R332).
-/

namespace Sys2Proof.Machine

/-- Cell 0 of P0 listed twice: its table reads it as a cell of context 0, whose record is latched at PPA 0, and a later entry of the key is one of
context 7, which is aborting. The write-combining buffer holds line 1 but for bytes 16-23, where the guard word of a status block at 0 lies. -/
def State.twiceListed : State :=
  { pat := { parts := [(0, { slice := { cells := 1, order := [0] } })] }
    hbm := { stackTab := [(0, { state := 2 })]
             pchs := [(0, { wcb := [{ line := 1, mask := 2 ^ 64 - 1 - (2 ^ 8 - 1) <<< 16, data := 1 :: zeros 63, dross := false }] })] }
    cells := [(0, { state := 1, ctx := 0, gang := some 0 }), (0, { state := 1, ctx := 7 })]
    ctxs := [(0, { latched := true }), (7, { aborting := true })] }

/-- Only the later entry is of context 7, so the stop of context 7 takes cell 0. -/
theorem State.twiceListed_cellsOf : State.twiceListed.cellsOf 0 7 = [0] := by decide
theorem State.twiceListed_unprotected : State.twiceListed.unprotected 0 := by decide

/-- The stop writes the safeguard words of context 0, and the line that they complete goes to HBM. -/
theorem State.twiceListed_stores : (State.twiceListed.stopCell 0).mem ≠ State.twiceListed.mem := by decide

theorem State.twiceListed_stops : exec (.abortBoundStop 0 7) State.twiceListed = .next (State.twiceListed.stopCell 0) := by
  have hquiet : (State.twiceListed.stopCell 0).dues = [] := by decide
  have hlist : forAll (State.twiceListed.cellsOf 0 7) (fun i s => s.stopCell i) State.twiceListed = State.twiceListed.stopCell 0 := by
    rw [State.twiceListed_cellsOf]
    rfl
  rw [exec_abortBoundStop, execAbortBoundStop]
  exact (congrArg closing hlist).trans (closing_quiet hquiet)

end Sys2Proof.Machine
end

section
open Sys2Proof Sys2Proof.Machine

/-- Refutes O25: the last clause says of every state that the stop of an unlatched context leaves memory, also of one whose table lists a cell twice
(log 5). There the cells of the context come from any entry, but the cell that is stopped is the first entry, of another context, whose record is latched:
its safeguard words are written and complete a line of the write-combining buffer. With each cell listed once the clause has no such case. -/
theorem not_contextCommands : ¬ Obligations.ContextCommands := by
  unfold Obligations.ContextCommands
  rintro ⟨-, -, -, -, -, hstop⟩
  obtain ⟨t, hexec, -, -, hmem⟩ := hstop 0 7 State.twiceListed State.twiceListed_unprotected rfl
  obtain rfl := Host.Outcome.next.inj (State.twiceListed_stops.symm.trans hexec)
  exact State.twiceListed_stores (hmem rfl)
end

section
/-!
PROOFS. What reads of a context's record, and the writes of its status page, leave of the state (07 R169, R170; 12 R324): memory and the tables of contexts
are all that they touch.
-/

namespace Sys2Proof.Machine

/-! Writes to memory, and to the tables of contexts (07 R169, R170). -/

/-- Between s and t memory was read or stored to, and contexts changed. -/
def State.Recorded (s t : State) : Prop := ∃ x, ({ s with ctxs := x } : State).Stored t

theorem State.Stored.recorded {s t : State} (h : s.Stored t) : s.Recorded t := ⟨s.ctxs, h⟩
theorem State.Recorded.refl (s : State) : s.Recorded s := (State.Stored.refl s).recorded
theorem State.updCtx_recorded (s : State) (n c : Nat) (f : Ctx → Ctx) : s.Recorded (s.updCtx n c f) := ⟨_, State.Stored.refl _⟩

theorem State.Recorded.trans {s t u : State} : s.Recorded t → t.Recorded u → s.Recorded u := by
  rintro ⟨_, f, _, _, _, _, _, _, _, _, _, _, rfl⟩ ⟨y, g, _, _, _, _, _, _, _, _, _, _, rfl⟩
  exact ⟨y, fun h => g (f h), _, _, _, _, _, _, _, _, _, _, rfl⟩

section
variable {s t : State} (h : s.Recorded t)
include h

theorem State.Recorded.dues : t.dues = s.dues := by obtain ⟨_, h⟩ := h; exact h.dues
theorem State.Recorded.pat : t.pat = s.pat := by obtain ⟨_, h⟩ := h; exact h.pat
theorem State.Recorded.codes : t.codes = s.codes := by obtain ⟨_, h⟩ := h; exact h.codes
theorem State.Recorded.cells : t.cells = s.cells := by obtain ⟨_, h⟩ := h; exact h.cells
theorem State.Recorded.schs : t.schs = s.schs := by obtain ⟨_, _, _, _, _, _, _, _, _, _, _, _, rfl⟩ := h; rfl
theorem State.Recorded.ress : t.ress = s.ress := by obtain ⟨_, _, _, _, _, _, _, _, _, _, _, _, rfl⟩ := h; rfl
theorem State.Recorded.saved : t.saved = s.saved := by obtain ⟨_, _, _, _, _, _, _, _, _, _, _, _, rfl⟩ := h; rfl
theorem State.Recorded.chans : t.chans = s.chans := by obtain ⟨_, _, _, _, _, _, _, _, _, _, _, _, rfl⟩ := h; rfl
theorem State.Recorded.fab : t.fab = s.fab := by obtain ⟨_, _, _, _, _, _, _, _, _, _, _, _, rfl⟩ := h; rfl
theorem State.Recorded.images (n : Nat) : (t.code n).images = (s.code n).images := by rw [State.code_congr h.codes]

end

/-! Functions that look at a read are unfolded before they are applied: applied to their arguments, the kernel would run the read. -/

theorem State.readRecord_stored (s : State) (n c : Nat) : s.Stored (s.readRecord n c).1 := s.ppaReport_stored n (s.recordAddr n c) 64 {}

theorem State.readWords_error {s t : State} {n c : Nat} {st : StatusCode} (h : s.readRecord n c = (t, .error st)) :
    s.readWords n c = (t, .error st) := by
  rw [show State.readWords = _ by delta State.readWords; rfl, h]

theorem State.readWords_ok {s t : State} {n c : Nat} {b : List Byte} (h : s.readRecord n c = (t, .ok b)) :
    s.readWords n c = (t.updCtx n c (fun x => { x with twait := twaitOf (fld b 0x20 4) }), .ok (bits (fld b 0x38 8) 15 8, (fld b 0x38 8).testBit 0)) := by
  rw [show State.readWords = _ by delta State.readWords; rfl, h]

theorem State.readWords_recorded (s : State) (n c : Nat) : s.Recorded (s.readWords n c).1 := by
  have hread := (s.readRecord_stored n c).recorded
  rcases h : s.readRecord n c with ⟨t, st | b⟩
  · rw [h] at hread
    rw [State.readWords_error h]
    exact hread
  · rw [h] at hread
    rw [State.readWords_ok h]
    exact hread.trans (t.updCtx_recorded n c _)

/-- An image is read in one range after another. -/
theorem State.readImage_rel {R : State → State → Prop} {n : Nat} (hread : ∀ s ppa len, R s (s.ppaReport n ppa len)) (htrans : ∀ {a b c}, R a b → R b c → R a c)
    (s : State) (a : Nat) : R s (s.readImage n a).1 := by
  have hhead : R s (s.ppaRead n a 64).1 := hread s a 64
  have hbody : R s ((s.ppaRead n a 64).1.ppaRead n a (fld (s.ppaRead n a 64).2.1 4 4)).1 := htrans hhead (hread _ a _)
  obtain ⟨r, hr⟩ : ∃ r, s.readImage n a = r := ⟨_, rfl⟩
  rw [hr]
  unfold State.readImage at hr
  dsimp only at hr
  generalize s.ppaRead n a 64 = h at hr hhead hbody
  generalize h.1.ppaRead n a (fld h.2.1 4 4) = r at hr hbody
  subst hr
  simp only [apply_ite Prod.fst]
  split_ifs <;> assumption

theorem State.readImage_stored (s : State) (n a : Nat) : s.Stored (s.readImage n a).1 :=
  State.readImage_rel (fun s ppa len => s.ppaReport_stored n ppa len {}) State.Stored.trans s a

theorem State.dispatchCheck_stored (s : State) (n : Nat) (t : Task) : s.Stored (s.dispatchCheck n t).1 := by
  have hread := s.readImage_stored n t.image
  rw [show State.dispatchCheck = _ by delta State.dispatchCheck; rfl]
  dsimp only
  generalize s.readImage n t.image = r at hread ⊢
  simp only [apply_ite Prod.fst]
  refine .ite (.refl s) (.ite (.refl s) ?_)
  rcases r with ⟨u, st | image⟩
  · exact hread
  · exact hread

/-- A change that leaves of a context its state, its status, its fault and its abort. -/
def Ctx.KeepsEnd (f : Ctx → Ctx) : Prop :=
  ∀ x, (f x).state = x.state ∧ (f x).status = x.status ∧ (f x).fault = x.fault ∧ (f x).aborting = x.aborting

/-- A latch reads the record, and the context takes its fields. -/
theorem State.latch_keepsEnd (s : State) (n c : Nat) : ∃ f, Ctx.KeepsEnd f ∧ s.latch n c = (s.readRecord n c).1.updCtx n c f := by
  rw [show State.latch = _ by delta State.latch; rfl]
  generalize s.readRecord n c = r
  rcases r with ⟨t, st | b⟩
  · exact ⟨fun x => { x with latched := false, latchFail := st }, fun _ => ⟨rfl, rfl, rfl, rfl⟩, rfl⟩
  · dsimp only
    split
    · exact ⟨fun x => { x with latched := true, latchFail := St.ok, slotLog2 := bits (fld b 0 8) 15 8, saveBase := fld b 8 8, saveLen := fld b 0x10 8
                               statusBase := fld b 0x18 8 }, fun _ => ⟨rfl, rfl, rfl, rfl⟩, rfl⟩
    · exact ⟨fun x => { x with latched := false, latchFail := St.denied }, fun _ => ⟨rfl, rfl, rfl, rfl⟩, rfl⟩

theorem State.latch_recorded (s : State) (n c : Nat) : s.Recorded (s.latch n c) := by
  obtain ⟨f, hlatch⟩ := s.latch_updCtx n c
  rw [hlatch]
  exact (s.readRecord_stored n c).recorded.trans (State.updCtx_recorded _ n c f)

theorem State.setCtxState_recorded {s : State} {n : Nat} (himages : (s.code n).images = []) (c : Nat) (st : CtxSt) (status : StatusCode) :
    s.Recorded (s.setCtxState n c st status) :=
  (s.updCtx_recorded ..).trans (State.putStatus_stored (s := s.updCtx n c _) himages c).recorded

end Sys2Proof.Machine
end

section
/-!
PROOFS. The loss of a context and what follows it (07 R178, R182, R187, R188; 12 R324-R332): a context that is being lost stays so, a cell that is free
stays free, and a site keeps its resident.
-/

namespace Sys2Proof.Machine

/-! What lasts. -/

/-- A cell that is idle and waits for nothing. -/
def Cell.Still (c : Cell) : Prop := c.state = 0 ∧ c.waiting = none

/-- From c to d a cell has become still, or was not still, works for the same context, and is not idle if it was not. -/
def Cell.Winds (c d : Cell) : Prop := d.Still ∨ ¬ c.Still ∧ d.ctx = c.ctx ∧ (c.state ≠ 0 → d.state ≠ 0)

theorem Cell.Winds.refl (c : Cell) : c.Winds c := (Classical.em c.Still).imp id fun h => ⟨h, rfl, fun h => h⟩
theorem Cell.Winds.trans {c d e : Cell} (h : c.Winds d) (h' : d.Winds e) : c.Winds e := by
  refine h'.imp id fun ⟨hd, hctx, hbusy⟩ => ?_
  obtain ⟨hc, hctx', hbusy'⟩ := h.resolve_left hd
  exact ⟨hc, hctx.trans hctx', fun h => hbusy (hbusy' h)⟩
theorem Cell.Winds.still {c d : Cell} (h : c.Winds d) (hc : c.Still) : d.Still := h.elim id fun h => absurd hc h.1
theorem Cell.asked_winds (c : Cell) : c.Winds { c with asked := true } := Cell.Winds.refl c

/-- From x to y a context that was being lost is so still, for the same status and with the same fault. -/
def Ctx.Stays (x y : Ctx) : Prop :=
  x.state = .lost → x.aborting = true → y.state = .lost ∧ y.aborting = true ∧ y.status = x.status ∧ y.fault = x.fault

theorem Ctx.Stays.refl (x : Ctx) : x.Stays x := fun hlost habort => ⟨hlost, habort, rfl, rfl⟩
theorem Ctx.Stays.trans {x y z : Ctx} (h : x.Stays y) (h' : y.Stays z) : x.Stays z := fun hlost habort => by
  obtain ⟨hy, hy', hstatus, hfault⟩ := h hlost habort
  obtain ⟨hz, hz', hstatus', hfault'⟩ := h' hy hy'
  exact ⟨hz, hz', hstatus'.trans hstatus, hfault'.trans hfault⟩
theorem Ctx.Stays.of_not_lost {x : Ctx} (h : x.state ≠ .lost) (y : Ctx) : x.Stays y := fun hlost => absurd hlost h
theorem Ctx.Stays.of_not_aborting {x : Ctx} (h : x.aborting = false) (y : Ctx) : x.Stays y := fun _ habort => by rw [h] at habort; cases habort
theorem Ctx.KeepsEnd.stays {f : Ctx → Ctx} (h : Ctx.KeepsEnd f) (x : Ctx) : x.Stays (f x) := by
  obtain ⟨hstate, hstatus, hfault, habort⟩ := h x
  exact fun hl ha => ⟨hstate.trans hl, habort.trans ha, hstatus, hfault⟩

/-- What the work of Pn keeps, Pn running no protected image: what is owed is a write back of Pn's, lost contexts stay lost, still cells still. -/
structure State.Lasts (n : Nat) (s t : State) : Prop where
  pat : t.pat = s.pat
  images : (t.code n).images = []
  dues : ∀ d ∈ t.dues, d ∈ s.dues ∨ ∃ c st, d = .writeBack n c st
  ctx (c : Nat) : (s.ctx n c).Stays (t.ctx n c)
  cell (i : Nat) : (s.cell i).Winds (t.cell i)

/-- And what it keeps while no gang leaves its cells: who is resident where. -/
structure State.Works (n : Nat) (s t : State) : Prop extends State.Lasts n s t where
  ress : t.ress = s.ress

section Lasts
variable {n : Nat} {s t u : State}

theorem State.Lasts.trans (h : State.Lasts n s t) (h' : State.Lasts n t u) : State.Lasts n s u where
  pat := h'.pat.trans h.pat
  images := h'.images
  dues d hd := (h'.dues d hd).elim (h.dues d) Or.inr
  ctx c := (h.ctx c).trans (h'.ctx c)
  cell i := (h.cell i).trans (h'.cell i)

theorem State.Works.trans (h : State.Works n s t) (h' : State.Works n t u) : State.Works n s u :=
  ⟨h.toLasts.trans h'.toLasts, h'.ress.trans h.ress⟩

/-- What changes neither contexts, cells nor residents, owes nothing, and leaves images alone. -/
theorem State.Lasts.of_same (himages : (s.code n).images = []) (hpat : t.pat = s.pat) (hcodes : t.codes = s.codes) (hdues : t.dues = s.dues)
    (hctxs : t.ctxs = s.ctxs) (hcells : t.cells = s.cells) : State.Lasts n s t where
  pat := hpat
  images := by rw [State.code_congr hcodes]; exact himages
  dues d hd := .inl (hdues ▸ hd)
  ctx c := by rw [State.ctx_congr hctxs]; exact .refl _
  cell i := by rw [State.cell_congr hcells]; exact .refl _

theorem State.Works.refl (himages : (s.code n).images = []) : State.Works n s s := ⟨.of_same himages rfl rfl rfl rfl rfl, rfl⟩

/-- The same, and the residents stand too. -/
theorem State.Works.of_same (himages : (s.code n).images = []) (hpat : t.pat = s.pat) (hcodes : t.codes = s.codes) (hdues : t.dues = s.dues)
    (hctxs : t.ctxs = s.ctxs) (hcells : t.cells = s.cells) (hress : t.ress = s.ress) : State.Works n s t :=
  ⟨.of_same himages hpat hcodes hdues hctxs hcells, hress⟩

theorem State.Stored.works (h : s.Stored t) (himages : (s.code n).images = []) : State.Works n s t :=
  .of_same himages h.pat h.codes h.dues h.ctxs h.cells h.recorded.ress

theorem State.updCtx_works (himages : (s.code n).images = []) {c : Nat} {f : Ctx → Ctx} (hf : (s.ctx n c).Stays (f (s.ctx n c))) :
    State.Works n s (s.updCtx n c f) where
  pat := rfl
  images := himages
  dues _ hd := .inl hd
  ctx d := by
    by_cases hd : d = c
    · rw [hd, State.ctx_updCtx]
      exact hf
    · rw [show (s.updCtx n c f).ctx n d = s.ctx n d from Tab.get_upd_ne _ _ _ (by omega)]
      exact .refl _
  cell _ := .refl _
  ress := rfl

theorem State.updCell_works (himages : (s.code n).images = []) {i : Nat} {f : Cell → Cell} (hf : (s.cell i).Winds (f (s.cell i))) :
    State.Works n s (s.updCell i f) where
  pat := rfl
  images := himages
  dues _ hd := .inl hd
  ctx _ := .refl _
  cell j := by
    by_cases hj : j = i
    · rw [hj, State.cell_updCell]
      exact hf
    · rw [State.cell_updCell_ne _ _ _ hj]
      exact .refl _
  ress := rfl

/-- A write back that fails is owed. -/
theorem State.owes_works (himages : (s.code n).images = []) (c : Nat) (st : StatusCode) :
    State.Works n s { s with dues := s.dues ++ [.writeBack n c st] } where
  pat := rfl
  images := himages
  dues _ hd := (List.mem_append.1 hd).imp id fun h => ⟨c, st, List.mem_singleton.1 h⟩
  ctx _ := .refl _
  cell _ := .refl _
  ress := rfl

theorem State.Works.ite {c : Prop} [Decidable c] (ht : State.Works n s t) (hu : State.Works n s u) : State.Works n s (if c then t else u) := by
  split <;> assumption

/-- A loop whose every step works, started where the partition stands as it does. -/
theorem foldl_works {β : Type} {l : List β} {f : State → β → State} (himages : (s.code n).images = [])
    (hf : ∀ b ∈ l, ∀ a, State.Works n s a → State.Works n a (f a b)) : State.Works n s (l.foldl f s) := by
  have hall : ∀ (l' : List β), (∀ b ∈ l', b ∈ l) → ∀ a, State.Works n s a → State.Works n s (l'.foldl f a) := by
    intro l'
    induction l' with
    | nil => exact fun _ _ h => h
    | cons b l' ih =>
      intro hin a ha
      exact ih (fun x hx => hin x (List.mem_cons_of_mem _ hx)) _ (ha.trans (hf b (hin b List.mem_cons_self) a ha))
  exact hall l (fun _ h => h) s (.refl himages)

theorem forAll_works {l : List Nat} {f : Nat → State → State} (himages : (s.code n).images = [])
    (hf : ∀ k ∈ l, ∀ a, State.Works n s a → State.Works n a (f k a)) : State.Works n s (forAll l f s) :=
  foldl_works (f := fun s i => f i s) himages hf

end Lasts

/-! Contexts and their status pages (07 R169, R170; 03 R81). -/

section Ctx
variable {n : Nat} {s : State} (himages : (s.code n).images = [])
include himages

theorem State.hubWrite_works (ppa : Nat) (bytes : List Byte) : State.Works n s (s.hubWrite n ppa bytes).1 :=
  (State.hubWrite_stored himages ppa bytes {}).works himages

theorem State.putStatus_works (c : Nat) : State.Works n s (s.putStatus n c) := (State.putStatus_stored himages c).works himages
theorem State.putGuard_works (c : Nat) : State.Works n s (s.putGuard n c) := (State.putGuard_stored himages c).works himages

theorem State.latch_works (c : Nat) : State.Works n s (s.latch n c) := by
  obtain ⟨f, hf, hlatch⟩ := s.latch_keepsEnd n c
  have hread := (s.readRecord_stored n c).works himages
  rw [hlatch]
  exact hread.trans (State.updCtx_works hread.images (hf.stays _))

/-- A context that is not being lost takes a state. -/
theorem State.setCtxState_works {c : Nat} (hc : ∀ y, (s.ctx n c).Stays y) (st : CtxSt) (status : StatusCode) :
    State.Works n s (s.setCtxState n c st status) := by
  have hctx : State.Works n s (s.updCtx n c (fun x => { x with state := st, status := status })) := State.updCtx_works himages (hc _)
  exact hctx.trans (State.putStatus_works hctx.images c)

theorem State.msgFail_works (c dest box : Nat) (status : StatusCode) : State.Works n s (s.msgFail n c dest box status) := by
  have hctx : State.Works n s (s.updCtx n c (fun x => x.failed dest box status)) := by
    refine State.updCtx_works himages ?_
    unfold Ctx.failed
    split
    · exact Ctx.Stays.refl _
    · exact Ctx.Stays.refl _
  rw [State.msgFail_eq]
  exact hctx.trans (State.putStatus_works hctx.images c)

theorem State.addCellRun_works (c gid : Nat) : State.Works n s (s.addCellRun n c gid) := by
  have htick : State.Works n s s.tick := .of_same himages rfl rfl rfl rfl rfl rfl
  unfold State.addCellRun
  dsimp only
  generalize (Config.freeValue s.freeCtr).toNat % 2 ^ 32 = us
  have hctx : State.Works n s (s.tick.updCtx n c (fun x => { x with run := x.run + us })) :=
    htick.trans (State.updCtx_works htick.images (Ctx.Stays.refl _))
  generalize s.tick.updCtx n c (fun x => { x with run := x.run + us }) = t at hctx ⊢
  have hsch : State.Works n t (t.updSch n (fun h => { h with gangs := h.gangs.map (fun g => if g.id = gid then { g with runUs := g.runUs + us } else g) })) :=
    .of_same hctx.images rfl rfl rfl rfl rfl rfl
  exact hctx.trans (hsch.trans ((State.putWord_stored hsch.images ..).works hsch.images))

theorem State.updSch_works (f : Sch → Sch) : State.Works n s (s.updSch n f) := .of_same himages rfl rfl rfl rfl rfl rfl
theorem State.updGang_works (gid : Nat) (f : Gang → Gang) : State.Works n s (s.updGang n gid f) := State.updSch_works himages _

theorem State.raise_works (fn vec : Nat) : State.Works n s (s.raise fn vec) := by
  obtain ⟨m, o, h⟩ := s.raise_only_msix fn vec
  rw [h]
  exact .of_same himages rfl rfl rfl rfl rfl rfl

end Ctx

/-! Cells that end (04 R108; 03 R85). -/

theorem Cell.stopped_still (c : Cell) : c.stopped.Still := ⟨rfl, rfl⟩

section Cells
variable {n i : Nat} {s : State} (himages : (s.code n).images = []) (howner : s.ownerCell i = some n)
include himages howner

/-- A stop drops what waits at the egress, may write the safeguard words, and zeroes the cell. -/
theorem State.stopCell_zeroes : ∃ t, State.Works n s t ∧ t.cells = s.cells ∧ s.stopCell i = t.updCell i Cell.stopped := by
  have hdrop : State.Works n s (s.dropUnmet i) := .of_same himages rfl rfl rfl rfl rfl rfl
  have howner' : (s.dropUnmet i).ownerCell i = some n := howner
  unfold State.stopCell
  dsimp only
  rw [howner']
  rcases ((s.dropUnmet i).cell i).gang with _ | g
  · exact ⟨_, hdrop, rfl, rfl⟩
  · have hguard := State.putGuard_stored hdrop.images ((s.dropUnmet i).cell i).ctx
    exact ⟨_, hdrop.trans (hguard.works hdrop.images), hguard.cells, rfl⟩

theorem State.stopCell_works : State.Works n s (s.stopCell i) := by
  obtain ⟨t, ht, -, hstop⟩ := State.stopCell_zeroes himages howner
  rw [hstop]
  exact ht.trans (State.updCell_works ht.images (.inl (Cell.stopped_still _)))

theorem State.cell_stopCell_owned (j : Nat) : (s.stopCell i).cell j = if j = i then (s.cell i).stopped else s.cell j := by
  obtain ⟨t, -, hcells, hstop⟩ := State.stopCell_zeroes himages howner
  rw [hstop, ← State.cell_congr hcells i, ← State.cell_congr hcells j]
  exact Tab.get_upd {} t.cells i j Cell.stopped

omit howner in
theorem State.msgFail_cells (c dest box : Nat) (status : StatusCode) : (s.msgFail n c dest box status).cells = s.cells := by
  rw [State.msgFail_eq]
  exact (State.putStatus_stored (s := s.updCtx n c (fun x => x.failed dest box status)) himages c).cells

/-- A cell that waits in SND for a tally that is void stops, or will halt. -/
theorem State.endSndWait_works : State.Works n s (s.endSndWait n i) := by
  unfold State.endSndWait
  dsimp only
  split
  · exact .refl himages
  · rename_i dest b hwait
    have hfail := State.msgFail_works himages (s.cell i).ctx dest b St.contextLost
    refine .ite (hfail.trans ?_) (hfail.trans ?_)
    · have hrun := State.addCellRun_works hfail.images (s.cell i).ctx ((s.cell i).gang.getD 0)
      refine hrun.trans ?_
      have hgang := State.updGang_works hrun.images ((s.cell i).gang.getD 0) (fun g => { g with ended := g.ended.set none (i % 16) (some St.contextLost) })
      refine hgang.trans (State.stopCell_works hgang.images ?_)
      rw [State.ownerCell_congr (hfail.trans (hrun.trans hgang)).pat]
      exact howner
    · have hcell := State.cell_congr (State.msgFail_cells himages (s.cell i).ctx dest b St.contextLost) i
      generalize s.msgFail n (s.cell i).ctx dest b St.contextLost = t at hfail hcell ⊢
      refine State.updCell_works hfail.images (.inr ⟨fun hstill => ?_, rfl, fun _ => by simp⟩)
      rw [hcell] at hstill
      rw [sndWait, hstill.2] at hwait
      cases hwait

end Cells

theorem State.mem_cellsOf_owner {s : State} {n c i : Nat} (hi : i ∈ s.cellsOf n c) : s.ownerCell i = some n := by
  obtain ⟨e, he, rfl⟩ := List.mem_map.1 hi
  have hp := (List.mem_filter.1 he).2
  simp only [Bool.and_eq_true, beq_iff_eq] at hp
  exact hp.2

/-! Queue entries and task-end records (12 R321-R326; 07 R181, R182). -/

section Entries
variable {n : Nat} {s : State} (himages : (s.code n).images = [])
include himages

theorem State.hostStore_works (addr : Nat) (bytes : List Byte) (ep : Bool) : State.Works n s (s.hostStore n addr bytes ep).1 := by
  obtain ⟨r, hr⟩ : ∃ r, s.hostStore n addr bytes ep = r := ⟨_, rfl⟩
  rw [hr]
  rw [show State.hostStore = _ by delta State.hostStore; rfl] at hr
  split at hr
  · exact hr ▸ .of_same himages rfl rfl rfl rfl rfl rfl
  · exact hr ▸ .refl himages

theorem State.walkRead_works (a : Nat) : State.Works n s (s.walkRead n a) := by
  rw [show State.walkRead = _ by delta State.walkRead; rfl]
  generalize s.ppaToHpa n a = hpa
  rcases hpa with _ | hpa
  · exact .refl himages
  · exact .ite ((s.reportFail_metered _).stored.works himages) (.refl himages)

theorem State.noteWalk_works (c : Nat) (reads : List TableRead) : State.Works n s (s.noteWalk none n c reads) :=
  foldl_works himages fun r _ _ ha => .ite (.refl ha.images) (State.walkRead_works ha.images r.addr)

theorem State.queueStore_works (q : Queue) (addr : Nat) (bytes : List Byte) : State.Works n s (s.queueStore n q addr bytes).1 := by
  have hwalk := fun reads => State.noteWalk_works himages q.ctx reads
  have hwrite := State.hubWrite_works himages addr bytes
  obtain ⟨r, hr⟩ : ∃ r, s.queueStore n q addr bytes = r := ⟨_, rfl⟩
  rw [hr]
  rw [show State.queueStore = _ by delta State.queueStore; rfl] at hr
  generalize s.walk none n q.ctx addr false true = w at hr
  generalize s.hubWrite n addr bytes = v at hr hwrite
  dsimp only at hr
  split at hr
  · split at hr
    · subst hr
      exact (hwalk _).trans (State.hostStore_works (hwalk _).images ..)
    · exact hr ▸ hwalk _
    · exact hr ▸ hwalk _
  · exact hr ▸ hwrite

theorem State.signalFence_works (f v : Nat) (e : Bool) : State.Works n s (s.signalFence n f v e) := .of_same himages rfl rfl rfl rfl rfl rfl
theorem State.updQueue_works (q : Nat) (f : Queue → Queue) : State.Works n s (s.updQueue n q f) := .of_same himages rfl rfl rfl rfl rfl rfl

/-- What of an entry follows the writes of its completion: it leaves the queue, a failed write is owed, its interrupt and its signal go. -/
def State.entryLeaves (s : State) (n q : Nat) (e : QEnt) (ctx vector : Nat) (status st : StatusCode) : State :=
  let ctrl := fld e.bytes 0 4
  let s := s.updQueue n q (fun qu => { qu with entries := qu.entries.filter (fun x => !(x.idx == e.idx)) })
  let s := if st = St.ok then s else { s with dues := s.dues ++ [.writeBack n ctx st] }
  let s := if ctrl.testBit 30 && st = St.ok then s.raise n vector else s
  if ctrl.testBit 29 then s.signalFence n (bits ctrl 23 12) (fld e.bytes 8 8 % 2 ^ 63) (status != St.ok)
  else if bits ctrl 7 0 = 3 && status = St.ok then s.signalFence n (bits ctrl 23 12) (fld e.bytes 8 8 % 2 ^ 63) false
  else s

theorem State.entryLeaves_works (q : Nat) (e : QEnt) (ctx vector : Nat) (status st : StatusCode) :
    State.Works n s (s.entryLeaves n q e ctx vector status st) := by
  have hqueue := State.updQueue_works himages q (fun qu => { qu with entries := qu.entries.filter (fun x => !(x.idx == e.idx)) })
  unfold State.entryLeaves
  dsimp only
  generalize s.updQueue n q (fun qu => { qu with entries := qu.entries.filter (fun x => !(x.idx == e.idx)) }) = a at hqueue ⊢
  have howes : State.Works n s (if st = St.ok then a else { a with dues := a.dues ++ [.writeBack n ctx st] }) :=
    .ite hqueue (hqueue.trans (State.owes_works hqueue.images ctx st))
  generalize (if st = St.ok then a else { a with dues := a.dues ++ [.writeBack n ctx st] }) = b at howes ⊢
  have hraise : State.Works n s (if ((fld e.bytes 0 4).testBit 30 && decide (st = St.ok)) = true then b.raise n vector else b) :=
    .ite (howes.trans (State.raise_works howes.images ..)) howes
  generalize (if ((fld e.bytes 0 4).testBit 30 && decide (st = St.ok)) = true then b.raise n vector else b) = c at hraise ⊢
  exact .ite (hraise.trans (State.signalFence_works hraise.images ..)) (.ite (hraise.trans (State.signalFence_works hraise.images ..)) hraise)

theorem State.completeEntry_works (q : Nat) (e : QEnt) (status : StatusCode) : State.Works n s (s.completeEntry n q e status).1 := by
  have hfirst := State.queueStore_works himages (s.queue n q) (queueAddr (s.queue n q) e.idx + 0x38) (leBytes 8 status.toNat)
  obtain ⟨r, hr⟩ : ∃ r, s.completeEntry n q e status = r := ⟨_, rfl⟩
  rw [hr]
  rw [show State.completeEntry = _ by delta State.completeEntry; rfl] at hr
  dsimp only at hr
  generalize s.queueStore n (s.queue n q) (queueAddr (s.queue n q) e.idx + 0x38) (leBytes 8 status.toNat) = r1 at hr hfirst
  have hsecond : State.Works n s (if r1.2 = St.ok then r1.1.queueStore n (s.queue n q) (queueAddr (s.queue n q) e.idx) (leBytes 4 (fld e.bytes 0 4 % 2 ^ 31))
      else (r1.1, r1.2)).1 := by
    split
    · exact hfirst.trans (State.queueStore_works hfirst.images ..)
    · exact hfirst
  generalize (if r1.2 = St.ok then r1.1.queueStore n (s.queue n q) (queueAddr (s.queue n q) e.idx) (leBytes 4 (fld e.bytes 0 4 % 2 ^ 31))
    else (r1.1, r1.2)) = r2 at hr hsecond
  subst hr
  exact hsecond.trans (State.entryLeaves_works hsecond.images q e (s.queue n q).ctx (s.queue n q).vector status r2.2)

end Entries

/-! Entries that end, and the tasks they came from (12 R324-R326; 07 R181, R182). -/

section Tasks
variable {n : Nat} {s : State} (himages : (s.code n).images = [])
include himages

theorem State.settleWaits_works (fuel : Nat) : State.Works n s (State.settleWaits n fuel s) := by
  induction fuel generalizing s with
  | zero => exact .refl himages
  | succ fuel ih =>
    rw [State.settleWaits]
    split
    · exact .refl himages
    · next q e st _ =>
      have hentry := State.completeEntry_works himages q e st
      have hqueue := hentry.trans (State.updQueue_works hentry.images q (fun qu =>
        if st = St.ok then { qu with state := if qu.head = qu.tail && qu.entries.isEmpty then 1 else 2 } else { qu with state := 4, status := St.aborted }))
      exact hqueue.trans (ih hqueue.images)

theorem State.finishEntry_works (q : Nat) (e : QEnt) (status : StatusCode) : State.Works n s (s.finishEntry n q e status).1 := by
  have hentry := State.completeEntry_works himages q e status
  exact hentry.trans (State.settleWaits_works hentry.images 128)

theorem State.setEvent_works (core b : Nat) : State.Works n s (s.setEvent core b) := .of_same himages rfl rfl rfl rfl rfl rfl

/-- The queue entry that a task came from, if any, completes with the task's status (07 R182). -/
def State.entryEnds (s : State) (n kind : Nat) (src : TaskSrc) (status : StatusCode) : State :=
  match kind, src with
  | 1, .queue q idx =>
    match (s.queue n q).entries.find? (fun e => e.idx == idx) with
    | some e => (s.finishEntry n q e status).1.updQueue n q (fun qu => if qu.state = 2 && qu.entries.isEmpty && qu.head = qu.tail then { qu with state := 1 } else qu)
    | none => s
  | _, _ => s

theorem State.entryEnds_works (kind : Nat) (src : TaskSrc) (status : StatusCode) : State.Works n s (s.entryEnds n kind src status) := by
  unfold State.entryEnds
  split
  · split
    · next q _ _ e _ =>
      have hentry := State.finishEntry_works himages q e status
      exact hentry.trans (State.updQueue_works hentry.images ..)
    · exact .refl himages
  · exact .refl himages

theorem State.taskEnd_works (t : Task) (status : StatusCode) (flags failPos failMask run saves kind : Nat) :
    State.Works n s (s.taskEnd n t status flags failPos failMask run saves kind) := by
  have hseq : State.Works n s (s.updCtx n t.ctx (fun x => { x with recSeq := x.recSeq + 1 })) := State.updCtx_works himages (Ctx.Stays.refl _)
  rw [show State.taskEnd = _ by delta State.taskEnd; rfl]
  dsimp only
  generalize s.updCtx n t.ctx (fun x => { x with recSeq := x.recSeq + 1 }) = a at hseq ⊢
  generalize taskRecord n t status flags failPos failMask run saves kind (a.ctx n t.ctx).recSeq = b
  have hwrite := hseq.trans (State.hubWrite_works hseq.images t.endAddr b)
  generalize a.hubWrite n t.endAddr b = w at hwrite ⊢
  have hevent : State.Works n s (if (t.event && w.2 == St.ok) = true then w.1.setEvent t.evCore t.evBit else w.1) :=
    .ite (hwrite.trans (State.setEvent_works hwrite.images ..)) hwrite
  generalize (if (t.event && w.2 == St.ok) = true then w.1.setEvent t.evCore t.evBit else w.1) = u at hevent ⊢
  exact hevent.trans (State.entryEnds_works hevent.images kind t.src (if w.2 = St.ok then status else w.2))

theorem State.taskUnrun_works (t : Task) (status : StatusCode) : State.Works n s (s.taskUnrun n t status) := State.taskEnd_works himages ..

theorem State.dropWaiting_works (c : Nat) (status : StatusCode) : State.Works n s (s.dropWaiting n c status) := by
  have hdrop := State.updSch_works himages (fun h => { h with waiting := h.waiting.filter (fun t => !(t.ctx == c)) })
  exact hdrop.trans (foldl_works hdrop.images fun t _ _ ha => State.taskUnrun_works ha.images t status)

theorem State.flushQueueAs_works (q : Nat) (status : StatusCode) : State.Works n s (s.flushQueueAs n q status) := by
  unfold State.flushQueueAs
  dsimp only
  have hheld : State.Works n s (((s.queue n q).entries.filter (fun e => !e.running)).foldl (fun s e => (s.completeEntry n q e status).1) s) :=
    foldl_works himages fun e _ _ ha => State.completeEntry_works ha.images q e status
  generalize ((s.queue n q).entries.filter (fun e => !e.running)).foldl (fun s e => (s.completeEntry n q e status).1) s = a at hheld ⊢
  have hposted : State.Works n a ((unfetched (s.queue n q)).foldl (fun s' i =>
      (s'.tick.completeEntry n q { idx := i, bytes := if queueInHost (s.queue n q) then (List.range 128).map (Config.freeByte s'.freeCtr)
        else (s'.ppaPeek n (queueAddr (s.queue n q) i) 128).1 } status).1) a) :=
    foldl_works hheld.images fun i _ b hb =>
      have htick : State.Works n b b.tick := .of_same hb.images rfl rfl rfl rfl rfl rfl
      htick.trans (State.completeEntry_works htick.images q _ status)
  generalize ((unfetched (s.queue n q)).foldl (fun s' i =>
    (s'.tick.completeEntry n q { idx := i, bytes := if queueInHost (s.queue n q) then (List.range 128).map (Config.freeByte s'.freeCtr)
      else (s'.ppaPeek n (queueAddr (s.queue n q) i) 128).1 } status).1) a) = b at hposted ⊢
  have hqueue := hheld.trans (hposted.trans (State.updQueue_works hposted.images q (fun qu =>
    { qu with head := qu.tail, state := if qu.state = 0 then 0 else if qu.entries.isEmpty then 1 else 2 })))
  exact hqueue.trans (State.settleWaits_works hqueue.images 128)

end Tasks

/-! The loss of a context (07 R178, R188; 12 R331). -/

/-- A context goes to LOST, and its abort begins. -/
def State.turnsLost (s : State) (n c : Nat) (status : StatusCode) : State :=
  ((if (s.ctx n c).state == .idle then s.latch n c else s).updCtx n c (fun x => { x with debt := 0, aborting := true, savedChans := [] })).setCtxState n c .lost status

/-- The host is told, and what waits for a context's tallies ends, before its cells stop. -/
def State.tellsLoss (s : State) (n c : Nat) : State :=
  let s := (s.updVf n (fun v => { v with ctxLost := setBit v.ctxLost c })).raise n 1
  let s := (s.voidTallies n c).endCoreWaits n (fun k => k.ctx == c && waitsFor (fun d => decide (d < 192)) k.waiting) St.contextLost
  forAll (s.chansOf n c) (fun i s => s.updChan i (fun ch =>
    if ch.state = 0 || ch.state = 8 then { ch with state := 1, stop := .none, bursts := [], desc := none } else abortChan ch)) s

/-- What a lost context's cells, tasks and queues hold ends. -/
def State.windsUp (s : State) (n c : Nat) : State :=
  let s := forAll (s.cellsOf n c) (fun i s => s.endSndWait n i) s
  let s := forAll (s.cellsOf n c) (fun i s => s.updCell i (fun k => { k with asked := true })) s
  forAll (s.queuesOf n c) (fun q s => s.flushQueue n q) (s.dropWaiting n c St.contextLost)

theorem State.loseCtx_of_lost {s : State} {n c : Nat} (h : (s.ctx n c).state = .lost) (status : StatusCode) : s.loseCtx n c status = s := by
  rw [State.loseCtx, if_pos (beq_iff_eq.2 h)]

theorem State.loseCtx_eq {s : State} {n c : Nat} (h : (s.ctx n c).state ≠ .lost) (status : StatusCode) :
    s.loseCtx n c status = ((s.turnsLost n c status).tellsLoss n c).windsUp n c := by
  rw [State.loseCtx, if_neg fun hlost => h (beq_iff_eq.1 hlost)]
  rfl

section Loss
variable {n : Nat} {s : State} (himages : (s.code n).images = [])
include himages

theorem State.latchIdle_works (c : Nat) : State.Works n s (if (s.ctx n c).state == .idle then s.latch n c else s) :=
  .ite (State.latch_works himages c) (.refl himages)

theorem State.tellsLoss_works (c : Nat) : State.Works n s (s.tellsLoss n c) := by
  have hvf : State.Works n s (s.updVf n (fun v => { v with ctxLost := setBit v.ctxLost c })) := .of_same himages rfl rfl rfl rfl rfl rfl
  have hraise := hvf.trans (State.raise_works hvf.images n 1)
  unfold State.tellsLoss
  dsimp only
  generalize (s.updVf n (fun v => { v with ctxLost := setBit v.ctxLost c })).raise n 1 = a at hraise ⊢
  have hends : State.Works n a ((a.voidTallies n c).endCoreWaits n (fun k => k.ctx == c && waitsFor (fun d => decide (d < 192)) k.waiting) St.contextLost) :=
    .of_same hraise.images rfl rfl rfl rfl rfl rfl
  generalize (a.voidTallies n c).endCoreWaits n (fun k => k.ctx == c && waitsFor (fun d => decide (d < 192)) k.waiting) St.contextLost = b at hends ⊢
  exact hraise.trans (hends.trans (forAll_works hends.images fun _ _ _ ha => .of_same ha.images rfl rfl rfl rfl rfl rfl))

theorem State.askCells_works (l : List Nat) : State.Works n s (forAll l (fun i s => s.updCell i (fun k => { k with asked := true })) s) :=
  forAll_works himages fun _ _ _ ha => State.updCell_works ha.images (Cell.asked_winds _)

theorem State.windsUp_works (c : Nat) : State.Works n s (s.windsUp n c) := by
  have hsnd : State.Works n s (forAll (s.cellsOf n c) (fun i s => s.endSndWait n i) s) :=
    forAll_works himages fun i hi a ha => State.endSndWait_works ha.images (by rw [State.ownerCell_congr ha.pat]; exact State.mem_cellsOf_owner hi)
  unfold State.windsUp
  dsimp only
  generalize forAll (s.cellsOf n c) (fun i s => s.endSndWait n i) s = a at hsnd ⊢
  have hask := hsnd.trans (State.askCells_works hsnd.images (a.cellsOf n c))
  generalize forAll (a.cellsOf n c) (fun i s => s.updCell i (fun k => { k with asked := true })) a = b at hask ⊢
  have hdrop := hask.trans (State.dropWaiting_works hask.images c St.contextLost)
  exact hdrop.trans (forAll_works hdrop.images fun q _ _ ha => State.flushQueueAs_works ha.images q St.contextLost)

/-- The context that is lost, as the table shows it from there on: LOST for the status, its abort begun, its fault as it was. -/
structure Ctx.LostAs (x : Ctx) (status : StatusCode) (fault : Nat) : Prop where
  state : x.state = .lost
  aborting : x.aborting = true
  status : x.status = status
  fault : x.fault = fault

omit himages in
theorem Ctx.LostAs.stays {x y : Ctx} {status : StatusCode} {fault : Nat} (h : x.LostAs status fault) (hxy : x.Stays y) : y.LostAs status fault := by
  obtain ⟨hstate, habort, hstatus, hfault⟩ := hxy h.state h.aborting
  exact ⟨hstate, habort, hstatus.trans h.status, hfault.trans h.fault⟩

omit himages in
/-- A context that leaves IDLE latches its record, which leaves its state and its fault. -/
theorem State.latchIdle_keeps (c : Nat) : ((if (s.ctx n c).state == .idle then s.latch n c else s).ctx n c).state = (s.ctx n c).state
    ∧ ((if (s.ctx n c).state == .idle then s.latch n c else s).ctx n c).fault = (s.ctx n c).fault := by
  split
  · obtain ⟨f, hf, hlatch⟩ := s.latch_keepsEnd n c
    rw [hlatch, State.ctx_updCtx, State.ctx_congr (s.readRecord_stored n c).ctxs]
    obtain ⟨hstate, -, hfault, -⟩ := hf (s.ctx n c)
    exact ⟨hstate, hfault⟩
  · exact ⟨rfl, rfl⟩

theorem State.ctx_setCtxState (c : Nat) (st : CtxSt) (status : StatusCode) :
    (s.setCtxState n c st status).ctx n c = { s.ctx n c with state := st, status := status } := by
  have hctx : (s.updCtx n c (fun x => { x with state := st, status := status })).Stored (s.setCtxState n c st status) :=
    State.putStatus_stored (s := s.updCtx n c (fun x => { x with state := st, status := status })) himages c
  rw [State.ctx_congr hctx.ctxs, State.ctx_updCtx]

theorem State.turnsLost_works {c : Nat} (hc : (s.ctx n c).state ≠ .lost) (status : StatusCode) : State.Works n s (s.turnsLost n c status) := by
  have hlatch := State.latchIdle_works himages c
  obtain ⟨hstate, -⟩ := s.latchIdle_keeps (n := n) c
  unfold State.turnsLost
  generalize (if (s.ctx n c).state == .idle then s.latch n c else s) = a at hlatch hstate ⊢
  rw [← hstate] at hc
  have habort : State.Works n a (a.updCtx n c (fun x => { x with debt := 0, aborting := true, savedChans := [] })) :=
    State.updCtx_works hlatch.images (.of_not_lost hc _)
  refine hlatch.trans (habort.trans (State.setCtxState_works habort.images (Ctx.Stays.of_not_lost ?_) ..))
  rw [State.ctx_updCtx]
  exact hc

theorem State.turnsLost_lost (c : Nat) (status : StatusCode) : ((s.turnsLost n c status).ctx n c).LostAs status (s.ctx n c).fault := by
  have hlatch := State.latchIdle_works himages c
  obtain ⟨-, hfault⟩ := s.latchIdle_keeps (n := n) c
  unfold State.turnsLost
  generalize (if (s.ctx n c).state == .idle then s.latch n c else s) = a at hlatch hfault ⊢
  have himages' : ((a.updCtx n c (fun x => { x with debt := 0, aborting := true, savedChans := [] })).code n).images = [] := hlatch.images
  rw [State.ctx_setCtxState himages', State.ctx_updCtx]
  exact ⟨rfl, rfl, rfl, hfault⟩

theorem State.loseCtx_works (c : Nat) (status : StatusCode) : State.Works n s (s.loseCtx n c status) := by
  by_cases hc : (s.ctx n c).state = .lost
  · rw [State.loseCtx_of_lost hc]
    exact .refl himages
  · have hturns := State.turnsLost_works himages hc status
    have htells := hturns.trans (State.tellsLoss_works hturns.images c)
    rw [State.loseCtx_eq hc]
    exact htells.trans (State.windsUp_works htells.images c)

/-- A context that is lost shows the status, and the fault it had. -/
theorem State.loseCtx_lost {c : Nat} (hc : (s.ctx n c).state ≠ .lost) (status : StatusCode) :
    ((s.loseCtx n c status).ctx n c).LostAs status (s.ctx n c).fault := by
  have hturns := State.turnsLost_works himages hc status
  have htells := State.tellsLoss_works hturns.images c
  rw [State.loseCtx_eq hc]
  exact (State.turnsLost_lost himages c status).stays ((htells.trans (State.windsUp_works htells.images c)).ctx c)

end Loss

/-! What is owed at the end of an instruction is judged (06 R147; 12 R330). -/

theorem State.settleDues_works {n : Nat} {s : State} (himages : (s.code n).images = []) (fuel : Nat)
    (hdues : ∀ d ∈ s.dues, ∃ c st, d = .writeBack n c st) : State.Works n s (State.settleDues fuel s) := by
  induction fuel generalizing s with
  | zero => exact .refl himages
  | succ fuel ih =>
    rw [State.settleDues]
    split
    · exact .refl himages
    · next m l hs =>
      obtain ⟨_, _, heq⟩ := hdues (.codeWrite m) (by rw [hs]; exact List.mem_cons_self)
      cases heq
    · next m c st l hs =>
      obtain ⟨_, _, heq⟩ := hdues (.writeBack m c st) (by rw [hs]; exact List.mem_cons_self)
      cases heq
      have htake : State.Works n s { s with dues := l } := {
        pat := rfl, images := himages, ress := rfl, ctx := fun _ => .refl _, cell := fun _ => .refl _
        dues := fun d hd => .inl (by rw [hs]; exact List.mem_cons_of_mem _ hd) }
      have hlose := htake.trans (State.loseCtx_works htake.images c st)
      exact hlose.trans (ih hlose.images fun d hd => (hlose.dues d hd).elim (hdues d) fun h => h)

theorem closing_works {n : Nat} {s : State} (himages : (s.code n).images = []) (hdues : ∀ d ∈ s.dues, ∃ c st, d = .writeBack n c st) :
    ∃ t, closing s = .next t ∧ State.Works n s t := by
  unfold closing
  split
  · exact ⟨s, rfl, .refl himages⟩
  · have hsettle := State.settleDues_works himages 4096 hdues
    refine ⟨_, rfl, hsettle.trans ?_⟩
    exact { pat := rfl, images := hsettle.images, ress := rfl, ctx := fun _ => .refl _, cell := fun _ => .refl _, dues := fun _ hd => nomatch hd }

/-- The same after what lasts: where nothing was owed before, the losses that are owed after it keep all that lasts. -/
theorem State.Lasts.closes {n : Nat} {s t : State} (h : State.Lasts n s t) (hquiet : s.quiet) : ∃ u, closing t = .next u ∧ State.Works n t u :=
  closing_works h.images fun d hd => (h.dues d hd).elim (fun hd => by rw [hquiet] at hd; cases hd) fun h => h

end Sys2Proof.Machine
end

section
/-!
PROOFS. Turns of contexts on a site (07 R175-R179): a gang that starts, a slice that goes on, a switch that ends, and the states that contexts take with
them.
-/

namespace Sys2Proof.Machine

/-! Contexts take their states (07 R170, R187). -/

theorem State.mem_residentOn {s : State} {n c k : Nat} (hk : k < 12) (hres : (s.res k n).resident = some c) : k ∈ s.residentOn n c :=
  List.mem_filter.2 ⟨List.mem_range.2 hk, by simp [hres]⟩

/-- A context that is resident somewhere is not PREEMPTED. -/
theorem State.ctxStateNow_ne_preempted {s : State} {n c k : Nat} (hk : k < 12) (hres : (s.res k n).resident = some c) : s.ctxStateNow n c ≠ .preempted := by
  have hsome : (!(s.residentOn n c).isEmpty) = true := by
    rw [Bool.not_eq_true', List.isEmpty_eq_false_iff_exists_mem]
    exact ⟨k, State.mem_residentOn hk hres⟩
  unfold State.ctxStateNow
  dsimp only
  rw [if_pos hsome]
  split_ifs <;> simp

/-- A context that does not become PREEMPTED takes its state: its record is read, and it is written to its status page. -/
theorem State.reState_recorded {s : State} {n c : Nat} (himages : (s.code n).images = []) (hnot : s.ctxStateNow n c ≠ .preempted) :
    s.Recorded (s.reState n c) := by
  unfold State.reState
  dsimp only
  rw [if_neg hnot]
  split
  · exact .refl s
  · split
    · have hlatch := s.latch_recorded n c
      exact hlatch.trans (State.setCtxState_recorded ((hlatch.images n).trans himages) ..)
    · exact State.setCtxState_recorded himages ..

/-! GANG_START (07 R175). -/

/-- A task whose cells are free and whose checks pass leaves the queue and starts. -/
theorem State.dispatch_starts {s s1 s2 : State} {k n c thr : Nat} {x : Task} {image : List Byte} {trap : Bool}
    (hfirst : (s.sch n).waiting.find? (fun t => t.ctx == c && t.site == k) = some x)
    (hfree : ∀ p ∈ maskList 16 x.mask, (s.cell (k * 16 + p)).state = 0 ∧ s.cellTested (k * 16 + p) = false)
    (hcheck : s.dispatchCheck n x = (s1, .ok image)) (hwords : s1.readWords n c = (s2, .ok (thr, trap))) :
    s.dispatch k n c = ((s2.takeTask n x).startGang n x image thr trap).reState n c := by
  have hnone : ¬ (maskList 16 x.mask).any (fun p => (s.cell (k * 16 + p)).state != 0 || s.cellTested (k * 16 + p)) = true := by
    rw [List.any_eq_true]
    rintro ⟨p, hp, hbusy⟩
    obtain ⟨hstate, htested⟩ := hfree p hp
    simp [hstate, htested] at hbusy
  rw [show State.dispatch = _ by delta State.dispatch; rfl]
  obtain ⟨check, hsame⟩ : ∃ f, State.dispatchCheck = f := ⟨_, rfl⟩
  obtain ⟨words, hsame'⟩ : ∃ f, State.readWords = f := ⟨_, rfl⟩
  rw [hsame] at hcheck ⊢
  rw [hsame'] at hwords ⊢
  dsimp only
  simp only [hfirst, if_neg hnone, hcheck, hwords]

/-- A cell on which a gang starts, at position p (07 R175). -/
def Cell.started (c : Cell) (t : Task) (image : List Byte) (gid thr : Nat) (trap : Bool) (p : Nat) : Cell :=
  { c.freed with state := 1, pc := fld image 8 2, ctx := t.ctx, sregs := startRegs p t.args, image := image, codeLen := fld image 2 2
                 gang := some gid, excThr := thr, excTrap := trap }

/-- A gang is on the books of its partition, and of the queue that its task came from. -/
def State.booksGang (s : State) (n gid : Nat) (t : Task) : State :=
  let s := (s.updSch n (fun h => { h with gangs := h.gangs ++ [{ id := gid, task := t }], nextGang := gid + 1 })).updCtx n t.ctx
    (fun x => { x with guard := { x.guard with task := false } })
  match t.src with
  | .queue q idx => s.updQueue n q (fun qu => { qu with entries := qu.entries.map (fun e => if e.idx = idx then { e with running := true } else e) })
  | .core _ => s

theorem State.startGang_eq (s : State) (n : Nat) (t : Task) (image : List Byte) (thr : Nat) (trap : Bool) :
    s.startGang n t image thr trap = forAll (maskList 16 t.mask) (fun p a =>
      a.updCell (t.site * 16 + p) (fun c => c.started t image (s.sch n).nextGang thr trap p)) (s.booksGang n (s.sch n).nextGang t) := rfl

/-- A gang on the books has changed the books alone: what waits, what is owed and who is resident stand. -/
theorem State.booksGang_books (s : State) (n gid : Nat) (t : Task) : ((s.booksGang n gid t).sch n).waiting = (s.sch n).waiting
    ∧ (s.booksGang n gid t).dues = s.dues ∧ (s.booksGang n gid t).codes = s.codes ∧ (s.booksGang n gid t).ress = s.ress := by
  have hbooks : ((s.updSch n (fun h => { h with gangs := h.gangs ++ [{ id := gid, task := t }], nextGang := gid + 1 })).sch n).waiting = (s.sch n).waiting := by
    rw [State.sch_updSch]
  unfold State.booksGang
  dsimp only
  split
  · exact ⟨hbooks, rfl, rfl, rfl⟩
  · exact ⟨hbooks, rfl, rfl, rfl⟩

/-- Each cell of a gang's MASK has started; cells are all that differs from the books. -/
theorem State.startGang_starts (s : State) (n : Nat) (t : Task) (image : List Byte) (thr : Nat) (trap : Bool) :
    (∃ x, s.startGang n t image thr trap = { s.booksGang n (s.sch n).nextGang t with cells := x })
      ∧ ∀ p ∈ maskList 16 t.mask, ∃ d : Cell, (s.startGang n t image thr trap).cell (t.site * 16 + p) = d.started t image (s.sch n).nextGang thr trap p := by
  rw [State.startGang_eq]
  generalize (s.sch n).nextGang = gid
  refine forAll_each (I := fun a => ∃ x, a = { s.booksGang n gid t with cells := x })
    (Q := fun p a => ∃ d : Cell, a.cell (t.site * 16 + p) = d.started t image gid thr trap p) ?_ ?_ ?_ _ ⟨_, rfl⟩
  · rintro p _ ⟨x, rfl⟩
    exact ⟨_, rfl⟩
  · exact fun p a _ => ⟨_, State.cell_updCell ..⟩
  · rintro p q a - ⟨d, hd⟩
    by_cases hq : q = p
    · exact ⟨_, by rw [hq, State.cell_updCell]⟩
    · exact ⟨d, by rw [State.cell_updCell_ne _ _ _ (by omega), hd]⟩

theorem Cell.reg_started (c : Cell) (t : Task) (image : List Byte) (gid thr : Nat) (trap : Bool) (p : Nat) :
    (c.started t image gid thr trap p).reg 1 = BitVec.ofNat 32 p := by
  have hstart : (startRegs p t.args).get 0 1 = BitVec.ofNat 32 p := by
    rw [startRegs, Tab.get_setList, if_neg (by omega), Tab.get_set_same]
  exact hstart

/-- GANG_START on a site whose resident context has a task that passes its checks (07 R175). -/
theorem exec_gangStart_starts {k : SiteId} {n : PartId} {c thr : Nat} {x : Task} {image : List Byte} {trap : Bool} {s s1 s2 : State}
    (hunprotected : s.unprotected n) (hready : s.ready n = true) (hsteady : (s.res k n).switching = false) (halive : (s.site k).state ≠ 2)
    (hphase : (s.twin n).phase ≠ 1) (hres : (s.res k n).resident = some c) (hrestores : ∀ i ∈ s.siteCells n c k, (s.cell i).state ≠ 4)
    (hfirst : (s.sch n).waiting.find? (fun t => t.ctx == c && t.site == k.val) = some x)
    (hfree : ∀ p ∈ maskList 16 x.mask, (s.cell (k * 16 + p)).state = 0 ∧ s.cellTested (k * 16 + p) = false)
    (hcheck : s.dispatchCheck n x = (s1, .ok image)) (hwords : s1.readWords n c = (s2, .ok (thr, trap))) :
    ∃ t, exec (.gangStart k n) s = .next t ∧ ((s2.takeTask n x).startGang n x image thr trap).Recorded t := by
  obtain ⟨hquiet, himages⟩ := hunprotected
  have hnone : ¬ (s.siteCells n c k).any (fun i => (s.cell i).state == 4) = true := by
    rw [List.any_eq_true]
    rintro ⟨i, hi, hbusy⟩
    exact hrestores i hi (beq_iff_eq.1 hbusy)
  have hreads : s.Recorded s2 := by
    have hread := (s.dispatchCheck_stored n x).recorded
    rw [hcheck] at hread
    have hread' := s1.readWords_recorded n c
    rw [hwords] at hread'
    exact hread.trans hread'
  obtain ⟨⟨cells, hgang⟩, -⟩ := State.startGang_starts (s2.takeTask n x) n x image thr trap
  obtain ⟨-, hdues, hcodes, hress⟩ := (s2.takeTask n x).booksGang_books n ((s2.takeTask n x).sch n).nextGang x
  have hstarted : ((s2.takeTask n x).startGang n x image thr trap).Recorded (((s2.takeTask n x).startGang n x image thr trap).reState n c) := by
    refine State.reState_recorded ?_ (State.ctxStateNow_ne_preempted k.isLt ?_)
    · rw [State.code_congr (show _ = s2.codes by rw [hgang]; exact hcodes), hreads.images]
      exact himages
    · rw [State.res_congr (show _ = s2.ress by rw [hgang]; exact hress), State.res_congr hreads.ress]
      exact hres
  refine ⟨_, ?_, hstarted⟩
  have hguard : (s.ready n && !(s.res k n).switching && (s.twin n).phase != 1) = true := by simp [hready, hsteady, hphase]
  rw [exec_gangStart, execGangStart, onlyIf_of hguard]
  dsimp only
  rw [if_neg halive]
  simp only [hres, Option.isNone_some, Bool.false_eq_true, if_false]
  rw [if_neg hnone, State.dispatch_starts hfirst hfree hcheck hwords]
  refine closing_quiet ?_
  rw [hstarted.dues, hgang]
  exact (hdues.trans hreads.dues).trans hquiet

/-! SLICE_END (07 R176, R179). -/

/-- Gangs of which nothing is saved do not restore. -/
theorem State.restoreGangs_unsaved {s : State} {n : Nat} (hnone : ∀ g ∈ (s.sch n).gangs, g.saved = false) (k c : Nat) : s.restoreGangs k n c = s := by
  have hempty : (s.sch n).gangs.filter (fun g => g.saved && g.task.ctx == c && g.task.site == k) = [] :=
    List.filter_eq_nil_iff.2 fun g hg => by simp [hnone g hg]
  rw [State.restoreGangs, hempty]
  rfl

/-- A context's debt shortens the slice that begins, and is paid with it (07 R179). -/
def State.paysDebt (s : State) (k n c : Nat) : State :=
  (s.updCtx n c (fun x => { x with debt := 0 })).updRes k n (fun r =>
    { r with shortened := if s.sliceUs n = 0 then (s.ctx n c).debt else (s.ctx n c).debt % s.sliceUs n })

theorem State.res_paysDebt (s : State) (k n c : Nat) : (s.paysDebt k n c).res k n =
    { s.res k n with shortened := if s.sliceUs n = 0 then (s.ctx n c).debt else (s.ctx n c).debt % s.sliceUs n } := State.res_updRes ..

theorem State.debt_paysDebt (s : State) (k n c : Nat) : ((s.paysDebt k n c).ctx n c).debt = 0 :=
  congrArg Ctx.debt (State.ctx_updCtx s n c fun x => { x with debt := 0 })

theorem State.startSlice_unsaved {s : State} {n : Nat} (himages : (s.code n).images = []) (hnone : ∀ g ∈ (s.sch n).gangs, g.saved = false) (k c : Nat) :
    (s.paysDebt k n c).Stored (s.startSlice k n c) := by
  rw [State.startSlice, State.restoreGangs_unsaved hnone, ite_self]
  exact State.putStatus_stored (s := s.paysDebt k n c) himages c

/-- A resident context that holds slices still, and whose debt is below one, goes on. -/
theorem State.sliceEnd_goesOn {s : State} {k n c : Nat} (hgen : (s.res k n).gen = (s.sch n).listGen) (hres : (s.res k n).resident = some c)
    (hleft : 0 < (s.res k n).left) (hqual : s.qualifies k n c = true) (hdebt : s.sliceUs n = 0 ∨ (s.ctx n c).debt < s.sliceUs n) :
    s.sliceEnd k n = (s.updRes k n (fun r => { r with left := r.left - 1 })).startSlice k n c := by
  have hkeeps : (s.sliceUs n != 0 && decide (s.sliceUs n ≤ (s.ctx n c).debt)) = false := by
    rcases hdebt with hzero | hless
    · simp [hzero]
    · simp [hless]
  rw [show s.sliceEnd k n = _ by delta State.sliceEnd; rfl, State.adoptList, if_pos hgen]
  simp only [hres, Option.isSome_some, Option.getD_some, hqual, decide_eq_true hleft, Bool.and_self, Bool.true_and, hkeeps, Bool.not_false, if_true]

theorem exec_sliceEnd_goesOn {k : SiteId} {n : PartId} {c : Nat} {s : State} (hunprotected : s.unprotected n) (hready : s.ready n = true)
    (hsteady : (s.res k n).switching = false) (hphase : (s.twin n).phase ≠ 1) (hgen : (s.res k n).gen = (s.sch n).listGen)
    (hres : (s.res k n).resident = some c) (hleft : 0 < (s.res k n).left) (hqual : s.qualifies k n c = true)
    (hdebt : s.sliceUs n = 0 ∨ (s.ctx n c).debt < s.sliceUs n) (hnone : ∀ g ∈ (s.sch n).gangs, g.saved = false) :
    ∃ t, exec (.sliceEnd k n) s = .next t ∧ ((s.updRes k n (fun r => { r with left := r.left - 1 })).paysDebt k n c).Stored t := by
  obtain ⟨hquiet, himages⟩ := hunprotected
  have hstored := State.startSlice_unsaved (s := s.updRes k n (fun r => { r with left := r.left - 1 })) himages hnone k c
  have hguard : (s.ready n && !(s.res k n).switching && (s.twin n).phase != 1) = true := by simp [hready, hsteady, hphase]
  refine ⟨_, ?_, hstored⟩
  rw [exec_sliceEnd, execSliceEnd, onlyIf_of hguard, State.sliceEnd_goesOn hgen hres hleft hqual hdebt]
  exact closing_quiet (hstored.dues.trans hquiet)

/-- On a site where none is resident, and for which the run list names none, nothing follows a slice's end. -/
theorem State.sliceEnd_idle {s : State} {k n : Nat} (hgen : (s.res k n).gen = (s.sch n).listGen) (hres : (s.res k n).resident = none)
    (hlist : (s.res k n).list = []) : s.sliceEnd k n = s := by
  rw [show s.sliceEnd k n = _ by delta State.sliceEnd; rfl, State.adoptList, if_pos hgen]
  simp only [hres, hlist, Option.isSome_none, Bool.false_and, Bool.false_eq_true, if_false, List.length_nil, Nat.mul_zero, State.nextTurn]

theorem exec_sliceEnd_idle {k : SiteId} {n : PartId} {s : State} (hquiet : s.quiet) (hready : s.ready n = true) (hsteady : (s.res k n).switching = false)
    (hphase : (s.twin n).phase ≠ 1) (hgen : (s.res k n).gen = (s.sch n).listGen) (hres : (s.res k n).resident = none) (hlist : (s.res k n).list = []) :
    exec (.sliceEnd k n) s = .next s := by
  have hguard : (s.ready n && !(s.res k n).switching && (s.twin n).phase != 1) = true := by simp [hready, hsteady, hphase]
  rw [exec_sliceEnd, execSliceEnd, onlyIf_of hguard, State.sliceEnd_idle hgen hres hlist]
  exact closing_quiet hquiet

/-! Channels are saved as a context becomes PREEMPTED (07 R183, R187, R188). -/

section Preempts
variable {n : Nat} {s : State} (himages : (s.code n).images = [])
include himages

theorem State.savedAs_works (c : Nat) (status : StatusCode) : State.Works n s (s.savedAs n c status) :=
  .ite (.refl himages) (State.loseCtx_works himages c status)

/-- A hub write whose answer is r. -/
theorem State.hubWrite_worksTo {ppa : Nat} {bytes : List Byte} {r : State × StatusCode} (h : s.hubWrite n ppa bytes = r) : State.Works n s r.1 :=
  h ▸ State.hubWrite_works himages ppa bytes

theorem State.saveHeader_worksTo {c count : Nat} {r : State × StatusCode} (h : s.saveHeader n c count = r) : State.Works n s r.1 :=
  State.hubWrite_worksTo himages h

theorem State.updChan_works (i : Nat) (f : Chan → Chan) : State.Works n s (s.updChan i f) := .of_same himages rfl rfl rfl rfl rfl rfl

theorem State.saveChan_works (i kind : Nat) : State.Works n s (s.saveChan n i kind) := by
  unfold State.saveChan
  extract_lets _ ch x slot r h a b
  have hrecord : State.Works n s r.1 := State.hubWrite_worksTo himages rfl
  have hheader : State.Works n r.1 h.1 := State.saveHeader_worksTo hrecord.images rfl
  have hcount : State.Works n h.1 a := State.updCtx_works hheader.images (Ctx.KeepsEnd.stays (f := fun x => { x with savedChans := x.savedChans ++ [i] })
    (fun _ => ⟨rfl, rfl, rfl, rfl⟩) _)
  have hchan : State.Works n a b := State.updChan_works hcount.images ..
  exact hrecord.trans (hheader.trans (hcount.trans (hchan.trans (State.savedAs_works hchan.images ..))))

theorem State.preemptChans_works (c : Nat) : State.Works n s (s.preemptChans n c) := by
  unfold State.preemptChans
  extract_lets h a
  have hheader : State.Works n s h.1 := State.saveHeader_worksTo himages rfl
  have hsaved := hheader.trans (State.savedAs_works hheader.images c h.2)
  refine hsaved.trans (forAll_works hsaved.images fun i _ a ha => ?_)
  exact .ite (.refl ha.images) (.ite (State.saveChan_works ha.images i _) (.ite (.ite (State.saveChan_works ha.images i _)
    (State.updChan_works ha.images i _)) (.refl ha.images)))

/-- A lost context stays so: only another takes a state. -/
theorem State.reState_works (c : Nat) : State.Works n s (s.reState n c) := by
  by_cases hc : (s.ctx n c).state = .lost
  · have hlost : s.ctxStateNow n c = (s.ctx n c).state := by simp [State.ctxStateNow, hc]
    rw [State.reState, if_pos hlost]
    exact .refl himages
  · have hlatch := State.latchIdle_works himages c
    obtain ⟨hstate, -⟩ := s.latchIdle_keeps (n := n) c
    unfold State.reState
    dsimp only
    generalize (if (s.ctx n c).state == .idle then s.latch n c else s) = a at hlatch hstate ⊢
    rw [← hstate] at hc
    have htakes := hlatch.trans (State.setCtxState_works hlatch.images (Ctx.Stays.of_not_lost hc) (s.ctxStateNow n c) St.ok)
    exact .ite (.refl himages) (.ite (htakes.trans (State.preemptChans_works htakes.images c)) htakes)

end Preempts

/-! CONTEXT_RESIDENT (07 R176 step 3, R177). -/

/-- What is left to judge is Pn's own: write backs of its that failed. -/
def State.owesWrites (s : State) (n : Nat) : Prop := ∀ d ∈ s.dues, ∃ c st, d = .writeBack n c st

/-- Pn, which runs no protected image, has d resident on site k, where no switch goes on; what is left to judge is its own. -/
structure State.Enters (k n d : Nat) (s : State) : Prop where
  images : (s.code n).images = []
  dues : s.owesWrites n
  switching : (s.res k n).switching = false
  incoming : (s.res k n).incoming = none
  resident : (s.res k n).resident = some d

theorem State.Works.owesWrites {n : Nat} {s t : State} (h : State.Works n s t) (hs : s.owesWrites n) : t.owesWrites n :=
  fun d hd => (h.dues d hd).elim (hs d) fun h => h

section Enters
variable {k n d : Nat} {s t : State} (h : State.Enters k n d s)
include h

theorem State.Enters.works (hw : State.Works n s t) : State.Enters k n d t where
  images := hw.images
  dues := hw.owesWrites h.dues
  switching := by rw [State.res_congr hw.ress]; exact h.switching
  incoming := by rw [State.res_congr hw.ress]; exact h.incoming
  resident := by rw [State.res_congr hw.ress]; exact h.resident

/-- Cells and gangs say nothing of it. -/
theorem State.Enters.ganged (x : Tab Cell) (y : Tab Sch) : State.Enters k n d { s with cells := x, schs := y } :=
  ⟨h.images, h.dues, h.switching, h.incoming, h.resident⟩

end Enters

/-- Gangs that begin to restore change cells and gangs alone. -/
theorem State.restoreGangs_cells (s : State) (k n c : Nat) : ∃ x y, s.restoreGangs k n c = { s with cells := x, schs := y } := by
  have htrans : ∀ {a b e : State}, (∃ x y, b = { a with cells := x, schs := y }) → (∃ x y, e = { b with cells := x, schs := y }) →
      ∃ x y, e = { a with cells := x, schs := y } := by
    rintro a _ _ ⟨_, _, rfl⟩ ⟨x, y, rfl⟩
    exact ⟨x, y, rfl⟩
  refine foldl_rel (R := fun a b : State => ∃ x y, b = { a with cells := x, schs := y }) (fun a => ⟨a.cells, a.schs, rfl⟩) htrans _ (fun a g => ?_) _ s
  refine htrans ⟨_, _, rfl⟩ (forAll_rel (R := fun a b : State => ∃ x y, b = { a with cells := x, schs := y }) (fun a => ⟨a.cells, a.schs, rfl⟩) htrans _ (fun i b => ?_)
    _ (a.updGang n g.id (fun g => { g with saved := false })))
  split
  · exact ⟨_, _, rfl⟩
  · exact ⟨_, _, rfl⟩

theorem State.Enters.restores {k n d : Nat} {s : State} (h : State.Enters k n d s) (c : Nat) : State.Enters k n d (s.restoreGangs k n c) := by
  obtain ⟨x, y, hrestores⟩ := s.restoreGangs_cells k n c
  rw [hrestores]
  exact h.ganged x y

section Loads
variable {n : Nat} {s : State} (himages : (s.code n).images = [])
include himages

theorem State.updMsg_works (key : Nat) (f : MsgState → MsgState) : State.Works n s (s.updMsg key f) := .of_same himages rfl rfl rfl rfl rfl rfl

/-- A context's message state is read back on a cell. -/
theorem State.loadMsgs_works (c cell : Nat) : State.Works n s (s.loadMsgs n c cell).1 := by
  obtain ⟨r, hr⟩ : ∃ r, s.loadMsgs n c cell = r := ⟨_, rfl⟩
  rw [hr]
  rw [show State.loadMsgs = _ by delta State.loadMsgs; rfl] at hr
  split at hr
  · extract_lets base addr box l st a at hr
    have hreads : State.Works n s a := foldl_works himages fun p _ b hb => (b.ppaReport_stored ..).works hb.images
    split at hr
    · subst hr
      exact hreads.trans (State.updMsg_works hreads.images ..)
    · subst hr
      exact hreads
  · subst hr
    exact .refl himages

/-- The message state of a cell of Pn is read back, after that of others. -/
def State.loadsNext (n c : Nat) (acc : State × StatusCode) (i : Nat) : State × StatusCode :=
  if acc.1.ownerCell i == some n then ((acc.1.loadMsgs n c i).1, if acc.2 = St.ok then (acc.1.loadMsgs n c i).2 else acc.2) else acc

theorem State.loadSite_works (c : Nat) (l : List Nat) (st : StatusCode) : State.Works n s (l.foldl (State.loadsNext n c) (s, st)).1 := by
  induction l generalizing s st with
  | nil => exact .refl himages
  | cons i l ih =>
    have hcell : State.Works n s (State.loadsNext n c (s, st) i).1 := by
      unfold State.loadsNext
      split
      · exact State.loadMsgs_works himages c i
      · exact .refl himages
    exact hcell.trans (ih hcell.images _)

end Loads

/-- A context that becomes resident. -/
theorem State.enterSite_enters {k n d : Nat} {s : State} (himages : (s.code n).images = []) (hdues : s.owesWrites n) :
    State.Enters k n d (s.enterSite k n d) := by
  rw [show State.enterSite = _ by delta State.enterSite; rfl]
  extract_lets a r b
  have ha : State.Enters k n d a := by
    refine ⟨himages, hdues, ?_, ?_, ?_⟩ <;> rw [State.res_updRes]
  have hr : State.Enters k n d r.1 := ha.works (State.loadSite_works ha.images d _ St.ok)
  have hb : State.Enters k n d b := by
    refine hr.works ?_
    exact .ite (.refl hr.images) (State.loseCtx_works hr.images d r.2)
  have hrestores := hb.restores d
  exact hrestores.works (State.reState_works hrestores.images d)

/-- A slice begins: what is saved restores, and the debt is paid. -/
theorem State.startSlice_enters {k n d : Nat} {s : State} (h : State.Enters k n d s) : State.Enters k n d (s.startSlice k n d) := by
  unfold State.startSlice
  extract_lets a debt used
  have ha : State.Enters k n d a := by
    unfold a
    split
    · exact h.restores d
    · exact h
  clear_value a
  have hpays : State.Enters k n d ((a.updCtx n d (fun x => { x with debt := 0 })).updRes k n (fun r => { r with shortened := used })) := by
    refine ⟨ha.images, ha.dues, ?_, ?_, ?_⟩ <;> rw [State.res_updRes]
    · exact ha.switching
    · exact ha.incoming
    · exact ha.resident
  exact hpays.works (State.putStatus_works hpays.images d)

/-- The switch to a context that does not qualify ends with none resident. -/
def State.endsSwitch (s : State) (k n : Nat) : State := s.updRes k n (fun r => { r with incoming := none, switching := false })

/-- A switch from no context to d, which the site's regulator lets pass. -/
theorem exec_contextResident_open {k : SiteId} {n : PartId} {d : Nat} {s : State} (us : Nat) (hswitch : (s.res k n).switching = true)
    (hnone : (s.res k n).resident = none) (hin : (s.res k n).incoming = some d) (hopen : s.injOpen (halfOfSite k) (k.val % 6) n = true) :
    ∃ a : State, a.dues = s.dues ∧ a.codes = s.codes ∧ a.res k n = s.res k n
      ∧ exec (.contextResident k n us) s = closing (if s.qualifies k n d then (a.enterSite k n d).startSlice k n d else a.endsSwitch k n) := by
  refine ⟨s.injCharge (halfOfSite k) (k.val % 6) n (0 + s.moveBytes k n d), rfl, rfl, rfl, ?_⟩
  rw [exec_contextResident, show execContextResident = _ by delta execContextResident; rfl]
  simp only [hswitch, hnone, hin, Bool.and_self, onlyIf_true, State.siteMove, State.inject_open _ hopen, if_true]
  rfl

end Sys2Proof.Machine
end

section
/-! PROOFS. The statement about the start of a gang, the end of a slice and the end of a switch (07 R175, R176, R179). -/

open Sys2Proof Sys2Proof.Machine

/-- The gang that starts has left the tasks that wait, and each cell of its MASK runs it from the image's entry. -/
theorem gives_gangStart {k : SiteId} {n : PartId} {c thr : Nat} {x : Task} {image : List Byte} {trap : Bool} {s s1 s2 : State}
    (hunprotected : s.unprotected n) (hready : s.ready n = true) (hsteady : (s.res k n).switching = false) (halive : (s.site k).state ≠ 2)
    (hphase : (s.twin n).phase ≠ 1) (hres : (s.res k n).resident = some c) (hrestores : ∀ i ∈ s.siteCells n c k, (s.cell i).state ≠ 4)
    (hfirst : (s.sch n).waiting.find? (fun t => t.ctx == c && t.site == k.val) = some x)
    (hfree : ∀ p ∈ maskList 16 x.mask, (s.cell (k * 16 + p)).state = 0 ∧ s.cellTested (k * 16 + p) = false)
    (hcheck : s.dispatchCheck n x = (s1, .ok image)) (hwords : s1.readWords n c = (s2, .ok (thr, trap))) :
    Gives (.gangStart k n) s fun t => (t.sch n).waiting = (s.sch n).waiting.erase x
      ∧ ∀ p ∈ maskList 16 x.mask, let y := t.cell (k * 16 + p)
        y.state = 1 ∧ y.pc = fld image 8 2 ∧ y.ctx = c ∧ y.gang = some (s.sch n).nextGang ∧ y.image = image ∧ y.reg 1 = BitVec.ofNat 32 p ∧ y.loops = [] := by
  obtain ⟨t, hexec, hrecorded⟩ := exec_gangStart_starts hunprotected hready hsteady halive hphase hres hrestores hfirst hfree hcheck hwords
  have hsch : s2.sch n = s.sch n := by
    have hread := (s.dispatchCheck_stored n x).recorded
    have hread' := s1.readWords_recorded n c
    rw [hcheck] at hread
    rw [hwords] at hread'
    exact State.sch_congr (hread.trans hread').schs n
  have htake : (s2.takeTask n x).sch n = { s.sch n with waiting := (s.sch n).waiting.erase x } := by
    rw [State.takeTask, State.sch_updSch, hsch]
  obtain ⟨hctx, hsite⟩ : x.ctx = c ∧ x.site = k.val := by simpa using List.find?_some hfirst
  obtain ⟨⟨cells, hgang⟩, hstarted⟩ := State.startGang_starts (s2.takeTask n x) n x image thr trap
  obtain ⟨hwaiting, -, -, -⟩ := (s2.takeTask n x).booksGang_books n ((s2.takeTask n x).sch n).nextGang x
  refine ⟨t, hexec, ?_, fun p hp => ?_⟩
  · rw [State.sch_congr hrecorded.schs, State.sch_congr (show _ = ((s2.takeTask n x).booksGang n ((s2.takeTask n x).sch n).nextGang x).schs by rw [hgang]), hwaiting, htake]
  · obtain ⟨d, hd⟩ := hstarted p hp
    rw [hsite, htake] at hd
    dsimp only
    rw [State.cell_congr hrecorded.cells, hd]
    exact ⟨rfl, rfl, hctx, rfl, rfl, Cell.reg_started .., rfl⟩

/-- A turn that goes on holds a slice less, and the debt has shortened the one that begins. -/
theorem gives_sliceEnd {k : SiteId} {n : PartId} {c : Nat} {s : State} (hunprotected : s.unprotected n) (hready : s.ready n = true)
    (hsteady : (s.res k n).switching = false) (hphase : (s.twin n).phase ≠ 1) (hgen : (s.res k n).gen = (s.sch n).listGen)
    (hres : (s.res k n).resident = some c) (hleft : 0 < (s.res k n).left) (hqual : s.qualifies k n c = true)
    (hdebt : s.sliceUs n = 0 ∨ (s.ctx n c).debt < s.sliceUs n) (hnone : ∀ g ∈ (s.sch n).gangs, g.saved = false) :
    Gives (.sliceEnd k n) s fun t => (t.res k n).left = (s.res k n).left - 1 ∧ (t.res k n).resident = some c ∧ (t.ctx n c).debt = 0
      ∧ (t.res k n).shortened = (if s.sliceUs n = 0 then (s.ctx n c).debt else (s.ctx n c).debt % s.sliceUs n) ∧ t.cells = s.cells := by
  obtain ⟨t, hexec, hstored⟩ := exec_sliceEnd_goesOn hunprotected hready hsteady hphase hgen hres hleft hqual hdebt hnone
  refine ⟨t, hexec, ?_, ?_, ?_, ?_, hstored.cells⟩
  · rw [State.res_congr hstored.recorded.ress, State.res_paysDebt, State.res_updRes]
  · rw [State.res_congr hstored.recorded.ress, State.res_paysDebt, State.res_updRes]
    exact hres
  · rw [State.ctx_congr hstored.ctxs, State.debt_paysDebt]
  · rw [State.res_congr hstored.recorded.ress, State.res_paysDebt]
    rfl

/-- A switch that ends leaves the context resident that was to come, or none where it does not qualify. -/
theorem gives_contextResident {k : SiteId} {n : PartId} {d : Nat} {s : State} (us : Nat) (hcalm : s.calm n d) (hswitch : (s.res k n).switching = true)
    (hnone : (s.res k n).resident = none) (hin : (s.res k n).incoming = some d) (hopen : s.injOpen (halfOfSite k) (k.val % 6) n = true) :
    Gives (.contextResident k n us) s fun t => (t.res k n).switching = false ∧ (t.res k n).incoming = none
      ∧ (t.res k n).resident = if s.qualifies k n d then some d else none := by
  obtain ⟨⟨hquiet, himages⟩, -, -⟩ := hcalm
  obtain ⟨a, hdues, hcodes, hkeeps, hexec⟩ := exec_contextResident_open us hswitch hnone hin hopen
  have hnothing : a.dues = [] := hdues.trans hquiet
  by_cases hqual : s.qualifies k n d = true
  · have hslice := State.startSlice_enters (State.enterSite_enters (k := k) (d := d) (s := a) (n := n) (by rw [State.code_congr hcodes]; exact himages)
      fun x hx => by rw [hnothing] at hx; cases hx)
    obtain ⟨t, hclosing, hworks⟩ := closing_works hslice.images hslice.dues
    have henters := hslice.works hworks
    rw [if_pos hqual] at hexec ⊢
    exact ⟨t, hexec.trans hclosing, henters.switching, henters.incoming, henters.resident⟩
  · rw [if_neg hqual] at hexec ⊢
    refine ⟨_, hexec.trans (closing_quiet hnothing), ?_, ?_, ?_⟩ <;> rw [State.endsSwitch, State.res_updRes]
    exact (congrArg Res.resident hkeeps).trans hnone

/-- Settles O23: what a gang's start, a slice's end and a switch's end write to status pages and to the books leaves what the statement names; the losses
that a switch may owe keep who is resident. -/
theorem schedulingStartsAndSwitches : Obligations.SchedulingStartsAndSwitches := by
  unfold Obligations.SchedulingStartsAndSwitches
  refine ⟨?_, ?_, ?_, ?_⟩
  · intro k n c x image thr trap s s1 s2 hunprotected hready hsteady halive hphase hres hrestores hfirst hfree hcheck hwords
    exact gives_gangStart hunprotected hready hsteady halive hphase hres hrestores hfirst hfree hcheck hwords
  · intro k n c s hunprotected hready hsteady hphase hgen hres hleft hqual hdebt hnone
    exact gives_sliceEnd hunprotected hready hsteady hphase hgen hres hleft hqual hdebt hnone
  · intro k n s hquiet hready hsteady hphase hgen hres hlist
    exact exec_sliceEnd_idle hquiet hready hsteady hphase hgen hres hlist
  · intro k n us d s hcalm hswitch hnone hin hopen
    exact gives_contextResident us hcalm hswitch hnone hin hopen

end

section
/-!
PROOFS. A home read with NOALLOC leaves the policies of caches (09 R221, R237): the registers that it changes are the counters that stand beside them.
-/

namespace Sys2Proof.Machine

/-! The registers of a policy (09 R221, R237) under plain reads: the counters that a read changes stand beside them. -/

/-- From s to t the registers that give the hints of partitions stand. -/
structure State.SamePolicy (s t : State) : Prop where
  reg (h n : Nat) : t.reg (slcPartAddr h n 0) = s.reg (slcPartAddr h n 0)

theorem State.SamePolicy.refl (s : State) : s.SamePolicy s := ⟨fun _ _ => rfl⟩
theorem State.SamePolicy.trans {s t u : State} (h : s.SamePolicy t) (h' : t.SamePolicy u) : s.SamePolicy u :=
  ⟨fun k n => (h'.reg k n).trans (h.reg k n)⟩
theorem State.SamePolicy.ite {s t u : State} {c : Prop} [Decidable c] (ht : s.SamePolicy t) (hu : s.SamePolicy u) : s.SamePolicy (if c then t else u) := by
  split <;> assumption

/-- While a line's transactions are plain reads, they stay so, and memory and policies stand. -/
structure State.KeepsPolicy (l : Nat) (s t : State) : Prop where
  keepsMem : s.KeepsMem l t
  policy : s.ReadsPlainly l → s.SamePolicy t

section Policy
variable {l : Nat} {s t u : State}

theorem State.KeepsPolicy.of_regs (h : s.KeepsMem l t) (hregs : t.regs = s.regs) : s.KeepsPolicy l t :=
  ⟨h, fun _ => ⟨fun _ _ => State.reg_congr hregs _⟩⟩
theorem State.KeepsPolicy.refl (s : State) : s.KeepsPolicy l s := .of_regs (.refl s) rfl
theorem State.KeepsPolicy.trans (h : s.KeepsPolicy l t) (h' : t.KeepsPolicy l u) : s.KeepsPolicy l u where
  keepsMem := h.keepsMem.trans h'.keepsMem
  policy hs := (h.policy hs).trans (h'.policy (h.keepsMem.keeps hs).1)
theorem State.KeepsPolicy.ite {c : Prop} [Decidable c] (ht : s.KeepsPolicy l t) (hu : s.KeepsPolicy l u) : s.KeepsPolicy l (if c then t else u) := by
  split <;> assumption

/-- What holds where the line's transactions are plain reads. -/
theorem State.KeepsPolicy.of_plain (h : s.ReadsPlainly l → s.KeepsPolicy l t) : s.KeepsPolicy l t where
  keepsMem := ⟨fun hs => (h hs).keepsMem.keeps hs⟩
  policy hs := (h hs).policy hs

theorem slcPartAddr_ne_slcPartAddr {h n k m o : Nat} (ho : o % 0x40 ≠ 0) : slcPartAddr h n 0 ≠ slcPartAddr k m o := by
  simp only [slcPartAddr, regAddr, regBase]
  omega

theorem slcPartAddr_ne_hmcAddr (h n k m : Nat) : slcPartAddr h n 0 ≠ hmcAddr k (0x110 + m * 0x20) := by
  simp only [slcPartAddr, hmcAddr, regAddr, regBase]
  omega

theorem State.addReg_keepsPolicy (s : State) {a : Nat} (ha : ∀ h n, slcPartAddr h n 0 ≠ a) (w k : Nat) : s.KeepsPolicy l (s.addReg a w k) :=
  ⟨.of_dir rfl rfl, fun _ => ⟨fun h n => State.reg_setReg_ne _ _ _ (ha h n)⟩⟩

theorem State.countLook_keepsPolicy (s : State) (h n : Nat) (hit : Bool) : s.KeepsPolicy l (s.countLook h n hit) :=
  s.addReg_keepsPolicy (fun _ _ => slcPartAddr_ne_slcPartAddr (by cases hit <;> decide)) ..

theorem State.Noted.regs (h : s.Noted t) : t.regs = s.regs := by
  obtain ⟨_, _, _, _, rfl⟩ := h
  rfl

theorem State.refuse_keepsPolicy (s : State) (h r n : Nat) (full : Bool) : s.KeepsPolicy l (s.refuse h r l n full) := by
  unfold State.refuse
  split
  · exact .refl s
  · exact ⟨.of_dir rfl rfl, fun _ => ⟨fun k m =>
      State.reg_setReg_ne _ _ _ (slcPartAddr_ne_slcPartAddr (h := k) (n := m) (k := h) (m := n) (o := 0x18) (by decide))⟩⟩

theorem State.reportFail_samePolicy (s : State) (k : Nat) : s.SamePolicy (s.reportFail k) := by
  unfold State.reportFail
  exact ⟨fun _ _ => State.reg_congr (State.rasError_noted ..).regs _⟩

theorem State.charge_samePolicy (s : State) (k : Nat) : s.SamePolicy (s.charge k) := by
  refine ⟨fun h n => ?_⟩
  unfold State.charge
  split
  · exact State.reg_setReg_ne _ _ _ (slcPartAddr_ne_hmcAddr h n _ _)
  · rfl

theorem State.reportFail_keepsPolicy (s : State) (k : Nat) : s.KeepsPolicy l (s.reportFail k) :=
  ⟨(s.reportFail_metered k).keepsMem, fun _ => s.reportFail_samePolicy k⟩

theorem State.charge_keepsPolicy (s : State) (k : Nat) : s.KeepsPolicy l (s.charge k) := ⟨(s.charge_metered k).keepsMem, fun _ => s.charge_samePolicy k⟩

end Policy

section PolicyLine
variable {l h : Nat}

theorem State.lineData_keepsPolicy (s : State) (h n : Nat) : s.KeepsPolicy l (s.lineData h l n .noAlloc).1 := by
  have hmiss : s.KeepsPolicy l (s.countLook h n false) := s.countLook_keepsPolicy h n false
  have hreport : ∀ a : State, a.KeepsPolicy l (if (a.hbmPeek l).fails then a.reportFail l else a) := fun a => .ite (a.reportFail_keepsPolicy l) (.refl a)
  have hcharge : ∀ a : State, a.KeepsPolicy l (if a.lineOffline l || a.lineCleared l then a else a.charge l) := fun a =>
    .ite (.refl a) (a.charge_keepsPolicy l)
  unfold State.lineData
  split
  · have htouch : s.touchSlc h l n .noAlloc = s := by
      unfold State.touchSlc
      split <;> rfl
    rw [htouch]
    exact s.countLook_keepsPolicy h n true
  · by_cases hhome : homeOf l = h
    · simp only [hhome, if_true]
      exact hmiss.trans ((hreport _).trans (hcharge _))
    · simp only [hhome, if_false]
      exact hmiss

theorem State.txnLine_keepsPolicy (s : State) (h n : Nat) {t : Txn} (ht : t.PlainRead) : s.KeepsPolicy l (s.txnLine h l n t).1 := by
  unfold State.txnLine
  split
  · exact .refl s
  · rw [ht.hint]
    exact s.lineData_keepsPolicy h n

theorem State.closeTxn_keepsPolicy (s : State) : s.KeepsPolicy l (s.closeTxn h l) := .of_regs s.closeTxn_keepsMem rfl

theorem State.finishRead_keepsPolicy (s : State) (hh : h < 2) (n : Nat) {t : Txn} (ht : t.PlainRead) : s.KeepsPolicy l (s.finishRead h l n t) := by
  refine (s.txnLine_keepsPolicy h n ht).trans ?_
  have hkeep : ∀ (a : State) r, a.keepAtProxy h l n t r = a := fun a r => by simp [State.keepAtProxy, ht.keep]
  have hanswer : ∀ (a : State) r, a.answer t l r = a := fun a r => by simp [State.answer, ht.origin]
  simp only [State.finishRead, hkeep, hanswer, ht.keep, Bool.false_and]
  exact .trans (.of_regs (State.setDir_sameTxn _ hh rfl) rfl) (State.closeTxn_keepsPolicy _)

theorem State.finishTxn_keepsPolicy (s : State) (hh : h < 2) : s.KeepsPolicy l (s.finishTxn h l) := by
  refine .of_plain fun hs => ?_
  rcases ht : (s.dirEnt h l).txn with _ | t
  · rw [show s.finishTxn h l = s by simp [State.finishTxn, ht]]
    exact .refl s
  · rw [show s.finishTxn h l = s.finishRead h l ((s.ownerPch (pchOfLine l)).getD 16) t by simp [State.finishTxn, ht, (hs h hh t ht).kind]]
    exact s.finishRead_keepsPolicy hh _ (hs h hh t ht)

theorem State.advanceTxn_keepsPolicy (s : State) (hh : h < 2) : s.KeepsPolicy l (s.advanceTxn h l) := by
  refine .of_plain fun hs => ?_
  unfold State.advanceTxn
  split
  · next t ht =>
    simp only [(hs h hh t ht).forLine]
    exact .ite (s.finishTxn_keepsPolicy hh) (.refl s)
  · exact .refl s

/-! Snoops change no register. -/

/-- From s to t no register has changed. -/
structure State.SameRegs (s t : State) : Prop where
  regs : t.regs = s.regs

theorem State.SameRegs.refl (s : State) : s.SameRegs s := ⟨rfl⟩
theorem State.SameRegs.trans {s t u : State} (h : s.SameRegs t) (h' : t.SameRegs u) : s.SameRegs u := ⟨h'.regs.trans h.regs⟩
theorem State.SameRegs.ite {s t u : State} {c : Prop} [Decidable c] (ht : s.SameRegs t) (hu : s.SameRegs u) : s.SameRegs (if c then t else u) := by
  split <;> assumption

theorem State.setDir_sameRegs (s : State) (e : DirEnt) : s.SameRegs (s.setDir h l e) := ⟨rfl⟩
theorem State.setCopy_sameRegs (s : State) (a : Nat) (c : Copy) : s.SameRegs (s.setCopy h a l c) := ⟨rfl⟩
theorem State.setWb_sameRegs (s : State) (a : Nat) (w : Option WbEnt) : s.SameRegs (s.setWb h a l w) := ⟨rfl⟩
theorem State.setSlc_sameRegs (s : State) (c : Option SlcLine) : s.SameRegs (s.setSlc h l c) := ⟨rfl⟩
theorem State.coh_sameRegs (s : State) (k : Coh) : s.SameRegs { s with coh := k } := ⟨rfl⟩

theorem State.clearHalf_sameRegs (s : State) : s.SameRegs (s.clearHalf h l) :=
  (forAll_rel State.SameRegs.refl State.SameRegs.trans _ (fun _ _ => (State.setCopy_sameRegs ..).trans (State.setWb_sameRegs ..)) _ s).trans
    (State.setDir_sameRegs ..)

theorem State.snoopAgent_sameRegs (s : State) (k : Snoop) (h a : Nat) : s.SameRegs (s.snoopAgent k h a l).1 := by
  unfold State.snoopAgent
  split
  · split
    · exact .refl s
    · exact s.setWb_sameRegs ..
  · exact s.setCopy_sameRegs ..

theorem State.snoopProxy_sameRegs (s : State) (k : Snoop) : s.SameRegs (s.snoopProxy k l).1 := by
  have hshare : s.SameRegs ((s.copiesShare (1 - homeOf l) l).entryShares (1 - homeOf l) l) :=
    (forAll_rel State.SameRegs.refl State.SameRegs.trans _ (fun _ _ => State.setCopy_sameRegs ..) _ s).trans (.ite (State.setDir_sameRegs ..) (.refl _))
  unfold State.snoopProxy
  dsimp only
  split
  · exact .refl s
  · refine State.SameRegs.trans ?_ (State.coh_sameRegs ..)
    split
    · exact hshare.trans (State.setSlc_sameRegs ..)
    · exact hshare
  · exact (s.clearHalf_sameRegs.trans (State.setSlc_sameRegs ..)).trans (State.coh_sameRegs ..)

theorem State.snoopOther_sameRegs (s : State) (k : Snoop) : s.SameRegs (s.snoopOther k l).1 := by
  unfold State.snoopOther
  split
  · exact s.snoopProxy_sameRegs k
  · exact (s.snoopAgent_sameRegs ..).trans (State.snoopProxy_sameRegs ..)

theorem State.snoop_sameRegs (s : State) (k : Snoop) (h a : Nat) : s.SameRegs (s.snoop k h a l) := by
  have hanswer : s.SameRegs (if a = 14 then s.snoopOther k l else s.snoopAgent k h a l).1 := by
    split
    · exact s.snoopOther_sameRegs k
    · exact s.snoopAgent_sameRegs k h a
  unfold State.snoop
  split
  · exact .refl s
  · exact .ite (hanswer.trans (State.setDir_sameRegs ..)) (.refl s)

theorem State.snoopAnswer_keepsPolicy (s : State) (hh : h < 2) (a : Nat) : s.KeepsPolicy l (s.snoopAnswer h a l) := by
  refine .of_plain fun hs => ?_
  unfold State.snoopAnswer
  split
  · next t ht =>
    obtain ⟨hkind, hhint, hkeep, hline, hentry, horigin⟩ := hs h hh t ht
    refine .ite (.trans (.of_regs (State.setDir_keepsMem s fun x hx => ?_) rfl) (State.advanceTxn_keepsPolicy _ hh)) (.refl s)
    cases hx
    exact ⟨hkind, hhint, hkeep, hline, hentry, horigin⟩
  · exact .refl s

theorem State.runSnoops_keepsPolicy (s : State) (hh : h < 2) : s.KeepsPolicy l (s.runSnoops h l) :=
  forAll_rel State.KeepsPolicy.refl State.KeepsPolicy.trans _ (fun a _ => .ite
    ((foldl_rel State.KeepsPolicy.refl State.KeepsPolicy.trans _ (fun b k => .of_regs (b.snoop_keepsMem hh k a) (b.snoop_sameRegs k h a).regs) _ _).trans
      (State.snoopAnswer_keepsPolicy _ hh a)) (.refl _)) _ s

theorem State.runTxn_keepsPolicy (s : State) (hh : h < 2) : s.KeepsPolicy l (s.runTxn h l) := by
  refine .of_plain fun hs => ?_
  unfold State.runTxn
  split
  · exact .refl s
  · next t ht =>
    simp only [(hs h hh t ht).waitsEntry]
    exact s.runSnoops_keepsPolicy hh

section Request
variable {t : Txn} (ht : t.PlainRead) (hh : h < 2) (n : Nat)
include ht hh

theorem State.serveEntry_keepsPolicy (s : State) : s.KeepsPolicy l (s.serveEntry h l n t) := by
  have hplain : ({ t with waitsEntry := false, waitsHome := false } : Txn).PlainRead := ⟨ht.kind, ht.hint, ht.keep, ht.forLine, rfl, ht.origin⟩
  have hopen : ∀ e c held cap, s.KeepsPolicy l (s.cohTick.setDir h l (openEntry e { t with waitsEntry := false, waitsHome := false } n c held cap)) :=
    fun e c held cap => .of_regs (State.KeepsMem.trans (t := s.cohTick) (.of_dir rfl rfl) (State.setDir_keepsMem _ (openEntry_plain hplain n c held cap))) rfl
  unfold State.serveEntry
  dsimp only
  split
  · exact .ite ((hopen ..).trans (State.finishTxn_keepsPolicy _ hh)) (hopen ..)
  · exact hopen ..

theorem State.takeIn_keepsPolicy (s : State) : s.KeepsPolicy l (s.takeIn h l n t) := by
  have htaken : s.takeIn h l n t = s.serve h l n t := by simp [State.takeIn, ht.kind, ht.keep, isHome]
  rw [htaken]
  refine .ite (s.serveEntry_keepsPolicy ht hh n) (.of_regs (State.setDir_keepsMem s fun x hx => ?_) rfl)
  cases hx
  exact ⟨ht.kind, ht.hint, ht.keep, ht.forLine, rfl, ht.origin⟩

theorem State.request_keepsPolicy (s : State) (tally : Bool) : s.KeepsPolicy l (s.request h l n tally t) := by
  have hrefuse := fun a : State => a.refuse_keepsPolicy (l := l) h t.requester n false
  have hin := fun a : State => State.KeepsPolicy.ite (c := (a.dirEnt h l).txn.isSome) (hrefuse a)
    (.ite (c := !tally && a.coh.tallies.any (fun x => x.half == h && x.line == l)) (hrefuse a) (a.takeIn_keepsPolicy ht hh n))
  refine .ite (.refl s) (.trans ?_ (hin _))
  split
  · exact .of_regs (.of_dir rfl rfl) rfl
  · exact .refl s

end Request

theorem State.homeRun_keepsPolicy (s : State) (hh : h < 2) (n : Nat) {t : Txn} (ht : t.PlainRead) : s.KeepsPolicy l (s.homeRun h l n t) := by
  have hfar : ∀ k, k = false → ({ t with requester := 14, keep := k } : Txn).PlainRead := fun k hk =>
    ⟨ht.kind, ht.hint, hk, ht.forLine, ht.waitsEntry, ht.origin⟩
  have hsend : ∀ tally, s.KeepsPolicy l (s.homeSend h l n tally t) := fun tally =>
    .ite (s.request_keepsPolicy ht hh n tally) (.trans (.ite (s.countLook_keepsPolicy h n false) (.refl s))
      (State.request_keepsPolicy (hfar _ (by simp [ht.hint])) (homeOf_lt l) n _ tally))
  refine (hsend _).trans (State.runTxn_keepsPolicy _ ?_)
  split
  · exact hh
  · exact homeOf_lt l

end PolicyLine

/-! Reads of a range of a partition (01 R22). -/

theorem State.readAtHome_samePolicy (s : State) (l : Nat) : s.SamePolicy (s.readAtHome l) :=
  State.SamePolicy.trans (.ite (s.reportFail_samePolicy l) (.refl s)) (.ite (State.charge_samePolicy ..) (.refl _))

theorem State.homeRead_samePolicy (s : State) (l n : Nat) {p : Via} (hp : p.PlainPort) : s.SamePolicy (s.homeRead l n p) := by
  unfold State.homeRead
  split
  · exact s.readAtHome_samePolicy l
  · next hopen =>
    rw [Bool.not_eq_true, Bool.or_eq_false_iff] at hopen
    exact (s.homeRun_keepsPolicy (hp.half_lt l) n hp.txn).policy (State.readsPlainly_of_free hopen.1)

theorem State.noteRead_samePolicy (s : State) (l : Nat) {p : Via} (hp : p.PlainPort) : s.SamePolicy (s.noteRead l p) := by
  unfold State.noteRead
  rw [hp.cluster]
  split
  · exact s.readAtHome_samePolicy l
  · exact s.homeRead_samePolicy l _ hp
  · contradiction

theorem State.ppaReport_samePolicy (s : State) (n ppa len : Nat) {p : Via} (hp : p.PlainPort) : s.SamePolicy (s.ppaReport n ppa len p) :=
  .ite (foldl_rel State.SamePolicy.refl State.SamePolicy.trans _ (fun _ _ => State.noteRead_samePolicy _ _ hp) _ s) (.refl s)

/-- Reads with NOALLOC: memory, and the hints that ports take from policies, stand. -/
structure State.ReadsOnly (s t : State) : Prop where
  mem : t.mem = s.mem
  policy : s.SamePolicy t

theorem State.ReadsOnly.refl (s : State) : s.ReadsOnly s := ⟨rfl, .refl s⟩
theorem State.ReadsOnly.trans {s t u : State} (h : s.ReadsOnly t) (h' : t.ReadsOnly u) : s.ReadsOnly u :=
  ⟨h'.mem.trans h.mem, h.policy.trans h'.policy⟩

theorem State.ppaReport_readsOnly (s : State) (n ppa len : Nat) {p : Via} (hp : p.PlainPort) : s.ReadsOnly (s.ppaReport n ppa len p) :=
  ⟨s.ppaReport_mem n ppa len hp, s.ppaReport_samePolicy n ppa len hp⟩

/-- The hub's own port. -/
theorem Via.plainPort_default : Via.PlainPort {} := ⟨by decide, rfl, rfl⟩

/-- The port of a site's movers, where its reads allocate nothing. -/
theorem State.moverReads_plainPort {s : State} {k n : Nat} (hk : k < 12) (hhint : (s.moverReads k n).hint = .noAlloc) : (s.moverReads k n).PlainPort where
  half := by
    have hhalf : (s.moverReads k n).half.getD 0 = k / 6 := rfl
    omega
  cluster := rfl
  hint := hhint

theorem State.SamePolicy.moverReads {s t : State} (h : s.SamePolicy t) (k n : Nat) : t.moverReads k n = s.moverReads k n := by
  simp only [State.moverReads, State.policyVia, State.policyHint, h.reg (k / 6) n]

/-- The pieces of a slot are read by the movers of a site. -/
theorem State.slotReads_readsOnly {k n : Nat} (hk : k < 12) (base : Nat) (l : List (Nat × Nat)) {s : State} (hhint : (s.moverReads k n).hint = .noAlloc) :
    s.ReadsOnly (l.foldl (fun s p => s.ppaReport n (base + p.1) p.2 (s.moverReads k n)) s) := by
  induction l generalizing s with
  | nil => exact .refl s
  | cons p l ih =>
    have hread := s.ppaReport_readsOnly n (base + p.1) p.2 (State.moverReads_plainPort hk hhint)
    exact hread.trans (ih (by rw [hread.policy.moverReads]; exact hhint))

end Sys2Proof.Machine
end

section
/-!
PROOFS. Cells that are stopped, saved and restored (04 R108; 07 R178, R184, R185, R188), and what follows when a cell leaves its gang (R182).
-/

namespace Sys2Proof.Machine

/-! The cells of a lost context stop (07 R178). -/

/-- Cells that stop are still, and still cells stay so. -/
theorem State.stopCells_still {s : State} {n i : Nat} {l : List Nat} (himages : (s.code n).images = []) (howner : ∀ j ∈ l, s.ownerCell j = some n)
    (hi : i ∈ l ∨ (s.cell i).Still) : ((forAll l (fun j s => s.stopCell j) s).cell i).Still := by
  induction l generalizing s with
  | nil => exact hi.resolve_left List.not_mem_nil
  | cons j l ih =>
    have hstop := State.stopCell_works himages (howner j List.mem_cons_self)
    refine ih hstop.images (fun k hk => ?_) ?_
    · rw [State.ownerCell_congr hstop.pat]
      exact howner k (List.mem_cons_of_mem _ hk)
    · rcases hi with hi | hi
      · rcases List.mem_cons.1 hi with rfl | hi
        · refine .inr ?_
          rw [State.cell_stopCell_owned himages (howner i List.mem_cons_self), if_pos rfl]
          exact Cell.stopped_still _
        · exact .inl hi
      · exact .inr ((hstop.cell i).still hi)

theorem State.stopCells_works {s : State} {n : Nat} (himages : (s.code n).images = []) (c : Nat) :
    State.Works n s (forAll (s.cellsOf n c) (fun j s => s.stopCell j) s) :=
  forAll_works himages fun j hj _ ha => State.stopCell_works ha.images (by rw [State.ownerCell_congr ha.pat]; exact State.mem_cellsOf_owner hj)

theorem State.mem_cellsOf {s : State} {n i : Nat} (hbusy : (s.cell i).state ≠ 0) (howner : s.ownerCell i = some n) : i ∈ s.cellsOf n (s.cell i).ctx := by
  have hlisted : (i, s.cell i) ∈ s.cells := Tab.mem_of_get_ne fun hnone => by
    rw [show s.cell i = {} from hnone] at hbusy
    exact hbusy rfl
  exact List.mem_map.2 ⟨_, List.mem_filter.2 ⟨hlisted, by simp [hbusy, howner]⟩, rfl⟩

/-- A cell that worked for a context when its loss began has stopped once that context's cells have. -/
theorem State.stopCells_stops {s t : State} {n i : Nat} (hworks : State.Works n s t) (hbusy : (s.cell i).state ≠ 0) (howner : s.ownerCell i = some n) :
    ((forAll (t.cellsOf n (s.cell i).ctx) (fun j s => s.stopCell j) t).cell i).Still := by
  refine State.stopCells_still hworks.images (fun j hj => State.mem_cellsOf_owner hj) ?_
  rcases hworks.cell i with hstill | ⟨-, hctx, hbusy'⟩
  · exact .inr hstill
  · refine .inl ?_
    rw [← hctx]
    exact State.mem_cellsOf (hbusy' hbusy) (by rw [State.ownerCell_congr hworks.pat]; exact howner)

/-! STRETCH_TIMEOUT (07 R178; 04 R101). -/

/-- The first fault of a context that is not lost is recorded. -/
theorem State.recordFault_works {s : State} {n c : Nat} (himages : (s.code n).images = []) (hc : (s.ctx n c).state ≠ .lost) (w : Nat) :
    State.Works n s (s.recordFault n c w) := by
  have hctx : State.Works n s (s.updCtx n c (fun x => { x with fault := w })) := State.updCtx_works himages (.of_not_lost hc _)
  exact .ite (hctx.trans ((State.putWord_stored hctx.images c 0x48 w).works hctx.images)) (.refl himages)

theorem State.ctx_recordFault {s : State} {n c : Nat} (himages : (s.code n).images = []) (hfirst : (s.ctx n c).fault = 0) (w : Nat) :
    (s.recordFault n c w).ctx n c = { s.ctx n c with fault := w } := by
  have himages' : ((s.updCtx n c (fun x => { x with fault := w })).code n).images = [] := himages
  rw [State.recordFault, if_pos hfirst, State.ctx_congr (State.putWord_stored himages' c 0x48 w).ctxs, State.ctx_updCtx]

/-- A gang shows TIMEOUT on cells that hold its work. -/
def State.timesGang (s : State) (n gid : Nat) (l : List Nat) : State :=
  forAll l (fun j s => s.updGang n gid (fun g => { g with ended := g.ended.set none (j % 16) (some St.timeout) })) s

theorem State.timesGang_ctxs (s : State) (n gid : Nat) (l : List Nat) : (s.timesGang n gid l).ctxs = s.ctxs :=
  forAll_rel (R := fun a b : State => b.ctxs = a.ctxs) (fun _ => rfl) (fun h h' => h'.trans h)
    (fun j s => s.updGang n gid (fun g => { g with ended := g.ended.set none (j % 16) (some St.timeout) })) (fun _ _ => rfl) l s

theorem State.timesGang_works {s : State} {n : Nat} (himages : (s.code n).images = []) (gid : Nat) (l : List Nat) : State.Works n s (s.timesGang n gid l) :=
  forAll_works himages fun _ _ _ ha => State.updGang_works ha.images ..

/-- The first fault of a cell whose stretch has passed its bound. -/
def State.timeFault (s : State) (n i : Nat) : State := s.faultAt n i (opcodeOf (codeWord (s.cell i).image (s.cell i).pc)) 0 0 St.timeout

/-- The cell records its fault, and its gang shows TIMEOUT. -/
def State.timesOut (s : State) (n i : Nat) : State :=
  (s.timeFault n i).timesGang n ((s.cell i).gang.getD 0) ((s.timeFault n i).gangCells n ((s.cell i).gang.getD 0))

section Overrun
variable {s : State} {n i : Nat} (himages : (s.code n).images = [])
include himages

theorem State.timesOut_works (hc : (s.ctx n (s.cell i).ctx).state ≠ .lost) : State.Works n s (s.timesOut n i) := by
  have hfault : State.Works n s (s.timeFault n i) := State.recordFault_works himages hc _
  exact hfault.trans (State.timesGang_works hfault.images ..)

theorem State.ctx_timesOut (hfirst : (s.ctx n (s.cell i).ctx).fault = 0) : (s.timesOut n i).ctx n (s.cell i).ctx = { s.ctx n (s.cell i).ctx with
    fault := faultWord ((s.cell i).pc % 8192) (opcodeOf (codeWord (s.cell i).image (s.cell i).pc)) 0 0 St.timeout } := by
  rw [State.timesOut, State.ctx_congr (State.timesGang_ctxs ..)]
  exact State.ctx_recordFault himages hfirst _

omit himages in
/-- The stretch of a running cell of a context that nothing aborts is stopped. -/
theorem State.overrunCell_eq (howner : s.ownerCell i = some n) (hruns : (s.cell i).state = 1 ∨ (s.cell i).state = 2) (hgang : (s.cell i).gang.isSome = true)
    (hnot : (s.ctx n (s.cell i).ctx).aborting = false) : s.overrunCell i =
      forAll (((s.timesOut n i).loseCtx n (s.cell i).ctx St.timeout).cellsOf n (s.cell i).ctx) (fun j s => s.stopCell j)
        ((s.timesOut n i).loseCtx n (s.cell i).ctx St.timeout) := by
  have hguard : (((s.cell i).state == 1 || (s.cell i).state == 2) && (s.cell i).gang.isSome && (s.ownerCell i).isSome
      && !(s.ctx n (s.cell i).ctx).aborting) = true := by
    rcases hruns with h | h <;> simp [h, hgang, howner, hnot]
  rw [howner] at hguard
  unfold State.overrunCell State.timesOut State.timesGang State.timeFault
  dsimp only
  rw [howner, Option.getD_some, if_pos hguard]

/-- The context is lost with TIMEOUT and the fault of the cell, whose task has stopped. -/
theorem State.overrunCell_loses (howner : s.ownerCell i = some n) (hruns : (s.cell i).state = 1 ∨ (s.cell i).state = 2)
    (hgang : (s.cell i).gang.isSome = true) (hnot : (s.ctx n (s.cell i).ctx).aborting = false) (hc : (s.ctx n (s.cell i).ctx).state ≠ .lost)
    (hfirst : (s.ctx n (s.cell i).ctx).fault = 0) :
    State.Works n s (s.overrunCell i) ∧ ((s.overrunCell i).cell i).Still
      ∧ ((s.overrunCell i).ctx n (s.cell i).ctx).LostAs St.timeout
        (faultWord ((s.cell i).pc % 8192) (opcodeOf (codeWord (s.cell i).image (s.cell i).pc)) 0 0 St.timeout) := by
  have hfault := State.timesOut_works himages hc
  have hctx := State.ctx_timesOut himages hfirst
  have hlost := State.loseCtx_lost hfault.images (c := (s.cell i).ctx) (by rw [hctx]; exact hc) St.timeout
  rw [hctx] at hlost
  have hlose := hfault.trans (State.loseCtx_works hfault.images (s.cell i).ctx St.timeout)
  have hstop := State.stopCells_works hlose.images (s.cell i).ctx
  have hbusy : (s.cell i).state ≠ 0 := by omega
  rw [State.overrunCell_eq howner hruns hgang hnot]
  exact ⟨hlose.trans hstop, State.stopCells_stops hlose hbusy howner, hlost.stays (hstop.ctx _)⟩

end Overrun

/-! A cell leaves a gang (07 R182). -/

section After
variable {n : Nat} {s : State} (himages : (s.code n).images = [])
include himages

theorem State.dropGang_works (gid : Nat) : State.Works n s (s.dropGang n gid) := by
  unfold State.dropGang
  split
  · exact .refl himages
  · next g _ =>
    have hsaved : State.Works n s (forAll ((maskList 16 g.task.mask).map (fun p => g.task.site * 16 + p))
        (fun i s => { s with saved := s.saved.set {} (savedKey n g.task.ctx i) {} }) s) :=
      forAll_works himages fun _ _ _ ha => .of_same ha.images rfl rfl rfl rfl rfl rfl
    exact hsaved.trans (State.updSch_works hsaved.images _)

/-- The report of an excursion clears what is pending of it (05 R135). -/
def State.reportsGuard (s : State) (n c : Nat) : State :=
  (s.updCtx n c (fun x => { x with guard := { x.guard with pending := false } })).putGuard n c

theorem State.reportsGuard_works (c : Nat) : State.Works n s (s.reportsGuard n c) := by
  have hctx : State.Works n s (s.updCtx n c (fun x => { x with guard := { x.guard with pending := false } })) :=
    State.updCtx_works himages (Ctx.KeepsEnd.stays (f := fun x => { x with guard := { x.guard with pending := false } }) (fun _ => ⟨rfl, rfl, rfl, rfl⟩) _)
  exact hctx.trans (State.putGuard_works hctx.images c)

theorem State.aborting_reportsGuard (c : Nat) : ((s.reportsGuard n c).ctx n c).aborting = (s.ctx n c).aborting := by
  have himages' : ((s.updCtx n c (fun x => { x with guard := { x.guard with pending := false } })).code n).images = [] := himages
  rw [State.reportsGuard, State.ctx_congr (State.putGuard_stored himages' c).ctxs, State.ctx_updCtx]

theorem State.gangRecord_works (g : Gang) : State.Works n s (s.gangRecord n g) := by
  have hguard := State.reportsGuard_works himages g.task.ctx
  exact hguard.trans (State.taskEnd_works hguard.images ..)

/-- A gang of which all is saved counts a save (07 R176). -/
def State.savesGang (s : State) (n gid : Nat) (g : Gang) : State :=
  s.updSch n (fun h => { h with gangs := h.gangs.filter (fun x => !(x.id == gid)) ++ [{ g with saved := true, saves := g.saves + 1, excursion := false }] })

/-- And its context counts it too. -/
def State.countsSave (s : State) (n gid : Nat) (g : Gang) : State :=
  ((s.savesGang n gid g).updCtx n g.task.ctx (fun x => { x with saves := x.saves + 1 })).putStatus n g.task.ctx

theorem State.countsSave_works (gid : Nat) (g : Gang) : State.Works n s (s.countsSave n gid g) := by
  have hgang : State.Works n s (s.savesGang n gid g) := State.updSch_works himages _
  have hctx := hgang.trans (State.updCtx_works (c := g.task.ctx) hgang.images (Ctx.KeepsEnd.stays (fun _ => ⟨rfl, rfl, rfl, rfl⟩) _)
    (f := fun x => { x with saves := x.saves + 1 }))
  exact hctx.trans (State.putStatus_works hctx.images g.task.ctx)

theorem State.aborting_countsSave (gid : Nat) (g : Gang) : ((s.countsSave n gid g).ctx n g.task.ctx).aborting = (s.ctx n g.task.ctx).aborting := by
  have himages' : (((s.savesGang n gid g).updCtx n g.task.ctx (fun x => { x with saves := x.saves + 1 })).code n).images = [] := himages
  rw [State.countsSave, State.ctx_congr (State.putStatus_stored himages' g.task.ctx).ctxs, State.ctx_updCtx]
  rfl

/-- An excursion trap taken holds its context, whose other cells are asked to leave (07 R182; 05 R135). -/
def State.holdsCtx (s : State) (n : Nat) (g : Gang) : State :=
  let s := ((s.reportsGuard n g.task.ctx).setCtxState n g.task.ctx .held St.ok).taskEnd n g.task St.pending 1 0xFF 0 g.runUs (g.saves + 1) 2
  let s := forAll (s.cellsOf n g.task.ctx) (fun i s => s.askCell i) s
  forAll (s.residentOn n g.task.ctx) (fun k s => s.updRes k n (fun x => { x with switching := true })) s

theorem State.holdsCtx_lasts {g : Gang} (hnot : (s.ctx n g.task.ctx).aborting = false) : State.Lasts n s (s.holdsCtx n g) := by
  have hguard := State.reportsGuard_works himages g.task.ctx
  have hheld := hguard.trans (State.setCtxState_works hguard.images
    (Ctx.Stays.of_not_aborting ((State.aborting_reportsGuard himages g.task.ctx).trans hnot)) .held St.ok)
  have hend := hheld.trans (State.taskEnd_works hheld.images g.task St.pending 1 0xFF 0 g.runUs (g.saves + 1) 2)
  unfold State.holdsCtx
  extract_lets a b
  have ha : State.Works n s a := hend
  have hb : State.Works n s b := ha.trans (State.askCells_works ha.images _)
  refine forAll_rel (R := fun a b : State => State.Lasts n s a → State.Lasts n s b) (fun _ h => h) (fun h h' => h' ∘ h) _ (fun _ u hu => ?_) _ b hb.toLasts
  exact hu.trans (.of_same hu.images rfl rfl rfl rfl rfl)

/-- What follows when a cell leaves its gang keeps all that lasts: a context that it holds is not being lost. -/
theorem State.afterCell_lasts (k gid : Nat) : State.Lasts n s (s.afterCell n k gid) := by
  unfold State.afterCell
  split
  · exact (State.Works.refl himages).toLasts
  · next g _ =>
    extract_lets c saved a b
    split
    · exact (State.Works.refl himages).toLasts
    · next hleaves =>
      split
      · have hdrop := State.dropGang_works himages gid
        exact (hdrop.trans (State.reState_works hdrop.images c)).toLasts
      · split
        · have hrecord := State.gangRecord_works himages g
          have hdrop := hrecord.trans (State.dropGang_works hrecord.images gid)
          exact (hdrop.trans (State.reState_works hdrop.images c)).toLasts
        · have hcount : State.Works n s b := State.countsSave_works himages gid g
          split
          · refine hcount.toLasts.trans (State.holdsCtx_lasts hcount.images ((State.aborting_countsSave himages gid g).trans ?_))
            simp only [Bool.or_eq_true, not_or, Bool.not_eq_true] at hleaves
            exact hleaves.2
          · exact hcount.toLasts

theorem State.dropUnmet_works (i : Nat) : State.Works n s (s.dropUnmet i) := .of_same himages rfl rfl rfl rfl rfl rfl

omit himages in
theorem Cell.freed_still (c : Cell) : c.freed.Still := ⟨rfl, rfl⟩

/-- A cell that leaves its gang is still, and all that lasts is kept. -/
theorem State.endCell_lasts (i : Nat) (status : StatusCode) :
    State.Lasts n s (s.endCell n i status false) ∧ ((s.endCell n i status false).cell i).Still := by
  unfold State.endCell
  extract_lets c gid a b e d
  have hdrop := State.dropUnmet_works himages i
  have hguard := hdrop.trans (State.putGuard_works hdrop.images c.ctx)
  have ha : State.Works n s a := hguard.trans (State.addCellRun_works hguard.images c.ctx gid)
  have hb : State.Works n s b := ha.trans (State.updGang_works ha.images gid _)
  have hstill : (e.cell i).Still := by
    rw [State.cell_updCell]
    split
    · exact ⟨rfl, rfl⟩
    · exact Cell.freed_still _
  have he : State.Works n s e := by
    refine hb.trans (State.updCell_works hb.images (.inl ?_))
    rw [State.cell_updCell] at hstill
    exact hstill
  have hde : d = e := by
    unfold d
    split
    · simp
    · rfl
  rw [hde]
  have hafter := State.afterCell_lasts he.images (i / 16) gid
  exact ⟨he.toLasts.trans hafter, (hafter.cell i).still hstill⟩

end After

/-! SAVE_RESTORE_FAILURE (07 R188). -/

/-- A cell of a context that is lost for its failed access ends its task; neither what follows it, nor what is judged at the end, undoes that. -/
theorem exec_saveRestoreFailure_loses {cell : CellId} {n : PartId} {st : StatusCode} {s : State} (hunprotected : s.unprotected n)
    (howner : s.ownerCell cell = some n.val) (hmoves : (s.cell cell).state = 3 ∨ (s.cell cell).state = 4) (hfails : st ≠ St.ok)
    (hc : (s.ctx n (s.cell cell).ctx).state ≠ .lost) : ∃ t, exec (.saveRestoreFailure cell st) s = .next t
      ∧ (t.cell cell).Still ∧ (t.ctx n (s.cell cell).ctx).LostAs st (s.ctx n (s.cell cell).ctx).fault := by
  obtain ⟨hquiet, himages⟩ := hunprotected
  have hlose := State.loseCtx_works himages (s.cell cell).ctx st
  have hlost := State.loseCtx_lost himages hc st
  obtain ⟨hend, hstill⟩ := State.endCell_lasts hlose.images cell st
  have hlasts := hlose.toLasts.trans hend
  obtain ⟨t, hclosing, hcloses⟩ := hlasts.closes hquiet
  have hguard : (((s.cell cell).state == 3 || (s.cell cell).state == 4) && (s.ownerCell cell).isSome && st != St.ok) = true := by
    rcases hmoves with h | h <;> simp [h, howner, hfails]
  refine ⟨t, ?_, (hcloses.cell cell).still hstill, (hlost.stays (hend.ctx _)).stays (hcloses.ctx _)⟩
  rw [exec_saveRestoreFailure, execSaveRestoreFailure, onlyIf_of hguard, howner, Option.getD_some]
  exact hclosing

/-- A stretch beyond its bound. -/
theorem exec_stretchTimeout_loses {cell : CellId} {n : PartId} {s : State} (hunprotected : s.unprotected n) (howner : s.ownerCell cell = some n.val)
    (hruns : (s.cell cell).state = 1 ∨ (s.cell cell).state = 2) (hgang : (s.cell cell).gang.isSome = true)
    (hnot : (s.ctx n (s.cell cell).ctx).aborting = false) (hc : (s.ctx n (s.cell cell).ctx).state ≠ .lost) (hfirst : (s.ctx n (s.cell cell).ctx).fault = 0) :
    ∃ t, exec (.stretchTimeout cell) s = .next t ∧ (t.cell cell).Still ∧ (t.ctx n (s.cell cell).ctx).LostAs St.timeout
      (faultWord ((s.cell cell).pc % 8192) (opcodeOf (codeWord (s.cell cell).image (s.cell cell).pc)) 0 0 St.timeout) := by
  obtain ⟨hquiet, himages⟩ := hunprotected
  obtain ⟨hworks, hstill, hlost⟩ := State.overrunCell_loses himages howner hruns hgang hnot hc hfirst
  obtain ⟨t, hclosing, hcloses⟩ := hworks.toLasts.closes hquiet
  refine ⟨t, ?_, (hcloses.cell cell).still hstill, hlost.stays (hcloses.ctx _)⟩
  rw [exec_stretchTimeout, execStretchTimeout]
  exact hclosing

/-! CELL_SAVE_DONE (04 R108; 07 R177, R184). -/

/-- What of a cell its save keeps beside its slot. -/
def State.savedNow (s : State) (i : Nat) : Saved :=
  { pc := (s.cell i).pc, lrt := (s.cell i).yld.getD 0, tileMask := (lrtOf (s.cell i).image ((s.cell i).yld.getD 0)).mask
    tileInt := (s.cell i).tileInt.keep (fun j => (lrtOf (s.cell i).image ((s.cell i).yld.getD 0)).mask.testBit j)
    loops := (s.cell i).loops, gang := (s.cell i).gang.getD 0, present := true }

/-- A piece of a slot is written after others: the first status other than OK stands. -/
def State.storesPiece (n base : Nat) (via : Via) (acc : State × StatusCode) (p : Nat × List Byte) : State × StatusCode :=
  ((acc.1.hubWrite n (base + p.1) p.2 via).1, if acc.2 = St.ok then (acc.1.hubWrite n (base + p.1) p.2 via).2 else acc.2)

section Saves
variable {n : Nat} {s : State} (himages : (s.code n).images = [])
include himages

theorem State.storesPieces_stored (base : Nat) (l : List (Nat × List Byte)) (via : Via) (st : StatusCode) :
    s.Stored (l.foldl (State.storesPiece n base via) (s, st)).1 := by
  induction l generalizing s st with
  | nil => exact .refl s
  | cons p l ih =>
    have hstore := State.hubWrite_stored himages (base + p.1) p.2 via
    exact hstore.trans (ih ((hstore.images n).trans himages) _)

theorem State.slotStore_stored (base : Nat) (l : List (Nat × List Byte)) (via : Via) : s.Stored (s.slotStore n base l via).1 :=
  State.storesPieces_stored himages base l via St.ok

/-- A cell that is saved is stored to its slot, and kept. -/
theorem State.saveCell_saves (i : Nat) : ∃ a, s.Stored a
    ∧ (s.saveCell n i).1 = { a with saved := a.saved.set {} (savedKey n (s.cell i).ctx i) (s.savedNow i) } := by
  have hslot := State.slotStore_stored (s := { s with freeCtr := s.freeCtr + 4 }) himages (s.slotAddr n (s.cell i).ctx i)
    (cellPieces (s.cell i) (lrtOf (s.cell i).image ((s.cell i).yld.getD 0)) s.freeCtr ++ msgPieces (s.msgSt (msgKey i (s.cell i).ctx)) (s.freeCtr + 3))
    (s.moverWrites (i / 16) n)
  have hcount : s.Stored { s with freeCtr := s.freeCtr + 4 } := ⟨fun h => h, _, _, _, _, _, _, _, _, _, _, rfl⟩
  exact ⟨_, hcount.trans hslot, rfl⟩

theorem State.saved_addCellRun (c gid : Nat) : (s.addCellRun n c gid).saved = s.saved := by
  let us := (Config.freeValue s.freeCtr).toNat % 2 ^ 32
  exact (State.putWord_stored (s := (s.tick.updCtx n c (fun x => { x with run := x.run + us })).updGang n gid (fun g => { g with runUs := g.runUs + us }))
    himages ..).recorded.saved

end Saves

/-- A save that succeeds: the cell is freed, what is kept of it stands, and nothing is left to judge. -/
structure State.SavedAt (s t : State) (n i : Nat) : Prop where
  cell : t.cell i = (s.cell i).freed
  saved : t.saved.get {} (savedKey n (s.cell i).ctx i) = s.savedNow i
  dues : t.dues = s.dues

/-- The cell's run time is counted, and it leaves its gang to another cell of it. -/
theorem State.saveCell_frees {s : State} {n i j : Nat} (himages : (s.code n).images = []) (hin : (s.cell i).gang.isSome = true) (hj : j ≠ i)
    (hsame : (s.cell j).gang = (s.cell i).gang) (hother : s.ownerCell j = some n) :
    State.SavedAt s (((((s.saveCell n i).1.addCellRun n (s.cell i).ctx ((s.cell i).gang.getD 0)).updCell i Cell.freed).afterCell n (i / 16)
      ((s.cell i).gang.getD 0))) n i := by
  obtain ⟨gid, hgid⟩ := Option.isSome_iff_exists.1 hin
  obtain ⟨a, hstored, hsave⟩ := State.saveCell_saves himages i
  rw [hsave]
  obtain ⟨b, hb⟩ : ∃ b : State, { a with saved := a.saved.set {} (savedKey n (s.cell i).ctx i) (s.savedNow i) } = b := ⟨_, rfl⟩
  have hcells : b.cells = s.cells := by rw [← hb]; exact hstored.cells
  have hpat : b.pat = s.pat := by rw [← hb]; exact hstored.pat
  have hdues : b.dues = s.dues := by rw [← hb]; exact hstored.dues
  have himages' : (b.code n).images = [] := by rw [← hb]; exact (hstored.images n).trans himages
  have hkept : b.saved.get {} (savedKey n (s.cell i).ctx i) = s.savedNow i := by rw [← hb]; exact Tab.get_set_same ..
  have hrun := State.addCellRun_counted himages' (s.cell i).ctx ((s.cell i).gang.getD 0)
  rw [hb, State.afterCell_shared (j := j)]
  · refine ⟨?_, ?_, ?_⟩
    · rw [State.cell_updCell, State.cell_congr (hrun.cells.trans hcells)]
    · exact (congrArg (fun u : Tab Saved => u.get {} (savedKey n (s.cell i).ctx i)) (State.saved_addCellRun himages' ..)).trans hkept
    · exact hrun.dues.trans hdues
  · rw [State.cell_updCell_ne _ _ _ hj, State.cell_congr (hrun.cells.trans hcells), hsame, hgid, Option.getD_some]
  · exact (State.ownerCell_congr (show _ = s.pat from hrun.pat.trans hpat) j).trans hother

/-- A cell at its cheap point whose context nothing aborts and whose gang goes on is saved where its site's regulator is open. -/
theorem exec_cellSaveDone_saves {cell : CellId} {n : PartId} {g : Gang} {s : State} (howner : s.ownerCell cell = some n.val)
    (hstate : (s.cell cell).state = 3) (hidle : (s.cell cell).moversIdle = true) (hnot : (s.ctx n (s.cell cell).ctx).aborting = false)
    (hgang : s.gangOf n ((s.cell cell).gang.getD 0) = some g) (hgoes : g.stopping = false)
    (hopen : s.injOpen (halfOfSite (cell.val / 16)) (cell.val / 16 % 6) n = true) {a : State}
    (ha : (s.injCharge (halfOfSite (cell.val / 16)) (cell.val / 16 % 6) n (s.saveBytes cell)).putGuard n (s.cell cell).ctx = a)
    (hok : (a.saveCell n cell).2 = St.ok) : exec (.cellSaveDone cell) s = closing
      ((((a.saveCell n cell).1.addCellRun n (s.cell cell).ctx ((s.cell cell).gang.getD 0)).updCell cell Cell.freed).afterCell n (cell.val / 16)
        ((s.cell cell).gang.getD 0)) := by
  have hguard : ((s.cell cell).state == 3 && (s.cell cell).moversIdle && (s.ownerCell cell).isSome) = true := by simp [hstate, hidle, howner]
  rw [exec_cellSaveDone, show execCellSaveDone = _ by delta execCellSaveDone; rfl]
  dsimp only
  rw [onlyIf_of hguard, howner, Option.getD_some, hnot, hgang]
  simp only [Bool.false_eq_true, if_false, hgoes, State.siteMove, State.inject_open _ hopen, if_true]
  rw [ha, if_pos hok]

/-! CELL_RESTORE_DONE (04 R108; 07 R184, R185). -/

theorem State.readImage_readsOnly (s : State) (n a : Nat) : s.ReadsOnly (s.readImage n a).1 :=
  State.readImage_rel (fun s ppa len => s.ppaReport_readsOnly n ppa len Via.plainPort_default) State.ReadsOnly.trans s a

theorem State.updCtx_readsOnly (s : State) (n c : Nat) (f : Ctx → Ctx) : s.ReadsOnly (s.updCtx n c f) := ⟨rfl, ⟨fun _ _ => rfl⟩⟩

theorem State.readWords_readsOnly (s : State) (n c : Nat) : s.ReadsOnly (s.readWords n c).1 := by
  have hread : s.ReadsOnly (s.readRecord n c).1 := s.ppaReport_readsOnly n (s.recordAddr n c) 64 Via.plainPort_default
  rcases h : s.readRecord n c with ⟨t, st | b⟩
  · rw [h] at hread
    rw [State.readWords_error h]
    exact hread
  · rw [h] at hread
    rw [State.readWords_ok h]
    exact hread.trans (t.updCtx_readsOnly n c _)

/-- The first status other than OK of a list of accesses, where every one is OK. -/
theorem foldl_status_ok {α : Type} {l : List α} {f : α → StatusCode} (hok : ∀ p ∈ l, f p = St.ok) :
    l.foldl (fun st p => if st = St.ok then f p else st) St.ok = St.ok := by
  induction l with
  | nil => rfl
  | cons p l ih =>
    rw [List.foldl_cons, if_pos rfl, hok p List.mem_cons_self]
    exact ih fun q hq => hok q (List.mem_cons_of_mem _ hq)

/-- The movers of cell i's site read a slot at base. -/
def State.readsSlot (s : State) (n i base : Nat) (l : List (Nat × Nat)) : State :=
  l.foldl (fun s p => s.ppaReport n (base + p.1) p.2 (s.moverReads (i / 16) n)) s

theorem State.readsSlot_stored (s : State) (n i base : Nat) (l : List (Nat × Nat)) : s.Stored (s.readsSlot n i base l) :=
  foldl_rel State.Stored.refl State.Stored.trans _ (fun _ _ => State.ppaReport_stored ..) l s

/-- The cell that a slot's bytes, an image and a context's words restore. -/
def restoredWith (c : Cell) (v : Saved) (image : List Byte) (thr : Nat) (trap : Bool) (rd : Nat → Nat → List Byte) (dr : Nat → Nat → Bool) : Cell :=
  { restored c v (lrtOf image v.lrt) image rd dr with excThr := thr, excTrap := trap }

/-- Cell i becomes y, and nothing is kept of it under a key. -/
def State.putsBack (s : State) (i key : Nat) (y : Cell) : State := { s.updCell i (fun _ => y) with saved := s.saved.set {} key {} }

theorem State.cell_putsBack (s : State) (i key : Nat) (y : Cell) : (s.putsBack i key y).cell i = y := State.cell_updCell s i fun _ => y
theorem State.saved_putsBack (s : State) (i key : Nat) (y : Cell) : (s.putsBack i key y).saved.get {} key = {} :=
  Tab.get_set_same {} s.saved key {}

/-- Cell i, which held c and of which v was kept, is restored from its slot. -/
def State.restoresCell (s : State) (n i base : Nat) (c : Cell) (v : Saved) (image : List Byte) (thr : Nat) (trap : Bool) : State :=
  (s.readsSlot n i base (restoreReads (lrtOf image v.lrt))).putsBack i (savedKey n c.ctx i)
    (restoredWith c v image thr trap (fun o l => (s.ppaPeek n (base + o) l).1) (fun o l => (s.ppaPeek n (base + o) l).2.1))

/-- A context without channels reloads none. -/
theorem State.reloadChans_none {s : State} {n c : Nat} (hnone : s.chansOf n c = []) : s.reloadChans n c = s.updCtx n c (fun x => { x with savedChans := [] }) := by
  rw [State.reloadChans, State.ctxChans, hnone]
  rfl

theorem State.chansOf_congr {s t : State} (hchans : t.chans = s.chans) (hpat : t.pat = s.pat) (n c : Nat) : t.chansOf n c = s.chansOf n c := by
  simp only [State.chansOf, hchans, State.ownerChan, State.ownerBy, State.slice_congr hpat]

section Restore
variable {cell : CellId} {n : PartId} {g : Gang} {image : List Byte} {thr : Nat} {trap : Bool} {s s1 s2 : State}

/-- A cell that restores, with its image, its context's words and its slot at hand, where its site's regulator is open. -/
theorem exec_cellRestoreDone_restores (howner : s.ownerCell cell = some n.val) (hstate : (s.cell cell).state = 4)
    (hnot : (s.ctx n (s.cell cell).ctx).aborting = false) (hgang : s.gangOf n (s.saved.get {} (savedKey n (s.cell cell).ctx cell)).gang = some g)
    (himage : s.readImage n g.task.image = (s1, .ok image)) (hwords : s1.readWords n (s.cell cell).ctx = (s2, .ok (thr, trap)))
    (hopen : s2.injOpen (halfOfSite (cell.val / 16)) (cell.val / 16 % 6) n = true)
    (hslot : ∀ p ∈ restoreReads (lrtOf image (s.saved.get {} (savedKey n (s.cell cell).ctx cell)).lrt),
      (s2.ppaPeek n (s2.slotAddr n (s.cell cell).ctx cell + p.1) p.2).2.2 = St.ok) :
    ∃ bytes, exec (.cellRestoreDone cell) s = closing
      (((s2.injCharge (halfOfSite (cell.val / 16)) (cell.val / 16 % 6) n bytes).restoresCell n cell (s2.slotAddr n (s.cell cell).ctx cell) (s.cell cell)
        (s.saved.get {} (savedKey n (s.cell cell).ctx cell)) image thr trap).reloadChans n (s.cell cell).ctx) := by
  have hguard : ((s.cell cell).state == 4 && (s.ownerCell cell).isSome) = true := by simp [hstate, howner]
  have hok := foldl_status_ok hslot
  refine ⟨(lrtOf image (s.saved.get {} (savedKey n (s.cell cell).ctx cell)).lrt).live + 1024 + 64 + 8 * fld image 2 2, ?_⟩
  rw [exec_cellRestoreDone, show execCellRestoreDone = _ by delta execCellRestoreDone; rfl]
  obtain ⟨reads, hsame⟩ : ∃ f, State.readImage = f := ⟨_, rfl⟩
  obtain ⟨words, hsame'⟩ : ∃ f, State.readWords = f := ⟨_, rfl⟩
  rw [hsame] at himage ⊢
  rw [hsame'] at hwords ⊢
  dsimp only
  rw [onlyIf_of hguard, howner, Option.getD_some, hnot]
  simp only [Bool.false_eq_true, if_false, hgang, himage, hwords, hok, bne_self_eq_false, State.siteMove,
    State.inject_open _ hopen, if_true]
  rfl

/-- A cell that runs where v stood, for the context and gang of c. -/
structure Cell.ResumesAs (y c : Cell) (v : Saved) (image : List Byte) (thr : Nat) (trap : Bool) : Prop where
  state : y.state = 1
  pc : y.pc = v.pc
  loops : y.loops = v.loops
  ctx : y.ctx = c.ctx
  gang : y.gang = c.gang
  image : y.image = image
  excThr : y.excThr = thr
  excTrap : y.excTrap = trap

theorem restoredWith_resumes (c : Cell) (v : Saved) (rd : Nat → Nat → List Byte) (dr : Nat → Nat → Bool) :
    (restoredWith c v image thr trap rd dr).ResumesAs c v image thr trap := ⟨rfl, rfl, rfl, rfl, rfl, rfl, rfl, rfl⟩

/-- The restored cell resumes. -/
theorem State.restoresCell_resumes (s : State) (n i base : Nat) (c : Cell) (v : Saved) :
    ((s.restoresCell n i base c v image thr trap).cell i).ResumesAs c v image thr trap := by
  rw [State.restoresCell, State.cell_putsBack]
  exact restoredWith_resumes ..

/-- Nothing is kept of a cell, and what is read beside it stands. -/
structure State.SlotTaken (s t : State) (n c i : Nat) : Prop where
  saved : t.saved.get {} (savedKey n c i) = {}
  dues : t.dues = s.dues
  chans : t.chans = s.chans
  pat : t.pat = s.pat
  mem : i / 16 < 12 → (s.moverReads (i / 16) n).hint = .noAlloc → t.mem = s.mem

theorem State.restoresCell_takes (s : State) (n i base : Nat) (c : Cell) (v : Saved) :
    s.SlotTaken (s.restoresCell n i base c v image thr trap) n c.ctx i := by
  have hslot := s.readsSlot_stored n i base (restoreReads (lrtOf image v.lrt))
  have honly : i / 16 < 12 → (s.moverReads (i / 16) n).hint = .noAlloc → s.ReadsOnly (s.readsSlot n i base (restoreReads (lrtOf image v.lrt))) :=
    fun hsite hhint => State.slotReads_readsOnly hsite base _ hhint
  unfold State.restoresCell
  generalize s.readsSlot n i base (restoreReads (lrtOf image v.lrt)) = a at hslot honly ⊢
  exact ⟨State.saved_putsBack .., hslot.dues, hslot.recorded.chans, hslot.pat, fun hsite hhint => (honly hsite hhint).mem⟩

theorem State.injOpen_congr {t : State} (h : t.fab = s.fab) (k i n : Nat) : t.injOpen k i n = s.injOpen k i n := by
  unfold State.injOpen
  rw [h]

end Restore

end Sys2Proof.Machine
end

section
/-! PROOFS. The statement about saves, restores, the bound of a stretch, and their failure (07 R178, R184, R188; 04 R108). -/

open Sys2Proof Sys2Proof.Machine

/-- A save that succeeds frees the cell, and keeps what it resumes with. -/
theorem gives_cellSaveDone {cell : CellId} {n : PartId} {g : Gang} {j : Nat} {s : State} (hunprotected : s.unprotected n)
    (howner : s.ownerCell cell = some n.val) (hstate : (s.cell cell).state = 3) (hidle : (s.cell cell).moversIdle = true)
    (hnot : (s.ctx n (s.cell cell).ctx).aborting = false) (hgang : s.gangOf n ((s.cell cell).gang.getD 0) = some g) (hgoes : g.stopping = false)
    (hin : (s.cell cell).gang.isSome = true) (hj : j ≠ cell.val) (hsame : (s.cell j).gang = (s.cell cell).gang) (hother : s.ownerCell j = some n.val)
    (hopen : s.injOpen (halfOfSite (cell.val / 16)) (cell.val / 16 % 6) n = true)
    (hok : (((s.injCharge (halfOfSite (cell.val / 16)) (cell.val / 16 % 6) n (s.saveBytes cell)).putGuard n (s.cell cell).ctx).saveCell n cell).2 = St.ok) :
    Gives (.cellSaveDone cell) s fun t => t.cell cell = (s.cell cell).freed ∧ let v := t.saved.get {} (savedKey n (s.cell cell).ctx cell)
      v.present = true ∧ v.pc = (s.cell cell).pc ∧ v.loops = (s.cell cell).loops ∧ v.lrt = (s.cell cell).yld.getD 0 ∧ v.gang = (s.cell cell).gang.getD 0 := by
  obtain ⟨hquiet, himages⟩ := hunprotected
  obtain ⟨a, ha⟩ : ∃ a, (s.injCharge (halfOfSite (cell.val / 16)) (cell.val / 16 % 6) n (s.saveBytes cell)).putGuard n (s.cell cell).ctx = a := ⟨_, rfl⟩
  have hexec := exec_cellSaveDone_saves howner hstate hidle hnot hgang hgoes hopen ha (ha ▸ hok)
  have hguard : (s.injCharge (halfOfSite (cell.val / 16)) (cell.val / 16 % 6) n (s.saveBytes cell)).Stored a := by
    rw [← ha]
    exact State.putGuard_stored (s := s.injCharge (halfOfSite (cell.val / 16)) (cell.val / 16 % 6) n (s.saveBytes cell)) himages (s.cell cell).ctx
  have hcell : ∀ k, a.cell k = s.cell k := fun k => State.cell_congr hguard.cells k
  have hsaved := State.saveCell_frees (s := a) (n := n) (i := cell) (j := j) ((hguard.images n).trans himages) (by rw [hcell]; exact hin) hj
    (by rw [hcell, hcell]; exact hsame) ((State.ownerCell_congr hguard.pat j).trans hother)
  rw [hcell] at hsaved
  generalize (((a.saveCell n cell).1.addCellRun n (s.cell cell).ctx ((s.cell cell).gang.getD 0)).updCell cell Cell.freed).afterCell n (cell.val / 16)
    ((s.cell cell).gang.getD 0) = t at hexec hsaved
  obtain ⟨hfreed, hkept, hdues⟩ := hsaved
  rw [hcell] at hfreed hkept
  refine ⟨t, hexec.trans (closing_quiet (hdues.trans (hguard.dues.trans hquiet))), hfreed, ?_⟩
  dsimp only
  rw [hkept]
  simp only [State.savedNow, hcell, and_self]

/-- A restore that succeeds sets the cell running where it stood. -/
theorem gives_cellRestoreDone {cell : CellId} {n : PartId} {g : Gang} {image : List Byte} {thr : Nat} {trap : Bool} {s s1 s2 : State} (hquiet : s.quiet)
    (howner : s.ownerCell cell = some n.val) (hstate : (s.cell cell).state = 4) (hnot : (s.ctx n (s.cell cell).ctx).aborting = false)
    (hgang : s.gangOf n (s.saved.get {} (savedKey n (s.cell cell).ctx cell)).gang = some g) (himage : s.readImage n g.task.image = (s1, .ok image))
    (hwords : s1.readWords n (s.cell cell).ctx = (s2, .ok (thr, trap))) (hnone : s.chansOf n (s.cell cell).ctx = [])
    (hopen : s.injOpen (halfOfSite (cell.val / 16)) (cell.val / 16 % 6) n = true)
    (hslot : ∀ p ∈ restoreReads (lrtOf image (s.saved.get {} (savedKey n (s.cell cell).ctx cell)).lrt),
      (s2.ppaPeek n (s2.slotAddr n (s.cell cell).ctx cell + p.1) p.2).2.2 = St.ok) :
    Gives (.cellRestoreDone cell) s fun t => let v := s.saved.get {} (savedKey n (s.cell cell).ctx cell); let y := t.cell cell
      y.state = 1 ∧ y.pc = v.pc ∧ y.loops = v.loops ∧ y.ctx = (s.cell cell).ctx ∧ y.gang = (s.cell cell).gang ∧ y.image = image ∧ y.excThr = thr
      ∧ y.excTrap = trap ∧ t.saved.get {} (savedKey n (s.cell cell).ctx cell) = {} ∧ ((s.moverReads (cell.val / 16) n).hint = .noAlloc → t.mem = s.mem) := by
  have hreads : s.Recorded s2 := by
    have hread := (s.readImage_stored n g.task.image).recorded
    have hread' := s1.readWords_recorded n (s.cell cell).ctx
    rw [himage] at hread
    rw [hwords] at hread'
    exact hread.trans hread'
  have honly : s.ReadsOnly s2 := by
    have hread := s.readImage_readsOnly n g.task.image
    have hread' := s1.readWords_readsOnly n (s.cell cell).ctx
    rw [himage] at hread
    rw [hwords] at hread'
    exact hread.trans hread'
  obtain ⟨bytes, hexec⟩ := exec_cellRestoreDone_restores howner hstate hnot hgang himage hwords ((State.injOpen_congr hreads.fab ..).trans hopen) hslot
  obtain ⟨a, ha⟩ : ∃ a, s2.injCharge (halfOfSite (cell.val / 16)) (cell.val / 16 % 6) n bytes = a := ⟨_, rfl⟩
  rw [ha] at hexec
  have hcharged : a.dues = s.dues ∧ a.chans = s.chans ∧ a.pat = s.pat ∧ s.ReadsOnly a := by
    rw [← ha]
    exact ⟨hreads.dues, hreads.chans, hreads.pat, honly.mem, ⟨honly.policy.reg⟩⟩
  obtain ⟨hdues, hchans, hpat, honly'⟩ := hcharged
  have hresumes := a.restoresCell_resumes (image := image) (thr := thr) (trap := trap) n cell (s2.slotAddr n (s.cell cell).ctx cell) (s.cell cell)
    (s.saved.get {} (savedKey n (s.cell cell).ctx cell))
  have htaken := a.restoresCell_takes (image := image) (thr := thr) (trap := trap) n cell (s2.slotAddr n (s.cell cell).ctx cell) (s.cell cell)
    (s.saved.get {} (savedKey n (s.cell cell).ctx cell))
  generalize a.restoresCell n cell (s2.slotAddr n (s.cell cell).ctx cell) (s.cell cell)
    (s.saved.get {} (savedKey n (s.cell cell).ctx cell)) image thr trap = t at hexec hresumes htaken
  rw [State.reloadChans_none ((State.chansOf_congr (htaken.chans.trans hchans) (htaken.pat.trans hpat) ..).trans hnone)] at hexec
  refine ⟨_, hexec.trans (closing_quiet (htaken.dues.trans (hdues.trans hquiet))), hresumes.state, hresumes.pc, hresumes.loops, hresumes.ctx,
    hresumes.gang, hresumes.image, hresumes.excThr, hresumes.excTrap, htaken.saved, fun hhint => ?_⟩
  rw [← honly'.policy.moverReads] at hhint
  exact (htaken.mem (by omega) hhint).trans honly'.mem

/-- Settles O24: a save and a restore whose accesses succeed touch the cell, its slot and what is kept of it; a context that is lost stays so, and a cell
that has ended stays free, through all that follows a loss. -/
theorem savesRestoresAndStretches : Obligations.SavesRestoresAndStretches := by
  unfold Obligations.SavesRestoresAndStretches
  refine ⟨?_, ?_, ?_, ?_⟩
  · intro cell n g j s c hunprotected howner hstate hidle hnot hgang hgoes hin hj hsame hother hopen hok
    exact gives_cellSaveDone hunprotected howner hstate hidle hnot hgang hgoes hin hj hsame hother hopen hok
  · intro cell n g image thr trap s s1 s2 c v hquiet howner hstate hnot hgang himage hwords hnone hopen hslot
    exact gives_cellRestoreDone hquiet howner hstate hnot hgang himage hwords hnone hopen hslot
  · intro cell n s c hcalm howner hruns hgang hnot hc hfirst
    obtain ⟨t, hexec, ⟨hidle, -⟩, hlost⟩ := exec_stretchTimeout_loses hcalm.1 howner hruns hgang hnot hc hfirst
    exact ⟨t, hexec, hlost.state, hlost.status, hidle, hlost.fault⟩
  · intro cell n st s c hcalm howner hmoves hfails hc _
    obtain ⟨t, hexec, ⟨hidle, -⟩, hlost⟩ := exec_saveRestoreFailure_loses hcalm.1 howner hmoves hfails hc
    exact ⟨t, hexec, hlost.state, hlost.status, hidle⟩

end

section
/-!
PROOFS. A window of a regulator starts (08 R202; 10 R247): the value that acts from here on, and a master or a stack that holds nothing.
-/

namespace Sys2Proof.Machine

/-- A window starts under the committed value, unless that is a longer window's, which may have to wait (08 R202). -/
theorem regAdopts_cases (old new : Nat) (free : Bool) :
    (if regAdopts old new free then new else old) = new
      ∨ bits old 34 32 < bits new 34 32 ∧ (if regAdopts old new free then new else old) = old := by
  by_cases hadopts : regAdopts old new free = true
  · exact .inl (if_pos hadopts)
  · have hlonger : bits old 34 32 < bits new 34 32 := by
      simp only [regAdopts, Bool.or_eq_true, decide_eq_true_eq, not_or, Nat.not_le] at hadopts
      exact hadopts.1
    exact .inr ⟨hlonger, if_neg hadopts⟩

/-- A window of a regulator, under key k of its tables with the committed value new: its account alone is refilled, under the value that acts from
here on, and no request of it is held. -/
def WindowRefills (k new : Nat) (acting acting' : Tab Nat) (account account' : Tab Int) (heldWin' : Tab Bool) : Prop :=
  ∃ v, (v = new ∨ bits (acting.get 0 k) 34 32 < bits new 34 32 ∧ v = acting.get 0 k)
    ∧ account'.get 0 k = min (account.get 0 k) 0 + bits v 19 0 * 4096 ∧ acting'.get 0 k = v ∧ heldWin'.get false k = false
    ∧ ∀ j, j ≠ k → account'.get 0 j = account.get 0 j

theorem windowRefills (k new : Nat) (acting : Tab Nat) (account : Tab Int) (heldWin : Tab Bool) (free : Bool) :
    let v := if regAdopts (acting.get 0 k) new free then new else acting.get 0 k
    WindowRefills k new acting (acting.set 0 k v) account (account.upd 0 k (regRefill (bits v 19 0))) (heldWin.set false k false) :=
  ⟨_, regAdopts_cases _ _ free, Tab.get_upd_same .., Tab.get_set_same .., Tab.get_set_same false .., fun _ hj => Tab.get_upd_ne _ _ _ hj⟩

theorem State.stkRefill_refills (s : State) (k n : Nat) : WindowRefills (k * 16 + n) (s.reg (hmcAddr k (0x100 + n * 0x20))) s.hbm.acting
    (s.stkRefill k n).hbm.acting s.hbm.account (s.stkRefill k n).hbm.account (s.stkRefill k n).hbm.heldWin := windowRefills ..

theorem State.injRefill_refills (s : State) (h i n : Nat) : WindowRefills (injKey h i n) (s.reg (injRegAddr h i n)) s.fab.acting
    (s.injRefill h i n).fab.acting s.fab.account (s.injRefill h i n).fab.account (s.injRefill h i n).fab.heldWin := windowRefills ..

/-! A master that holds nothing has nothing to let go. -/

theorem State.releaseStack_unheld {s : State} {k n : Nat} (hnone : ∀ e ∈ s.hbm.held, e.1 ≠ k * 16 + n) : s.releaseStack k n = s := by
  have hmine : s.hbm.held.filter (fun e => e.1 == k * 16 + n) = [] := by
    rw [List.filter_eq_nil_iff]
    intro e he
    simpa using hnone e he
  have hrest : s.hbm.held.filter (fun e => !(e.1 == k * 16 + n)) = s.hbm.held := by
    rw [List.filter_eq_self]
    intro e he
    simpa using hnone e he
  simp only [State.releaseStack, hmine, hrest, List.foldl_nil]

theorem State.releaseMovers_idle {s : State} {i n : Nat} (hidle : (s.cell i).movers = []) : s.releaseMovers i n = s := by
  rw [State.releaseMovers, hidle, List.foldl_nil]

/-- A master other than a DMA channel holds mover accesses, requests of a foreign chiplet, or BAR2 accesses. -/
theorem State.releaseMaster_unheld {s : State} {h i n : Nat} (hdma : i < 8 ∨ 24 ≤ i) (hforeign : s.fab.held = []) (hbar2 : s.pcie.held = [])
    (hidle : ∀ c, i ≤ 5 → c < 16 → (s.cell ((h * 6 + i) * 16 + c)).movers = []) : s.releaseMaster h i n = s := by
  unfold State.releaseMaster
  by_cases hsite : i ≤ 5
  · have hmovers : forAll ((List.range 16).filter (fun c => s.ownerCell ((h * 6 + i) * 16 + c) == some n))
        (fun c s => s.releaseMovers ((h * 6 + i) * 16 + c) n) s = s := by
      refine forAll_unchanged fun c hc => State.releaseMovers_idle (hidle c hsite ?_)
      exact List.mem_range.1 (List.mem_filter.1 hc).1
    simp only [hsite, if_true, hmovers, hforeign, List.length_nil, State.releaseForeign, ite_self]
  · have hnot : (decide (8 ≤ i) && decide (i ≤ 23)) = false := by
      simp only [Bool.and_eq_false_iff, decide_eq_false_iff_not]
      omega
    simp only [hsite, if_false, hnot, Bool.false_eq_true, hbar2, List.length_nil, State.releaseBar2, ite_self]

section Start
variable {h : HalfId} {i : Fin 64} {n : PartId} {s : State}

theorem exec_regulatorWindowStart_stack (hi : i.val < 8) :
    exec (.regulatorWindowStart h i n true) s = closing ((s.stkRefill (h.val * 8 + i.val) n).releaseStack (h.val * 8 + i.val) n) := by
  rw [exec_regulatorWindowStart, execRegulatorWindowStart, if_pos rfl, onlyIf_of (decide_eq_true hi)]

theorem exec_regulatorWindowStart_master (hregulated : regulated h.val i.val = true) :
    exec (.regulatorWindowStart h i n false) s = closing ((s.injRefill h.val i.val n).releaseMaster h.val i.val n) := by
  rw [exec_regulatorWindowStart, execRegulatorWindowStart, if_neg Bool.false_ne_true, onlyIf_of hregulated]

theorem exec_regulatorWindowStart_channel (hlo : 8 ≤ i.val) (hhi : i.val ≤ 23) : exec (.regulatorWindowStart h i n false) s =
    closing (State.pumpEngine (h.val * 16 + i.val - 8) 256 (s.injRefill h.val i.val n.val)) := by
  have hregulated : regulated h.val i.val = true := by simp [regulated, hlo, hhi]
  have hnot : ¬i.val ≤ 5 := by omega
  rw [exec_regulatorWindowStart_master hregulated]
  simp only [State.releaseMaster, hnot, if_false, hlo, hhi, decide_true, Bool.and_self, if_true]

theorem exec_regulatorWindowStart_unregulated (hquiet : s.quiet) (hnone : regulated h.val i.val = false) :
    exec (.regulatorWindowStart h i n false) s = .next s := by
  rw [exec_regulatorWindowStart, execRegulatorWindowStart, if_neg Bool.false_ne_true, hnone, onlyIf_false, closing_quiet hquiet]

end Start

end Sys2Proof.Machine
end

section
/-! PROOFS. The statement about the windows of the regulators (08 R202; 10 R247). -/

open Sys2Proof Sys2Proof.Machine

/-- Settles O27: a window refills the account of one regulator, and where nothing is held nothing follows; a DMA engine asks its channels. -/
theorem windowsRefillRegulators : Obligations.WindowsRefillRegulators := by
  unfold Obligations.WindowsRefillRegulators
  refine ⟨?stack, ?master, ?channel, ?unregulated⟩
  case stack =>
    intro h i n s k new old hquiet hi hheld
    have hkeeps : (s.stkRefill k n).releaseStack k n = s.stkRefill k n := State.releaseStack_unheld hheld
    obtain ⟨v, hv, haccount, hacting, hwin, hothers⟩ := s.stkRefill_refills k n
    refine ⟨s.stkRefill k n, ?_, v, hv, haccount, hacting, hwin, hothers, rfl, rfl, rfl⟩
    rw [exec_regulatorWindowStart_stack hi, hkeeps, closing_quiet (s := s.stkRefill k n) hquiet]
  case master =>
    intro h i n s k new old hquiet hregulated hdma hforeign hbar2 hidle
    have hkeeps : (s.injRefill h i n).releaseMaster h i n = s.injRefill h i n := State.releaseMaster_unheld hdma hforeign hbar2 hidle
    obtain ⟨v, hv, haccount, hacting, hwin, hothers⟩ := s.injRefill_refills h i n
    refine ⟨s.injRefill h i n, ?_, v, hv, haccount, hacting, hwin, hothers, rfl, rfl, rfl⟩
    rw [exec_regulatorWindowStart_master hregulated, hkeeps, closing_quiet (s := s.injRefill h i n) hquiet]
  case channel => exact fun h i n s hlo hhi => exec_regulatorWindowStart_channel hlo hhi
  case unregulated => exact fun h i n s hquiet hnone => exec_regulatorWindowStart_unregulated hquiet hnone

end

section
/-!
PROOFS. Requests that get no answer (08 R212), and the codes of a router's ports in FAB_LINK_STATUS (08 R207, R213).
-/

namespace Sys2Proof.Machine

/-! A request's number says what it is: a burst of a channel, an access of a mover, or a line's transaction (log entry 9). -/

section Number
variable (s : State)

theorem exec_requestTimeout_burst (ch : ChanId) (k : Fin 64) :
    exec (.requestTimeout (ch.val * 64 + k.val)) s = closing (s.burstTimeout ch.val k.val) := by
  have hid : ch.val * 64 + k.val < 65536 := by omega
  have hchan : (ch.val * 64 + k.val) / 64 = ch.val := by omega
  have hplace : (ch.val * 64 + k.val) % 64 = k.val := by omega
  rw [exec_requestTimeout, execRequestTimeout, if_pos hid, hchan, hplace]

theorem exec_requestTimeout_access (cell : CellId) (k : Fin 256) :
    exec (.requestTimeout (65536 + cell.val * 256 + k.val)) s = exec (.moverAccessReturn cell k.val (some St.timeout)) s := by
  have hpast : ¬65536 + cell.val * 256 + k.val < 65536 := by omega
  have hbefore : ¬114688 ≤ 65536 + cell.val * 256 + k.val := by omega
  have hcell : (65536 + cell.val * 256 + k.val - 65536) / 256 = cell.val := by omega
  have hplace : (65536 + cell.val * 256 + k.val - 65536) % 256 = k.val := by omega
  rw [exec_requestTimeout, execRequestTimeout, if_neg hpast, if_neg hbefore, hcell, hplace, onlyIf_of (decide_eq_true cell.isLt),
    exec_moverAccessReturn, execMoverAccessReturn]

theorem exec_requestTimeout_line (h : HalfId) {l : Nat} (hl : l < 2 ^ 38) :
    exec (.requestTimeout (114688 + h.val * 2 ^ 38 + l)) s = closing (s.cohTimeout h.val l) := by
  have hpast : ¬114688 + h.val * 2 ^ 38 + l < 65536 := by omega
  have hin : 114688 ≤ 114688 + h.val * 2 ^ 38 + l := by omega
  have hhalf : (114688 + h.val * 2 ^ 38 + l - 114688) / 2 ^ 38 = h.val := by omega
  have hline : (114688 + h.val * 2 ^ 38 + l - 114688) % 2 ^ 38 = l := by omega
  rw [exec_requestTimeout, execRequestTimeout, if_neg hpast, if_pos hin, hhalf, hline]

end Number

section Burst
variable {s : State} {ch : ChanId} {k : Fin 64} {b : Burst} (hburst : (s.chan ch.val).bursts[k.val]? = some b)
include hburst

/-- The read of a burst that times out ends as one that is answered with an error. -/
theorem exec_requestTimeout_read (hreads : b.state = 0) (hfabric : b.srcHost = false) :
    exec (.requestTimeout (ch.val * 64 + k.val)) s = exec (.burstError ch k.val .read St.timeout) s := by
  rw [exec_requestTimeout_burst, exec_burstError]
  simp [State.burstTimeout, execBurstError, hburst, hreads, hfabric]

/-- The same of its write, where no protected image refuses it. -/
theorem exec_requestTimeout_write (hwrites : b.state = 1) (hfabric : b.dstHost = false)
    (hplain : s.protected (s.chanPart ch.val) b.dst b.len = false) :
    exec (.requestTimeout (ch.val * 64 + k.val)) s = exec (.burstError ch k.val .write St.timeout) s := by
  rw [exec_requestTimeout_burst, exec_burstError]
  simp [State.burstTimeout, execBurstError, hburst, hwrites, hfabric, hplain]

end Burst

theorem State.cohTimeout_idle {s : State} {h l : Nat} (hnone : (s.dirEnt h l).txn = none) : s.cohTimeout h l = s := by
  simp [State.cohTimeout, hnone]

/-- A transaction that is still at work answers TIMEOUT to its requester and goes on, late. -/
theorem State.cohTimeout_open {s : State} {h l : Nat} {t : Txn} (hopen : (s.dirEnt h l).txn = some t) (hfirst : t.late = false)
    (hworks : t.delivered = false) (hwriteBack : t.kind ≠ .writeBack) (hevict : t.kind ≠ .evict)
    (hasked : t.requester ≠ 14 ∨ t.origin.isSome = true) :
    s.cohTimeout h l = (s.emit (.homeData (t.origin.getD t.requester) l St.timeout [] false)).setDir h l
      { s.dirEnt h l with txn := some { t with late := true } } := by
  have hanswers : (t.late || t.kind == .writeBack || t.kind == .evict || (t.requester == 14 && t.origin.isNone)) = false := by
    rcases hasked with hasked | hasked
    · simp [hfirst, hwriteBack, hevict, hasked]
    · simp [hfirst, hwriteBack, hevict, Option.isNone_eq_false_iff.2 hasked]
  simp only [State.cohTimeout, hopen, hanswers, hworks, Bool.false_eq_true, if_false]

theorem State.rasOf_setReg (s : State) (a v h : Nat) : (s.setReg a v).rasOf h = s.rasOf h := rfl

/-! The code of a router port. -/

section Port
variable (s : State) (h r : Nat)

theorem State.portCode_setPort {p : Nat} (code q : Nat) :
    (s.setPort h r p code).portCode h r q = if q = p then code % 16 else s.portCode h r q := by
  rw [State.portCode, State.setPort, State.reg_setReg]
  split
  case isTrue hsame =>
    subst hsame
    have hwidth : 4 * q + 3 + 1 - 4 * q = 4 := by omega
    rw [bits_setBits (by omega), hwidth]
    rfl
  case isFalse hother => exact bits_setBits_ne (by omega) (by omega) ..

theorem State.portCode_congr {s t : State} (hregs : t.regs = s.regs) (q : Nat) : t.portCode h r q = s.portCode h r q := by
  rw [State.portCode, State.portCode, State.reg_congr hregs]

/-- RETRIES stands beside the codes of the ports. -/
theorem State.retries_setPort {p : Nat} (hp : p < 7) (code : Nat) :
    bits ((s.setPort h r p code).reg (linkAddr h r)) 63 48 = bits (s.reg (linkAddr h r)) 63 48 := by
  rw [State.setPort, State.reg_setReg, bits_setBits_ne (by omega) (by omega)]

/-- A retry counted: RETRIES of the router saturates, and the link has had one more corrected error. -/
def State.retried (s : State) (h r : Nat) : State :=
  (s.setReg (linkAddr h r) (setBits (s.reg (linkAddr h r)) 63 48 (satAdd 16 (bits (s.reg (linkAddr h r)) 63 48) 1))).corrected h 3 1

theorem State.reg_retried : (s.retried h r).reg (linkAddr h r)
    = setBits (s.reg (linkAddr h r)) 63 48 (satAdd 16 (bits (s.reg (linkAddr h r)) 63 48) 1) := by
  rw [State.retried, State.corrected, State.reg_congr (State.updRas_regs ..), State.reg_setReg]

@[simp] theorem State.mem_retried : (s.retried h r).mem = s.mem := by
  rw [State.retried, State.corrected, State.updRas_mem, State.setReg_mem]

theorem State.retries_retried : bits ((s.retried h r).reg (linkAddr h r)) 63 48 = min (bits (s.reg (linkAddr h r)) 63 48 + 1) 65535 := by
  rw [State.reg_retried, bits_setBits (by omega), satAdd]
  exact Nat.mod_eq_of_lt (Nat.lt_of_le_of_lt (Nat.min_le_right ..) (by decide))

theorem State.portCode_retried {q : Nat} (hq : q < 7) : (s.retried h r).portCode h r q = s.portCode h r q := by
  rw [State.portCode, State.reg_retried, bits_setBits_ne (by omega) (by omega), State.portCode]

theorem State.corrected_retried :
    ((s.retried h r).rasOf h).corrected.get 0 3 = min ((s.rasOf h).corrected.get 0 3 + 1) (2 ^ 64 - 1) := by
  rw [State.retried, State.corrected, State.rasOf_updRas, Tab.get_upd_same, State.rasOf_setReg, satAdd]

end Port

theorem State.Noted.mem {s t : State} : s.Noted t → t.mem = s.mem := by
  rintro ⟨_, _, _, _, rfl⟩
  rfl

theorem State.corrected_queueAssay (s : State) (h : Nat) (e : Assay) : ((s.queueAssay h e).rasOf h).corrected = (s.rasOf h).corrected := by
  unfold State.queueAssay
  dsimp only
  split
  · rfl
  · split <;> rw [State.rasOf_updRas]

section Link
variable {h : HalfId} {router : Fin 64} {port : Fin 7} {s : State}

theorem exec_linkRetry_counts : exec (.linkRetry h router port false) s = .next (s.retried h.val router.val) := by
  simp only [exec_linkRetry, execLinkRetry, done, Bool.false_eq_true, if_false, State.retried]

theorem exec_linkRetry_repairs : ∃ e, exec (.linkRetry h router port true) s
    = .next (((s.retried h.val router.val).setPort h.val router.val port.val 2).queueAssay h.val e) := by
  simp only [exec_linkRetry, execLinkRetry, done, if_true, State.retried]
  exact ⟨_, rfl⟩

theorem exec_linkRetry_reports (repair : Bool) : Gives (.linkRetry h router port repair) s fun t =>
    bits (t.reg (linkAddr h.val router.val)) 63 48 = min (bits (s.reg (linkAddr h.val router.val)) 63 48 + 1) 65535
      ∧ (∀ q : Fin 7, t.portCode h.val router.val q.val = if repair = true ∧ q = port then 2 else s.portCode h.val router.val q.val)
      ∧ (t.rasOf h.val).corrected.get 0 3 = min ((s.rasOf h.val).corrected.get 0 3 + 1) (2 ^ 64 - 1) ∧ t.mem = s.mem := by
  cases repair with
  | false =>
    refine ⟨_, exec_linkRetry_counts, s.retries_retried .., fun q => ?_, s.corrected_retried .., s.mem_retried ..⟩
    rw [State.portCode_retried _ _ _ q.isLt, if_neg (by simp)]
  | true =>
    obtain ⟨e, hexec⟩ := exec_linkRetry_repairs (h := h) (router := router) (port := port) (s := s)
    have hnoted := State.queueAssay_noted ((s.retried h.val router.val).setPort h.val router.val port.val 2) h.val e
    refine ⟨_, hexec, ?_, fun q => ?_, ?_, ?_⟩
    · rw [State.reg_congr hnoted.regs, State.retries_setPort _ _ _ port.isLt, State.retries_retried]
    · rw [State.portCode_congr _ _ hnoted.regs, State.portCode_setPort, State.portCode_retried _ _ _ q.isLt]
      simp [Fin.ext_iff]
    · rw [State.corrected_queueAssay, State.setPort, State.rasOf_setReg, State.corrected_retried]
    · rw [hnoted.mem, State.setPort, State.setReg_mem, State.mem_retried]

end Link

end Sys2Proof.Machine
end

section
/-!
PROOFS. What a failed half and a dead site leave (01 R14; 08 R196, R213; 13 R350). A half's failure is a module reset. The death of a site that
serves nobody ends no other work.
-/

namespace Sys2Proof.Machine

/-! The failure of a half. -/

theorem State.ringDrain_fab (h fuel : Nat) (s : State) : (State.ringDrain h fuel s).fab = s.fab := by
  induction fuel generalizing s with
  | zero => rfl
  | succ fuel ih =>
    unfold State.ringDrain
    split
    · rfl
    · split
      · exact ih _
      · rfl

theorem State.ringSend_fab (s : State) (h cls dest : Nat) (payload : List Byte) : (s.ringSend h cls dest payload).fab = s.fab :=
  State.ringDrain_fab ..

theorem forAll_fab {f : Nat → State → State} (hf : ∀ k s, (f k s).fab = s.fab) (l : List Nat) (s : State) : (forAll l f s).fab = s.fab :=
  forAll_rel (R := fun a b => b.fab = a.fab) (fun _ => rfl) (fun hab hbc => hbc.trans hab) f hf l s

theorem State.downTokens_fab (s : State) : s.downTokens.fab = s.fab :=
  forAll_fab (fun _ _ => (State.ringSend_fab ..).trans (State.ringSend_fab ..)) _ s

theorem State.log_fab (s : State) (event scope : Nat) (st : StatusCode) (role : Nat) (detail : List Byte) :
    (s.log event scope st role detail).fab = s.fab := by
  obtain ⟨_, _, _, _, hshape⟩ := s.log_shape event scope st role detail
  rw [hshape]

theorem State.abortJob_fab (s : State) : s.abortJob.fab = s.fab := by
  unfold State.abortJob
  split <;> rfl

theorem State.driveAdit_fab (s : State) (dir : Nat) : (s.driveAdit dir).fab = s.fab := by
  unfold State.driveAdit
  split <;> rfl

/-- A module reset keeps which halves have failed, and leaves the module at the pithead stage with nothing to judge (16 R434). -/
theorem State.wipe_leaves (s : State) (cause : Nat) (status : StatusCode) :
    (s.wipe cause status).dues = [] ∧ (s.wipe cause status).fab.halfFailed = s.fab.halfFailed ∧ (s.wipe cause status).pwr.stage = 0 := by
  have hcore : ∀ t : State, (t.wipeCore cause status).fab.halfFailed = t.fab.halfFailed := by
    intro t
    have hfab := (State.driveAdit_fab t.abortJob.zeroKeys 0).trans t.abortJob_fab
    have hfailed := congrArg Fab.halfFailed hfab
    exact hfailed
  refine ⟨rfl, (hcore _).trans (congrArg Fab.halfFailed ?_), rfl⟩
  exact (forAll_fab (fun _ _ => State.log_fab ..) _ _).trans s.downTokens_fab

theorem State.halfFail_leaves (s : State) (h : Nat) : (s.halfFail h).dues = [] ∧ (s.halfFail h).fab.halfFailed.get false h = true
    ∧ (s.halfFail h).pwr.stage = 0 ∧ (s.halfFail h).sec.alarmLow = true := by
  obtain ⟨hdues, hfailed, hstage⟩ :=
    State.wipe_leaves ({ s with fab := { s.fab with halfFailed := s.fab.halfFailed.set false h true } } : State) 4 St.aborted
  unfold State.halfFail
  dsimp only
  generalize State.wipe _ 4 St.aborted = w at hdues hfailed hstage ⊢
  obtain ⟨_, _, _, _, hras⟩ :=
    State.rasRecord_noted ({ w with sec := { w.sec with alarmLow := true } } : State) h 5 13 255 St.aborted h 0 0 1 0
  rw [hras]
  obtain ⟨_, _, _, _, hlog⟩ := State.log_shape _ 4 255 St.aborted 0 []
  rw [hlog]
  exact ⟨hdues, by rw [hfailed]; exact Tab.get_set_same false _ h true, hstage, rfl⟩

/-! The lines of a dead agent are reclaimed as stores are made (09 R233). -/

theorem State.reclaimLine_stored (s : State) (h a l : Nat) : s.Stored (s.reclaimLine h a l) := by
  have hdrop := (State.setCopy_stored s h a l {}).trans (State.setWb_stored _ h a l none)
  unfold State.reclaimLine
  dsimp only
  split
  · exact ((hdrop.trans (State.putLine_stored ..)).trans (.ite (State.setDir_stored ..) (.refl _))).trans (State.coh_stored ..)
  · exact ((hdrop.trans (State.putLine_stored ..)).trans (.ite (State.setDir_stored ..) (.refl _))).trans (State.coh_stored ..)
  · exact hdrop

theorem State.reclaimEntry_stored (s : State) (h a l : Nat) : s.Stored (s.reclaimEntry h a l) := by
  unfold State.reclaimEntry
  dsimp only
  split
  · exact State.setDir_stored ..
  · exact .ite ((State.setDir_stored ..).trans (State.closeTxn_stored ..)) ((State.setDir_stored ..).trans (State.advanceTxn_stored ..))

theorem State.reclaim_stored (s : State) (h a : Nat) : s.Stored (s.reclaim h a) := by
  have hlines := forAll_rel State.Stored.refl State.Stored.trans _ (fun l s => State.reclaimLine_stored s h a l) (s.linesOfAgent h a) s
  have hentries := fun l t => forAll_rel State.Stored.refl State.Stored.trans _ (fun l s => State.reclaimEntry_stored s h a l) l t
  unfold State.reclaim
  dsimp only
  generalize forAll (s.linesOfAgent h a) (fun l s => s.reclaimLine h a l) s = t at hlines ⊢
  have hreclaimed := hlines.trans (hentries ((t.coh.dir.filter (fun e => e.1 / 2 ^ 38 == h)).map (·.1 % 2 ^ 38)) t)
  generalize forAll _ (fun l s => s.reclaimEntry h a l) t = u at hreclaimed ⊢
  refine State.Stored.trans ?_ (foldl_rel State.Stored.refl State.Stored.trans _ (fun _ _ => .ite (State.sendGrants_stored ..) (.refl _)) _ _)
  exact hreclaimed.trans (State.coh_stored ..)

/-! The death of a site that serves nobody. -/

/-- Between s and t something that nobody uses has ended: nothing more is to be judged, sites, partitions and messages on their way stand, and no
cell begins to wait. -/
structure State.Spares (s t : State) : Prop where
  dues : t.dues = s.dues
  sites : t.sites = s.sites
  pat : t.pat = s.pat
  flights : t.flights = s.flights
  still : s.noCellWaits → t.noCellWaits

theorem State.Spares.refl (s : State) : s.Spares s := ⟨rfl, rfl, rfl, rfl, id⟩
theorem State.Spares.trans {s t u : State} (h : s.Spares t) (h' : t.Spares u) : s.Spares u :=
  ⟨h'.dues.trans h.dues, h'.sites.trans h.sites, h'.pat.trans h.pat, h'.flights.trans h.flights, fun hs => h'.still (h.still hs)⟩

theorem State.Spares.of_cells {s t : State} (hdues : t.dues = s.dues) (hsites : t.sites = s.sites) (hpat : t.pat = s.pat)
    (hflights : t.flights = s.flights) (hcells : t.cells = s.cells) : s.Spares t :=
  ⟨hdues, hsites, hpat, hflights, fun hs => by rw [State.noCellWaits, hcells]; exact hs⟩

theorem State.Stored.spares {s t : State} : s.Stored t → s.Spares t := by
  rintro ⟨-, _, _, _, _, _, _, _, _, _, _, rfl⟩
  exact .of_cells rfl rfl rfl rfl rfl

theorem State.Noted.spares {s t : State} : s.Noted t → s.Spares t := by
  rintro ⟨_, _, _, _, rfl⟩
  exact .of_cells rfl rfl rfl rfl rfl

theorem State.Told.spares {s t : State} : s.Told t → s.Spares t := by
  rintro ⟨_, _, _, _, rfl⟩
  exact .of_cells rfl rfl rfl rfl rfl

theorem State.endCoreWaits_spares (s : State) (n : Nat) (p : Core → Bool) (st : StatusCode) : s.Spares (s.endCoreWaits n p st) :=
  .of_cells rfl rfl rfl rfl rfl

/-- With nothing on its way, what is dropped toward a place is tallies and the waits of cores. -/
theorem State.dropToward_spares {s : State} (p : Nat → Bool) (hnone : s.flights = []) : s.Spares (s.dropToward p) := by
  unfold State.dropToward
  simp only [hnone, List.filter_nil, List.foldl_nil]
  refine State.Spares.trans ?_ (forAll_rel State.Spares.refl State.Spares.trans _ (fun _ _ => State.endCoreWaits_spares ..) _ _)
  exact .of_cells rfl rfl rfl hnone.symm rfl

/-- The chiplet of a site as a caching agent dies. -/
theorem State.killAgent_spares (s : State) (h : Nat) {a : Nat} (ha : 8 ≤ a) : s.Spares (s.killAgent h a) := by
  have hsite : ¬a < 8 := by omega
  unfold State.killAgent
  simp only [hsite, if_false]
  refine State.Spares.trans (State.Spares.trans ?_ (State.reclaim_stored ..).spares) (State.rasRecord_noted ..).spares
  exact .of_cells rfl rfl rfl rfl rfl

theorem State.stopCell_unowned {s : State} {i : Nat} (hnone : s.ownerCell i = none) :
    ∃ e, s.stopCell i = ({ s with egress := e } : State).updCell i Cell.stopped := by
  have howner : (s.dropUnmet i).ownerCell i = none := hnone
  refine ⟨(s.dropUnmet i).egress, ?_⟩
  unfold State.stopCell
  simp only [howner]
  cases ((s.dropUnmet i).cell i).gang <;> rfl

theorem State.stopCell_spares {s : State} {i : Nat} (hnone : s.ownerCell i = none) : s.Spares (s.stopCell i) := by
  obtain ⟨_, hstop⟩ := State.stopCell_unowned hnone
  rw [hstop]
  refine ⟨rfl, rfl, rfl, rfl, fun hstill e he => ?_⟩
  rcases Tab.mem_upd he with rfl | ⟨hlisted, -⟩
  · rfl
  · exact hstill e hlisted

theorem State.stopCells_spares {s : State} (l : List Nat) (hnone : ∀ i ∈ l, s.ownerCell i = none) :
    s.Spares (forAll l (fun i s => if (s.cell i).state = 0 then s else s.stopCell i) s) := by
  induction l generalizing s with
  | nil => exact .refl s
  | cons i l ih =>
    have hfirst : s.Spares (if (s.cell i).state = 0 then s else s.stopCell i) := by
      split
      · exact .refl s
      · exact State.stopCell_spares (hnone i List.mem_cons_self)
    exact hfirst.trans (ih fun j hj => (State.ownerCell_congr hfirst.pat j).trans (hnone j (List.mem_cons_of_mem _ hj)))

/-- A site that no partition claims has no cell that one owns. -/
theorem State.ownerCell_unclaimed {s : State} {k p : Nat} (hp : p < 16)
    (hfree : ∀ n ∈ allParts, s.claims n (fun x => bits x.cells (k * 16 + 15) (k * 16) != 0) = false) : s.ownerCell (k * 16 + p) = none := by
  rw [State.ownerCell, State.ownerBy, List.find?_eq_none]
  intro n hn
  have hzero : bits (s.slice n).cells (k * 16 + 15) (k * 16) = 0 := by
    have hclaim := hfree n hn
    rw [State.claims, Bool.or_eq_false_iff] at hclaim
    simpa using hclaim.1
  have hbit := testBit_bits (s.slice n).cells (k * 16 + 15) (k * 16) p
  rw [hzero, Nat.zero_testBit, decide_eq_true (by omega), Bool.true_and] at hbit
  rw [← hbit]
  exact Bool.false_ne_true

/-- Site t as its death with a cause leaves it (13 R350). -/
def Site.dead (t : Site) (cause : Nat) : Site :=
  { t with state := 2, cause := cause, power := if t.power = 2 then 1 else t.power
           cmdStatus := if t.cmdStatus = St.pending then St.ok else t.cmdStatus
           mods := Tab.mapVals {} (fun _ (m : UMod) => ({ disagree := m.disagree, seq := m.seq } : UMod)) t.mods
           step := 0, failures := if t.state = 4 || t.state = 6 then t.failures + 1 else t.failures }

/-- A site that serves no partition dies, and nothing else ends. -/
theorem State.siteDead_spares {s : State} {k : Nat} (cause : Nat) (halive : (s.site k).state ≠ 2) (hnone : s.flights = [])
    (hfree : ∀ n ∈ allParts, s.claims n (fun x => bits x.cells (k * 16 + 15) (k * 16) != 0) = false) :
    (s.updSite k (fun t => t.dead cause)).Spares (s.siteDead k cause) := by
  have howners : allParts.filter (fun n => s.claims n (fun x => bits x.cells (k * 16 + 15) (k * 16) != 0)) = [] := by
    rw [List.filter_eq_nil_iff]
    intro n hn
    rw [hfree n hn]
    exact Bool.false_ne_true
  have hisolated : (s.updSite k (fun t => t.dead cause)).Spares ((s.updSite k (fun t => t.dead cause)).setIso (halfOfSite k) (k % 6) true) :=
    .of_cells rfl rfl rfl rfl rfl
  have hdropped := hisolated.trans (State.dropToward_spares (onSite k) hnone)
  have hagent : ∀ b : Bool, ∀ t : State, t.Spares (if b = true then t.killAgent (halfOfSite k) (8 + k % 6) else t) := by
    intro b t
    split
    · exact t.killAgent_spares _ (by omega)
    · exact .refl t
  have hrecorded := (hdropped.trans (hagent ((s.site k).kind == 2) _)).trans
    (State.rasWrite_noted _ (halfOfSite k) 3 6 255 St.siteDead k 0 6 1 cause).spares
  have hstops := State.stopCells_spares ((List.range 16).map (fun p => k * 16 + p)) (fun i hi => by
    obtain ⟨p, hp, rfl⟩ := List.mem_map.1 hi
    exact (State.ownerCell_congr hrecorded.pat _).trans (State.ownerCell_unclaimed (List.mem_range.1 hp) hfree))
  unfold State.siteDead
  simp only [halive, if_false, howners, List.isEmpty_nil, if_true, forAll_nil, ite_self]
  exact (hrecorded.trans hstops).trans (State.Told.spares (State.rewriteTable_told _))

/-- So it leaves nothing to judge, and no cell waits. -/
theorem State.spareSite.dies {s : State} {k : Nat} (hspare : s.spareSite k) (cause : Nat) (halive : (s.site k).state ≠ 2) :
    (s.siteDead k cause).quiet ∧ (s.siteDead k cause).noCellWaits ∧ (s.siteDead k cause).site k = (s.site k).dead cause := by
  obtain ⟨hquiet, hwaits, hnone, hfree⟩ := hspare
  have hspares := State.siteDead_spares cause halive hnone hfree
  exact ⟨hspares.dues.trans hquiet, hspares.still hwaits, (State.site_congr hspares.sites k).trans (s.site_updSite ..)⟩

end Sys2Proof.Machine
end

section
/-! PROOFS. The statement about what the fabric reports (08 R196, R212, R213; 13 R350; 17 R441). -/

open Sys2Proof Sys2Proof.Machine

section Lane
variable {h : HalfId} {router : Fin 64} {port : Fin 7} {s : State}

/-- A lane repair that ends with the link up clears the port's code, and records a corrected error. -/
theorem gives_laneRepairDone_up (hquiet : s.quiet) (hrepairs : s.portCode h.val router.val port.val = 2) :
    Gives (.laneRepairDone h router port true) s fun t =>
      (∀ q : Fin 7, t.portCode h.val router.val q.val = if q = port then 0 else s.portCode h.val router.val q.val) ∧ t.mem = s.mem := by
  rw [Gives, exec_laneRepairDone, execLaneRepairDone, onlyIf_of (beq_iff_eq.2 hrepairs)]
  unfold State.laneRepaired
  dsimp only
  rw [if_pos rfl]
  generalize hras : s.updRas h.val _ = a
  have hregs : a.regs = s.regs := by rw [← hras, State.updRas_regs]
  obtain ⟨hdues, hmem⟩ : a.dues = s.dues ∧ a.mem = s.mem := by
    rw [← hras]
    exact ⟨rfl, rfl⟩
  have hnoted := State.rasRecord_noted (a.setPort h.val router.val port.val 0) h.val 1 3 255 St.ok (linkIndex router.val port.val) 0 4 1 0
  have hcode : ∀ q : Fin 7, ((a.setPort h.val router.val port.val 0).rasRecord h.val 1 3 255 St.ok (linkIndex router.val port.val) 0 4 1 0).portCode
      h.val router.val q.val = if q = port then 0 else s.portCode h.val router.val q.val := by
    intro q
    rw [State.portCode_congr _ _ hnoted.regs, State.portCode_setPort, State.portCode_congr _ _ hregs]
    simp only [Fin.ext_iff, Nat.zero_mod]
  obtain ⟨_, _, _, _, hshape⟩ := hnoted
  refine ⟨_, closing_quiet ?_, hcode, ?_⟩
  · rw [hshape]
    exact hdues.trans hquiet
  · rw [hshape]
    exact hmem

/-- One that ends with the link down is the failure of its half (01 R14). -/
theorem gives_laneRepairDone_down (hrepairs : s.portCode h.val router.val port.val = 2) :
    Gives (.laneRepairDone h router port false) s fun t => t.fab.halfFailed.get false h.val = true ∧ t.pwr.stage = 0 ∧ t.sec.alarmLow = true := by
  rw [Gives, exec_laneRepairDone, execLaneRepairDone, onlyIf_of (beq_iff_eq.2 hrepairs)]
  unfold State.laneRepaired
  dsimp only
  rw [if_neg Bool.false_ne_true]
  obtain ⟨hdues, hleaves⟩ := State.halfFail_leaves ((s.updRas h.val _).setPort h.val router.val port.val 3) h.val
  exact ⟨_, closing_quiet hdues, hleaves⟩

theorem exec_laneRepairDone_unasked (ok : Bool) (hquiet : s.quiet) (hnot : s.portCode h.val router.val port.val ≠ 2) :
    exec (.laneRepairDone h router port ok) s = .next s := by
  rw [exec_laneRepairDone, execLaneRepairDone, beq_eq_false_iff_ne.2 hnot, onlyIf_false, closing_quiet hquiet]

end Lane

/-- A foreign chiplet that does not take its data has a dead site (08 R196; 13 R350). -/
theorem gives_sinkTimeout {site : SiteId} {s : State} (hspare : s.spareSite site.val) (hforeign : (s.site site.val).kind = 2)
    (hhears : s.siteHears site.val = true) (hstate : (s.site site.val).state = 1 ∨ (s.site site.val).state = 5) :
    Gives (.sinkTimeout site) s fun t => (t.site site.val).state = 2 ∧ (t.site site.val).cause = 6 := by
  have halive : (s.site site.val).state ≠ 2 := by omega
  obtain ⟨hquiet, hwaits, hdead⟩ := hspare.dies 6 halive
  have hcounts : ((s.site site.val).kind == 2 && ((s.site site.val).state == 1 || (s.site site.val).state == 5) && s.siteHears site.val) = true := by
    rcases hstate with hstate | hstate <;> simp [hforeign, hhears, hstate]
  have hshows : ((s.siteDead site.val 6).site site.val).state = 2 ∧ ((s.siteDead site.val 6).site site.val).cause = 6 := by
    rw [hdead]
    exact ⟨rfl, rfl⟩
  refine ⟨_, ?_, hshows⟩
  rw [exec_sinkTimeout, execSinkTimeout, onlyIf_of hcounts, closing_wakeCells hquiet hwaits]

/-- Settles O28, a report at a time: a timer's end is an error answer, and a failed link or a dead chiplet leaves nothing more to judge. -/
theorem fabricErrorsAreReported : Obligations.FabricErrorsAreReported := by
  unfold Obligations.FabricErrorsAreReported
  refine ⟨?unexpected, ?burst, ?access, ?line, ?retry, ?repaired, ?unasked, ?sink⟩
  case unexpected => exact fun h s => exec_unexpectedResponse h s
  case burst => exact fun ch k b s hburst => ⟨exec_requestTimeout_read hburst, exec_requestTimeout_write hburst⟩
  case access => exact fun cell k s => exec_requestTimeout_access s cell k
  case line =>
    intro h l s hquiet hl
    refine ⟨fun hnone => ?_, fun t hopen hfirst hworks hwriteBack hevict hasked => ?_⟩
    · rw [exec_requestTimeout_line s h hl, State.cohTimeout_idle hnone, closing_quiet hquiet]
    · rw [exec_requestTimeout_line s h hl, State.cohTimeout_open hopen hfirst hworks hwriteBack hevict hasked]
      exact closing_quiet hquiet
  case retry => exact fun h router port repair s => exec_linkRetry_reports repair
  case repaired => exact fun h router port s hquiet hrepairs => ⟨gives_laneRepairDone_up hquiet hrepairs, gives_laneRepairDone_down hrepairs⟩
  case unasked => exact fun h router port ok s hquiet hnot => exec_laneRepairDone_unasked ok hquiet hnot
  case sink =>
    intro site s hquiet hwaits hnone hforeign hhears hstate hfree
    exact gives_sinkTimeout ⟨hquiet, hwaits, hnone, hfree⟩ hforeign hhears hstate

end

section
/-!
PROOFS. A write into half 0's SLC can lose its line where the table of lines is not canonical (log entry 5; 09 R218, R228): the room that there was is
that of a later entry of the same line, which goes as the write begins.
-/

namespace Sys2Proof.Machine

/-- A line of half 1 that lies in the slice and SLC set of line 0 (09 R217). -/
def farTwin : Nat := 0x120000000

/-- Line 0 listed twice in half 0's SLC: its table reads that it is not there, and a later entry of the key holds it in a way that P0 no longer owns.
The one way of P0 holds a line of half 1 that an open transaction pins. Agent 0 has been granted a write-back of line 0. -/
def State.twiceCached : State :=
  { pat := { parts := [(0, { slice := { pchs := 1, ways := 1 } })] }
    hbm := { stackTab := [(0, { state := 2 })] }
    coh := { slc := [(0, none), (0, some { way := 1, part := 0, data := [], dirty := false, dross := false, stamp := 0 }),
                     (farTwin, some { way := 0, part := 0, data := [], dirty := false, dross := false, stamp := 0 })]
             dir := [(farTwin, { txn := some { kind := .rds, requester := 0, shared := 2 } })]
             wbs := [(0, some { st := .m, data := [], phase := 1 })] } }

theorem State.twiceCached_roomAt : State.twiceCached.roomAt 0 0 0 = true := by decide

theorem State.twiceCached_takesIn : State.twiceCached.takesIn 0 15 0 := by decide

theorem State.twiceCached_writeBackGrant {t : State} (hexec : exec (.writeBackGrant 0 0 0) State.twiceCached = .next t) : t.slcLine 0 0 = none := by
  cases hexec
  decide

theorem State.twiceCached_homeFullWrite {t : State} (hexec : exec (.homeFullWrite 0 0 0 [] false .alloc false) State.twiceCached = .next t) :
    t.slcLine 0 0 = none := by
  cases hexec
  decide

end Sys2Proof.Machine
end

section
open Sys2Proof Sys2Proof.Machine

/-- Refutes O32: the second clause says of every state with room for a line that a granted write-back puts it into the SLC, also of one whose table
lists the line twice (log 5). There the room is the later entry of the line, which the fill drops before it looks for a way, and none is left. -/
theorem not_writeBacksReturnLines : ¬ Obligations.WriteBacksReturnLines := by
  unfold Obligations.WriteBacksReturnLines
  rintro ⟨-, hgrants, -⟩
  obtain ⟨t, hexec, -, -, c, hfilled, -⟩ :=
    hgrants 0 0 0 { st := .m, data := [], phase := 1 } State.twiceCached (by decide) rfl (by decide) (by decide) State.twiceCached_roomAt (by decide)
  exact absurd ((State.twiceCached_writeBackGrant hexec).symm.trans hfilled) (Option.some_ne_none c).symm

/-- Refutes O33: the clause about a full write with ALLOC says the same of every state with room for its line, also of one whose table lists the line
twice (log 5), where the SLC does not hold the line after the write. -/
theorem not_homeAccessesReadAndWrite : ¬ Obligations.HomeAccessesReadAndWrite := by
  unfold Obligations.HomeAccessesReadAndWrite
  intro haccesses
  obtain ⟨-, -, hwrites, -⟩ := haccesses 0 0 0 0 State.twiceCached (by decide) State.twiceCached_takesIn
  obtain ⟨-, hfills⟩ := hwrites (by decide) (by decide) (by decide) [] false
  obtain ⟨t, hexec, c, hfilled, -⟩ := hfills State.twiceCached_roomAt
  exact absurd ((State.twiceCached_homeFullWrite hexec).symm.trans hfilled) (Option.some_ne_none c).symm

end

section
/-!
PROOFS. A directory entry, a copy or a buffer entry reads as it was written, and what a snoop that reaches an agent leaves of them (09 R224, R228).
-/

namespace Sys2Proof.Machine

section Entries
variable (s : State) (h a l : Nat)

/-- An entry that holds a line or a transaction is listed. -/
theorem State.dirEnt_setDir {e : DirEnt} (hlisted : e.st ≠ .i ∨ e.txn.isSome = true) : (s.setDir h l e).dirEnt h l = e := by
  have hfilled : (e.st == .i && e.txn.isNone) = false := by
    rcases hlisted with hst | htxn
    · rw [beq_eq_false_iff_ne.2 hst, Bool.false_and]
    · rw [Option.isNone_eq_false_iff.2 htxn, Bool.and_false]
  exact (Tab.get_set_same ..).trans (if_neg (Bool.eq_false_iff.1 hfilled))

@[simp] theorem State.setDir_mem (e : DirEnt) : (s.setDir h l e).mem = s.mem := rfl
@[simp] theorem State.setDir_copies (e : DirEnt) : (s.setDir h l e).coh.copies = s.coh.copies := rfl
@[simp] theorem State.copyOf_setDir (k m : Nat) (e : DirEnt) : (s.setDir k m e).copyOf h a l = s.copyOf h a l := rfl
@[simp] theorem State.wbOf_setDir (k m : Nat) (e : DirEnt) : (s.setDir k m e).wbOf h a l = s.wbOf h a l := rfl

theorem State.copyOf_setCopy (c : Copy) : (s.setCopy h a l c).copyOf h a l = if c.st == .i then {} else c := Tab.get_set_same ..
theorem State.wbOf_setWb (w : Option WbEnt) : (s.setWb h a l w).wbOf h a l = w := Tab.get_set_same ..

end Entries

/-! Snoops. -/

/-- The agents that the snoop of a kind has still to reach. -/
def snoopMask (k : Snoop) (t : Txn) : Nat :=
  match k with
  | .shared => t.shared
  | .unique => t.unique
  | .inv => t.inv
  | .cur => t.cur

/-- What an answer with data adds to its transaction. -/
def Txn.hears (t : Txn) (r : Option Copy × Bool) : Txn :=
  match r.1 with
  | some c => { t with data := some c.data, dross := c.dross, dirty := t.dirty || moesiDirty c.st, ownerKept := r.2 }
  | none => t

theorem snoopMask_hears (k : Snoop) (t : Txn) (r : Option Copy × Bool) : snoopMask k (t.hears r) = snoopMask k t := by
  obtain ⟨_ | c, kept⟩ := r <;> rfl

theorem snoopMask_snoopSent (k : Snoop) (t : Txn) (a : Nat) : snoopMask k (snoopSent k t a) = clearBit (snoopMask k t) a := by cases k <;> rfl

theorem Txn.due_hears (t : Txn) (r : Option Copy × Bool) : (t.hears r).due = t.due := by
  obtain ⟨_ | c, kept⟩ := r <;> rfl

theorem due_snoopSent (k : Snoop) (t : Txn) (a : Nat) : (snoopSent k t a).due = setBit t.due a := by cases k <;> rfl

theorem data_snoopSent (k : Snoop) (t : Txn) (a : Nat) : (snoopSent k t a).data = t.data := by cases k <;> rfl

/-- What holds a line gives its data to every snoop that asks for data, unless it only shares the line. -/
theorem snoopState_forwards {k : Snoop} {st : Moesi} (hst : st ≠ .i) : (snoopState k st).2.1 = decide (k ≠ .inv ∧ st ≠ .s) := by
  cases st with
  | i => exact absurd rfl hst
  | m | o | e | s => cases k <;> rfl

section Snoops
variable {s : State} {h a l : Nat} {k : Snoop} {x : Txn}

/-- A snoop that is out to an agent of the half reaches it, and its answer is on its way. -/
theorem State.snoop_agent (htxn : (s.dirEnt h l).txn = some x) (ha : a < 14) (hout : snoopOut k x a = true) :
    s.snoop k h a l = (s.snoopAgent k h a l).1.setDir h l { (s.snoopAgent k h a l).1.dirEnt h l with
      txn := some ((snoopSent k x a).hears (s.snoopAgent k h a l).2) } := by
  have hagent : a ≠ 14 := by omega
  simp only [State.snoop, htxn, hout, Bool.true_and, bne_iff_ne.2 hagent, Bool.true_or, if_true, hagent, if_false]
  rcases s.snoopAgent k h a l with ⟨t, _ | c, kept⟩
  · rfl
  · rfl

/-- An agent whose buffer does not hold the line answers from its cache. -/
theorem State.snoopAgent_cached (hwb : s.wbOf h a l = none) : s.snoopAgent k h a l =
    (s.setCopy h a l { s.copyOf h a l with st := (snoopState k (s.copyOf h a l).st).1 },
      if (snoopState k (s.copyOf h a l).st).2.1 then some (s.copyOf h a l) else none, (snoopState k (s.copyOf h a l).st).2.2) := by
  simp only [State.snoopAgent, hwb]

/-- What a live buffer entry gives up, dead from then on (09 R228). -/
theorem State.snoopAgent_buffered {w : WbEnt} (hwb : s.wbOf h a l = some w) (hlive : w.dead = false) : s.snoopAgent .unique h a l =
    (s.setWb h a l (some { w with dead := true }),
      if moesiOwns w.st then some { st := w.st, data := w.data, dross := w.dross } else none, false) := by
  simp only [State.snoopAgent, hwb, hlive, Bool.false_eq_true, if_false, snoopState, beq_self_eq_true, Bool.true_or, if_true]
  rfl

/-- A snoop that finds a copy changes its state, and its answer carries the data that it asks for. -/
theorem State.snoop_copy (htxn : (s.dirEnt h l).txn = some x) (ha : a < 14) (hwb : s.wbOf h a l = none) (hheld : (s.copyOf h a l).st ≠ .i)
    (hout : snoopOut k x a = true) : ∃ y, ((s.snoop k h a l).dirEnt h l).txn = some y
      ∧ (s.snoop k h a l).copyOf h a l = (if (snoopState k (s.copyOf h a l).st).1 == .i then {} else
          { s.copyOf h a l with st := (snoopState k (s.copyOf h a l).st).1 })
      ∧ snoopMask k y = clearBit (snoopMask k x) a ∧ y.due = setBit x.due a
      ∧ y.data = (if k ≠ .inv ∧ (s.copyOf h a l).st ≠ .s then some (s.copyOf h a l).data else x.data) ∧ (s.snoop k h a l).mem = s.mem := by
  rw [State.snoop_agent htxn ha hout, State.snoopAgent_cached hwb]
  refine ⟨_, State.txn_setDir .., State.copyOf_setCopy .., ?_, ?_, ?_, rfl⟩
  · rw [snoopMask_hears, snoopMask_snoopSent]
  · rw [Txn.due_hears, due_snoopSent]
  · simp only [snoopState_forwards hheld, decide_eq_true_eq, Txn.hears]
    by_cases hgives : k ≠ .inv ∧ (s.copyOf h a l).st ≠ .s
    · simp only [if_pos hgives]
    · simp only [if_neg hgives, data_snoopSent]

end Snoops

end Sys2Proof.Machine
end

section
/-! PROOFS. The statement about what each snoop does at its agent (09 R224, R228). -/

open Sys2Proof Sys2Proof.Machine

section Cached
variable {h : HalfId} {a : Fin 15} {l : Nat} {x : Txn} {s : State} (htxn : (s.dirEnt h.val l).txn = some x) (ha : a.val < 14)
  (hwb : s.wbOf h.val a.val l = none) (hheld : (s.copyOf h.val a.val l).st ≠ .i)
include htxn ha hwb hheld

theorem gives_snpShared (hout : x.shared.testBit a.val = true) : Gives (.snpShared h a l) s fun t => ∃ y, (t.dirEnt h.val l).txn = some y
    ∧ t.copyOf h.val a.val l = { s.copyOf h.val a.val l with st := match (s.copyOf h.val a.val l).st with | .m => .o | .o => .o | _ => .s }
    ∧ y.shared = clearBit x.shared a.val ∧ y.due = setBit x.due a.val
    ∧ y.data = (if (s.copyOf h.val a.val l).st = .s then x.data else some (s.copyOf h.val a.val l).data) ∧ t.mem = s.mem := by
  obtain ⟨y, hy, hcopy, hmask, hdue, hdata, hmem⟩ := State.snoop_copy (k := .shared) htxn ha hwb hheld hout
  refine ⟨_, exec_snpShared h a l s, y, hy, hcopy.trans ?_, hmask, hdue, ?_, hmem⟩
  · cases hst : (s.copyOf h.val a.val l).st with
    | i => exact absurd hst hheld
    | m | o | e | s => rfl
  · rw [hdata]
    by_cases hshares : (s.copyOf h.val a.val l).st = .s <;> simp [hshares]

theorem gives_snpUnique (hout : x.unique.testBit a.val = true) : Gives (.snpUnique h a l) s fun t => ∃ y, (t.dirEnt h.val l).txn = some y
    ∧ (t.copyOf h.val a.val l).st = .i ∧ y.unique = clearBit x.unique a.val ∧ y.due = setBit x.due a.val
    ∧ y.data = (if (s.copyOf h.val a.val l).st = .s then x.data else some (s.copyOf h.val a.val l).data) ∧ t.mem = s.mem := by
  obtain ⟨y, hy, hcopy, hmask, hdue, hdata, hmem⟩ := State.snoop_copy (k := .unique) htxn ha hwb hheld hout
  refine ⟨_, exec_snpUnique h a l s, y, hy, congrArg Copy.st hcopy, hmask, hdue, ?_, hmem⟩
  rw [hdata]
  by_cases hshares : (s.copyOf h.val a.val l).st = .s <;> simp [hshares]

theorem gives_snpInv (hout : x.inv.testBit a.val = true) : Gives (.snpInv h a l) s fun t => ∃ y, (t.dirEnt h.val l).txn = some y
    ∧ (t.copyOf h.val a.val l).st = .i ∧ y.inv = clearBit x.inv a.val ∧ y.due = setBit x.due a.val ∧ y.data = x.data ∧ t.mem = s.mem := by
  obtain ⟨y, hy, hcopy, hmask, hdue, hdata, hmem⟩ := State.snoop_copy (k := .inv) htxn ha hwb hheld hout
  exact ⟨_, exec_snpInv h a l s, y, hy, congrArg Copy.st hcopy, hmask, hdue, hdata, hmem⟩

theorem gives_snpCur (hout : x.cur.testBit a.val = true) : Gives (.snpCur h a l) s fun t => ∃ y, (t.dirEnt h.val l).txn = some y
    ∧ t.copyOf h.val a.val l = s.copyOf h.val a.val l ∧ y.cur = clearBit x.cur a.val ∧ y.due = setBit x.due a.val
    ∧ y.data = (if (s.copyOf h.val a.val l).st = .s then x.data else some (s.copyOf h.val a.val l).data) ∧ t.mem = s.mem := by
  obtain ⟨y, hy, hcopy, hmask, hdue, hdata, hmem⟩ := State.snoop_copy (k := .cur) htxn ha hwb hheld hout
  refine ⟨_, exec_snpCur h a l s, y, hy, hcopy.trans (if_neg (by simpa [snoopState] using hheld)), hmask, hdue, ?_, hmem⟩
  rw [hdata]
  by_cases hshares : (s.copyOf h.val a.val l).st = .s <;> simp [hshares]

end Cached

/-- A dirty line in a live buffer goes with the answer, and the entry is dead. -/
theorem gives_snpUnique_buffered {h : HalfId} {a : Fin 15} {l : Nat} {x : Txn} {w : WbEnt} {s : State} (htxn : (s.dirEnt h.val l).txn = some x)
    (ha : a.val < 14) (hwb : s.wbOf h.val a.val l = some w) (hlive : w.dead = false) (hdirty : w.st = .m ∨ w.st = .o)
    (hout : x.unique.testBit a.val = true) : Gives (.snpUnique h a l) s fun t => ∃ y, (t.dirEnt h.val l).txn = some y
      ∧ t.wbOf h.val a.val l = some { w with dead := true } ∧ y.data = some w.data ∧ y.dirty = true ∧ y.due = setBit x.due a.val
      ∧ t.copyOf h.val a.val l = s.copyOf h.val a.val l ∧ t.mem = s.mem := by
  have hgives : moesiOwns w.st = true ∧ moesiDirty w.st = true := by rcases hdirty with hst | hst <;> rw [hst] <;> exact ⟨rfl, rfl⟩
  refine ⟨_, exec_snpUnique h a l s, ?_⟩
  rw [State.snoop_agent (k := .unique) htxn ha hout, State.snoopAgent_buffered hwb hlive, hgives.1, if_pos rfl]
  refine ⟨_, State.txn_setDir .., (State.wbOf_setDir ..).trans (State.wbOf_setWb ..), rfl, ?_, rfl, rfl, rfl⟩
  simp only [Txn.hears, hgives.2, Bool.or_true]

/-- Settles O31, a snoop at a time: each finds a copy in the agent's cache, and SnpUnique may find one in its buffer. -/
theorem snoopsMoveCopies : Obligations.SnoopsMoveCopies := by
  unfold Obligations.SnoopsMoveCopies
  intro h a l x s htxn ha
  refine ⟨fun hwb hheld => ⟨?shared, ?unique, ?inv, ?cur⟩, ?buffered⟩
  case shared => exact gives_snpShared htxn ha hwb hheld
  case unique => exact gives_snpUnique htxn ha hwb hheld
  case inv => exact gives_snpInv htxn ha hwb hheld
  case cur => exact gives_snpCur htxn ha hwb hheld
  case buffered => exact fun w hwb hlive hdirty => gives_snpUnique_buffered htxn ha hwb hlive hdirty

end

section
/-!
PROOFS. A request that its home takes in at once opens the transaction that its entry calls for, and one that asks nobody is granted the line as its
home holds it (09 R225, R226, R229).
-/

namespace Sys2Proof.Machine

/-! The home looks a line up (09 R221, R222). -/

/-- A lookup leaves the directory, every agent's copy, and memory. -/
structure State.LooksUp (s t : State) : Prop where
  dir : t.coh.dir = s.coh.dir
  copies : t.coh.copies = s.coh.copies
  mem : t.mem = s.mem

section Lookup
variable {s t u : State} {h l : Nat}

theorem State.LooksUp.refl (s : State) : s.LooksUp s := ⟨rfl, rfl, rfl⟩
theorem State.LooksUp.trans (hst : s.LooksUp t) (htu : t.LooksUp u) : s.LooksUp u :=
  ⟨htu.dir.trans hst.dir, htu.copies.trans hst.copies, htu.mem.trans hst.mem⟩

theorem State.LooksUp.ite {c : Prop} [Decidable c] (ht : s.LooksUp t) (hu : s.LooksUp u) : s.LooksUp (if c then t else u) := by
  split <;> assumption

theorem State.Metered.looksUp (hst : s.Metered t) : s.LooksUp t := by
  obtain ⟨_, _, _, _, _, _, rfl⟩ := hst
  exact ⟨rfl, rfl, rfl⟩

theorem State.LooksUp.dirEnt (hst : s.LooksUp t) (h l : Nat) : t.dirEnt h l = s.dirEnt h l := by rw [State.dirEnt, State.dirEnt, hst.dir]

theorem State.touchSlc_looksUp (n : Nat) (hint : Hint) : s.LooksUp (s.touchSlc h l n hint) := by
  unfold State.touchSlc
  split
  · exact .refl s
  · exact .ite (.refl s) ⟨rfl, rfl, rfl⟩

/-- A lookup that allocates nothing, or finds the line, displaces none. -/
theorem State.lineData_looksUp (n : Nat) {hint : Hint} (hstays : hint = .noAlloc ∨ (s.slcLine h l).isSome = true) :
    s.LooksUp (s.lineData h l n hint).1 := by
  have hcount : ∀ (a : State) hit, a.LooksUp (a.countLook h n hit) := fun _ _ => ⟨rfl, rfl, rfl⟩
  unfold State.lineData
  split
  · exact (State.touchSlc_looksUp ..).trans (hcount ..)
  · rename_i hmissed
    by_cases hhome : homeOf l = h
    · simp only [hhome, if_true]
      have hsame : ∀ a : State, a.SameBut (homeKey l) (if (a.hbmPeek l).fails then a.reportFail l else a) := fun a =>
        .ite (a.reportFail_sameBut l) (.refl a)
      have hsame' : ∀ a : State, a.SameBut (homeKey l) (if a.lineOffline l || a.lineCleared l then a else a.charge l) := fun a =>
        .ite (.refl a) (a.charge_sameBut l)
      have hreport : ∀ a : State, a.LooksUp (if (a.hbmPeek l).fails then a.reportFail l else a) := fun a =>
        .ite (a.reportFail_metered l).looksUp (.refl a)
      have hcharge : ∀ a : State, a.LooksUp (if a.lineOffline l || a.lineCleared l then a else a.charge l) := fun a =>
        .ite (.refl a) (a.charge_metered l).looksUp
      rw [if_neg ?_]
      · exact (hcount s false).trans ((hreport _).trans (hcharge _))
      · rcases hstays with rfl | hcached
        · simp
        · have hretired : s.isRetired l = true := by
            by_contra hnot
            rw [if_neg hnot] at hmissed
            rw [hmissed] at hcached
            exact Bool.false_ne_true hcached
          have hcounted : s.SameBut (homeKey l) (s.countLook h n false) := s.addReg_sameBut ..
          rw [(hsame' _).isRetired, (hsame _).isRetired, hcounted.isRetired, hretired, Bool.not_true, Bool.and_false]
          exact Bool.false_ne_true
    · simp only [hhome, if_false]
      exact hcount s false

theorem State.data_lineData (hhome : homeOf l = h) (n : Nat) (hint : Hint) : (s.lineData h l n hint).2.data = s.homeData h l := by
  unfold State.lineData State.homeData
  rcases (if s.isRetired l = true then none else s.slcLine h l) with _ | c
  · simp only [hhome, if_true]
    rfl
  · rfl

end Lookup

/-! The requester is granted its line (09 R225). -/

/-- From s, the line goes to its requester in state st with the data of its home; e is its entry but for the transaction. -/
def State.Delivers (s t : State) (h l : Nat) (e : DirEnt) (st : Moesi) : Prop :=
  ∃ x, t.dirEnt h l = { e with txn := some x } ∧ x.delivered = true ∧ x.grantSt = st ∧ x.data = some (s.homeData h l)
    ∧ t.coh.copies = s.coh.copies ∧ t.mem = s.mem

/-- A request that waits for nobody: it has heard no owner, and its requester waits. -/
structure Txn.Unheard (t : Txn) : Prop where
  data : t.data = none
  dirty : t.dirty = false
  late : t.late = false

section Grant
variable {s : State} {h l n : Nat} {t : Txn}

/-- Where no other agent owns the line, the home gives its own data. -/
theorem State.finishGrant_delivers (hhome : homeOf l = h) (ht : t.Unheard) (hasks : t.noData = false)
    (hstays : t.hint = .noAlloc ∨ (s.slcLine h l).isSome = true) (hown : (s.dirEnt h l).owned = false ∨ (s.dirEnt h l).owner = t.requester) :
    s.Delivers (s.finishGrant h l n t) h l (s.dirEnt h l) t.grantSt := by
  have hlooks := s.lineData_looksUp n hstays
  have hgot : t.got = none := by rw [Txn.got, ht.data, Option.map_none]
  have hkept : (t.kind == .rds && (s.dirEnt h l).owned && (s.dirEnt h l).owner != t.requester) = false := by
    rcases hown with hnone | hmine
    · rw [hnone, Bool.and_false, Bool.false_and]
    · rw [hmine, bne_self_eq_false, Bool.and_false]
  simp only [State.finishGrant, State.txnLine, hgot, hasks, Bool.false_eq_true, if_false, hlooks.dirEnt, hkept, ht.late, ht.dirty, Bool.and_false]
  refine ⟨_, State.dirEnt_setDir _ _ _ (.inr rfl), rfl, rfl, ?_, hlooks.copies, hlooks.mem⟩
  exact congrArg some (State.data_lineData hhome ..)

/-- An Upgrade that waits for nobody moves no data. -/
theorem State.finishGrant_noData (hmoves : t.noData = true) (hlate : t.late = false) (hkind : t.kind ≠ .rds) : ∃ x,
    s.finishGrant h l n t = s.setDir h l { s.dirEnt h l with txn := some x } ∧ x.delivered = true ∧ x.noData = true ∧ x.inv = t.inv := by
  simp only [State.finishGrant, hmoves, if_true, hlate, Bool.false_eq_true, if_false, beq_eq_false_iff_ne.2 hkind, Bool.false_and]
  exact ⟨_, rfl, rfl, rfl, rfl⟩

/-! Serving at the home. -/

/-- The entry of a line at its home when a request is serialized there. -/
def State.entryFor (s : State) (h l n : Nat) (t : Txn) : DirEnt :=
  openEntry { s.dirEnt h l with txn := none } { t with waitsEntry := false, waitsHome := false } n (s.coh.clock + 1)
    ((s.copyOf h t.requester l).st != .i) false

section Entry
variable {e : DirEnt} {x : Txn} (hhome : homeOf l = h) (hentry : s.entryFor h l n t = e) (htxn : e.txn = some x)
include hhome hentry htxn

theorem State.serveEntry_waits (hwaits : x.waits ≠ 0) : s.serveEntry h l n t = s.cohTick.setDir h l e := by
  unfold State.entryFor at hentry
  simp only [State.serveEntry, hhome, bne_self_eq_false, Bool.false_and, hentry, htxn, hwaits, if_false]

theorem State.serveEntry_ends (hwaits : x.waits = 0) : s.serveEntry h l n t = (s.cohTick.setDir h l e).finishTxn h l := by
  unfold State.entryFor at hentry
  simp only [State.serveEntry, hhome, bne_self_eq_false, Bool.false_and, hentry, htxn, hwaits, if_true]

end Entry

/-- A request of an agent that asks nobody is a grant. -/
theorem State.finishTxn_grants {x : Txn} (htxn : (s.dirEnt h l).txn = some x) (hkind : x.kind = .rds ∨ x.kind = .rdu ∨ x.kind = .upgrade) :
    s.finishTxn h l = s.finishGrant h l ((s.ownerPch (pchOfLine l)).getD 16) x := by
  rcases hkind with hkind | hkind | hkind <;> simp only [State.finishTxn, htxn, hkind]

/-- A request whose entry lists no agent to ask is granted at once. -/
theorem State.serveEntry_delivers {e : DirEnt} {x : Txn} (hhome : homeOf l = h) (hentry : s.entryFor h l n t = e) (htxn : e.txn = some x)
    (hwaits : x.waits = 0) (hkind : x.kind = .rds ∨ x.kind = .rdu) (hx : x.Unheard) (hasks : x.noData = false)
    (hstays : x.hint = .noAlloc ∨ (s.slcLine h l).isSome = true) (hown : e.owned = false ∨ e.owner = x.requester) :
    s.Delivers (s.serveEntry h l n t) h l e x.grantSt := by
  have hent := State.dirEnt_setDir s.cohTick h l (e := e) (.inr (by rw [htxn]; rfl))
  rw [State.serveEntry_ends hhome hentry htxn hwaits, State.finishTxn_grants (by rw [hent]; exact htxn) (hkind.imp_right .inl)]
  have hgrant := State.finishGrant_delivers (s := s.cohTick.setDir h l e) (n := (s.ownerPch (pchOfLine l)).getD 16) hhome hx hasks hstays
    (by rw [hent]; exact hown)
  rw [hent] at hgrant
  exact hgrant

/-- An Upgrade whose entry lists no other sharer moves no data. -/
theorem State.serveEntry_upgrades {e : DirEnt} {x : Txn} (hhome : homeOf l = h) (hentry : s.entryFor h l n t = e) (htxn : e.txn = some x)
    (hwaits : x.waits = 0) (hkind : x.kind = .upgrade) (hmoves : x.noData = true) (hlate : x.late = false) : ∃ y,
    s.serveEntry h l n t = (s.cohTick.setDir h l e).setDir h l { e with txn := some y } ∧ y.delivered = true ∧ y.noData = true ∧ y.inv = x.inv := by
  have hent := State.dirEnt_setDir s.cohTick h l (e := e) (.inr (by rw [htxn]; rfl))
  obtain ⟨y, hgrant, hy⟩ := State.finishGrant_noData (s := s.cohTick.setDir h l e) (h := h) (l := l) (n := (s.ownerPch (pchOfLine l)).getD 16) hmoves
    hlate (by rw [hkind]; decide)
  rw [hent] at hgrant
  rw [State.serveEntry_ends hhome hentry htxn hwaits, State.finishTxn_grants (by rw [hent]; exact htxn) (.inr (.inr hkind))]
  exact ⟨y, hgrant, hy⟩

/-! The entries that requests open (09 R225). -/

section Opens
variable {s : State} {h l n r : Nat} {hint : Hint}

/-- A line that nobody holds goes to its requester as its owner. -/
theorem State.entryFor_invalid {k : TxnKind} (hk : k = .rds ∨ k = .rdu) (hst : (s.dirEnt h l).st = .i) (hnone : (s.dirEnt h l).sharers = 0) :
    s.entryFor h l n { kind := k, requester := r, hint := hint } =
    { s.dirEnt h l with
        part := n, used := s.coh.clock + 1, st := .x, owner := r, sharers := 0
        txn := some { kind := k, requester := r, hint := hint, grantSt := .e } } := by
  rcases hk with rfl | rfl
  · simp [State.entryFor, openEntry, hst]
  · simp [State.entryFor, openEntry, hst, hnone, clearBit]

/-- A shared line gains a sharer. -/
theorem State.entryFor_rds_shared (hst : (s.dirEnt h l).st = .s) : s.entryFor h l n { kind := .rds, requester := r, hint := hint } =
    { s.dirEnt h l with
        part := n, used := s.coh.clock + 1, sharers := setBit (s.dirEnt h l).sharers r
        txn := some { kind := .rds, requester := r, hint := hint, grantSt := .s } } := by
  simp [State.entryFor, openEntry, hst]

variable (hst : (s.dirEnt h l).st = .x ∨ (s.dirEnt h l).st = .o) (hother : (s.dirEnt h l).owner ≠ r)
include hst hother

/-- The owner of a line is asked to share it. -/
theorem State.entryFor_rds_owned : s.entryFor h l n { kind := .rds, requester := r, hint := hint } =
    { s.dirEnt h l with
        part := n, used := s.coh.clock + 1
        txn := some { kind := .rds, requester := r, hint := hint, shared := 1 <<< (s.dirEnt h l).owner, grantSt := .s } } := by
  rcases hst with hst | hst <;> simp [State.entryFor, openEntry, hst, hother]

/-- An owner without sharers is asked to give the line up. -/
theorem State.entryFor_rdu_owned (hnone : (s.dirEnt h l).sharers = 0) : s.entryFor h l n { kind := .rdu, requester := r, hint := hint } =
    { s.dirEnt h l with
        part := n, used := s.coh.clock + 1, st := .x, owner := r, sharers := 0
        txn := some { kind := .rdu, requester := r, hint := hint, unique := 1 <<< (s.dirEnt h l).owner, grantSt := .e } } := by
  rcases hst with hst | hst <;> simp [State.entryFor, openEntry, hst, hother, hnone, clearBit]

end Opens

/-- A sharer that still holds its copy asks the others to drop theirs, and needs no data. -/
theorem State.entryFor_upgrade_shared {s : State} {h l n r : Nat} (hst : (s.dirEnt h l).st = .s) (hshares : (s.dirEnt h l).sharers.testBit r = true)
    (hheld : (s.copyOf h r l).st ≠ .i) : s.entryFor h l n { kind := .upgrade, requester := r } =
    { s.dirEnt h l with
        part := n, used := s.coh.clock + 1, st := .x, owner := r, sharers := 0
        txn := some { kind := .upgrade, requester := r, inv := clearBit (s.dirEnt h l).sharers r, noData := true, grantSt := .e } } := by
  simp [State.entryFor, openEntry, hst, hshares, hheld]

end Grant

/-! A request reaches its home (09 R227-R231; 10 R242, R247). -/

section Request
variable {s : State} {h a l : Nat}

theorem State.homeServe_free (hfree : s.stackFree l) (c : Instr) (f : State → State) : s.homeServe l c f = f s := by
  unfold State.homeServe
  split
  · rename_i hneeds
    obtain ⟨hopen, hfirst⟩ := hfree (Bool.and_eq_true .. ▸ hneeds).1
    simp only [State.hmcServe, hopen, hfirst, Bool.false_eq_true, if_false]
  · rfl

/-- A line of an offline stack does not come from it. -/
theorem State.stackFree_offline (hoff : s.lineOffline l = true) : s.stackFree l := by
  intro hneeds
  simp [State.fromHbm, hoff] at hneeds

/-- A request whose line is not blocked is serialized at its home. -/
theorem State.request_takes {n : Nat} {t : Txn} (htakes : s.takesIn h t.requester l) (hn : (s.ownerPch (pchOfLine l)).getD 16 = n) :
    s.request h l n false t = s.serveEntry h l n t := by
  obtain ⟨hhome, -, htxn, htally, hroom, -, hentry⟩ := htakes
  have hserve : s.serve h l n t = s.serveEntry h l n t := by simp [State.serve, hhome]
  have hissued : (false && !(s.coh.tallies.any fun x => x.half == h && x.requester == t.requester && x.line == l && x.granted)
      || !false && decide (16 ≤ s.outstandingAt h t.requester l)) = false := by simpa using hroom
  simp only [State.request, hissued, Bool.false_eq_true, if_false, htxn, Option.isSome_none, htally, Bool.and_false]
  unfold State.takeIn
  split
  · exact hserve
  · rename_i hset
    rw [Bool.not_eq_true, Bool.or_eq_false_iff, bne_eq_false_iff_eq] at hset
    rw [if_pos (hn ▸ hentry.resolve_left (not_not_intro hset.1)), hserve]

theorem State.takesFrom_homeOf (htakes : s.takesFrom h a l) : homeOf l = h := by
  obtain ⟨⟨hhome, -⟩, -⟩ := htakes
  exact hhome

theorem State.takesFrom_stackFree (htakes : s.takesFrom h a l) : s.stackFree l := by
  obtain ⟨⟨-, -, -, -, -, hfree, -⟩, -⟩ := htakes
  exact hfree

/-- So is one of an agent that may send it. -/
theorem State.agentRequest_takes (hmay : s.agentMay h a l = true) (htakes : s.takesFrom h a l) (k : TxnKind) (hint : Hint) :
    s.agentRequest h a l false k hint =
      s.serveEntry h l ((s.ownerPch (pchOfLine l)).getD 16) { kind := k, requester := a, hint := if a < 8 then .alloc else hint } := by
  obtain ⟨hin, hwb⟩ := htakes
  obtain ⟨-, honline, -⟩ := id hin
  simp only [State.agentRequest, hmay, honline, hwb, Bool.not_true, Bool.false_eq_true, if_false, Option.isSome_none]
  exact State.request_takes hin rfl

theorem State.agentRequest_offline (hmay : s.agentMay h a l = true) (hoff : s.lineOffline l = true) (tally : Bool) (k : TxnKind) (hint : Hint) :
    s.agentRequest h a l tally k hint = s.emit (.homeData a l St.stackOffline (zeros 64) false) := by
  simp only [State.agentRequest, hmay, hoff, Bool.not_true, Bool.false_eq_true, if_false, if_true]

end Request

end Sys2Proof.Machine
end

section
/-! PROOFS. The statement about what a coherent request does at its home (09 R225, R229). -/

open Sys2Proof Sys2Proof.Machine

/-- What an agent's hint comes to: a cluster always allocates (09 R221). -/
theorem hint_stays {a : Nat} {hint : Hint} {c : Option SlcLine} (hstays : 8 ≤ a ∧ hint = .noAlloc ∨ c.isSome = true) :
    (if a < 8 then Hint.alloc else hint) = .noAlloc ∨ c.isSome = true := by
  rcases hstays with ⟨ha, rfl⟩ | hcached
  · exact .inl (if_neg (by omega))
  · exact .inr hcached

section Agent
variable {h : HalfId} {a : Fin 15} {l : Nat} {hint : Hint} {s : State}

theorem exec_rds_request (hfree : s.stackFree l) (hint : Hint) (tally : Bool) :
    exec (.rds h a l hint tally) s = .next (s.agentRequest h.val a.val l tally .rds hint) := by
  rw [exec_rds, execRds, State.homeServe_free hfree, done]

theorem exec_rdu_request (hfree : s.stackFree l) (hint : Hint) (tally : Bool) :
    exec (.rdu h a l hint tally) s = .next (s.agentRequest h.val a.val l tally .rdu hint) := by
  rw [exec_rdu, execRdu, State.homeServe_free hfree, done]

theorem exec_upgrade_request (tally : Bool) :
    exec (.upgrade h a l tally) s = .next (s.agentRequest h.val a.val l tally .upgrade .alloc) := rfl

variable (hmay : s.agentMay h.val a.val l = true) (htakes : s.takesFrom h.val a.val l)
include hmay htakes

theorem exec_rds_takes (hint : Hint) : exec (.rds h a l hint false) s = .next (s.serveEntry h.val l ((s.ownerPch (pchOfLine l)).getD 16)
    { kind := .rds, requester := a.val, hint := if a.val < 8 then .alloc else hint }) := by
  rw [exec_rds_request (State.takesFrom_stackFree htakes), State.agentRequest_takes hmay htakes]

theorem exec_rdu_takes (hint : Hint) : exec (.rdu h a l hint false) s = .next (s.serveEntry h.val l ((s.ownerPch (pchOfLine l)).getD 16)
    { kind := .rdu, requester := a.val, hint := if a.val < 8 then .alloc else hint }) := by
  rw [exec_rdu_request (State.takesFrom_stackFree htakes), State.agentRequest_takes hmay htakes]

theorem exec_upgrade_takes : exec (.upgrade h a l false) s = .next (s.serveEntry h.val l ((s.ownerPch (pchOfLine l)).getD 16)
    { kind := .upgrade, requester := a.val }) := by
  rw [exec_upgrade_request, State.agentRequest_takes hmay htakes, ite_self]

omit hmay in
/-- A line that nobody holds: RdS and RdU open the same entry. -/
theorem gives_request_invalid {c : Instr} {k : TxnKind} (hk : k = .rds ∨ k = .rdu) (hst : (s.dirEnt h.val l).st = .i)
    (hnone : (s.dirEnt h.val l).sharers = 0) (hstays : 8 ≤ a.val ∧ hint = .noAlloc ∨ (s.slcLine h.val l).isSome = true)
    (hexec : exec c s = .next (s.serveEntry h.val l ((s.ownerPch (pchOfLine l)).getD 16)
      { kind := k, requester := a.val, hint := if a.val < 8 then .alloc else hint })) :
    Gives c s fun t => ∃ x, (t.dirEnt h.val l).txn = some x ∧ (t.dirEnt h.val l).st = .x ∧ (t.dirEnt h.val l).owner = a.val
      ∧ x.delivered = true ∧ x.grantSt = .e ∧ x.data = some (s.homeData h.val l) ∧ t.coh.copies = s.coh.copies ∧ t.mem = s.mem := by
  have hentry := State.entryFor_invalid (n := (s.ownerPch (pchOfLine l)).getD 16) (r := a.val) (hint := if a.val < 8 then .alloc else hint) hk hst hnone
  obtain ⟨x, hx, hgranted⟩ := State.serveEntry_delivers (State.takesFrom_homeOf htakes) hentry rfl (by simp [Txn.waits]) hk
    ⟨rfl, rfl, rfl⟩ rfl (hint_stays hstays) (.inr rfl)
  refine ⟨_, hexec, x, ?_⟩
  rw [hx]
  exact ⟨rfl, rfl, rfl, hgranted⟩

theorem gives_rds_shared (hst : (s.dirEnt h.val l).st = .s) (hstays : 8 ≤ a.val ∧ hint = .noAlloc ∨ (s.slcLine h.val l).isSome = true) :
    Gives (.rds h a l hint false) s fun t => ∃ x, (t.dirEnt h.val l).txn = some x ∧ (t.dirEnt h.val l).st = .s
      ∧ (t.dirEnt h.val l).sharers = setBit (s.dirEnt h.val l).sharers a.val ∧ x.delivered = true ∧ x.grantSt = .s
      ∧ x.data = some (s.homeData h.val l) ∧ t.coh.copies = s.coh.copies ∧ t.mem = s.mem := by
  have howned : (s.dirEnt h.val l).owned = false := by rw [DirEnt.owned, hst]; rfl
  have hentry := State.entryFor_rds_shared (n := (s.ownerPch (pchOfLine l)).getD 16) (r := a.val) (hint := if a.val < 8 then .alloc else hint) hst
  obtain ⟨x, hx, hgranted⟩ := State.serveEntry_delivers (State.takesFrom_homeOf htakes) hentry rfl (by simp [Txn.waits]) (.inl rfl)
    ⟨rfl, rfl, rfl⟩ rfl (hint_stays hstays) (.inl howned)
  refine ⟨_, exec_rds_takes hmay htakes hint, x, ?_⟩
  rw [hx]
  exact ⟨rfl, hst, rfl, hgranted⟩

section Owned
variable (hst : (s.dirEnt h.val l).st = .x ∨ (s.dirEnt h.val l).st = .o) (hother : (s.dirEnt h.val l).owner ≠ a.val)
include hst hother

theorem gives_rds_owned (hint : Hint) : Gives (.rds h a l hint false) s fun t => ∃ x, (t.dirEnt h.val l).txn = some x
    ∧ (t.dirEnt h.val l).owner = (s.dirEnt h.val l).owner ∧ x.delivered = false ∧ x.shared = 1 <<< (s.dirEnt h.val l).owner ∧ x.waits = x.shared
    ∧ t.coh.copies = s.coh.copies ∧ t.mem = s.mem := by
  have hserve := State.serveEntry_waits (n := (s.ownerPch (pchOfLine l)).getD 16) (State.takesFrom_homeOf htakes)
    (State.entryFor_rds_owned (hint := if a.val < 8 then .alloc else hint) hst hother) rfl (by simp [Txn.waits, Nat.shiftLeft_eq])
  rw [Gives, exec_rds_takes hmay htakes hint, hserve]
  refine ⟨_, rfl, ?_⟩
  rw [State.dirEnt_setDir _ _ _ (.inr rfl)]
  exact ⟨_, rfl, rfl, rfl, rfl, by simp [Txn.waits], rfl, rfl⟩

theorem gives_rdu_owned (hint : Hint) (hnone : (s.dirEnt h.val l).sharers = 0) : Gives (.rdu h a l hint false) s fun t => ∃ x,
    (t.dirEnt h.val l).txn = some x ∧ (t.dirEnt h.val l).st = .x ∧ (t.dirEnt h.val l).owner = a.val
    ∧ x.delivered = false ∧ x.unique = 1 <<< (s.dirEnt h.val l).owner ∧ x.inv = 0 ∧ t.coh.copies = s.coh.copies ∧ t.mem = s.mem := by
  have hserve := State.serveEntry_waits (n := (s.ownerPch (pchOfLine l)).getD 16) (State.takesFrom_homeOf htakes)
    (State.entryFor_rdu_owned (hint := if a.val < 8 then .alloc else hint) hst hother hnone) rfl (by simp [Txn.waits, Nat.shiftLeft_eq])
  rw [Gives, exec_rdu_takes hmay htakes hint, hserve]
  refine ⟨_, rfl, ?_⟩
  rw [State.dirEnt_setDir _ _ _ (.inr rfl)]
  exact ⟨_, rfl, rfl, rfl, rfl, rfl, rfl, rfl, rfl⟩

end Owned

/-- An Upgrade waits for the other sharers, or is done at once where there is none. -/
theorem gives_upgrade_shared (hst : (s.dirEnt h.val l).st = .s) (hshares : (s.dirEnt h.val l).sharers.testBit a.val = true)
    (hheld : (s.copyOf h.val a.val l).st ≠ .i) : Gives (.upgrade h a l false) s fun t => ∃ x, (t.dirEnt h.val l).txn = some x
      ∧ (t.dirEnt h.val l).st = .x ∧ (t.dirEnt h.val l).owner = a.val ∧ x.noData = true ∧ x.inv = clearBit (s.dirEnt h.val l).sharers a.val
      ∧ x.delivered = (clearBit (s.dirEnt h.val l).sharers a.val == 0) ∧ t.coh.copies = s.coh.copies ∧ t.mem = s.mem := by
  have hentry := State.entryFor_upgrade_shared (n := (s.ownerPch (pchOfLine l)).getD 16) hst hshares hheld
  have hhome := State.takesFrom_homeOf htakes
  rw [Gives, exec_upgrade_takes hmay htakes]
  refine ⟨_, rfl, ?_⟩
  by_cases halone : clearBit (s.dirEnt h.val l).sharers a.val = 0
  · obtain ⟨x, hgrant, hdelivered, hmoves, hinv⟩ :=
      State.serveEntry_upgrades hhome hentry rfl (by simp [Txn.waits, halone]) rfl rfl rfl
    rw [hgrant, State.dirEnt_setDir _ _ _ (.inr rfl)]
    exact ⟨x, rfl, rfl, rfl, hmoves, hinv, by rw [hdelivered, halone]; rfl, rfl, rfl⟩
  · rw [State.serveEntry_waits hhome hentry rfl (by simp [Txn.waits, halone]), State.dirEnt_setDir _ _ _ (.inr rfl)]
    exact ⟨_, rfl, rfl, rfl, rfl, rfl, (beq_eq_false_iff_ne.2 halone).symm, rfl, rfl⟩

end Agent

/-- Settles O29: a line of an offline stack is answered so; at a home that takes the request in, a case for each state of the entry. -/
theorem requestsOpenTransactions : Obligations.RequestsOpenTransactions := by
  unfold Obligations.RequestsOpenTransactions
  intro h a l s hmay
  refine ⟨?offline, ?invalid, ?shared, ?owned, ?upgrade⟩
  case offline =>
    intro hoff hint tally
    have hanswer := fun k hint => congrArg done (State.agentRequest_offline hmay hoff tally k hint)
    have hfree := State.stackFree_offline hoff
    exact ⟨(exec_rds_request hfree ..).trans (hanswer ..), (exec_rdu_request hfree ..).trans (hanswer ..), (exec_upgrade_request ..).trans (hanswer ..)⟩
  case invalid =>
    intro htakes hst hnone hint hstays
    exact ⟨gives_request_invalid htakes (.inl rfl) hst hnone hstays (exec_rds_takes hmay htakes hint),
      gives_request_invalid htakes (.inr rfl) hst hnone hstays (exec_rdu_takes hmay htakes hint)⟩
  case shared => exact fun htakes hst hint hstays => gives_rds_shared hmay htakes hst hstays
  case owned =>
    intro htakes hst hother hint
    exact ⟨gives_rds_owned hmay htakes hst hother hint, gives_rdu_owned hmay htakes hst hother hint⟩
  case upgrade => exact fun htakes hst hshares hheld => gives_upgrade_shared hmay htakes hst hshares hheld

end

section
/-!
PROOFS. Retry tallies, the answers that close a transaction, and the requester's acknowledgement (09 R225, R227, R229, R230).
-/

namespace Sys2Proof.Machine

/-! Refusals (09 R227, R229). -/

section Refusals
variable {s : State} {h a l n : Nat}

/-- A request that meets an open transaction does not ask for its line's stack. -/
theorem State.homeServe_busy (hbusy : s.lineBusy l = true) (c : Instr) (f : State → State) : s.homeServe l c f = f s := by
  rw [State.homeServe, hbusy, Bool.not_true, Bool.and_false, if_neg Bool.false_ne_true]

theorem State.lineBusy_open (hh : h < 2) (hopen : (s.dirEnt h l).txn.isSome = true) : s.lineBusy l = true := by
  unfold State.lineBusy
  interval_cases h
  · rw [hopen, Bool.true_or, Bool.true_or]
  · rw [hopen, Bool.or_true, Bool.true_or]

/-- An agent may send a request, and its line is blocked at its home by an open transaction. -/
structure State.MeetsOpen (s : State) (h a l : Nat) : Prop where
  may : s.agentMay h a l = true
  online : s.lineOffline l = false
  open_ : (s.dirEnt h l).txn.isSome = true
  unbuffered : s.wbOf h a l = none
  issues : s.outstandingAt h a l < 16

theorem State.MeetsOpen.agentRequest (hmeets : s.MeetsOpen h a l) (k : TxnKind) (hint : Hint) :
    s.agentRequest h a l false k hint = s.refuse h a l ((s.ownerPch (pchOfLine l)).getD 16) false := by
  have hissued : ¬16 ≤ s.outstandingAt h a l := Nat.not_le.2 hmeets.issues
  simp only [State.agentRequest, hmeets.may, hmeets.online, hmeets.unbuffered, State.request, hissued, hmeets.open_, Bool.not_true, Bool.false_and,
    Bool.not_false, Bool.true_and, decide_false, Bool.or_self, Bool.false_eq_true, Option.isSome_none, if_false, if_true]

/-- A first refusal leaves a tally at the end of the line's, and counts in SLC_PART_RETRIES (09 R229, R235). -/
theorem State.refuse_first (hfirst : s.coh.tallies.any (fun x => x.half == h && x.requester == a && x.line == l && !x.granted) = false) :
    (s.refuse h a l n false).coh.tallies = s.coh.tallies ++ [{ half := h, requester := a, line := l }]
      ∧ (s.refuse h a l n false).coh.dir = s.coh.dir ∧ (s.refuse h a l n false).mem = s.mem
      ∧ (s.refuse h a l n false).reg (slcPartAddr h n 0x18) = min (s.reg (slcPartAddr h n 0x18) + 1) (2 ^ 64 - 1) := by
  rw [State.refuse, if_neg (by rw [hfirst]; exact Bool.false_ne_true)]
  exact ⟨rfl, rfl, rfl, State.reg_setReg ..⟩

end Refusals

/-! Tallies that a Retry or a grant reaches (09 R229). -/

/-- The element behind a prefix is the one that its length names. -/
theorem modify_prefix {α : Type} (pre : List α) (x : α) (post : List α) (f : α → α) :
    (pre ++ x :: post).modify pre.length f = pre ++ f x :: post :=
  List.modifyTailIdx_add (List.modifyHead f) 0 pre (x :: post)

theorem findIdx?_prefix {α : Type} {p : α → Bool} {pre : List α} {x : α} (post : List α) (hpre : ∀ y ∈ pre, p y = false) (hx : p x = true) :
    (pre ++ x :: post).findIdx? p = some pre.length := by
  rw [List.findIdx?_append, List.findIdx?_eq_none_iff.2 hpre, List.findIdx?_cons, if_pos hx, Option.none_or, Option.map_some, Nat.zero_add]

/-- The first tally of a requester for a line is the one that changes. -/
theorem State.updTally_first {s : State} {h r l : Nat} {p : RTally → Bool} {x : RTally} {pre post : List RTally}
    (hlist : s.coh.tallies = pre ++ x :: post) (hhalf : x.half = h) (hreq : x.requester = r) (hline : x.line = l)
    (hpre : ∀ y ∈ pre, ¬(y.half = h ∧ y.requester = r ∧ y.line = l)) (hx : p x = true) (f : RTally → RTally) :
    s.updTally h r l p f = { s with coh := { s.coh with tallies := pre ++ f x :: post } } := by
  have hfound : s.coh.tallies.findIdx? (fun t => t.half == h && t.requester == r && t.line == l && p t) = some pre.length := by
    rw [hlist]
    refine findIdx?_prefix post (fun y hy => ?_) (by simp [hhalf, hreq, hline, hx])
    simp only [Bool.and_eq_false_iff, beq_eq_false_iff_ne]
    have hother := hpre y hy
    tauto
  simp only [State.updTally, hfound]
  rw [hlist, modify_prefix]

/-! Answers (09 R225). -/

/-- An entry that a read shares: its owner keeps the line in O, or is a sharer from then on. -/
theorem shareEntry_st (e : DirEnt) (r : Nat) (kept : Bool) : (shareEntry e r kept).st = if kept then .o else .s := by cases kept <;> rfl

theorem shareEntry_sharers (e : DirEnt) (r : Nat) (kept : Bool) : (shareEntry e r kept).sharers.testBit r = true := by
  cases kept with
  | true => exact testBit_setBit_self ..
  | false =>
    simp only [shareEntry, Bool.false_eq_true, if_false]
    rw [setBit, Nat.testBit_or, testBit_setBit_self, Bool.true_or]

section Answers
variable {s : State} {h a l n : Nat} {x : Txn}

/-- A read of a line that another agent owns delivers what the owner gave. -/
theorem State.finishGrant_shares {d : List Byte} (hkind : x.kind = .rds) (hdata : x.data = some d) (hasks : x.noData = false) (hlate : x.late = false)
    (howned : (s.dirEnt h l).owned = true) (hother : (s.dirEnt h l).owner ≠ x.requester) : ∃ y,
    s.finishGrant h l n x = s.setDir h l { shareEntry (s.dirEnt h l) x.requester x.ownerKept with txn := some y } ∧ y.delivered = true
      ∧ y.data = some d ∧ y.grantSt = x.grantSt := by
  have hgot : x.got = some { data := d, dross := x.dross, status := St.ok, fails := false } := by rw [Txn.got, hdata, Option.map_some]
  have hshares : (x.kind == .rds && (s.dirEnt h l).owned && (s.dirEnt h l).owner != x.requester) = true := by
    rw [howned, bne_iff_ne.2 hother, hkind]
    rfl
  simp only [State.finishGrant, State.txnLine, hgot, hasks, hlate, hshares, Bool.false_eq_true, if_false, if_true]
  exact ⟨_, rfl, rfl, rfl, by simp [hkind]⟩

theorem State.snoopAnswer_due (htxn : (s.dirEnt h l).txn = some x) (hdue : x.due.testBit a = true) : s.snoopAnswer h a l =
    (s.setDir h l { s.dirEnt h l with txn := some { x with due := clearBit x.due a } }).advanceTxn h l := by
  simp only [State.snoopAnswer, htxn, hdue, if_true]

theorem State.advanceTxn_waits (htxn : (s.dirEnt h l).txn = some x) (hwaits : x.waits ≠ 0) : s.advanceTxn h l = s := by
  simp [State.advanceTxn, htxn, hwaits]

/-- A transaction whose snoops are all answered is finished. -/
theorem State.advanceTxn_ends (htxn : (s.dirEnt h l).txn = some x) (hwaits : x.waits = 0) (hdelivered : x.delivered = false)
    (hentry : x.waitsEntry = false) (hhome : x.waitsHome = false) (hkind : x.kind ≠ .writeBack) :
    s.advanceTxn h l = (s.finishTxn h l).afterEvict h x.forLine := by
  simp [State.advanceTxn, htxn, hwaits, hdelivered, hentry, hhome, hkind]

end Answers

/-! The acknowledgement (09 R230). -/

section Completes
variable {s : State} {h a l : Nat} {x : Txn} {d : List Byte}

theorem agentKey_ne_proxyKey (h : Nat) {a : Nat} (ha : a < 14) (l : Nat) : agentKey h a l ≠ proxyKey l := by
  unfold proxyKey agentKey
  omega

/-- An agent that acknowledges takes the line that was delivered. -/
theorem State.complete_agent (htxn : (s.dirEnt h l).txn = some x) (hdelivered : x.delivered = true) (hreq : x.requester = a) (ha : a < 14)
    (hdata : x.data = some d) : s.complete h a l = (s.takeAtAgent h a l x d x.dross).closeTxn h l := by
  have hagent : a ≠ 14 := by omega
  simp only [State.complete, htxn, hdelivered, hreq, beq_self_eq_true, bne_iff_ne.2 hagent, Bool.true_or, Bool.and_self, if_true, State.takeLine,
    State.givenLine, hdata, hagent, if_false]

theorem State.takeAtAgent_dirEnt (s : State) (h a k l : Nat) (x : Txn) (d : List Byte) (dross : Bool) :
    (s.takeAtAgent h a l x d dross).dirEnt k l = s.dirEnt k l := by
  unfold State.takeAtAgent
  dsimp only
  split <;> split <;> rfl

theorem State.takeAtAgent_mem (s : State) (h a l : Nat) (x : Txn) (d : List Byte) (dross : Bool) : (s.takeAtAgent h a l x d dross).mem = s.mem := by
  unfold State.takeAtAgent
  dsimp only
  split <;> split <;> rfl

/-- What an agent holds of a line once it has taken it. -/
def Txn.takes (x : Txn) (a ctr : Nat) (d : List Byte) (dross : Bool) : Copy :=
  if decide (8 ≤ a) && x.kind != .rds then { st := .m, data := (List.range 64).map (Config.freeByte ctr), dross := dross }
  else { st := x.grantSt, data := d, dross := dross }

theorem Txn.takes_loads {x : Txn} {a : Nat} (hloads : a < 8 ∨ x.kind = .rds) (ctr : Nat) (d : List Byte) (dross : Bool) :
    x.takes a ctr d dross = { st := x.grantSt, data := d, dross := dross } := by
  refine if_neg ?_
  simpa only [Bool.and_eq_true, decide_eq_true_eq, bne_iff_ne, not_and_or, not_le, not_not] using hloads

theorem Txn.takes_stores {x : Txn} {a : Nat} (hstores : ¬(a < 8 ∨ x.kind = .rds)) (ctr : Nat) (d : List Byte) (dross : Bool) :
    x.takes a ctr d dross = { st := .m, data := (List.range 64).map (Config.freeByte ctr), dross := dross } := by
  refine if_pos ?_
  simpa only [Bool.and_eq_true, decide_eq_true_eq, bne_iff_ne, not_or, not_lt] using hstores

/-- The proxy's copy of a line is none of an agent that is not the proxy. -/
theorem State.copyOf_setProxy (s : State) (h l : Nat) {a : Nat} (ha : a < 14) (c : Copy) :
    ({ s with coh := { s.coh with copies := s.coh.copies.set {} (proxyKey l) c } } : State).copyOf h a l = s.copyOf h a l :=
  Tab.get_set_ne _ _ _ (agentKey_ne_proxyKey h ha l)

theorem State.takeAtAgent_copyOf (s : State) (h l : Nat) (x : Txn) (d : List Byte) (dross : Bool) {a : Nat} (ha : a < 14)
    (hheld : (x.takes a s.freeCtr d dross).st ≠ .i) : (s.takeAtAgent h a l x d dross).copyOf h a l = x.takes a s.freeCtr d dross := by
  have hput : ∀ u : State, (u.setCopy h a l (x.takes a s.freeCtr d dross)).copyOf h a l = x.takes a s.freeCtr d dross := fun u =>
    (u.copyOf_setCopy ..).trans (if_neg (by simpa using hheld))
  refine Eq.trans ?_ (hput (if decide (8 ≤ a) && x.kind != .rds then s.tick else s))
  unfold State.takeAtAgent
  dsimp only
  split
  · exact State.copyOf_setProxy _ h l ha _
  · rfl

@[simp] theorem State.closeTxn_mem (s : State) (h l : Nat) : (s.closeTxn h l).mem = s.mem := rfl
@[simp] theorem State.copyOf_closeTxn (s : State) (h a l k m : Nat) : (s.closeTxn k m).copyOf h a l = s.copyOf h a l := rfl

theorem State.dirEnt_closeTxn (s : State) (h l : Nat) : ((s.closeTxn h l).dirEnt h l).txn = none
    ∧ ((s.closeTxn h l).dirEnt h l).st = (s.dirEnt h l).st := by
  refine ⟨State.txn_setDir .., ?_⟩
  by_cases hst : (s.dirEnt h l).st = .i
  · have hput : ((s.setDir h l { s.dirEnt h l with txn := none }).dirEnt h l) = {} :=
      (Tab.get_set_same ..).trans (if_pos (by rw [hst]; rfl))
    exact (congrArg DirEnt.st hput).trans hst.symm
  · have hput : (s.closeTxn h l).dirEnt h l = { s.dirEnt h l with txn := none } := State.dirEnt_setDir s h l (.inl hst)
    rw [hput]

end Completes

end Sys2Proof.Machine
end

section
/-!
PROOFS. A cluster that does not answer is isolated, and the walk over its lines begins (09 R233): reclaiming the lines of a dead agent leaves what the
directory knows of the death.
-/

namespace Sys2Proof.Machine

/-- What is known of dead agents and of the walk over their lines stands. -/
structure State.KeepsDead (s t : State) : Prop where
  dead : t.coh.dead = s.coh.dead
  agent : t.coh.reclaimAgent = s.coh.reclaimAgent
  active : t.coh.reclaimActive = s.coh.reclaimActive

section Keeps
variable {s t u : State}

theorem State.KeepsDead.refl (s : State) : s.KeepsDead s := ⟨rfl, rfl, rfl⟩
theorem State.KeepsDead.trans (hst : s.KeepsDead t) (htu : t.KeepsDead u) : s.KeepsDead u :=
  ⟨htu.dead.trans hst.dead, htu.agent.trans hst.agent, htu.active.trans hst.active⟩
theorem State.KeepsDead.ite {c : Prop} [Decidable c] (ht : s.KeepsDead t) (hu : s.KeepsDead u) : s.KeepsDead (if c then t else u) := by
  split <;> assumption

theorem State.Metered.keepsDead (hst : s.Metered t) : s.KeepsDead t := by
  obtain ⟨_, _, _, _, _, _, rfl⟩ := hst
  exact ⟨rfl, rfl, rfl⟩

theorem State.Noted.keepsDead (hst : s.Noted t) : s.KeepsDead t := by
  obtain ⟨_, _, _, _, rfl⟩ := hst
  exact ⟨rfl, rfl, rfl⟩

end Keeps

/-! HBM (10 R243, R251). -/

theorem State.updPch_keepsDead (s : State) (i : Nat) (f : Pch → Pch) : s.KeepsDead (s.updPch i f) := ⟨rfl, rfl, rfl⟩
theorem State.storeLine_keepsDead (s : State) (l : Nat) (data : List Byte) (dross : Bool) : s.KeepsDead (s.storeLine l data dross) :=
  ⟨rfl, rfl, rfl⟩

theorem State.hbmWrite_keepsDead (s : State) (l : Nat) (data : List Byte) (dross : Bool) : s.KeepsDead (s.hbmWrite l data dross) :=
  (s.updPch_keepsDead ..).trans (.ite (.refl _) ((State.charge_metered ..).keepsDead.trans (State.storeLine_keepsDead ..)))

theorem State.rmw_keepsDead (s : State) (e : Wcb) : s.KeepsDead (s.rmw e) :=
  ((s.updPch_keepsDead ..).trans (State.hbmRead_metered ..).keepsDead).trans (State.hbmWrite_keepsDead ..)

theorem State.hbmPartial_keepsDead (s : State) (l mask : Nat) (data : List Byte) (dross : Bool) : s.KeepsDead (s.hbmPartial l mask data dross) := by
  have hfree : ∀ o : List Wcb, s.KeepsDead (match o with | [] => s | e :: _ => s.rmw e) := by
    intro o
    cases o with
    | nil => exact .refl s
    | cons e o => exact s.rmw_keepsDead e
  exact .ite (.refl s) (.ite ((s.hbmWrite_keepsDead ..).trans (State.updPch_keepsDead ..)) (.ite (s.updPch_keepsDead ..)
    (State.KeepsDead.trans (.ite (hfree _) (.refl s)) (State.updPch_keepsDead ..))))

/-! Caches (09 R219-R222). -/

section Slc
variable (s : State) (h l n : Nat)

theorem State.setDir_keepsDead (e : DirEnt) : s.KeepsDead (s.setDir h l e) := ⟨rfl, rfl, rfl⟩
theorem State.setSlc_keepsDead (c : Option SlcLine) : s.KeepsDead (s.setSlc h l c) := ⟨rfl, rfl, rfl⟩
theorem State.setCopy_keepsDead (a : Nat) (c : Copy) : s.KeepsDead (s.setCopy h a l c) := ⟨rfl, rfl, rfl⟩
theorem State.copies_keepsDead (c : Tab Copy) : s.KeepsDead { s with coh := { s.coh with copies := c } } := ⟨rfl, rfl, rfl⟩
theorem State.tallies_keepsDead (ts : List RTally) : s.KeepsDead { s with coh := { s.coh with tallies := ts } } := ⟨rfl, rfl, rfl⟩
theorem State.setWb_keepsDead (a : Nat) (w : Option WbEnt) : s.KeepsDead (s.setWb h a l w) := ⟨rfl, rfl, rfl⟩
theorem State.dropCopies_keepsDead : s.KeepsDead (s.dropCopies l) := ⟨rfl, rfl, rfl⟩
theorem State.sendGrants_keepsDead : s.KeepsDead (s.sendGrants h l n) := ⟨rfl, rfl, rfl⟩
theorem State.closeTxn_keepsDead : s.KeepsDead (s.closeTxn h l) := ⟨rfl, rfl, rfl⟩
theorem State.strayResponse_keepsDead : s.KeepsDead (s.strayResponse h) := ⟨rfl, rfl, rfl⟩
theorem State.countLook_keepsDead (hit : Bool) : s.KeepsDead (s.countLook h n hit) := ⟨rfl, rfl, rfl⟩

theorem State.clearHalf_keepsDead : s.KeepsDead (s.clearHalf h l) :=
  (forAll_rel State.KeepsDead.refl State.KeepsDead.trans _ (fun _ _ => (State.setCopy_keepsDead ..).trans (State.setWb_keepsDead ..)) _ s).trans
    (State.setDir_keepsDead ..)

theorem State.evictProxy_keepsDead (got : Option Copy) : s.KeepsDead (s.evictProxy l got) := by
  have hgone := ((s.clearHalf_keepsDead (1 - homeOf l) l).trans (State.setSlc_keepsDead _ (1 - homeOf l) l none)).trans
    (State.setCopy_keepsDead _ (homeOf l) l 14 {})
  unfold State.evictProxy
  dsimp only
  split
  · exact .ite (hgone.trans (State.setWb_keepsDead ..)) (.ite (hgone.trans (State.setWb_keepsDead ..)) hgone)
  · exact hgone

theorem State.evictSlc_keepsDead : s.KeepsDead (s.evictSlc h l) := by
  unfold State.evictSlc
  split
  · exact .refl s
  · exact .ite (.ite ((s.setSlc_keepsDead h l none).trans (State.hbmWrite_keepsDead ..)) (s.setSlc_keepsDead h l none)) (s.evictProxy_keepsDead ..)

theorem State.fillSlc_keepsDead (data : List Byte) (dross dirty : Bool) (hint : Hint) : s.KeepsDead (s.fillSlc h l n data dross dirty hint) := by
  have hout := s.setSlc_keepsDead h l none
  unfold State.fillSlc
  dsimp only
  split
  · next place t way hplace =>
    refine State.KeepsDead.trans (t := t) ?_ ⟨rfl, rfl, rfl⟩
    split at hplace
    · cases hplace
      exact hout
    · simp only [Option.map_eq_some_iff, Prod.mk.injEq] at hplace
      obtain ⟨v, -, rfl, -⟩ := hplace
      exact hout.trans (State.evictSlc_keepsDead ..)
  · exact hout

theorem State.touchSlc_keepsDead (hint : Hint) : s.KeepsDead (s.touchSlc h l n hint) := by
  unfold State.touchSlc
  split
  · exact .refl s
  · exact .ite (.refl s) ⟨rfl, rfl, rfl⟩

theorem State.putLine_keepsDead (data : List Byte) (dross : Bool) (hint : Hint) : s.KeepsDead (s.putLine h l n data dross hint) := by
  refine .ite ((s.setSlc_keepsDead h l none).trans (State.hbmWrite_keepsDead ..)) ?_
  split
  · exact (s.setSlc_keepsDead ..).trans (State.touchSlc_keepsDead ..)
  · exact .ite (s.fillSlc_keepsDead ..) (.ite (s.hbmWrite_keepsDead ..) (.refl s))

theorem State.txnLine_keepsDead (t : Txn) : s.KeepsDead (s.txnLine h l n t).1 := by
  have hreport : ∀ a : State, a.KeepsDead (if (a.hbmPeek l).fails then a.reportFail l else a) := fun a =>
    .ite (a.reportFail_metered l).keepsDead (.refl a)
  have hcharge : ∀ a : State, a.KeepsDead (if a.lineOffline l || a.lineCleared l then a else a.charge l) := fun a =>
    .ite (.refl a) (a.charge_metered l).keepsDead
  unfold State.txnLine
  split
  · exact .refl s
  · unfold State.lineData
    split
    · exact (s.touchSlc_keepsDead ..).trans (State.countLook_keepsDead ..)
    · by_cases hhome : homeOf l = h
      · simp only [hhome, if_true]
        have hread := (s.countLook_keepsDead h n false).trans ((hreport _).trans (hcharge _))
        exact .ite (hread.trans (State.fillSlc_keepsDead ..)) hread
      · simp only [hhome, if_false]
        exact s.countLook_keepsDead h n false

end Slc

/-! Transactions (09 R225, R226, R232). -/

section Txns
variable (s : State) (h l n : Nat)

theorem State.answer_keepsDead (t : Txn) (r : Rd) : s.KeepsDead (s.answer t l r) := by
  unfold State.answer
  split
  · exact .ite (s.strayResponse_keepsDead _) ⟨rfl, rfl, rfl⟩
  · exact .refl s

theorem State.finishGrant_keepsDead (t : Txn) : s.KeepsDead (s.finishGrant h l n t) := by
  have hline : s.KeepsDead (if t.noData then ((s, { data := [], dross := false, status := St.ok, fails := false }) : State × Rd)
      else s.txnLine h l n t).1 := by
    split
    · exact .refl s
    · exact s.txnLine_keepsDead h l n t
  unfold State.finishGrant
  dsimp only
  refine .ite (State.KeepsDead.trans hline (State.KeepsDead.trans ?_ (State.closeTxn_keepsDead ..))) (hline.trans (State.setDir_keepsDead ..))
  refine (State.KeepsDead.trans ?_ (State.setDir_keepsDead ..)).trans (State.strayResponse_keepsDead ..)
  exact .ite (State.putLine_keepsDead ..) (.refl _)

theorem State.finishRead_keepsDead (t : Txn) : s.KeepsDead (s.finishRead h l n t) := by
  have hkept : ∀ (a : State) r, a.KeepsDead (a.keepAtProxy h l n t r) := fun a r =>
    .ite ((a.copies_keepsDead _).trans (State.fillSlc_keepsDead ..)) (.refl a)
  exact (s.txnLine_keepsDead h l n t).trans ((((State.setDir_keepsDead ..).trans (hkept ..)).trans (State.answer_keepsDead ..)).trans
    (State.closeTxn_keepsDead ..))

theorem State.finishWrite_keepsDead (t : Txn) (st : StatusCode) : s.KeepsDead (s.finishWrite h l t st) :=
  ((s.setDir_keepsDead ..).trans (State.answer_keepsDead ..)).trans (State.closeTxn_keepsDead ..)

theorem State.mergeLine_keepsDead (t : Txn) : s.KeepsDead (s.mergeLine h l n t) := by
  unfold State.mergeLine
  split
  · exact (s.dropCopies_keepsDead l).trans (State.putLine_keepsDead ..)
  · exact (s.dropCopies_keepsDead l).trans (State.hbmPartial_keepsDead ..)

theorem State.finishEvict_keepsDead (t : Txn) : s.KeepsDead (s.finishEvict h l n t) := by
  refine State.KeepsDead.trans (.ite ?_ (s.evictProxy_keepsDead ..)) ((State.setDir_keepsDead ..).trans (State.closeTxn_keepsDead ..))
  split
  · exact .ite (s.putLine_keepsDead ..) (.refl s)
  · exact .refl s

theorem State.finishTxn_keepsDead : s.KeepsDead (s.finishTxn h l) := by
  unfold State.finishTxn
  dsimp only
  split
  · exact .refl s
  · split
    · exact s.finishGrant_keepsDead ..
    · exact s.finishGrant_keepsDead ..
    · exact s.finishGrant_keepsDead ..
    · exact s.finishRead_keepsDead ..
    · exact (((s.dropCopies_keepsDead l).trans (State.putLine_keepsDead ..)).trans (State.countLook_keepsDead ..)).trans (State.finishWrite_keepsDead ..)
    · exact ((s.mergeLine_keepsDead ..).trans (State.countLook_keepsDead ..)).trans (State.finishWrite_keepsDead ..)
    · exact .refl s
    · exact s.finishEvict_keepsDead ..

theorem State.serve_keepsDead (t : Txn) : s.KeepsDead (s.serve h l n t) := by
  have hopen : ∀ e, s.KeepsDead (s.cohTick.setDir h l e) := fun _ => ⟨rfl, rfl, rfl⟩
  refine .ite ?_ (s.setDir_keepsDead ..)
  unfold State.serveEntry
  dsimp only
  split
  · exact .ite ((hopen _).trans (State.finishTxn_keepsDead ..)) (hopen _)
  · exact hopen _

theorem State.advanceTxn_keepsDead : s.KeepsDead (s.advanceTxn h l) := by
  have hafter : ∀ (a : State) f, a.KeepsDead (a.afterEvict h f) := by
    intro a f
    unfold State.afterEvict
    split
    · exact .refl a
    · split
      · exact .ite (a.serve_keepsDead ..) (.refl a)
      · exact .refl a
  unfold State.advanceTxn
  split
  · exact .ite ((s.finishTxn_keepsDead h l).trans (hafter ..)) (.refl s)
  · exact .refl s

end Txns

/-! The walk (09 R233). -/

section Walk
variable (s : State) (h a l : Nat)

theorem State.reclaimLine_keepsDead : s.KeepsDead (s.reclaimLine h a l) := by
  have hdrop := (s.setCopy_keepsDead h l a {}).trans (State.setWb_keepsDead _ h l a none)
  have hwritten : ∀ (n : Nat) (d : List Byte) (x : Bool) (c : Prop) [Decidable c] (e : DirEnt),
      s.KeepsDead (if c then ((((s.setCopy h a l {}).setWb h a l none).putLine h l n d x .noAlloc).setDir h l e)
        else ((s.setCopy h a l {}).setWb h a l none).putLine h l n d x .noAlloc) := fun _ _ _ _ _ _ =>
    (hdrop.trans (State.putLine_keepsDead ..)).trans (.ite (State.setDir_keepsDead ..) (.refl _))
  unfold State.reclaimLine
  dsimp only
  split
  · exact (hwritten ..).trans ⟨rfl, rfl, rfl⟩
  · exact (hwritten ..).trans ⟨rfl, rfl, rfl⟩
  · exact hdrop

theorem State.reclaimEntry_keepsDead : s.KeepsDead (s.reclaimEntry h a l) := by
  unfold State.reclaimEntry
  dsimp only
  split
  · exact s.setDir_keepsDead ..
  · exact .ite ((s.setDir_keepsDead ..).trans (State.closeTxn_keepsDead ..)) ((s.setDir_keepsDead ..).trans (State.advanceTxn_keepsDead ..))

theorem State.reclaim_keepsDead : s.KeepsDead (s.reclaim h a) := by
  have hlines := forAll_rel State.KeepsDead.refl State.KeepsDead.trans _ (fun l s => State.reclaimLine_keepsDead s h a l) (s.linesOfAgent h a) s
  have hentries := fun l t => forAll_rel State.KeepsDead.refl State.KeepsDead.trans _ (fun l s => State.reclaimEntry_keepsDead s h a l) l t
  unfold State.reclaim
  dsimp only
  generalize forAll (s.linesOfAgent h a) (fun l s => s.reclaimLine h a l) s = t at hlines ⊢
  have hreclaimed := hlines.trans (hentries ((t.coh.dir.filter (fun e => e.1 / 2 ^ 38 == h)).map (·.1 % 2 ^ 38)) t)
  generalize forAll _ (fun l s => s.reclaimEntry h a l) t = u at hreclaimed ⊢
  refine State.KeepsDead.trans ?_ (foldl_rel State.KeepsDead.refl State.KeepsDead.trans _ (fun _ _ => .ite (State.sendGrants_keepsDead ..) (.refl _)) _ _)
  exact hreclaimed.trans (State.tallies_keepsDead ..)

/-- A cluster is isolated and the walk over its lines begins; with nothing on its way nothing is left to judge. -/
theorem State.killAgent_isolates {a : Nat} (hnone : s.flights = []) (ha : a < 8) : (s.killAgent h a).dues = s.dues
    ∧ ((s.killAgent h a).coh.dead.get 0 h).testBit a = true ∧ (s.killAgent h a).coh.reclaimActive.get false h = true
    ∧ (s.killAgent h a).coh.reclaimAgent.get 0 h = a := by
  have hdropped := (State.dropToward_spares (s := s.setIso h (16 + a) true) (inCluster (h * 8 + a)) hnone).dues
  unfold State.killAgent
  simp only [ha, if_true]
  obtain ⟨b, hb⟩ : ∃ b : State, b = (s.setIso h (16 + a) true).dropToward (inCluster (h * 8 + a)) := ⟨_, rfl⟩
  rw [← hb] at hdropped ⊢
  generalize hc : ({ b with coh := _ } : State) = c
  have hknown : c.dues = s.dues ∧ (c.coh.dead.get 0 h).testBit a = true ∧ c.coh.reclaimActive.get false h = true ∧ c.coh.reclaimAgent.get 0 h = a := by
    subst hc
    exact ⟨hdropped, by rw [Tab.get_upd_same, testBit_setBit_self], Tab.get_set_same false _ h true, Tab.get_set_same ..⟩
  obtain ⟨hdues, hdead, hactive, hagent⟩ := hknown
  have hnoted := State.rasRecord_noted (c.reclaim h a) h 2 8 ((s.agentPart h a).getD 255) St.dross a 0 6 1 0
  have hkept := (c.reclaim_keepsDead h a).trans hnoted.keepsDead
  refine ⟨?_, by rw [hkept.dead, hdead], by rw [hkept.active, hactive], by rw [hkept.agent, hagent]⟩
  exact hnoted.spares.dues.trans ((c.reclaim_stored h a).dues.trans hdues)

end Walk

end Sys2Proof.Machine
end

section
/-! PROOFS. The statement about retries, answers, acknowledgements and silence (09 R225, R229, R230, R233). -/

open Sys2Proof Sys2Proof.Machine

section Refused
variable {h : HalfId} {a : Fin 15} {l : Nat} {s : State} (hmeets : s.MeetsOpen h.val a.val l)
include hmeets

theorem exec_rds_refused (hint : Hint) :
    exec (.rds h a l hint false) s = .next (s.refuse h.val a.val l ((s.ownerPch (pchOfLine l)).getD 16) false) := by
  rw [exec_rds, execRds, State.homeServe_busy (State.lineBusy_open h.isLt hmeets.open_), hmeets.agentRequest, done]

theorem exec_rdu_refused (hint : Hint) :
    exec (.rdu h a l hint false) s = .next (s.refuse h.val a.val l ((s.ownerPch (pchOfLine l)).getD 16) false) := by
  rw [exec_rdu, execRdu, State.homeServe_busy (State.lineBusy_open h.isLt hmeets.open_), hmeets.agentRequest, done]

theorem exec_upgrade_refused : exec (.upgrade h a l false) s = .next (s.refuse h.val a.val l ((s.ownerPch (pchOfLine l)).getD 16) false) := by
  rw [exec_upgrade, execUpgrade, hmeets.agentRequest, done]

end Refused

section Answered
variable {h : HalfId} {a : Fin 15} {l : Nat} {x : Txn} {s : State}

/-- The last answer to a read delivers the line that its owner gave. -/
theorem gives_snoopAnswer_last {d : List Byte} (htxn : (s.dirEnt h.val l).txn = some x) (hkind : x.kind = .rds) (hdue : x.due.testBit a.val = true)
    (hwaits : ({ x with due := clearBit x.due a.val } : Txn).waits = 0) (hfirst : x.delivered = false) (hentry : x.waitsEntry = false)
    (hhome : x.waitsHome = false) (hline : x.forLine = none) (hasks : x.noData = false) (hlate : x.late = false) (hdata : x.data = some d)
    (hst : (s.dirEnt h.val l).st = .x ∨ (s.dirEnt h.val l).st = .o) (hother : (s.dirEnt h.val l).owner ≠ x.requester) :
    Gives (.snoopAnswer h a l) s fun t => ∃ y, (t.dirEnt h.val l).txn = some y ∧ y.delivered = true ∧ y.data = some d ∧ y.grantSt = x.grantSt
      ∧ (t.dirEnt h.val l).st = (if x.ownerKept then .o else .s) ∧ (t.dirEnt h.val l).sharers.testBit x.requester = true ∧ t.mem = s.mem := by
  have hent := State.dirEnt_setDir s h.val l (e := { s.dirEnt h.val l with txn := some { x with due := clearBit x.due a.val } }) (.inr rfl)
  rw [Gives, exec_snoopAnswer, execSnoopAnswer, State.snoopAnswer_due htxn hdue]
  have hmem := s.setDir_mem h.val l { s.dirEnt h.val l with txn := some { x with due := clearBit x.due a.val } }
  generalize s.setDir h.val l { s.dirEnt h.val l with txn := some { x with due := clearBit x.due a.val } } = u at hent hmem ⊢
  have hput := congrArg DirEnt.txn hent
  have howned : (u.dirEnt h.val l).owned = true := by rw [hent]; rcases hst with hst | hst <;> simp only [DirEnt.owned, hst] <;> rfl
  obtain ⟨y, hgrant, hdelivered, hgiven, hstate⟩ := State.finishGrant_shares (n := (u.ownerPch (pchOfLine l)).getD 16)
    (x := { x with due := clearBit x.due a.val }) hkind hdata hasks hlate howned (by rw [hent]; exact hother)
  rw [hent] at hgrant
  rw [State.advanceTxn_ends hput hwaits hfirst hentry hhome (hkind ▸ by decide), State.finishTxn_grants hput (.inl hkind), hgrant,
    show ({ x with due := clearBit x.due a.val } : Txn).forLine = none from hline, State.afterEvict, done]
  refine ⟨_, rfl, ?_⟩
  rw [State.dirEnt_setDir _ _ _ (.inr rfl)]
  exact ⟨y, rfl, hdelivered, hgiven, hstate, shareEntry_st .., shareEntry_sharers .., hmem⟩

/-- The acknowledgement gives a requester the line that was delivered, and closes the transaction. -/
theorem gives_completionAck {d : List Byte} (htxn : (s.dirEnt h.val l).txn = some x) (hdelivered : x.delivered = true) (hreq : x.requester = a.val)
    (ha : a.val < 14) (hdata : x.data = some d) (hgrant : x.grantSt ≠ .i) :
    Gives (.completionAck h a l) s fun t => (if a.val < 8 ∨ x.kind = .rds then t.copyOf h.val a.val l = { st := x.grantSt, data := d, dross := x.dross }
        else (t.copyOf h.val a.val l).st = .m ∧ (t.copyOf h.val a.val l).dross = x.dross)
      ∧ (t.dirEnt h.val l).txn = none ∧ (t.dirEnt h.val l).st = (s.dirEnt h.val l).st ∧ t.mem = s.mem := by
  obtain ⟨hclosed, hst⟩ := State.dirEnt_closeTxn (s.takeAtAgent h.val a.val l x d x.dross) h.val l
  rw [State.takeAtAgent_dirEnt] at hst
  refine ⟨(s.takeAtAgent h.val a.val l x d x.dross).closeTxn h.val l, ?_, ?_, hclosed, hst, ?_⟩
  · rw [exec_completionAck, execCompletionAck, State.complete_agent htxn hdelivered hreq ha hdata, done]
  · rw [State.copyOf_closeTxn]
    by_cases hloads : a.val < 8 ∨ x.kind = .rds
    · have htakes := Txn.takes_loads hloads s.freeCtr d x.dross
      rw [if_pos hloads, State.takeAtAgent_copyOf _ _ _ _ _ _ ha (by rw [htakes]; exact hgrant), htakes]
    · have htakes := Txn.takes_stores hloads s.freeCtr d x.dross
      rw [if_neg hloads, State.takeAtAgent_copyOf _ _ _ _ _ _ ha (by rw [htakes]; exact nofun), htakes]
      exact ⟨rfl, rfl⟩
  · rw [State.closeTxn_mem, State.takeAtAgent_mem]

end Answered
/-- What a silent agent comes to: a cluster is isolated, the proxy is its half, and a chiplet is a dead site. -/
theorem exec_snoopTimeout_waits {h : HalfId} {a : Fin 15} {l : Nat} {x : Txn} {s : State} (htxn : (s.dirEnt h.val l).txn = some x)
    (hwaits : x.waits.testBit a.val = true) : exec (.snoopTimeout h a l) s = closing (if a.val = 14 then s.halfFail (1 - h.val)
      else if a.val < 8 then s.killAgent h.val a.val
      else onlyIf (s.siteHears ((a.val - 8) + 6 * h.val)) (fun s => (s.siteDead ((a.val - 8) + 6 * h.val) 7).wakeCells) s) := by
  simp only [exec_snoopTimeout, execSnoopTimeout, htxn, onlyIf_of hwaits]

/-- Settles O30, a step of a transaction at a time: its refusals and their tallies, its answers, its acknowledgement, and silence. -/
theorem retriesAndAnswersCloseTransactions : Obligations.RetriesAndAnswersCloseTransactions := by
  unfold Obligations.RetriesAndAnswersCloseTransactions
  refine ⟨⟨?refused, ?reached⟩, ?last, ?answer, ?ack, ?silent, ?walked⟩
  case refused =>
    intro h a l hint s n hmay honline hopen hfirst hwb hissues
    have hmeets : s.MeetsOpen h.val a.val l := ⟨hmay, honline, hopen, hwb, hissues⟩
    obtain ⟨htallies, hdir, hmem, hcount⟩ := State.refuse_first (n := n) hfirst
    exact ⟨⟨_, exec_rds_refused hmeets hint, htallies, hdir, hmem, hcount⟩, ⟨_, exec_rdu_refused hmeets hint, htallies, hdir, hmem⟩,
      ⟨_, exec_upgrade_refused hmeets, htallies, hdir, hmem⟩⟩
  case reached =>
    intro h a l x pre post s hlist hhalf hreq hline hpre
    refine ⟨fun hnew => ?_, fun hreached hsent => ?_⟩
    · exact congrArg done (State.updTally_first hlist hhalf hreq hline hpre (by rw [hnew]; rfl) _)
    · exact congrArg done (State.updTally_first hlist hhalf hreq hline hpre (by rw [hreached, hsent]; rfl) _)
  case last =>
    intro h a l x d s e htxn hkind hdue hlast hshared hunique hinv hcur hfirst hentry hhome hline hasks hlate hdata hst hother
    exact gives_snoopAnswer_last htxn hkind hdue (by simp [Txn.waits, hlast, hshared, hunique, hinv, hcur]) hfirst hentry hhome hline hasks hlate hdata
      hst hother
  case answer =>
    intro h a l x s htxn hdue hwaits
    rw [exec_snoopAnswer, execSnoopAnswer, State.snoopAnswer_due htxn hdue, State.advanceTxn_waits (State.txn_setDir ..) hwaits, done]
  case ack => exact fun h a l x d s htxn hdelivered hreq ha hdata hgrant => gives_completionAck htxn hdelivered hreq ha hdata hgrant
  case silent =>
    intro h a l x s hquiet hnone htxn hwaits
    refine ⟨fun ha => ?cluster, fun ha => ?proxy, fun hlow ha hhears => ?chiplet⟩
    case cluster =>
      obtain ⟨hdues, hisolated⟩ := s.killAgent_isolates h.val hnone ha
      rw [Gives, exec_snoopTimeout_waits htxn hwaits, if_neg (by omega), if_pos ha]
      exact ⟨_, closing_quiet (hdues.trans hquiet), hisolated⟩
    case proxy =>
      obtain ⟨hdues, hleaves⟩ := s.halfFail_leaves (1 - h.val)
      rw [Gives, exec_snoopTimeout_waits htxn hwaits, if_pos ha]
      exact ⟨_, closing_quiet hdues, hleaves⟩
    case chiplet => rw [exec_snoopTimeout_waits htxn hwaits, if_neg (by omega), if_neg (by omega), onlyIf_of hhears]
  case walked => exact fun h s => exec_reclaimWalkDone h s

end
